-- ==== Sys2Proof/Word.lean ====
section
/-! DEFINITION. The words of the block: bytes, 64-bit register words, and the type of sparse tables keyed by a number. -/

namespace Sys2Proof

/-- One byte of a row, a buffer or a ring entry. -/
abbrev Byte := BitVec 8

/-- One 64-bit little-endian word of a ring entry, a handle or a command descriptor. -/
abbrev Word := BitVec 64

/-- A sparse table: pairs of a key and a value, keys strictly rising. What a key that is not listed reads as is said
by each reader (`Machine.Tbl.getD`, `Machine.Tbl.get?`). -/
abbrev Tbl (α : Type) := List (Nat × α)

/-- Eight 64-bit words: a submission entry (R51) or a command descriptor (R333). -/
structure Words8 where
  w0 : Word := 0
  w1 : Word := 0
  w2 : Word := 0
  w3 : Word := 0
  w4 : Word := 0
  w5 : Word := 0
  w6 : Word := 0
  w7 : Word := 0
  deriving DecidableEq, Repr

end Sys2Proof
end

