-- ==== Sys2Proof/Syntax.lean ====
section
/-! DEFINITION. The commands of the block: one constructor per row of the spec's table of commands, with the operands
that come from outside it. -/

namespace Sys2Proof

/-- A partition: 0 is the physical function, n is VF n (R21). -/
abbrev Part := Fin 16
/-- A ring of a partition: 0 to 15 (R537). -/
abbrev Ring := Fin 16
/-- A stream ID (R18). -/
abbrev Sid := Fin 8192
/-- A model slot (R38). -/
abbrev ModelNo := Fin 64
/-- A batch table entry (R340). -/
abbrev BatchId := Fin 512
/-- A control core (R12). -/
abbrev Core := Fin 4
/-- An engine ID (R15). -/
abbrev Eng := BitVec 8
/-- The number of a sequence: stream x 8 + beam (R263). -/
abbrev SeqNo := Fin 65536
/-- A beam of a stream (R263). -/
abbrev BeamNo := Fin 8
/-- A gather port: IN, TK0, TK1, EG, CC0 to CC3, the PF debug window (R115). -/
abbrev GatherNo := Fin 9
/-- A gather port of a unit: IN, TK0, TK1, EG, CC0 to CC3 (R115). -/
abbrev NarrowNo := Fin 8
/-- A Square (R7). -/
abbrev SquareNo := Fin 8
/-- A scratchpad quarter: Square x 4 + quarter (R126). -/
abbrev QuarterNo := Fin 32
/-- A matrix engine: Square x 2 + 0 or 1. -/
abbrev MxNo := Fin 16
/-- A Crossing port (R449). -/
abbrev PortNo := Fin 7
/-- A DEV_ID (R450). -/
abbrev DevNo := Fin 8
/-- TPDO number less 1 (R518). -/
abbrev TpdoNo := Fin 4
/-- An MSI-X vector (R541). -/
abbrev VectorNo := Fin 16
/-- The code of a tag state: EMPTY, FILLING, FULL, DRAINING (R107). -/
abbrev TagCode := Fin 4

/-- Port classes of the object dictionary (R502). -/
inductive PortClass where
  | field
  | pf
  | vf (n : Part)
  | peer (dev : DevNo)
  | debug
  deriving DecidableEq, Repr

/-- A fault of a control word that a command meets: a bit that the code corrects, a word held twice whose copy is bad, any
other word that cannot be corrected (R414, R417, R434). -/
inductive CtlWord where
  | corrected
  /-- one copy of a word held twice -/
  | twice
  /-- both copies of a stream's commit record, of its entry in EG's state store or of its staged records (R442) -/
  | lost (sid : Sid)
  /-- a word of control memory, the Roundabout or EG that is held once, by its word address -/
  | other (word : Nat)
  deriving DecidableEq, Repr

/-- What the hardware does to an engine command beside its rule: bits that particles upset before it reads, wrong sums in
the MX array and its adders (R176 to R178), and what the other engines' residue checkers find (R238, R262, R303). A command
without faults is `{}`. -/
structure Hw where
  /-- scratchpad: device row, stored byte of R119, error value -/
  sp : List (Nat × Nat × Nat) := []
  /-- HBM: line, symbol, error value -/
  hbm : List (Nat × Nat × Nat) := []
  /-- accumulator: word address within the engine's store, number of bits in error -/
  acc : List (Nat × Nat) := []
  /-- spill frames with an uncorrectable line that the command's walk meets -/
  spill : List Nat := []
  /-- wrong sums in the MX array: row m, column n, block of 32 elements, and what stands there in place of the right sum: the
  product sum of the command in an integer format, which has no blocks, a block sum as a binary32 word in a floating one -/
  mac : List (Nat × Nat × Nat × Int) := []
  /-- wrong additions onto an MX cell: row m, column n, and what the sum is off by (R178) -/
  adder : List (Nat × Nat × Int) := []
  /-- a residue checker of a VX, SE or AT finds a wrong operation: the first row or line (R238, R262, R303) -/
  residue : Option Nat := none
  /-- words of control memory, the Roundabout or EG that the command meets in error -/
  ctl : List CtlWord := []
  deriving DecidableEq, Repr

/-- What an HBM line holds that a patrol scrubber visits (R413, R433). The spec leaves the placement in HBM open (R620), so
the visit names the structure. -/
inductive HbmUse where
  /-- a line by its number: HBM address / 64 -/
  | line (n : Nat)
  /-- a mirror buffer (R44) -/
  | mirror (sid : Sid) (m1 : Bool)
  /-- a spill frame (R270) -/
  | spill (frame : Nat)
  /-- the retained input of a chunk in its recovery extent (R421) -/
  | extent (sid : Sid) (no : Nat)
  /-- one copy of an egress queue (R414) -/
  | egress
  /-- the commit log (R425) -/
  | log
  deriving DecidableEq, Repr

/-- What a unit writes through its gather port (R115): bytes, or a record that a control core forms from records that it
reads through its port. Records are named by byte address, row x 512 + byte; formats by their FMT code. -/
inductive NarrowData where
  | bytes (l : List Byte)
  /-- the scale record derived from a statistics record (R197) -/
  | scale (fmt : Fin 10) (stat : Nat)
  /-- the requantisation record of a factor, derived from a scale record or not (R201), with its ZP -/
  | requant (factor : BitVec 32) (source : Option Nat) (zp : BitVec 16)
  /-- a carried record adapted at the end of a chunk, from its statistics and its count of saturations (R205) -/
  | adapt (fmt : Fin 10) (record stat sat : Nat)
  deriving DecidableEq, Repr

/-- A block of the line code (R452): an idle control block, the start of a frame with its first 7 bytes, 8 bytes, or the end
with the bytes that are left. -/
inductive Block where
  | idle
  /-- an alignment marker with its lane number (R451) -/
  | marker (lane : Fin 4)
  | start (bytes : List Byte)
  | data (bytes : List Byte)
  | terminate (bytes : List Byte)
  deriving DecidableEq, Repr

/-- A receive descriptor that a remote part of a batch needs (R396, R463, R467): on this device for data from the peer at a port,
or on that peer for data to it; claimed by FILL or else by OPEN; for one chunk, or for the batch. -/
structure RxReg where
  port : PortNo
  onPeer : Bool
  handle : BitVec 8
  first : BitVec 16
  rows : Nat
  fill : Bool
  chunk : Option (Sid × BitVec 16)
  deriving DecidableEq, Repr

/-- How a read of host memory fails: it times out, or its completion carries an error (R439, R544). -/
inductive ReadFault where
  | timeout
  | completion
  deriving DecidableEq, Repr

/-- A rate of the PCIe link (R534). -/
inductive LinkRate where
  | gt16 | gt8 | gt5 | gt2p5
  deriving DecidableEq, Repr

/-- A width of the PCIe link (R534). -/
inductive LinkWidth where
  | x16 | x8 | x4 | x1
  deriving DecidableEq, Repr

/-- What the host writes into a function's configuration space beside Bus Master Enable (R534): Max Payload Size 128, 256 or
512 bytes, Max Read Request Size 128 bytes to 4 KiB, as powers of two above 128; ASPM L1; which error bits it clears. -/
structure PcieConfig where
  payload : Fin 3 := 0
  readReq : Fin 6 := 2
  aspmL1 : Bool := false
  clearErrors : Bool := false
  deriving DecidableEq, Repr

/-- A wait that the wait-for watchdog times (R407): a command by its acceptance number, or a held mailbox entry by its
place among those that wait. -/
inductive WaitId where
  | cmd (seq : Nat)
  | mail (n : Nat)
  deriving DecidableEq, Repr

/-- An edit of a page table outside step boundaries and commits: a fork copies the table of the stream's beam `parent`
(R286); a reset ends the sequence and begins it anew (R290). -/
inductive TableEdit where
  | fork (parent : BeamNo)
  | reset
  deriving DecidableEq, Repr

/-- What the host has written into a mailbox before it writes GO (R543): the request registers and DATA, and whether it has
cleared DONE and GO_IGNORED. -/
structure MbxReq where
  index : BitVec 16 := 0
  sub : Byte := 0
  write : Bool := false
  first : Bool := true
  last : Bool := true
  offset : BitVec 32 := 0
  len : BitVec 12 := 0
  data : List Byte := []
  ack : Bool := true
  deriving DecidableEq, Repr

/-- What a USDO frame asks for (R500). CiA 1301 lays the frame out; the spec gives its content alone. -/
inductive UsdoReq where
  | read (index : BitVec 16) (sub : Byte)
  /-- an expedited write -/
  | write (index : BitVec 16) (sub : Byte) (data : List Byte)
  /-- the first segment of a segmented write -/
  | begin (index : BitVec 16) (sub : Byte) (data : List Byte)
  | segment (data : List Byte) (last : Bool)
  /-- the client aborts its transfer -/
  | abort
  /-- a command specifier that is not valid -/
  | invalid
  deriving DecidableEq, Repr

/-- One sample of the straps (R611). -/
structure StrapSample where
  node : Nat := 0
  dev : Nat := 0
  dbg : Bool := false
  deriving DecidableEq, Repr

/-- What a start-up step finds (R581 to R591). -/
structure StepResult where
  /-- Squares that fail self-test (step 6) or qualification (step 9) -/
  badSquares : List Nat := []
  /-- ms since the sequencer started, for STARTUP_MS -/
  ms : Nat := 0
  /-- the hold-up test of R618 finds the capacitor good (step 1) -/
  holdup : Bool := true
  deriving DecidableEq, Repr

/-- The commands of the block: one constructor per row of the table of commands. -/
inductive Instr where
  /-- NOP (R52): IN consumes a NOP submission entry, which has no effect beyond advancing the ring head. -/
  | nop (p : Part) (ring : Ring) (e : Words8)
  /-- AUDIO (R27): IN consumes an AUDIO entry, takes its ingest timestamp, fetches and converts the samples and applies the gap logic, all according to the stream's state. -/
  | audio (p : Part) (ring : Ring) (e : Words8) (buf : List Byte)
  /-- TOKENS (R27): IN consumes a TOKENS entry and hands its token IDs to the input slot of one synthesis chunk. -/
  | tokens (p : Part) (ring : Ring) (e : Words8) (buf : List Byte)
  /-- OPEN (R621): An OPEN entry is consumed and its admission checks run in order; the stream is admitted as ACTIVE or refused. -/
  | openStream (p : Part) (ring : Ring) (e : Words8)
  /-- CLOSE_DRAIN (R25): A CLOSE entry in DRAIN mode pads the incomplete chunk and moves the stream to DRAINING, or is refused. -/
  | closeDrain (p : Part) (ring : Ring) (e : Words8)
  /-- CLOSE_ABORT (R25): A CLOSE entry in ABORT mode discards the uncommitted chunk and the retained input, retracts any open provisional range and closes the stream. -/
  | closeAbort (p : Part) (ring : Ring) (e : Words8)
  /-- SET (R58): A SET entry changes the selected stream parameters from the next chunk formed, or is refused. -/
  | setParams (p : Part) (ring : Ring) (e : Words8)
  /-- RESUME (R59): A RESUME entry makes a HELD stream ACTIVE and publishes IMPORTED, or is refused. -/
  | resume (p : Part) (ring : Ring) (e : Words8)
  /-- EXPORT (R63): An EXPORT entry acts on its stream and waits for the stream's complete chunks to commit before the capture. -/
  | exportEntry (p : Part) (ring : Ring) (e : Words8)
  /-- EXPORT_CAPTURE (R63): Once the last complete chunk has committed, the device captures the committed state and writes the blob to the host buffer. -/
  | exportCapture (sid : Sid)
  /-- BLOB_WRITE_DONE (R67): The export blob has been written; EXPORT_DONE is published, and with DETACH the stream closes. -/
  | blobWriteDone (sid : Sid)
  /-- IMPORT (R68): An IMPORT entry is consumed; checks 1 to 3 run, a table entry is taken and the blob read begins. -/
  | importEntry (p : Part) (ring : Ring) (e : Words8)
  /-- IMPORT_BLOB_READ_DONE (R68): The read of an import blob completes; the blob and admission checks run and the stream is admitted as ACTIVE or refused. -/
  | importBlobReadDone (sid : Sid) (fault : Option ReadFault) (blob : List Byte)
  /-- MIGRATE_OUT (R69): A MIGRATE_OUT entry acts, waits for the chunk boundary, then freezes the stream as MIGRATING and sends OFFER. -/
  | migrateOut (p : Part) (ring : Ring) (e : Words8)
  /-- MIGRATE_IN (R69): A MIGRATE_IN entry is consumed and takes an OPENING table entry that awaits the peer's OFFER. -/
  | migrateIn (p : Part) (ring : Ring) (e : Words8)
  /-- MODEL_LOAD (R40): A MODEL_LOAD entry from the PF starts reading and checking a package into a model slot. -/
  | modelLoad (p : Part) (ring : Ring) (e : Words8)
  /-- PACKAGE_READ_DONE (R40): The package read completes; the checks run in order and the package is loaded or refused. -/
  | packageReadDone (slot : ModelNo) (fault : Option ReadFault) (pkg : List Byte) (copyA : List (Nat × Nat)) (copyB : List (Nat × Nat))
  /-- MODEL_UNLOAD (R42): A MODEL_UNLOAD entry frees both weight copies of a slot, or is refused with IN_USE or NO_MODEL. -/
  | modelUnload (p : Part) (ring : Ring) (e : Words8)
  /-- AUDIO_FETCH_FAIL (R74): The host read of an AUDIO buffer fails or times out; IN takes no samples and publishes DESC_ERROR code 0x08. -/
  | audioFetchFail (p : Part) (ring : Ring) (e : Words8) (fault : ReadFault)
  /-- ENTRY_READ_FAIL (R439): A read of a submission-ring entry fails; the entry is consumed and DESC_ERROR code 0x08 goes to output ring 0. -/
  | entryReadFail (p : Part) (ring : Ring) (fault : ReadFault)
  /-- IDLE_TIMEOUT (R82): A stream's idle timer expires; the chunk in progress ends as at EOU, and the stream becomes IDLE. -/
  | idleTimeout (sid : Sid)
  /-- FEATURE_FRAME (R87): FE computes one feature frame, or passes model-rate samples through, into a chunk's input slot. -/
  | featureFrame (sid : Sid) (base : Nat)
  /-- INPUT_SLOT_FULL (R421): A chunk's input slot becomes FULL and a Lane copies it into the recovery extent. -/
  | inputSlotFull (sid : Sid) (base : Nat)
  /-- INPUT_EXTENT_COPY_DONE (R421): The copy of the retained input lands, and the chunk becomes eligible for batch formation. -/
  | inputExtentCopyDone (sid : Sid) (no : Nat)
  /-- BATCH_CLOSE (R381): A forming batch closes on size, slack or BE_BATCH_WAIT; CC1 evaluates deadlines and places the batch. -/
  | batchClose (model : ModelNo) (cls : Bool) (chunkMs : Nat)
  /-- BATCH_RESERVE (R395): CC1 reserves a batch's resources level by level, and resumes a waiting batch when resources free. -/
  | batchReserve (bid : BatchId) (parts : List RxReg)
  /-- SWAP_OUT (R48): A Lane copies Sc to M(1-c) and the scratchpad state slot is released. -/
  | swapOut (sid : Sid)
  /-- SWAP_IN (R49): A Lane copies Mc into Sc and sets the slot tag FULL, making a PARKED stream ACTIVE. -/
  | swapIn (sid : Sid) (base : Nat) (bad : Nat)
  /-- CHUNK_COMMIT (R153): A chunk reaches its commit point and the commit steps run: mirror copy, index flip, cache length, publication, input release, log. -/
  | chunkCommit (sid : Sid) (beam : BeamNo)
  /-- CHUNK_ABORT (R427): A chunk is aborted: its commands are cancelled, its slots emptied and its uncommitted positions dropped. -/
  | chunkAbort (sid : Sid) (no : Nat)
  /-- CHUNK_REPLAY (R428): An aborted chunk is placed again with its recorded model and run from its retained input. -/
  | chunkReplay (sid : Sid) (no : Nat)
  /-- REPLAY_BACKOFF_EXPIRY (R429): The REPLAY_BACKOFF wait of a repeatedly aborted chunk ends, and its replay may be placed. -/
  | replayBackoffExpiry (sid : Sid) (no : Nat)
  /-- DESC_SUBMIT (R352): A control core writes W7 of a descriptor; the Roundabout accepts it, refuses it or reports RETRY. -/
  | descSubmit (core : Core) (d : Words8) (others : List (Core × Words8))
  /-- ROUNDABOUT_ISSUE (R375): In each cycle the Roundabout picks the next eligible command for an engine by EDF, the BE floor and DRR, and may park a waiting command. -/
  | roundaboutIssue (eng : Eng)
  /-- TAG_CLAIM (R108): A waiting access finds its slot or tile in the expected state and makes its claim transition. -/
  | tagClaim (eng : Eng)
  /-- COMMAND_COMPLETE (R354): A command completes: its FILL or CLOSE transitions and claim releases are made, the completion entry is posted and its command slot is freed. -/
  | commandComplete (eng : Eng) (busy : Nat)
  /-- CMD_TIMEOUT (R415): A command holds its engine beyond its limit; the datapath is reset and the command ends with TIMEOUT. -/
  | cmdTimeout (eng : Eng)
  /-- NOP_CMD (R346): A NOP command touches nothing and completes at issue, after any fence it carries. -/
  | nopCmd (eng : Eng)
  /-- MATMUL (R180): An MX engine multiplies operand panels into an accumulator tile, with zero-point correction and the checksum check. -/
  | matmul (eng : Eng) (hw : Hw)
  /-- TILE_STORE (R181): An MX engine copies a FULL accumulator tile into a scratchpad slot. -/
  | tileStore (eng : Eng) (hw : Hw)
  /-- VX_RUN (R209): A VX engine applies an element program to its sources and writes destinations, statistics and a summary. -/
  | vxRun (eng : Eng) (hw : Hw)
  /-- VX_SOFTMAX (R234): A VX engine turns rows of scores into weights or unnormalised terms with status records. -/
  | vxSoftmax (eng : Eng) (hw : Hw)
  /-- SE_SCAN (R245): The state engine runs the modal recurrence step by step over lines and updates their state records. -/
  | seScan (eng : Eng) (hw : Hw)
  /-- SE_CARRY (R253): The state engine forms the new carried state of a chunk-form layer from the power and the increments. -/
  | seCarry (eng : Eng) (hw : Hw)
  /-- AT_APPEND (R300): The attention engine writes latents into a sequence's pages and raises WORK_LEN, taking headroom at a page crossing. -/
  | atAppend (eng : Eng) (hw : Hw)
  /-- AT_SCORE (R301): The attention engine expands queries and writes score rows over the walked pages. -/
  | atScore (eng : Eng) (hw : Hw) (owner : Option PortNo)
  /-- AT_VALUE (R301): The attention engine gathers weighted latents and expands them into output rows. -/
  | atValue (eng : Eng) (hw : Hw) (owner : Option PortNo)
  /-- AT_MERGE (R299): The attention engine merges the partial results of a split decode. -/
  | atMerge (eng : Eng) (hw : Hw)
  /-- TK_SELECT (R307): A token unit selects the largest logit of each row, with optional CTC collapse. -/
  | tkSelect (eng : Eng) (hw : Hw)
  /-- TK_TOPK (R308): A token unit writes the k best value-index pairs of each row. -/
  | tkTopk (eng : Eng) (hw : Hw)
  /-- TK_VERIFY (R316): A token unit compares drafts with verified selections and reports the accepted count and the correction. -/
  | tkVerify (eng : Eng) (hw : Hw)
  /-- TK_PREFIX (R311): A token unit runs one frame of CTC prefix search. -/
  | tkPrefix (eng : Eng) (hw : Hw)
  /-- TK_DETOK (R314): A token unit forms the commit text, updates the token context and stages COMMIT_TOKENS records. -/
  | tkDetok (eng : Eng) (hw : Hw)
  /-- EG_PROV (R320): EG publishes a provisional range and keeps the ledger, retracting a differing earlier range. -/
  | egProv (eng : Eng) (hw : Hw)
  /-- EG_OLA (R329): EG overlap-adds synthesis frames and encodes the audio samples. -/
  | egOla (eng : Eng) (hw : Hw)
  /-- EG_PUBLISH (R424): EG places a commit's staged records into the egress queue exactly once, waiting for room if needed. -/
  | egPublish (eng : Eng) (hw : Hw)
  /-- EGRESS_DRAIN (R155): EG writes queued records and then the producer index to the host output ring once ring room allows. -/
  | egressDrain (p : Part) (ring : Ring)
  /-- IN_RELEASE (R350): Releases a chunk's input slot to IN, as commit step 5. -/
  | inRelease (eng : Eng) (hw : Hw)
  /-- FE_CTX (R95): FE loads a stream's live ingest context from imported state rows. -/
  | feCtx (eng : Eng) (hw : Hw)
  /-- LN_COPY (R351): A Lane copies rows between HBM and scratchpad, or within scratchpad. -/
  | lnCopy (eng : Eng) (hw : Hw)
  /-- LN_HOST (R351): A Lane moves bytes between host memory and scratchpad or HBM. -/
  | lnHost (eng : Eng) (hw : Hw) (fault : Option ReadFault) (data : List Byte)
  /-- LN_RWRITE (R464): A Lane sends rows to a peer's registered receive descriptor as WRITE frames, followed by WRITE_END. -/
  | lnRwrite (eng : Eng) (hw : Hw)
  /-- LN_RTAG (R466): A Lane sends a remote tag operation to a peer. -/
  | lnRtag (eng : Eng) (hw : Hw)
  /-- LN_RREAD (R466): A Lane requests rows from a peer's slot. -/
  | lnRread (eng : Eng) (hw : Hw)
  /-- TAG_SET (R111): A control core sets a slot's or tile's tag state and readers. -/
  | tagSet (eng : Eng) (hw : Hw)
  /-- MB_POST (R150): A control core posts a 32-byte message to another core's mailbox. -/
  | mbPost (eng : Eng) (hw : Hw) (writes : List (Nat × Byte))
  /-- MAILBOX_FREED (R232): A core reads a mailbox entry, and a held summary or completion entry lands. -/
  | mailboxFreed (core : Core) (bad : Bool)
  /-- CHUNK_CANCEL (R357): Brusk writes a (stream, chunk) pair and the Roundabout removes that chunk's queued commands. -/
  | chunkCancel (sid : Sid) (chunk : BitVec 16)
  /-- BATCH_TABLE_WRITE (R340): CC1 writes a batch table entry. -/
  | batchTableWrite (bid : BatchId) (valid : Bool) (members : List Nat)
  /-- HANDLE_WRITE (R102): A control core writes a handle table entry, which is accepted or rejected. -/
  | handleWrite (p : Part) (h : Byte) (w0 : Word) (w1 : Word)
  /-- NARROW_WRITE (R115): A narrow writer places 1 to 64 bytes into a gather buffer, flushing the least recently written buffer if none is free. -/
  | narrowWrite (port : NarrowNo) (p : Part) (sid : Sid) (h : Byte) (off : BitVec 16) (at_ : Nat) (data : NarrowData) (mode : Nat) (fin : Option Nat)
  /-- GATHER_IDLE_FLUSH (R117): A gather buffer unwritten for 256 cycles flushes its row. -/
  | gatherIdleFlush (port : GatherNo) (row : Nat)
  /-- SCRUB_VISIT (R125): The patrol scrubber reads a scratchpad row and writes it back corrected or reports it. -/
  | scrubVisit (square : SquareNo) (upsets : List (Nat × Nat × Nat))
  /-- HBM_SCRUB_VISIT (R413): An HBM patrol scrubber visits a line and rewrites it if corrected. -/
  | hbmScrubVisit (use : HbmUse) (upsets : List (Nat × Nat))
  /-- QUARTER_POWER_DOWN (R127): Brusk requests power-down of a quarter, which becomes CLOSING and flushes its gather buffers. -/
  | quarterPowerDown (q : QuarterNo)
  /-- QUARTER_DRAINED (R127): No resolution or write credit remains in a CLOSING quarter; its tags empty and its domain switches off. -/
  | quarterDrained (q : QuarterNo)
  /-- DRAIN_ABANDON (R127): A parked resolution remains 1 ms after the power-down request; the quarter returns to ON. -/
  | drainAbandon (q : QuarterNo)
  /-- QUARTER_POWER_UP (R128): Brusk requests power-up; the quarter wakes and its banks are cleared. -/
  | quarterPowerUp (q : QuarterNo)
  /-- QUARTER_WAKE_DONE (R128): The clear of a waking quarter completes and it enters ON with empty tags. -/
  | quarterWakeDone (q : QuarterNo)
  /-- MX_POWER_DOWN (R169): An MX power domain switches off once all tiles are EMPTY and nothing is issued to it. -/
  | mxPowerDown (mx : MxNo)
  /-- REGULATOR_REFILL (R369): At each microsecond every bandwidth regulator adds its rate, clips at its burst and takes its charges. -/
  | regulatorRefill
  /-- STORM_SECOND (R392): A timebase second ends and the deadline-miss count sets or clears STORM. -/
  | stormSecond
  /-- STEP_BOUNDARY (R290): At a decoder step boundary, leaves, headroom refills and joins run in order. -/
  | stepBoundary
  /-- PAGE_DEMOTE (R274): Brusk moves a committed page of an idle sequence to a spill frame when free frames fall low. -/
  | pageDemote (sid : Sid)
  /-- PAGE_WAIT_LIMIT (R292): The oldest PAGE_WAIT sequence has waited WAIT_LIMIT, and the youngest other BE sequence is pre-empted. -/
  | pageWaitLimit
  /-- TABLE_EDIT (R279): Brusk writes the non-current table copy and publishes it by flipping the root. -/
  | tableEdit (seq : SeqNo) (edit : TableEdit)
  /-- RECLAIM_FREE (R279): An old table copy's walker count reaches 0 and its reclaim list is freed. -/
  | reclaimFree (seq : SeqNo) (copyB : Bool)
  /-- PREFIX_LOOKUP (R284): Brusk looks up a sequence's prefix pages in the prefix tree at its start or reset. -/
  | prefixLookup (seq : SeqNo) (toks : List Nat)
  /-- REBUILD_MARK (R294): A sequence is marked REBUILD, and rebuild steps later restore its pages from the token history. -/
  | rebuildMark (seq : SeqNo)
  /-- RESIDENCY_EVICT (R386): A weight block's slot is emptied and, once EMPTY, its handle is edited. -/
  | residencyEvict (slot : ModelNo) (block : Nat)
  /-- WAIT_REPORT (R408): A wait reaches WAIT_TIMEOUT; a report is logged and, under WD_ACTION 1, the waiter's chunk is aborted. -/
  | waitReport (which : WaitId)
  /-- CC_WATCHDOG (R416): A control core's watchdog expires; the core is reset and restarts Brusk, and its chunks are recovered. -/
  | ccWatchdog (core : Core)
  /-- WRITE (R464): A received WRITE frame lands its 128 bytes in a registered descriptor's rows. -/
  | write (port : PortNo)
  /-- WRITE_END (R464): A received WRITE_END completes a remote write with LANDED and a tag transition. -/
  | writeEnd (port : PortNo)
  /-- LANDED (R464): A received LANDED completes the local remote-write or remote-tag command. -/
  | landed (port : PortNo)
  /-- RTAG (R466): A received RTAG applies a tag set to a local slot and answers LANDED. -/
  | rtag (port : PortNo)
  /-- RREAD_REQ (R466): A received remote read request is served with data, or answered RETRY_RSP. -/
  | rreadReq (port : PortNo)
  /-- RREAD_DATA (R466): Received remote read data lands for the requesting command. -/
  | rreadData (port : PortNo)
  /-- RETRY_RSP (R466): A received retry response schedules the request again after 1 µs. -/
  | retryRsp (port : PortNo)
  /-- RREAD_RETRY_TIMER (R403): The 1 µs retry wait of a remote request expires and the request is sent again. -/
  | rreadRetryTimer (port : PortNo) (txn : Nat)
  /-- WALK_REQ (R467): A peer's WALK_REQ adds a walker and returns the table copy, or is answered RETRY_RSP. -/
  | walkReq (port : PortNo)
  /-- WALK_DATA (R467): Received table-copy frames give a remote part the owner's page table. -/
  | walkData (port : PortNo)
  /-- WALK_END (R467): A received WALK_END removes a remote walker from a table copy. -/
  | walkEnd (port : PortNo)
  /-- CANCEL (R465): A received CANCEL cancels the descriptors, queued commands and results of an aborted chunk's parts. -/
  | cancel (port : PortNo)
  /-- RX_REG (R463): A registration request for a receive descriptor is granted with a claim or denied. -/
  | rxReg (port : PortNo)
  /-- OFFER (R468): A received migration OFFER is answered ACCEPT, REFUSE or NOT_READY. -/
  | offer (port : PortNo)
  /-- ACCEPT (R468): A received ACCEPT starts sending the blob as DATA frames. -/
  | accept (port : PortNo)
  /-- NOT_READY (R468): A received NOT_READY leads the source to offer again every 1 ms. -/
  | notReady (port : PortNo)
  /-- MIG_DATA (R468): A received DATA frame stages blob bytes, and the last one starts the checks of R68. -/
  | migData (port : PortNo)
  /-- MIG_ACK (R69): A received migration ACK closes the source copy, publishes EXPORT_DONE and CLOSED, and sends RELEASE. -/
  | migAck (port : PortNo)
  /-- REFUSE (R468): A received REFUSE fails the migration at the source. -/
  | refuse (port : PortNo)
  /-- RELEASE (R69): A received RELEASE makes the held copy ACTIVE and publishes IMPORTED. -/
  | release (port : PortNo)
  /-- MIG_ABORT (R70): A received migration ABORT discards the held copy. -/
  | migAbort (port : PortNo)
  /-- MIGRATE_ACK_TIMEOUT (R70): The source has no ACK 10 ms after the blob; the stream returns to ACTIVE, MIGRATE_FAILED is published and ABORT is sent. -/
  | migrateAckTimeout (sid : Sid)
  /-- MIGRATE_HELD_TIMEOUT (R70): A held copy has had neither release nor abort for 20 ms; MIGRATE_HELD is published. -/
  | migrateHeldTimeout (sid : Sid)
  /-- REOFFER_TIMER (R468): The 1 ms re-offer interval expires and the source sends OFFER again, or fails after 100 ms. -/
  | reofferTimer (sid : Sid)
  /-- MIGRATE_IN_TIMEOUT (R468): An OPENING MIGRATE_IN has had no OFFER for 1 s and is refused with PEER. -/
  | migrateInTimeout (sid : Sid)
  /-- NULL (R454): A received NULL frame carries acknowledgement and credits only. -/
  | null (port : PortNo) (blocks : List Block)
  /-- LINK_FRAME_RX (R457): The link layer checks a received frame's CRC and sequence number, accepts or discards it, and takes its acknowledgement and credits. -/
  | linkFrameRx (port : PortNo) (blocks : List Block)
  /-- ACK_TIMER (R457): The 0.25 µs acknowledgement deadline expires and an acknowledgement is sent. -/
  | ackTimer (port : PortNo)
  /-- RETRY_TIMEOUT (R458): The oldest unacknowledged frame has waited 2 µs; the transmitter goes back N. -/
  | retryTimeout (port : PortNo)
  /-- PORT_DOWN_TIMEOUT (R458): Frames have been outstanding 50 µs without progress; the port is declared down. -/
  | portDownTimeout (port : PortNo)
  /-- ESCAPE_TIMEOUT (R404): A VC0 or VC1 frame has waited ESCAPE_AFTER for a credit and is sent on VC3. -/
  | escapeTimeout (port : PortNo) (vc1 : Bool)
  /-- IDENT (R460): A received IDENT frame advances training to UP or HELD. -/
  | ident (port : PortNo) (blocks : List Block)
  /-- DOWN_WAIT_EXPIRY (R460): A port's 1 ms in DOWN ends and it enters DETECT. -/
  | downWaitExpiry (port : PortNo)
  /-- SIGNAL_DETECT (R460): Signal appears on all four receive lanes and the port enters LOCK. -/
  | signalDetect (port : PortNo)
  /-- LANES_LOCKED (R460): All lanes reach block lock and the port enters DESKEW. -/
  | lanesLocked (port : PortNo)
  /-- LANES_DESKEWED (R460): The alignment markers align and the port enters IDENT. -/
  | lanesDeskewed (port : PortNo)
  /-- BLOCK_LOCK_LOST (R460): A lane loses block lock while the port is UP, and the port goes down. -/
  | blockLockLost (port : PortNo)
  /-- TRAINING_TIMEOUT (R460): A training state reaches its limit and the port returns to DOWN. -/
  | trainingTimeout (port : PortNo)
  /-- PEER_REQUEST_TIMEOUT (R506): A peer object request has had no response for 10 ms and ends. -/
  | peerRequestTimeout (port : PortNo) (txn : Nat)
  /-- PPS_EDGE (R474): A filtered PPS edge is timestamped and accepted or rejected, which may acquire PPS. -/
  | ppsEdge
  /-- PPS_LOSS (R474): Three expected PPS instants pass without an accepted edge and PPS is lost. -/
  | ppsLoss
  /-- SYNC_TIMER (R477): Every 62.5 ms the device sends SYNC and FOLLOW_UP on every UP port. -/
  | syncTimer
  /-- SYNC (R477): A received SYNC updates the election and starts an exchange with the master. -/
  | sync (port : PortNo)
  /-- FOLLOW_UP (R479): A received FOLLOW_UP supplies t1 of an exchange. -/
  | followUp (port : PortNo)
  /-- DELAY_REQ (R479): A received DELAY_REQ is answered with DELAY_RESP. -/
  | delayReq (port : PortNo)
  /-- DELAY_RESP (R480): A received DELAY_RESP completes an exchange; the offset is corrected by rate, stepped or refused. -/
  | delayResp (port : PortNo)
  /-- ELECTION_WINDOW_EXPIRY (R477): A candidate's 187.5 ms SYNC window expires and the master is elected again. -/
  | electionWindowExpiry (dev : DevNo)
  /-- HOLDOVER_ENTRY (R484): No correction is accepted for 187.5 ms; the device enters HOLDOVER. -/
  | holdoverEntry
  /-- HOLDOVER_LIMIT_EXPIRY (R484): Holdover reaches HOLDOVER_LIMIT; the device enters UNTRUSTED. -/
  | holdoverLimitExpiry
  /-- TIME_NS_WRITE (R485): A write of TIME_NS acts as an operator offset, accepted or refused. -/
  | timeNsWrite (port : PortClass) (data : List Byte)
  /-- TRUST_RELEASE (R485): A FIELD write of TRUST_RELEASE moves the device to UNTRUSTED. -/
  | trustRelease (port : PortClass) (data : List Byte)
  /-- NMT_START (R495): An NMT start command enters operational and resumes consumption. -/
  | nmtStart (node : Byte)
  /-- NMT_STOP (R495): An NMT stop command freezes the streams and gates the engines. -/
  | nmtStop (node : Byte)
  /-- NMT_ENTER_PREOP (R495): An NMT enter pre-operational command freezes the streams. -/
  | nmtEnterPreop (node : Byte)
  /-- NMT_RESET_NODE (R496): An NMT reset node closes every stream and resets the die. -/
  | nmtResetNode (node : Byte)
  /-- NMT_RESET_COMM (R496): An NMT reset communication reloads the communication objects and restarts the field port. -/
  | nmtResetComm (node : Byte)
  /-- FREEZE_DONE (R495): The chunks with full input have committed; the new NMT state is reported and a pending start is acted on. -/
  | freezeDone
  /-- HEARTBEAT (R497): A consumed heartbeat arrives and restarts the consumer timer. -/
  | heartbeat (node : Byte) (st : Byte)
  /-- HEARTBEAT_TIMEOUT (R497): The consumed heartbeat is missing for its consumer time; EMCY 0x8130 is queued. -/
  | heartbeatTimeout
  /-- HEARTBEAT_PRODUCE (R492): The producer heartbeat period expires and a heartbeat is sent. -/
  | heartbeatProduce
  /-- USDO_REQUEST (R500): A USDO segment or request is received and handled as a FIELD object access. -/
  | usdoRequest (client : Byte) (req : UsdoReq)
  /-- USDO_TIMEOUT (R500): A segmented USDO transfer has no segment for 1 s and is aborted. -/
  | usdoTimeout (client : Byte)
  /-- RPDO_1 (R499): RPDO 1 is received and acted on as FIELD writes of POWER_LIMIT and STATE_REQUEST. -/
  | rpdo1 (data : List Byte)
  /-- TPDO_SEND (R518): A TPDO event timer or value change sends the TPDO, subject to its inhibit time. -/
  | tpdoSend (n : TpdoNo)
  /-- EMCY_SEND (R501): The EMCY queue sends its next message, at most one per millisecond. -/
  | emcySend
  /-- CAN_ERROR_PASSIVE (R490): The field port enters error passive, or returns to error active. -/
  | canErrorPassive (enter : Bool) (tec : Byte) (rec : Byte)
  /-- BUS_OFF (R490): The field port enters bus-off and stops transmitting. -/
  | busOff
  /-- BUS_OFF_RECOVERED (R490): The field port rejoins the bus after 128 recessive sequences. -/
  | busOffRecovered
  /-- CAN_OVERRUN (R490): A received frame finds the receive buffer full and is discarded. -/
  | canOverrun
  /-- CAN_FRAME_IGNORED (R489): A frame on an unsupported COB-ID is ignored and counted. -/
  | canFrameIgnored (cob : BitVec 29)
  /-- GO (R543): A write of GO submits a mailbox object access of class H or V. -/
  | go (p : Part) (req : MbxReq)
  /-- PEER_OBJECT_REQUEST (R506): A peer REQUEST frame is served as a PEER object access and answered with RESPONSE. -/
  | peerObjectRequest (port : PortNo)
  /-- PEER_OBJECT_RESPONSE (R506): A received RESPONSE ends an open peer object request. -/
  | peerObjectResponse (port : PortNo)
  /-- DEBUG_ACCESS (R507): A JTAG access reaches the dictionary as a DEBUG access. -/
  | debugAccess (index : BitVec 16) (sub : Byte) (wr : Bool) (data : List Byte)
  /-- OBJECT_WRITE (R503): A write of an object without behaviour of its own is checked in order and applied or refused. -/
  | objectWrite (port : PortClass) (index : BitVec 16) (sub : Byte) (data : List Byte)
  /-- COUNTER_CLEAR (R530): A write of 1 clears the error, port and rail-event counters. -/
  | counterClear (port : PortClass) (data : List Byte)
  /-- CLEAR (R394): A write of 1 to 0x300p:10 clears a partition's accounting counters. -/
  | clear (port : PortClass) (p : Part) (data : List Byte)
  /-- STAGE_IMAGE (R531): A segmented write stages a boot image into the bank not running and checks its digest. -/
  | stageImage (port : PortClass) (first : Bool) (last : Bool) (data : List Byte)
  /-- RESET_POINTS (R604): A write discards the recorded voltage points. -/
  | resetPoints (port : PortClass) (data : List Byte)
  /-- JTAG_ENABLE_WRITE (R510): A write of JTAG_ENABLE enables JTAG or returns the TAP to Test-Logic-Reset. -/
  | jtagEnableWrite (port : PortClass) (data : List Byte)
  /-- PORT_ENABLE_WRITE (R470): A write of a Crossing port's ENABLE starts training or disables the port. -/
  | portEnableWrite (port : PortClass) (x : PortNo) (data : List Byte)
  /-- STATE_REQUEST (R564): A write of STATE_REQUEST sets the target power state. -/
  | stateRequest (port : PortClass) (data : List Byte)
  /-- POWER_LIMIT (R571): A write of POWER_LIMIT sets the input power limit of the throttle loop. -/
  | powerLimit (port : PortClass) (data : List Byte)
  /-- SQ_DB (R539): A host doorbell write is accepted or discarded, covering new submission entries. -/
  | sqDb (p : Part) (ring : Ring) (value : BitVec 32)
  /-- OQ_CONS (R540): A host write returns output-ring entries and frees audio space, or is discarded. -/
  | oqCons (p : Part) (ring : Ring) (value : BitVec 32)
  /-- SQ_ENABLE_WRITE (R538): Setting or clearing SQ_ENABLE starts or stops consumption of a submission ring. -/
  | sqEnableWrite (p : Part) (ring : Ring) (value : BitVec 32)
  /-- OQ_ENABLE_WRITE (R538): Setting or clearing OQ_ENABLE starts or stops EG writing an output ring. -/
  | oqEnableWrite (p : Part) (ring : Ring) (value : BitVec 32)
  /-- RING_REGISTER_WRITE (R538): A write of another partition-block register is applied or discarded with a flag. -/
  | ringRegisterWrite (p : Part) (off : BitVec 17) (value : BitVec 32)
  /-- HEAD_WB_TIMER (R539): HEAD is written back to HEAD_WB at most once per microsecond and after the last consumption. -/
  | headWbTimer (p : Part) (ring : Ring)
  /-- MSIX_MOD_TIMER (R541): An output ring's moderation timer expires and the MSI-X message is sent. -/
  | msixModTimer (p : Part) (ring : Ring)
  /-- MSIX_UNMASK (R541): Unmasking a vector with its pending bit set sends one message. -/
  | msixUnmask (p : Part) (vector : VectorNo)
  /-- BAR4_ACCESS (R545): A PF BAR4 access reads or writes scratchpad through the debug gather port. -/
  | bar4Access (off : Nat) (wr : Bool) (len : Nat) (data : List Byte)
  /-- BUS_MASTER_ENABLE_CHANGE (R544): A function's Bus Master Enable changes; DMA holds or resumes and held messages are sent. -/
  | busMasterEnableChange (p : Part) (on : Bool) (cfg : PcieConfig)
  /-- FLR (R546): A function-level reset of a VF closes and frees its partition. -/
  | flr (p : Part)
  /-- FLR_DONE (R546): The reset of a partition completes and its stream entries become FREE. -/
  | flrDone (p : Part)
  /-- VF_ENABLE_CLEAR (R535): Clearing VF Enable or lowering NumVFs resets every disappearing partition. -/
  | vfEnableClear (num : Nat)
  /-- HOT_RESET (R547): A PF FLR, hot reset, PERST_N or link down resets every partition and clears VF Enable. -/
  | hotReset (cause : Nat)
  /-- PERST_N_RELEASE (R613): The release of PERST_N lets the link train when the PCIe domain is ON. -/
  | perstNRelease
  /-- PCIE_LINK_UP (R590): The PCIe link comes up and configuration requests are served or retried. -/
  | pcieLinkUp (rate : LinkRate) (width : LinkWidth)
  /-- VAUX_GOOD (R548): VAUX holds its good range for 10 ms; AUX_PG rises and the straps are sampled. -/
  | vauxGood (mv : Nat) (straps : List StrapSample)
  /-- VAUX_LOST (R548): VAUX falls below 3.0 V and the module powers down at once. -/
  | vauxLost (mv : Nat)
  /-- VIN_START (R548): VIN meets its start condition for 1 s and the sequencer starts. -/
  | vinStart (mv : Nat)
  /-- VIN_OUT_OF_RANGE (R548): VIN leaves or re-enters its range, raising or ending an EMCY condition. -/
  | vinOutOfRange (above : Bool) (begins : Bool) (mv : Nat)
  /-- VIN_UNDERVOLTAGE_LOCKOUT (R552): VIN falls below 15.0 V; ride-through starts, or the module powers down at once without a good hold-up store. -/
  | vinUndervoltageLockout (mv : Nat)
  /-- VIN_RETURN (R552): VIN holds above 16.0 V for 100 µs during ride-through; service continues with a sag event. -/
  | vinReturn (mv : Nat)
  /-- RIDE_THROUGH_EXPIRY (R552): The 2 ms ride-through timer expires and the module powers down. -/
  | rideThroughExpiry
  /-- VIN_OVERVOLTAGE_LOCKOUT (R548): VIN exceeds 38.0 V for 10 µs and the module powers down at once. -/
  | vinOvervoltageLockout (mv : Nat)
  /-- SEQUENCER_STEP_DONE (R555): A rail step reaches its window and holds 1 ms; the next step begins. -/
  | sequencerStepDone (mv : List Nat)
  /-- RAIL_FAULT (R558): A rail leaves its window beyond its filter, or misses a step timeout, and the module powers down. -/
  | railFault (code : Nat) (mv : Nat)
  /-- RAIL_RETRY_TIMER (R558): One second after a rail fault in start-up the sequencer retries once. -/
  | railRetryTimer
  /-- PLL_LOCK_LOSS (R578): The PLL loses lock for 1 µs; this is treated as a power-down. -/
  | pllLockLoss
  /-- STARTUP_STEP_DONE (R581): A start-up step completes and the next one begins, or start-up ends with boot-up. -/
  | startupStepDone (r : StepResult)
  /-- STARTUP_STEP_FAIL (R582): A start-up step fails or times out, leading to a start-up retry or boot hold. -/
  | startupStepFail
  /-- SENSOR_READ (R572): Every 100 µs the temperature sensors are read and judged plausible or not. -/
  | sensorRead (temps : List Int)
  /-- THERMAL_TICK (R573): Each millisecond the thermal level is raised or lowered, or set to 6 at 100 °C. -/
  | thermalTick
  /-- THERMAL_TRIP (R573): The hottest die reading stays at or above 105 °C for 1 ms and the module powers down. -/
  | thermalTrip
  /-- POWER_LOOP_TICK (R571): Each millisecond the power level is adjusted against POWER_LIMIT and CK_ENG follows. -/
  | powerLoopTick (dw : Nat)
  /-- LIMIT_UNMET_EXPIRY (R571): Power still exceeds the limit at level 6 after 100 ms; LIMIT_UNMET is set. -/
  | limitUnmetExpiry
  /-- CROCUS_IDLE_EXPIRY (R565): The idle conditions hold for CROCUS_IDLE and the device enters Crocus by itself. -/
  | crocusIdleExpiry
  /-- CROCUS_WAKE (R565): A doorbell, Crossing frame or STATE_REQUEST write ends an automatic Crocus. -/
  | crocusWake
  /-- TULIP_ENTRY (R566): Placement on the masked Squares stops, their batches finish and their engines switch off. -/
  | tulipEntry
  /-- SNOWDROP_ENTRY (R568): The device freezes, swaps out every state, drains and switches off domains and takes the link down. -/
  | snowdropEntry
  /-- SNOWDROP_EXIT (R569): Exit from Snowdrop powers the domains back on and resumes service after about 180 ms. -/
  | snowdropExit
  /-- POWER_STATE_CHANGE_DONE (R564): A power-state change completes and a pending request is acted on. -/
  | powerStateChangeDone
  /-- SCHEDULE_START (R570): The scheduled start second arrives; STATE_REQUEST is saved and set to Snowdrop. -/
  | scheduleStart
  /-- SCHEDULE_END (R570): The scheduled end second arrives and the saved STATE_REQUEST is written back. -/
  | scheduleEnd
  /-- PROBE_CHANGE (R610): A filtered change of PROBE_N moves JTAG between J2 and J3 and resets the TAP. -/
  | probeChange (low : Bool)
  /-- WALK_START (R599): The walk conditions hold and a Square's margin walk begins. -/
  | walkStart
  /-- QUALIFICATION_DONE (R596): A Square's shadow comparisons meet the counts and qualification passes, or a mismatch fails it. -/
  | qualificationDone (square : SquareNo)
  /-- WALK_ABANDON (R601): Throttling, a state request or loss of the reference abandons a walk step. -/
  | walkAbandon
  /-- QUAL_WINDOW_EXPIRY (R596): QUAL_WINDOW expires and Brusk places reference-set chunks on the pair. -/
  | qualWindowExpiry (square : SquareNo)
  /-- QUAL_RETRY_TIMER (R597): Ten seconds after a failed qualification, qualification is retried. -/
  | qualRetryTimer (square : SquareNo)
  /-- TEMP_GUARD_EXPIRY (R602): A Square runs more than TEMP_GUARD below its recorded temperature for 1 s; its point rises by 15 mV. -/
  | tempGuardExpiry (square : SquareNo)
  /-- MAILBOX_TRANSFER_TIMEOUT (R543): A segmented mailbox write with a gap of 1 s between segments is aborted with 0x0504_0000. -/
  | mailboxTransferTimeout (p : Part)
  /-- VF_ENABLE_SET (R535): The host sets VF Enable or raises NumVFs, so the VFs of the partitions appear with their partition blocks, rings and mailboxes. -/
  | vfEnableSet (num : Nat)
  /-- CONTROL_CORE_RESTARTED (R438): A reset control core is serving again; for CC0 the object dictionary and CAN port answer again and EMCY 0x5000 kind 0x03 is raised. -/
  | controlCoreRestarted (core : Core)
  /-- CORE_MEMORY_UNCORRECTABLE (R417): An uncorrectable word of a control core's local memory is detected, a CORE fault that resets the core under R416 and R438. -/
  | coreMemoryUncorrectable (core : Core)
  deriving DecidableEq, Repr

end Sys2Proof
end

