-- ==== Sys2Proof/Machine/Bits.lean ====
section
/-! DEFINITION. Bit fields, byte order, and the check codes of the spec: CRC, SHA-256 and Reed-Solomon. -/

namespace Sys2Proof.Machine

/-- Bits `[lo + w - 1 : lo]` of a number. -/
def bits (n lo w : Nat) : Nat := (n / 2 ^ lo) % 2 ^ w

/-- Bit `i` of a number. -/
def bitAt (n i : Nat) : Bool := (n / 2 ^ i) % 2 == 1

/-- One as 1, false as 0. -/
def b2n (b : Bool) : Nat := if b then 1 else 0

/-- The number with bits `[lo + w - 1 : lo]` replaced by `v`. -/
def setBits (n lo w v : Nat) : Nat := n - bits n lo w * 2 ^ lo + (v % 2 ^ w) * 2 ^ lo

/-- The number with bit `i` set or cleared. -/
def setBit (n i : Nat) (b : Bool) : Nat := setBits n i 1 (b2n b)

/-- The two's complement value of the low `w` bits of a number. -/
def signedOf (w n : Nat) : Int :=
  let m := n % 2 ^ w
  if m < 2 ^ (w - 1) then (m : Int) else (m : Int) - (2 ^ w : Nat)

/-- The low `w` bits of an integer in two's complement. -/
def unsignedOf (w : Nat) (i : Int) : Nat := (i % ((2 ^ w : Nat) : Int)).toNat

/-- The number that little-endian bytes spell (R183). -/
def leNat : List Byte → Nat
  | [] => 0
  | b :: bs => b.toNat + 256 * leNat bs

/-- The `n` little-endian bytes of a number (R183). -/
def leBytes : Nat → Nat → List Byte
  | 0, _ => []
  | n + 1, v => BitVec.ofNat 8 v :: leBytes n (v / 256)

/-- `n` bytes from place `o` of a list, zeros past its end. -/
def slice (l : List Byte) (o n : Nat) : List Byte :=
  let part := (l.drop o).take n
  part ++ List.replicate (n - part.length) 0

/-- The little-endian number of `n` bytes from place `o`. -/
def leAt (l : List Byte) (o n : Nat) : Nat := leNat (slice l o n)

/-- The list with the bytes `bs` put from place `o` on. -/
def spliceBytes (l : List Byte) (o : Nat) (bs : List Byte) : List Byte :=
  l.take o ++ bs ++ l.drop (o + bs.length)

/-- Cuts a list into pieces of `n`, at most `k` of them. -/
def chunksOf {α : Type} : Nat → Nat → List α → List (List α)
  | 0, _, _ => []
  | _, _, [] => []
  | k + 1, n, l => l.take n :: chunksOf k n (l.drop n)

/-- Element `i` of a list of numbers, 0 past its end. -/
def nthD (l : List Nat) (i : Nat) : Nat := l.getD i 0

/-- Replaces element `i` of a list. -/
def setNth {α : Type} (l : List α) (i : Nat) (v : α) : List α := l.set i v

/-- A ring of `n` entries, oldest first, with one more: the oldest goes when it is full. -/
def pushRing {α : Type} (n : Nat) (l : List α) (x : α) : List α := (if l.length < n then l else l.drop 1) ++ [x]

/-- All indices below `n` for which `p` holds. -/
def indicesWhere (n : Nat) (p : Nat → Bool) : List Nat := (List.range n).filter p

/-- The lowest index below `n` for which `p` holds. -/
def firstIndex (n : Nat) (p : Nat → Bool) : Option Nat := (List.range n).find? p

/-- The element of a list with the least key; of equals the first. -/
def argMin {α : Type} (key : α → Nat) : List α → Option α
  | [] => none
  | x :: xs =>
    match argMin key xs with
    | none => some x
    | some y => if key y < key x then some y else some x

/-- An ASCII tag as bytes. -/
def asciiBytes (s : String) : List Byte := s.toList.map fun c => BitVec.ofNat 8 c.toNat

/-! ### CRC -/

/-- One bit of a reflected CRC. -/
def crcStepR (poly c : Nat) : Nat := if c % 2 = 1 then Nat.xor (c / 2) poly else c / 2

/-- `n` bits of a reflected CRC. -/
def crcStepsR (poly : Nat) : Nat → Nat → Nat
  | 0, c => c
  | n + 1, c => crcStepsR poly n (crcStepR poly c)

/-- A reflected CRC over bytes, from the running value `c`. -/
def crcR (poly : Nat) (c : Nat) (bs : List Byte) : Nat :=
  bs.foldl (fun c b => crcStepsR poly 8 (Nat.xor c b.toNat)) c

/-- CRC-32C (Castagnoli): reflected 0x1EDC_6F41, initial value and final complement all ones (R66, R453). -/
def crc32c (bs : List Byte) : Nat := Nat.xor (crcR 0x82F63B78 0xFFFFFFFF bs) 0xFFFFFFFF

/-- One bit of a CRC of width `w` that shifts left. -/
def crcStepL (w poly c : Nat) : Nat :=
  if bitAt c (w - 1) then Nat.xor ((c * 2) % 2 ^ w) poly else (c * 2) % 2 ^ w

/-- `n` bits of a CRC that shifts left. -/
def crcStepsL (w poly : Nat) : Nat → Nat → Nat
  | 0, c => c
  | n + 1, c => crcStepsL w poly n (crcStepL w poly c)

/-- A CRC of width `w` that shifts left, over bytes, from the running value `c`. -/
def crcL (w poly c : Nat) (bs : List Byte) : Nat :=
  bs.foldl (fun c b => crcStepsL w poly 8 (Nat.xor c (b.toNat * 2 ^ (w - 8)))) c

/-- CRC-64/ECMA-182 (R283). -/
def crc64 (bs : List Byte) : Nat := crcL 64 0x42F0E1EBA9EA3693 0 bs

/-! ### Reed-Solomon over GF(2^8), field polynomial 0x11D (R120) -/

/-- Doubling in GF(2^8). -/
def gfDouble (a : Nat) : Nat := if 128 ≤ a then Nat.xor (2 * a) 0x11D else 2 * a

/-- `n` steps of the product of `a` and `b`. -/
def gfMulLoop : Nat → Nat → Nat → Nat → Nat
  | 0, _, _, acc => acc
  | n + 1, a, b, acc => gfMulLoop n (gfDouble a) (b / 2) (if b % 2 = 1 then Nat.xor acc a else acc)

/-- The product in GF(2^8). -/
def gfMul (a b : Nat) : Nat := gfMulLoop 8 a b 0

/-- `k` steps of square and multiply. -/
def gfPowLoop : Nat → Nat → Nat → Nat → Nat
  | 0, _, _, acc => acc
  | k + 1, a, n, acc => gfPowLoop k (gfMul a a) (n / 2) (if n % 2 = 1 then gfMul acc a else acc)

/-- Powers in GF(2^8), for exponents below 256. -/
def gfPow (a n : Nat) : Nat := gfPowLoop 8 a n 1

/-- The inverse in GF(2^8): the 254th power. -/
def gfInv (a : Nat) : Nat := gfPow a 254

/-- The product of polynomials, low coefficient first. -/
def gfPolyMul (p q : List Nat) : List Nat :=
  (List.range (p.length + q.length - 1)).map fun k =>
    (List.range (k + 1)).foldl (fun acc i => Nat.xor acc (gfMul (nthD p i) (nthD q (k - i)))) 0

/-- The value of a polynomial, low coefficient first. -/
def gfEval (p : List Nat) (x : Nat) : Nat := p.foldr (fun c acc => Nat.xor c (gfMul acc x)) 0

/-- The generator with roots alpha^0 to alpha^7, low coefficient first (R120). -/
def rsGenerator : List Nat := (List.range 8).foldl (fun g i => gfPolyMul g [gfPow 2 i, 1]) [1]

/-- The eight check symbols of data symbols, in stored order: the remainder of data times x^8 by the generator,
highest coefficient first (R120). -/
def rsCheck (data : List Nat) : List Nat :=
  let gen := (rsGenerator.take 8).reverse
  data.foldl (fun reg d =>
    let f := Nat.xor d (nthD reg 0)
    (List.range 8).map fun i => Nat.xor (nthD reg (i + 1)) (gfMul f (nthD gen i))) (List.replicate 8 0)

/-- Syndromes of an error pattern: pairs of a symbol place (0 is the highest power) and an error value, in a word of
`n` symbols. -/
def rsSyndromes (n : Nat) (err : List (Nat × Nat)) : List Nat :=
  (List.range 8).map fun i =>
    err.foldl (fun acc pe => Nat.xor acc (gfMul pe.2 (gfPow (gfPow 2 i) (n - 1 - pe.1)))) 0

/-- The Berlekamp-Massey recurrence over the syndromes: locator, previous locator, degree, gap and last discrepancy. -/
def rsLocator (syn : List Nat) : List Nat :=
  let step := fun (st : List Nat × List Nat × Nat × Nat × Nat) (r : Nat) =>
    let (c, b, deg, m, d0) := st
    let d := (List.range (deg + 1)).foldl (fun acc i => Nat.xor acc (gfMul (nthD c i) (nthD syn (r - i)))) 0
    if d = 0 then (c, b, deg, m + 1, d0)
    else
      let f := gfMul d (gfInv d0)
      let shifted := List.replicate m 0 ++ b.map (gfMul f)
      let c' := (List.range (max c.length shifted.length)).map fun i => Nat.xor (nthD c i) (nthD shifted i)
      if 2 * deg ≤ r then (c', c, r + 1 - deg, 1, d) else (c', b, deg, m + 1, d0)
  let res := (List.range 8).foldl step ([1], [1], 0, 1, 1)
  res.1.take (res.2.2.1 + 1)

/-- The error values at given places that give the syndromes, by Forney's formula (first root alpha^0). -/
def rsForney (n : Nat) (syn loc : List Nat) (places : List Nat) : List (Nat × Nat) :=
  let omega := (gfPolyMul syn loc).take 8
  places.map fun p =>
    let x := gfPow 2 (n - 1 - p)
    let xi := gfInv x
    let deriv := (List.range loc.length).foldl
      (fun acc i => if i % 2 = 1 then Nat.xor acc (gfMul (nthD loc i) (gfPow xi (i - 1))) else acc) 0
    (p, gfMul x (gfMul (gfEval omega xi) (gfInv deriv)))

/-- What a bounded-distance decoder of radius `t` finds for an error pattern: `none` when the word is uncorrectable,
else the corrections it makes (R121, R413). -/
def rsDecode (n t : Nat) (err : List (Nat × Nat)) : Option (List (Nat × Nat)) :=
  let syn := rsSyndromes n err
  if syn.all (· == 0) then some []
  else
    let loc := rsLocator syn
    let places := (List.range n).filter fun p => gfEval loc (gfInv (gfPow 2 (n - 1 - p))) == 0
    let deg := loc.length - 1
    if deg = 0 ∨ t < deg ∨ places.length ≠ deg then none
    else
      let fix := rsForney n syn loc places
      if rsSyndromes n fix = syn then some fix else none

end Sys2Proof.Machine
end

