-- ==== Sys2Proof/Machine/Flags.lean ====
section
/-! DEFINITION. The completion flags of a command (R355): bit positions and groups. -/

namespace Sys2Proof.Machine

/-- HANDLE_INVALID (R104). -/
def flHandleInvalid : Nat := 0
/-- HANDLE_ACCESS (R104). -/
def flHandleAccess : Nat := 1
/-- HANDLE_SQUARE (R104). -/
def flHandleSquare : Nat := 2
/-- HANDLE_BOUND (R104). -/
def flHandleBound : Nat := 3
/-- HANDLE_OFF (R104). -/
def flHandleOff : Nat := 4
/-- DESC_CHECK (R353). -/
def flDescCheck : Nat := 5
/-- PROG_INVALID (R237). -/
def flProgInvalid : Nat := 6
/-- ECC_UNCORR (R124, R168). -/
def flEccUncorr : Nat := 8
/-- MX_CHECK (R179). -/
def flMxCheck : Nat := 9
/-- MX_RESIDUE (R178). -/
def flMxResidue : Nat := 10
/-- VX_RESIDUE (R238). -/
def flVxResidue : Nat := 11
/-- SE_RESIDUE (R262). -/
def flSeResidue : Nat := 12
/-- AT_RESIDUE (R303). -/
def flAtResidue : Nat := 13
/-- TIMEOUT (R415). -/
def flTimeout : Nat := 14
/-- PEER_DOWN (R147, R437). -/
def flPeerDown : Nat := 15
/-- FP_INVALID. -/
def flFpInvalid : Nat := 16
/-- FP_OVERFLOW. -/
def flFpOverflow : Nat := 17
/-- FP_DIVZERO. -/
def flFpDivzero : Nat := 18
/-- FP_UNDERFLOW. -/
def flFpUnderflow : Nat := 19
/-- FP8_SAT. -/
def flFp8Sat : Nat := 20
/-- INT_SAT. -/
def flIntSat : Nat := 21
/-- QUANT_SAT. -/
def flQuantSat : Nat := 22
/-- ACC_SAT (R170). -/
def flAccSat : Nat := 23
/-- NONFINITE. -/
def flNonfinite : Nat := 24
/-- STATE_SAT (R246). -/
def flStateSat : Nat := 25
/-- RES_RANGE (R243). -/
def flResRange : Nat := 26
/-- PERM_OOR (R225). -/
def flPermOor : Nat := 32
/-- TRAP (R226). -/
def flTrap : Nat := 33
/-- ROW_EMPTY. -/
def flRowEmpty : Nat := 34
/-- ROW_NAN. -/
def flRowNan : Nat := 35
/-- ROW_INF. -/
def flRowInf : Nat := 36
/-- LOGIT_NAN (R307). -/
def flLogitNan : Nat := 37
/-- PT_RANGE (R303). -/
def flPtRange : Nat := 40
/-- PT_MISSING. -/
def flPtMissing : Nat := 41
/-- PT_SHARED. -/
def flPtShared : Nat := 42
/-- PT_NO_HEADROOM. -/
def flPtNoHeadroom : Nat := 43

/-- FLAGS with one bit set. -/
def oneFlag (b : Nat) : Nat := 2 ^ b

/-- FLAGS with a bit also set. -/
def withFlag (f b : Nat) : Nat := if bitAt f b then f else f + 2 ^ b

/-- FLAGS with a bit set where a condition holds. -/
def flagIf (c : Bool) (b f : Nat) : Nat := if c then withFlag f b else f

/-- FLAGS with every bit of a list. -/
def flagsOf (l : List Nat) : Nat := l.foldl withFlag 0

/-- A flag of the check group is set: the command made no access (R355). -/
def hasCheckFlag (f : Nat) : Bool := bits f 0 7 != 0

/-- A flag of the abort group is set: the chunk is aborted and replayed (R355). -/
def hasAbortFlag (f : Nat) : Bool := bits f 8 8 != 0

/-- A page-table flag is set (R303). -/
def hasPtFlag (f : Nat) : Bool := bits f 40 4 != 0

end Sys2Proof.Machine
end

