-- ==== Sys2Proof/Machine/Formats.lean ====
section
/-! DEFINITION. The ten number formats, their conversions, quantisation and requantisation (chapter "Number formats and
quantisation"). Floating values are held exactly, as a sign and a fraction, and rounded once where the spec rounds. -/

namespace Sys2Proof.Machine

/-- A floating format: exponent and mantissa widths, and whether it has infinities (E4M3 has none). -/
structure FloatFmt where
  expBits : Nat
  manBits : Nat
  hasInf : Bool
  deriving DecidableEq, Repr

/-- The ten formats of R183, in the order of their codes in an operand (R343). -/
inductive Fmt where
  | int4 | int8 | uint8 | int16 | int32 | e4m3 | e5m2 | fp16 | bf16 | fp32
  deriving DecidableEq, Repr

/-- FP8-E4M3 (R183). -/
def fmtE4M3 : FloatFmt := ⟨4, 3, false⟩
/-- FP8-E5M2 (R183). -/
def fmtE5M2 : FloatFmt := ⟨5, 2, true⟩
/-- binary16 (R183). -/
def fmtFP16 : FloatFmt := ⟨5, 10, true⟩
/-- BF16 (R183). -/
def fmtBF16 : FloatFmt := ⟨8, 7, true⟩
/-- binary32 (R183). -/
def fmtFP32 : FloatFmt := ⟨8, 23, true⟩

/-- The floating layout of a format, none for the integer formats. -/
def Fmt.float? : Fmt → Option FloatFmt
  | .e4m3 => some fmtE4M3
  | .e5m2 => some fmtE5M2
  | .fp16 => some fmtFP16
  | .bf16 => some fmtBF16
  | .fp32 => some fmtFP32
  | .int4 => none
  | .int8 => none
  | .uint8 => none
  | .int16 => none
  | .int32 => none

/-- Width in bits (R183). -/
def Fmt.width : Fmt → Nat
  | .int4 => 4
  | .int8 => 8
  | .uint8 => 8
  | .int16 => 16
  | .int32 => 32
  | .e4m3 => 8
  | .e5m2 => 8
  | .fp16 => 16
  | .bf16 => 16
  | .fp32 => 32

/-- Whether a format is one of the integer formats. -/
def Fmt.isInt (f : Fmt) : Bool := f.float?.isNone

/-- The lowest code of an integer format (R189, R190). -/
def Fmt.qmin : Fmt → Int
  | .int4 => -8
  | .int8 => -128
  | .int16 => -32768
  | .int32 => -2147483648
  | .uint8 => 0
  | .e4m3 => 0
  | .e5m2 => 0
  | .fp16 => 0
  | .bf16 => 0
  | .fp32 => 0

/-- The highest code of an integer format (R189, R190). -/
def Fmt.qmax : Fmt → Int
  | .int4 => 7
  | .int8 => 127
  | .uint8 => 255
  | .int16 => 32767
  | .int32 => 2147483647
  | .e4m3 => 0
  | .e5m2 => 0
  | .fp16 => 0
  | .bf16 => 0
  | .fp32 => 0

/-- The midpoint of a code format (R189). -/
def Fmt.midpoint (f : Fmt) : Int := if f = .uint8 then 128 else 0

/-- Elements to a 512-byte row (R184). -/
def Fmt.perRow (f : Fmt) : Nat := 4096 / f.width

/-! ### Exact floating values -/

/-- A floating value: NaN, an infinity, or a sign and an exact magnitude `num / den`. -/
inductive FVal where
  | nan
  | inf (neg : Bool)
  | fin (neg : Bool) (num den : Nat)
  deriving DecidableEq, Repr

/-- Positive zero. -/
def FVal.zero : FVal := .fin false 0 1

/-- Plus one. -/
def FVal.one : FVal := .fin false 1 1

/-- The value of a whole number. -/
def FVal.ofInt (i : Int) : FVal := .fin (decide (i < 0)) i.natAbs 1

/-- The value of a fraction of whole numbers. -/
def FVal.ofFrac (num : Int) (den : Nat) : FVal := .fin (decide (num < 0)) num.natAbs den

/-- The bias of the exponent. -/
def FloatFmt.bias (f : FloatFmt) : Nat := 2 ^ (f.expBits - 1) - 1

/-- The exponent of the smallest normal number. -/
def FloatFmt.emin (f : FloatFmt) : Int := 1 - (f.bias : Int)

/-- All ones in the exponent field. -/
def FloatFmt.expMax (f : FloatFmt) : Nat := 2 ^ f.expBits - 1

/-- The magnitude code of infinity, or the first code past the largest finite one. -/
def FloatFmt.infCode (f : FloatFmt) : Nat :=
  if f.hasInf then f.expMax * 2 ^ f.manBits else f.expMax * 2 ^ f.manBits + 2 ^ f.manBits - 1

/-- The canonical NaN of a format (R185). -/
def FloatFmt.nanCode (f : FloatFmt) : Nat :=
  if f.hasInf then f.expMax * 2 ^ f.manBits + 2 ^ (f.manBits - 1) else f.infCode

/-- The sign bit of a format. -/
def FloatFmt.signBit (f : FloatFmt) : Nat := 2 ^ (f.expBits + f.manBits)

/-- A fraction `m * 2^e` as numerator and denominator. -/
def dyadic (m : Nat) (e : Int) : Nat × Nat :=
  if 0 ≤ e then (m * 2 ^ e.toNat, 1) else (m, 2 ^ (-e).toNat)

/-- The value that the bits of a format spell (R183). -/
def FloatFmt.decode (f : FloatFmt) (code : Nat) : FVal :=
  let neg := bitAt code (f.expBits + f.manBits)
  let e := bits code f.manBits f.expBits
  let m := bits code 0 f.manBits
  if f.hasInf ∧ e = f.expMax then (if m = 0 then .inf neg else .nan)
  else if ¬ f.hasInf ∧ e = f.expMax ∧ m = 2 ^ f.manBits - 1 then .nan
  else
    let d := if e = 0 then dyadic m (f.emin - f.manBits)
             else dyadic (2 ^ f.manBits + m) ((e : Int) - f.bias - f.manBits)
    .fin neg d.1 d.2

/-- The floor of the binary logarithm of a positive fraction. -/
def floorLog2 (num den : Nat) : Int :=
  let g : Int := (Nat.log2 num : Int) - (Nat.log2 den : Int)
  let d := dyadic den g
  if num * d.2 < d.1 then g - 1 else g

/-- Division of naturals rounded to nearest, ties to even (R186). -/
def divRne (n d : Nat) : Nat :=
  let q := n / d
  let r := n % d
  if 2 * r < d then q else if d < 2 * r then q + 1 else q + q % 2

/-- Division of naturals rounded to nearest, ties upward: the magnitude part of R187. -/
def divRha (n d : Nat) : Nat := (2 * n + d) / (2 * d)

/-- The magnitude code that a fraction rounds to, without an upper limit (R186). The exponent carries by itself. -/
def FloatFmt.roundMag (f : FloatFmt) (num den : Nat) : Nat :=
  if num = 0 then 0
  else
    let e := max (floorLog2 num den) f.emin
    let q := dyadic 1 (e - f.manBits)
    (e - f.emin).toNat * 2 ^ f.manBits + divRne (num * q.2) (den * q.1)

/-- The bits of a value rounded to a format, with whether it overflowed: E4M3 saturates to ±448, the others give an
infinity (R188). -/
def FloatFmt.encode (f : FloatFmt) : FVal → Nat × Bool
  | .nan => (f.nanCode, false)
  | .inf neg => if f.hasInf then (f.infCode + b2n neg * f.signBit, false)
                else (f.infCode - 1 + b2n neg * f.signBit, true)
  | .fin neg num den =>
    let m := f.roundMag num den
    if f.hasInf then
      if f.infCode ≤ m then (f.infCode + b2n neg * f.signBit, true) else (m + b2n neg * f.signBit, false)
    else
      let big := decide (448 * den < num)
      if f.infCode ≤ m ∨ big then (f.infCode - 1 + b2n neg * f.signBit, big) else (m + b2n neg * f.signBit, false)

/-- A value rounded to a format and read back. -/
def FloatFmt.round (f : FloatFmt) (v : FVal) : FVal := f.decode (f.encode v).1

/-! ### Exact arithmetic on values -/

/-- The value with its sign turned. -/
def FVal.neg : FVal → FVal
  | .nan => .nan
  | .inf s => .inf (!s)
  | .fin s n d => .fin (!s) n d

/-- The magnitude. -/
def FVal.abs : FVal → FVal
  | .nan => .nan
  | .inf _ => .inf false
  | .fin _ n d => .fin false n d

/-- Whether a value is neither NaN nor infinite. -/
def FVal.isFinite : FVal → Bool
  | .fin _ _ _ => true
  | .nan => false
  | .inf _ => false

/-- Whether a value is NaN. -/
def FVal.isNaN (v : FVal) : Bool := v == .nan

/-- Whether a value is a zero of either sign. -/
def FVal.isZero : FVal → Bool
  | .fin _ n _ => n == 0
  | .nan => false
  | .inf _ => false

/-- The signed numerator of a finite value. -/
def FVal.num : FVal → Int
  | .fin s n _ => if s then -(n : Int) else n
  | .nan => 0
  | .inf s => if s then -1 else 1

/-- The denominator of a finite value. -/
def FVal.den : FVal → Nat
  | .fin _ _ d => d
  | .nan => 1
  | .inf _ => 0

/-- The sign bit of a value. -/
def FVal.sign : FVal → Bool
  | .fin s _ _ => s
  | .inf s => s
  | .nan => false

/-- The exact sum of two values, with the IEEE sign of zero under round to nearest. -/
def FVal.add (a b : FVal) : FVal :=
  match a, b with
  | .nan, _ => .nan
  | _, .nan => .nan
  | .inf s, .inf t => if s = t then .inf s else .nan
  | .inf s, .fin _ _ _ => .inf s
  | .fin _ _ _, .inf t => .inf t
  | .fin s n d, .fin t m e =>
    let x : Int := a.num * e + b.num * d
    if x = 0 then .fin (if n = 0 ∧ m = 0 then s && t else false) 0 1 else .fin (decide (x < 0)) x.natAbs (d * e)

/-- The exact product of two values. -/
def FVal.mul (a b : FVal) : FVal :=
  match a, b with
  | .nan, _ => .nan
  | _, .nan => .nan
  | .inf s, .inf t => .inf (s != t)
  | .inf s, .fin t n _ => if n = 0 then .nan else .inf (s != t)
  | .fin s n _, .inf t => if n = 0 then .nan else .inf (s != t)
  | .fin s n d, .fin t m e => .fin (s != t) (n * m) (d * e)

/-- The exact quotient of two values, IEEE at zeros and infinities. -/
def FVal.div (a b : FVal) : FVal :=
  match a, b with
  | .nan, _ => .nan
  | _, .nan => .nan
  | .inf _, .inf _ => .nan
  | .inf s, .fin t _ _ => .inf (s != t)
  | .fin s _ _, .inf t => .fin (s != t) 0 1
  | .fin s n d, .fin t m e =>
    if m = 0 then (if n = 0 then .nan else .inf (s != t)) else .fin (s != t) (n * e) (d * m)

/-- Strictly less, false with a NaN; the two zeros are equal. -/
def FVal.lt (a b : FVal) : Bool :=
  match a, b with
  | .nan, _ => false
  | _, .nan => false
  | .inf s, .inf t => s && !t
  | .inf s, .fin _ _ _ => s
  | .fin _ _ _, .inf t => !t
  | .fin _ _ d, .fin _ _ e => decide (a.num * e < b.num * d)

/-- Less or equal, false with a NaN. -/
def FVal.le (a b : FVal) : Bool := !a.isNaN && !b.isNaN && !FVal.lt b a

/-- Equal as numbers, false with a NaN. -/
def FVal.eqv (a b : FVal) : Bool := FVal.le a b && FVal.le b a

/-! ### binary32 operations on bits (R186) -/

/-- The value of a binary32 word. -/
def f32 (w : Nat) : FVal := fmtFP32.decode w

/-- The binary32 word nearest to a value. -/
def toF32 (v : FVal) : Nat := (fmtFP32.encode v).1

/-- Whether a binary32 result overflowed: finite operands whose rounded result is infinite. -/
def f32Overflow (v : FVal) : Bool := v.isFinite && (fmtFP32.encode v).2

/-- binary32 sum. -/
def fadd (a b : Nat) : Nat := toF32 (FVal.add (f32 a) (f32 b))

/-- binary32 difference. -/
def fsub (a b : Nat) : Nat := toF32 (FVal.add (f32 a) (f32 b).neg)

/-- binary32 product. -/
def fmul (a b : Nat) : Nat := toF32 (FVal.mul (f32 a) (f32 b))

/-- binary32 quotient. -/
def fdiv (a b : Nat) : Nat := toF32 (FVal.div (f32 a) (f32 b))

/-- binary32 fused product and sum, rounded once. -/
def ffma (a b c : Nat) : Nat := toF32 (FVal.add (FVal.mul (f32 a) (f32 b)) (f32 c))

/-- binary32 less than. -/
def flt (a b : Nat) : Bool := FVal.lt (f32 a) (f32 b)

/-- binary32 less or equal. -/
def fle (a b : Nat) : Bool := FVal.le (f32 a) (f32 b)

/-- The smaller of two binary32 values. -/
def fmin (a b : Nat) : Nat := if flt b a then b else a

/-- The larger of two binary32 values. -/
def fmax (a b : Nat) : Nat := if flt a b then b else a

/-- The binary32 word of a whole number (R188). -/
def f32OfInt (i : Int) : Nat := toF32 (FVal.ofInt i)

/-- binary32 one. -/
def f32One : Nat := 0x3F800000

/-- binary32 2^k, for whole k within the normal range. -/
def f32Pow2 (k : Int) : Nat := (k + 127).toNat * 2 ^ 23

/-! ### Integer rounding (R187) and conversions (R188, R190) -/

/-- `round_away` of a signed fraction (R187). -/
def roundAway (num : Int) (den : Nat) : Int :=
  if num < 0 then -(divRha num.natAbs den : Int) else (divRha num.natAbs den : Int)

/-- `round_away` of a finite value. -/
def FVal.roundAway (v : FVal) : Int := Machine.roundAway v.num v.den

/-- Brings a code within the ends of its format and says whether it saturated (R190). -/
def satCode (f : Fmt) (q : Int) : Int × Bool :=
  if f.qmax < q then (f.qmax, true) else if q < f.qmin then (f.qmin, true) else (q, false)

/-- round(x × 32,768), ties away from zero, saturated to INT16, of a binary32 sample, and whether it saturated; NaN gives 0 (R188,
R190). -/
def int16Sample (w : Nat) : Int × Bool :=
  match f32 w with
  | .nan => (0, false)
  | .inf neg => (if neg then -32768 else 32767, true)
  | .fin neg n d => satCode .int16 (FVal.fin neg (n * 32768) d).roundAway

/-- A number brought within two ends. -/
def clampInt (lo hi q : Int) : Int := if q < lo then lo else if hi < q then hi else q

/-- The flags a conversion can raise (R188, R193). -/
structure ConvFlags where
  overflow : Bool := false
  fp8Sat : Bool := false
  nonfinite : Bool := false
  saturated : Bool := false
  deriving DecidableEq, Repr

/-- Both sets of flags. -/
def ConvFlags.or (a b : ConvFlags) : ConvFlags :=
  ⟨a.overflow || b.overflow, a.fp8Sat || b.fp8Sat, a.nonfinite || b.nonfinite, a.saturated || b.saturated⟩

/-- The signed value of an integer code. -/
def Fmt.intValue (f : Fmt) (code : Nat) : Int :=
  if f = .uint8 then (code % 256 : Nat) else signedOf f.width code

/-- The bits of an integer code. -/
def Fmt.intBits (f : Fmt) (q : Int) : Nat := unsignedOf f.width q

/-- Any element as an exact value (R183). -/
def Fmt.value (f : Fmt) (code : Nat) : FVal :=
  match f.float? with
  | some g => g.decode code
  | none => FVal.ofInt (f.intValue code)

/-- A value converted to a floating format (R188). -/
def toFloatFmt (g : FloatFmt) (v : FVal) : Nat × ConvFlags :=
  let r := g.encode v
  (r.1, if g.hasInf then { overflow := v.isFinite && r.2 } else { fp8Sat := r.2 })

/-- A value converted to an integer format without scale (R188). -/
def toIntFmt (f : Fmt) (v : FVal) : Nat × ConvFlags :=
  match v with
  | .nan => (0, { nonfinite := true })
  | .inf neg => (f.intBits (if neg then f.qmin else f.qmax), { saturated := true })
  | .fin _ _ _ =>
    let r := satCode f v.roundAway
    (f.intBits r.1, { saturated := r.2 })

/-- Conversion of one element between any two formats (R188): a pair that the table does not list goes through FP32. -/
def convert (src dst : Fmt) (code : Nat) : Nat × ConvFlags :=
  if src = dst then
    (match dst.float? with
     | some g => ((g.encode (g.decode code)).1, {})
     | none => (code % 2 ^ dst.width, {}))
  else
    match src.float?, dst.float? with
    | none, none =>
      let r := satCode dst (src.intValue code)
      (dst.intBits r.1, { saturated := r.2 })
    | none, some g =>
      if src ≠ .int32 ∧ 16 ≤ dst.width ∧ src.width ≤ 16 then toFloatFmt g (src.value code)
      else toFloatFmt g (fmtFP32.round (src.value code))
    | some h, some g => toFloatFmt g (h.decode code)
    | some h, none => toIntFmt dst (h.decode code)

/-! ### Scale records and the quantiser (R191, R196) -/

/-- A scale record (R196), 16 bytes. -/
structure ScaleRec where
  scale : Nat := 0x3F800000
  zp : Int := 0
  narrowCount : Nat := 0
  seeded : Bool := false
  constChannel : Bool := false
  scaleLimit : Bool := false
  lastSat : Nat := 0
  deriving DecidableEq, Repr

/-- Reads a scale record from its 16 bytes. -/
def ScaleRec.ofBytes (b : List Byte) : ScaleRec :=
  let n := leAt b 0 16
  { scale := bits n 0 32, zp := signedOf 16 (bits n 32 16), narrowCount := bits n 48 8, seeded := bitAt n 56
    constChannel := bitAt n 57, scaleLimit := bitAt n 58, lastSat := bits n 64 32 }

/-- Writes a scale record, reserved bits 0. -/
def ScaleRec.toBytes (r : ScaleRec) : List Byte :=
  leBytes 4 r.scale ++ leBytes 2 (unsignedOf 16 r.zp) ++ leBytes 1 r.narrowCount
    ++ leBytes 1 (b2n r.seeded + 2 * b2n r.constChannel + 4 * b2n r.scaleLimit)
    ++ leBytes 4 r.lastSat ++ leBytes 4 0

/-- Whether SCALE is positive, normal and from 2^-64 to 2^64, and ZP within the code range (R196); else 0x62. -/
def ScaleRec.valid (f : Fmt) (r : ScaleRec) : Bool :=
  decide (f32Pow2 (-64) ≤ r.scale ∧ r.scale ≤ f32Pow2 64 ∧ f.qmin ≤ r.zp ∧ r.zp ≤ f.qmax)

/-- The activation quantiser on one binary32 element (R191). -/
def quantise (f : Fmt) (r : ScaleRec) (x : Nat) : Nat × ConvFlags :=
  match f32 x with
  | .nan => (f.intBits r.zp, { nonfinite := true })
  | .inf neg => (f.intBits (if neg then f.qmin else f.qmax), { saturated := true })
  | .fin _ _ _ =>
    match f32 (fdiv x r.scale) with
    | .fin s n d =>
      let q := satCode f ((FVal.fin s n d).roundAway + r.zp)
      (f.intBits q.1, { saturated := q.2 })
    | .inf neg => (f.intBits (if neg then f.qmin else f.qmax), { saturated := true })
    | .nan => (f.intBits r.zp, { nonfinite := true })

/-- Dequantises a code: (q - zp) exact, converted to FP32, times SCALE (R202). -/
def dequantise (f : Fmt) (r : ScaleRec) (code : Nat) : Nat :=
  fmul (f32OfInt (f.intValue code - r.zp)) r.scale

/-! ### Statistics (R194, R195) -/

/-- A statistics record; `any` says that a finite element was seen. For an INT32 source the values are integers, for a
floating source binary32 words. -/
structure StatRec where
  min : Int := 0
  max : Int := 0
  maxAbs : Int := 0
  nonfinite : Nat := 0
  any : Bool := false
  deriving DecidableEq, Repr

/-- Adds an INT32 element: the magnitude of -2^31 records as 2^31 - 1 (R194). -/
def StatRec.addInt (r : StatRec) (x : Int) : StatRec :=
  let m : Int := if x = -2147483648 then 2147483647 else x.natAbs
  if r.any then { r with min := if x < r.min then x else r.min, max := if r.max < x then x else r.max
                         maxAbs := if r.maxAbs < m then m else r.maxAbs }
  else { r with min := x, max := x, maxAbs := m, any := true }

/-- -0.0 as +0.0. -/
def plusZero (w : Nat) : Nat := if w = 0x80000000 then 0 else w

/-- Adds a binary32 element (R195). -/
def StatRec.addF32 (r : StatRec) (w : Nat) : StatRec :=
  if (f32 w).isFinite then
    let x := plusZero w
    let m := x % 0x80000000
    if r.any then
      { r with min := if flt x r.min.toNat then (x : Int) else r.min, max := if flt r.max.toNat x then (x : Int) else r.max
               maxAbs := if flt r.maxAbs.toNat m then (m : Int) else r.maxAbs }
    else { r with min := x, max := x, maxAbs := m, any := true }
  else { r with nonfinite := Nat.min 65535 (r.nonfinite + 1) }

/-- Counts an element that is not finite (R191, R195). -/
def StatRec.addNonfinite (r : StatRec) : StatRec := { r with nonfinite := Nat.min 65535 (r.nonfinite + 1) }

/-- Combines two records by minimum, maximum and sum of counts (R195). -/
def StatRec.combine (isF : Bool) (a b : StatRec) : StatRec :=
  let n := Nat.min 65535 (a.nonfinite + b.nonfinite)
  if !a.any then { b with nonfinite := n }
  else if !b.any then { a with nonfinite := n }
  else
    let lt : Int → Int → Bool := fun x y => if isF then flt x.toNat y.toNat else decide (x < y)
    { min := if lt b.min a.min then b.min else a.min, max := if lt a.max b.max then b.max else a.max
      maxAbs := if lt a.maxAbs b.maxAbs then b.maxAbs else a.maxAbs, nonfinite := n, any := true }

/-- The 16 bytes of a statistics record (R194). -/
def StatRec.toBytes (r : StatRec) : List Byte :=
  leBytes 4 (unsignedOf 32 r.min) ++ leBytes 4 (unsignedOf 32 r.max) ++ leBytes 4 (unsignedOf 32 r.maxAbs)
    ++ leBytes 2 r.nonfinite ++ leBytes 2 (b2n (!r.any))

/-- Reads a statistics record. -/
def StatRec.ofBytes (isF : Bool) (b : List Byte) : StatRec :=
  let rd := fun o => if isF then (leAt b o 4 : Int) else signedOf 32 (leAt b o 4)
  { min := rd 0, max := rd 4, maxAbs := rd 8, nonfinite := leAt b 12 2, any := !bitAt (leAt b 14 2) 0 }

/-- The smaller of two binary32 values. The zeros are merged by `plusZero` before. -/
def widenLo (st : StatRec) : Nat := fmin (plusZero st.min.toNat) 0

/-- max(MAX, +0.0). -/
def widenHi (st : StatRec) : Nat := fmax (plusZero st.max.toNat) 0

/-- A scale brought to 2^-64 .. 2^64, and whether that changed it (R197, R205). -/
def clampScale (s : Nat) : Nat × Bool :=
  if flt s (f32Pow2 (-64)) then (f32Pow2 (-64), true) else if flt (f32Pow2 64) s then (f32Pow2 64, true) else (s, false)

/-- The scale record derived from statistics (R197). -/
def deriveScale (f : Fmt) (st : StatRec) : ScaleRec :=
  let lo := if st.any then widenLo st else 0
  let hi := if st.any then widenHi st else 0
  let span := fsub hi lo
  if flt span (f32Pow2 (-126)) then { scale := f32One, zp := 0, constChannel := true, seeded := true }
  else
    let scale := fdiv span (f32OfInt (f.qmax - f.qmin))
    let z := f32 (fsub (f32OfInt f.qmin) (fdiv lo scale))
    { scale := (clampScale scale).1, zp := clampInt f.qmin f.qmax z.roundAway, seeded := true }

/-! ### Requantisation (R198 to R201) -/

/-- A requantisation record (R198), 8 bytes. -/
structure RequantRec where
  mult : Nat := 0x40000000
  shift : Nat := 30
  constChannel : Bool := false
  scaleClamp : Bool := false
  scaleInvalid : Bool := false
  zp : Int := 0
  deriving DecidableEq, Repr

/-- Reads a requantisation record. -/
def RequantRec.ofBytes (b : List Byte) : RequantRec :=
  let n := leAt b 0 8
  { mult := bits n 0 31, shift := bits n 32 6, constChannel := bitAt n 40, scaleClamp := bitAt n 41
    scaleInvalid := bitAt n 42, zp := signedOf 16 (bits n 48 16) }

/-- Writes a requantisation record. -/
def RequantRec.toBytes (r : RequantRec) : List Byte :=
  leBytes 4 r.mult ++ leBytes 1 r.shift
    ++ leBytes 1 (b2n r.constChannel + 2 * b2n r.scaleClamp + 4 * b2n r.scaleInvalid)
    ++ leBytes 2 (unsignedOf 16 r.zp)

/-- Whether SHIFT and ZP are in range (R198); else code 0x63. -/
def RequantRec.valid (f : Fmt) (r : RequantRec) : Bool := decide (r.shift ≤ 47 ∧ f.qmin ≤ r.zp ∧ r.zp ≤ f.qmax)

/-- One requantisation stage (R199). -/
def requantStage (r : RequantRec) (a : Int) : Int :=
  let p := a * r.mult
  if r.shift = 0 then p else roundAway p (2 ^ r.shift)

/-- Saturation to INT32 (R200). -/
def sat32 (x : Int) : Int × Bool := satCode .int32 x

/-- The requantiser: column stage, then row stage; the zero point comes from the row record, from the column record when
there is no row stage, and is 0 with neither (R200, R222). Saturation at INT32 and saturation of the code are counted each. -/
def requantise (f : Fmt) (col row : Option RequantRec) (acc : Int) : Nat × Nat :=
  let t := match col with
    | some c => sat32 (requantStage c acc)
    | none => (acc, false)
  let q := match row, col with
    | some r, _ => satCode f (requantStage r t.1 + r.zp)
    | none, some c => satCode f (t.1 + c.zp)
    | none, none => satCode f t.1
  (f.intBits q.1, b2n t.2 + b2n q.2)

/-- The multiplier and shift derived from a binary32 factor (R201). -/
def deriveRequant (factor : Nat) : RequantRec :=
  match f32 factor with
  | .nan => { mult := 0, shift := 0, scaleInvalid := true }
  | .inf _ => { mult := 0, shift := 0, scaleInvalid := true }
  | .fin neg num den =>
    if neg ∨ num = 0 then { mult := 0, shift := 0, scaleInvalid := true }
    else
      let e := floorLog2 num den + 1
      let g := dyadic 1 (31 - e)
      let m := num * g.1 / (den * g.2)
      let s := 31 - e
      if s < 0 then { mult := 2 ^ 31 - 1, shift := 0, scaleClamp := true }
      else if 47 < s then { mult := divRha m (2 ^ (s - 47).toNat), shift := 47, scaleClamp := true }
      else { mult := m, shift := s.toNat }

/-- The requantisation record derived with a scale record's CONST_CHANNEL (R201). -/
def deriveRequantFrom (constChannel : Bool) (factor : Nat) : RequantRec :=
  if constChannel then { constChannel := true } else deriveRequant factor

/-! ### Carried adaptation (R205) -/

/-- The ends of the range that a scale and zero point represent. -/
def repEnd (scale : Nat) (z e : Int) : Nat := fmul scale (f32OfInt (e - z))

/-- The widening search of R205: the first k from `k` on that covers lo to hi, with at most `fuel` tries. -/
def widenSearch (f : Fmt) (scale : Nat) (zp : Int) (lo hi : Nat) : Nat → Nat → (Nat × Int × Bool)
  | 0, k =>
    (fmul scale (f32Pow2 (k - 1 : Int)), clampInt f.qmin f.qmax (f.midpoint + roundAway (zp - f.midpoint) (2 ^ (k - 1))), false)
  | fuel + 1, k =>
    let s' := fmul scale (f32Pow2 (k : Int))
    let z' := clampInt f.qmin f.qmax (f.midpoint + roundAway (zp - f.midpoint) (2 ^ k))
    if fle (repEnd s' z' f.qmin) lo && fle hi (repEnd s' z' f.qmax) then (s', z', true)
    else widenSearch f scale zp lo hi fuel (k + 1)

/-- One carried record adapted at the end of a chunk (R205, R207). -/
def adaptScale (f : Fmt) (satThreshold widenMax : Nat) (r : ScaleRec) (st : StatRec) (sat : Nat) : ScaleRec :=
  let lo := if st.any then widenLo st else 0
  let hi := if st.any then widenHi st else 0
  let r' :=
    if ¬ st.any ∨ (lo = 0 ∧ hi = 0) then r
    else if satThreshold < sat then
      let w := widenSearch f r.scale r.zp lo hi widenMax 1
      let c := clampScale w.1
      { r with scale := c.1, zp := w.2.1, narrowCount := 0, scaleLimit := r.scaleLimit || !w.2.2 || c.2 }
    else
      let hiEnd := repEnd r.scale r.zp f.qmax
      let loEnd := repEnd r.scale r.zp f.qmin
      let u := fmax (if flt 0 hiEnd then fdiv hi hiEnd else 0) (if flt loEnd 0 then fdiv lo loEnd else 0)
      if flt u (f32Pow2 (-2)) then
        if r.narrowCount + 1 = 16 then
          let c := clampScale (fdiv r.scale (f32Pow2 1))
          { r with scale := c.1, zp := clampInt f.qmin f.qmax (f.midpoint + 2 * (r.zp - f.midpoint)), narrowCount := 0
                   scaleLimit := r.scaleLimit || c.2 }
        else { r with narrowCount := r.narrowCount + 1 }
      else { r with narrowCount := 0 }
  { r' with lastSat := sat }

end Sys2Proof.Machine
end

