-- ==== Sys2Proof/Machine/FpOps.lean ====
section
/-! DEFINITION. Packed rows of elements, and binary32 operations with the flags that they raise (R171, R172, R184, R220,
R245). -/

namespace Sys2Proof.Machine

/-- The codes of packed bytes, INT4 low half first (R183, R184). -/
def Fmt.unpack (f : Fmt) (bs : List Byte) : List Nat :=
  if f.width = 4 then bs.flatMap fun b => [b.toNat % 16, b.toNat / 16]
  else (chunksOf bs.length (f.width / 8) bs).map leNat

/-- Codes packed into bytes (R183, R184). -/
def Fmt.pack (f : Fmt) (cs : List Nat) : List Byte :=
  if f.width = 4 then (chunksOf cs.length 2 cs).map fun p => BitVec.ofNat 8 (nthD p 0 % 16 + nthD p 1 % 16 * 16)
  else cs.flatMap fun c => leBytes (f.width / 8) c

/-- The code of element `i` of packed bytes. -/
def Fmt.elemAt (f : Fmt) (bs : List Byte) (i : Nat) : Nat :=
  if f.width = 4 then (let b := (bs.getD (i / 2) 0).toNat
                       if i % 2 = 0 then b % 16 else b / 16)
  else leAt bs (i * (f.width / 8)) (f.width / 8)

/-- A binary32 word with the flags that its computation raised. -/
abbrev Fp := Nat × Nat

/-- Flags of a binary32 result from its exact value: FP_INVALID for a NaN that no operand was, FP_OVERFLOW for a finite
value that rounds to an infinity (R172, R220). -/
def fpFlags (nanIn : Bool) (v : FVal) : Nat :=
  flagIf (v.isNaN && !nanIn) flFpInvalid (flagIf (f32Overflow v) flFpOverflow 0)

/-- Product with flags. -/
def fpMul (a b : Nat) : Fp :=
  let v := FVal.mul (f32 a) (f32 b)
  (toF32 v, fpFlags ((f32 a).isNaN || (f32 b).isNaN) v)

/-- Sum with flags. -/
def fpAdd (a b : Nat) : Fp :=
  let v := FVal.add (f32 a) (f32 b)
  (toF32 v, fpFlags ((f32 a).isNaN || (f32 b).isNaN) v)

/-- Sum of two results with all their flags. -/
def Fp.add (a b : Fp) : Fp :=
  let r := fpAdd a.1 b.1
  (r.1, Nat.lor (Nat.lor a.2 b.2) r.2)

/-- One level of a tree: neighbours added. -/
def treeLevel : List Fp → List Fp
  | a :: b :: r => Fp.add a b :: treeLevel r
  | l => l

/-- The sum of a block of 32 terms by the tree of R171. -/
def treeBlock (l : List Fp) : Fp :=
  let padded := l ++ List.replicate (32 - l.length) (0, 0)
  (treeLevel (treeLevel (treeLevel (treeLevel (treeLevel padded))))).headD (0, 0)

/-- Block sums added one after another onto a value (R171). -/
def treeOnto (acc : Fp) (l : List Fp) : Fp :=
  (chunksOf (l.length / 32 + 1) 32 l).foldl (fun a b => Fp.add a (treeBlock b)) acc

/-- tree32 of R245: from +0.0. -/
def tree32 (l : List Fp) : Fp := treeOnto (0, 0) l

end Sys2Proof.Machine
end

