-- ==== Sys2Proof/Machine/Audio.lean ====
section
/-! DEFINITION. Samples in the host's formats: G.711, PCM16 and FP32 (R74, R75, R330). -/

namespace Sys2Proof.Machine

/-- The segment of a magnitude: how many of the ends `2^k - 1` from `first` on it exceeds. -/
def g711Segment (first m : Nat) : Nat := ((List.range 8).filter fun k => decide (first * 2 ^ k - 1 < m)).length

/-- µ-law code of a PCM16 value, from its 14 most significant bits (R330). -/
def muEncode (x : Int) : Nat :=
  let v := x / 4
  let mask := if v < 0 then 0x7F else 0xFF
  let m := Nat.min v.natAbs 8159 + 33
  let seg := g711Segment 64 m
  if 8 ≤ seg then Nat.xor 0x7F mask else Nat.xor (seg * 16 + m / 2 ^ (seg + 1) % 16) mask

/-- A-law code of a PCM16 value, from its 13 most significant bits (R330). -/
def aEncode (x : Int) : Nat :=
  let v := x / 8
  let mask := if v < 0 then 0x55 else 0xD5
  let m := if v < 0 then (-v - 1).toNat else v.toNat
  let seg := g711Segment 32 m
  if 8 ≤ seg then Nat.xor 0x7F mask
  else Nat.xor (seg * 16 + (if seg < 2 then m / 2 else m / 2 ^ seg) % 16) mask

/-- The 16-bit value of a µ-law code. -/
def muDecode (c : Nat) : Int :=
  let u := Nat.xor c 0xFF
  let m : Int := (((u % 16) * 8 + 132) * 2 ^ (u / 16 % 8) : Nat)
  if 128 ≤ u then 132 - m else m - 132

/-- The 16-bit value of an A-law code. -/
def aDecode (c : Nat) : Int :=
  let a := Nat.xor c 0x55
  let seg := a / 16 % 8
  let m : Nat := if seg = 0 then a % 16 * 16 + 8 else (a % 16 * 16 + 0x108) * 2 ^ (seg - 1)
  if 128 ≤ a then (m : Int) else -(m : Int)

/-- An output sample in FORMAT 1 PCM16, 2 µ-law or 3 A-law, and whether it was clipped (R330). -/
def encodeSample (format w : Nat) : List Byte × Bool :=
  let q := int16Sample w
  (if format = 2 then leBytes 1 (muEncode q.1) else if format = 3 then leBytes 1 (aEncode q.1)
   else leBytes 2 (unsignedOf 16 q.1), q.2)

end Sys2Proof.Machine
end

