-- ==== Sys2Proof/Machine/Tbl.lean ====
section
/-! DEFINITION. Reading and writing sparse tables. Every store of the block that has more cells than a structure can
name (rows, HBM, objects, streams) is a `Tbl`, held in the one canonical form `Tbl.wf`. -/

namespace Sys2Proof.Machine

/-- The value listed under key `k`, if any. -/
def Tbl.get? {α : Type} : Tbl α → Nat → Option α
  | [], _ => none
  | (k', v) :: t, k => if k' = k then some v else Tbl.get? t k

/-- The value under key `k`, where an unlisted key reads as `d`. -/
def Tbl.getD {α : Type} (t : Tbl α) (d : α) (k : Nat) : α := (Tbl.get? t k).getD d

/-- The table without key `k`. -/
def Tbl.erase {α : Type} : Tbl α → Nat → Tbl α
  | [], _ => []
  | (k', v) :: t, k => if k' = k then Tbl.erase t k else (k', v) :: Tbl.erase t k

/-- Puts a pair before the first greater key. -/
def Tbl.insertSorted {α : Type} : Tbl α → Nat → α → Tbl α
  | [], k, v => [(k, v)]
  | (k', v') :: t, k, v => if k < k' then (k, v) :: (k', v') :: t else (k', v') :: Tbl.insertSorted t k v

/-- The table with `v` under key `k`. -/
def Tbl.put {α : Type} (t : Tbl α) (k : Nat) (v : α) : Tbl α := Tbl.insertSorted (Tbl.erase t k) k v

/-- The table with `v` under key `k`, where an unlisted key reads as `d`: writing `d` takes the entry out. -/
def Tbl.setD {α : Type} [DecidableEq α] (t : Tbl α) (d : α) (k : Nat) (v : α) : Tbl α :=
  if v = d then Tbl.erase t k else Tbl.put t k v

/-- The value under `k`, changed by `f` when the key is listed. -/
def Tbl.modify {α : Type} (t : Tbl α) (k : Nat) (f : α → α) : Tbl α :=
  match Tbl.get? t k with
  | some v => Tbl.put t k (f v)
  | none => t

/-- The keys of the entries that satisfy `p`, in rising order. -/
def Tbl.keysWhere {α : Type} (t : Tbl α) (p : Nat → α → Bool) : List Nat :=
  (t.filter fun x => p x.1 x.2).map (·.1)

/-- Keys strictly rise: the canonical form of a table. -/
abbrev Tbl.sorted {α : Type} (t : Tbl α) : Prop := List.Pairwise (fun a b => a.1 < b.1) t

/-- The canonical form of a table whose unlisted keys read as `d`: keys strictly rise and no entry holds `d`. -/
abbrev Tbl.wf {α : Type} (d : α) (t : Tbl α) : Prop := Tbl.sorted t ∧ ∀ x ∈ t, x.2 ≠ d

/-- Byte memory: an unlisted address reads as zero. The spec clears every byte store it gives the block before use:
scratchpad (R128), accumulator stores (R169), HBM (R587). -/
abbrev Mem := Tbl Byte

/-- The byte at address `a`. -/
def Mem.read (m : Mem) (a : Nat) : Byte := Tbl.getD m 0 a

/-- Writes one byte. -/
def Mem.write (m : Mem) (a : Nat) (b : Byte) : Mem := Tbl.setD m 0 a b

/-- The `n` bytes from address `a` up. -/
def Mem.readBytes (m : Mem) (a : Nat) : Nat → List Byte
  | 0 => []
  | n + 1 => Mem.read m a :: Mem.readBytes m (a + 1) n

/-- Writes the bytes of a list from address `a` up. -/
def Mem.writeBytes (m : Mem) (a : Nat) : List Byte → Mem
  | [] => m
  | b :: bs => Mem.writeBytes (Mem.write m a b) (a + 1) bs

/-- Clears `n` bytes from address `a` up. -/
def Mem.clearRange (m : Mem) (a n : Nat) : Mem := m.filter fun x => decide (x.1 < a ∨ a + n ≤ x.1)

/-- The canonical form of byte memory. -/
abbrev Mem.wf (m : Mem) : Prop := Tbl.wf (0 : Byte) m

end Sys2Proof.Machine
end

