-- ==== Sys2Proof/Machine/StateEngine.lean ====
section
/-! DEFINITION. State of the memories, the Roundabout and the engines: plain data only. -/

namespace Sys2Proof.Machine

/-- STATE of a tag (R107). -/
inductive TagState where
  | empty | filling | full | draining
  deriving DecidableEq, Repr

/-- The tag of a slot or an accumulator tile (R107, R139), with the hidden count of read claims and, for wait reports,
who changed it last (R408: PRODUCER and the fields beside it). -/
structure Tag where
  state : TagState := .empty
  readers : Nat := 0
  claims : Nat := 0
  producer : Nat := 0xFF
  prodStream : Nat := 0
  prodChunk : Nat := 0
  prodBatch : Bool := false
  deriving DecidableEq, Repr

/-- One row buffer of a gather port (R115): the row, the bytes under the mask, and the (partition, stream) pairs whose
writes it holds (R143). -/
structure GatherBuf where
  row : Nat
  bytes : Tbl Byte := []
  owners : List (Nat × Nat) := []
  deriving DecidableEq, Repr

/-- The memories with rows and tags: scratchpad, accumulator stores, HBM, control memory. -/
structure Store where
  /-- scratchpad data bytes, byte address = row x 512 + offset (R98) -/
  sp : Mem := []
  /-- per row, the stored bytes that hold an error: place j of R119 and error value -/
  spErr : Tbl (List (Nat × Nat)) := []
  /-- slot tags, tag n of rows 4n to 4n + 3 (R106) -/
  tags : Tbl Tag := []
  /-- handle tables: partition x 256 + handle, words W0 and W1 (R101) -/
  handles : Tbl (Word × Word) := []
  /-- gather ports 0 to 8: IN, TK0, TK1, EG, CC0 to CC3, PF debug window; buffers least recently written first -/
  gather : Tbl (List GatherBuf) := []
  /-- accumulator stores: (MX index x 8 + tile) x 33 x 512 + byte; row 32 is the side row (R163) -/
  acc : Mem := []
  /-- accumulator words (by word address) that hold an uncorrectable or correctable error: bits in error (R168) -/
  accErr : Tbl Nat := []
  /-- tile tags: MX index x 8 + tile (R139) -/
  tileTags : Tbl Tag := []
  /-- HBM2E bytes by address (R351) -/
  hbm : Mem := []
  /-- per 64-byte line, symbols in error and their values (R413) -/
  hbmErr : Tbl (List (Nat × Nat)) := []
  /-- control memory, 1 MiB (R150) -/
  ctl : Mem := []
  /-- control memory as each control core sees it: its own writes, and those that a mailbox message has shown it (R150) -/
  ctlView : Tbl Mem := []
  /-- local memories of the control cores: core x 2^18 + address (R416) -/
  core : Mem := []
  /-- scratchpad rows next visited by each Square's patrol scrubber (R125) -/
  scrubNext : Tbl Nat := []
  /-- times at which a quarter became CLOSING, in ns (R127) -/
  closingSince : Tbl Nat := []
  deriving DecidableEq, Repr

/-- A command descriptor: the words W0 to W7 (R333). -/
abbrev Desc := Words8

/-- Where an accepted command stands (R372, R375, R402, R354). `ended` is a command whose effect is done and whose
completion (`COMMAND_COMPLETE`) is still to come. -/
inductive Phase where
  | queued | parked | issued | ended
  deriving DecidableEq, Repr

/-- A handle as resolved at issue (R103), with the operand record it came from. `used` is false for HANDLE 0xFF. -/
structure Operand where
  used : Bool := false
  handle : Nat := 0xFF
  off : Nat := 0
  stride : Nat := 0
  mode : Nat := 0
  readers : Nat := 0
  fmt : Nat := 0
  kind : Nat := 0
  xflag : Bool := false
  base : Nat := 0
  bound : Nat := 0
  slotRows : Nat := 0
  /-- the handle's SCOPE is LOCAL -/
  isLocal : Bool := false
  deriving DecidableEq, Repr

/-- A claim that a command needs or holds (R108): a slot tag or a tile tag, with the mode of R342. -/
structure Claim where
  isTile : Bool
  key : Nat
  mode : Nat
  readers : Nat := 0
  deriving DecidableEq, Repr

/-- A command that the Roundabout has accepted and that still takes a command slot. -/
structure Cmd where
  /-- acceptance number: the total order of R133 -/
  seq : Nat
  desc : Desc
  /-- the core that submitted it (R334) -/
  core : Nat := 0
  phase : Phase := .queued
  /-- 0: the operand list is still to be read; 1: operands resolved; 2: what a line map or a member map names is known -/
  stage : Nat := 0
  /-- operand records resolved at issue, in role order -/
  ops : List Operand := []
  /-- the device row of its operand list, resolved at issue (R343) -/
  listRow : Nat := 0
  /-- the quarters that were ON as it issued (R103, R104) -/
  quarters : List Nat := []
  /-- what its map operand says, read once: the groups of a line map as SIN_OFF, SOUT_OFF, RIN_OFF, ROUT_OFF (R257), the
  members of a member map as sequence and P0 (R300) -/
  map : List (List Nat) := []
  /-- claims still to make, in order (R344) -/
  wanted : List Claim := []
  /-- claims held (R109) -/
  held : List Claim := []
  /-- whether the command has made a write (R378, R402) -/
  wrote : Bool := false
  flags : Nat := 0
  code : Nat := 0
  detail : Nat := 0
  /-- remote rows still to come (R466) -/
  remoteLeft : Nat := 0
  /-- the write signature of a shadow comparison (R595): CRC-32C of what the command wrote -/
  signature : Nat := 0
  /-- start of the present wait in ns, and whether it was reported (R407, R408) -/
  waitSince : Nat := 0
  waitReported : Bool := false
  /-- sequences it walks and the copies (B when true) it took (R277, R278) -/
  walks : List (Nat × Bool) := []
  /-- set on the copy of a command that runs on a Square under shadow qualification (R593) -/
  shadow : Bool := false
  /-- bytes of spilled pages read, for the HBM read regulator (R370) -/
  spillReads : Nat := 0
  /-- rows of other Squares that it read or wrote (R370) -/
  far : Nat := 0
  /-- its remote operation is over: parked, it completes as it issues again (R402, R407) -/
  answered : Bool := false
  /-- the row or line of an uncorrectable read, and whether it lies in HBM (R124, R413) -/
  addr : Nat := 0
  inHbm : Bool := false
  /-- the uncorrectable read was of an accumulator tile: no device row is concerned (R168) -/
  inTile : Bool := false
  /-- the engine that a fault names, where it is not the command's own: the MX of a tile that a VX reads (R168) -/
  source : Option Nat := none
  /-- the control word that it met and that cannot be repaired (R434, R442) -/
  ctl : Option CtlWord := none
  /-- a host read of the command failed (R439) -/
  hostRead : Bool := false
  deriving DecidableEq, Repr

/-- One entry of a control core's mailbox: a completion entry (R354), a scalar summary (R230) or a message (R150),
as 64-bit words. -/
structure Mail where
  kind : Nat
  words : List Nat
  /-- the command that it speaks of or comes from, none once that is not known (R434) -/
  desc : Option Desc := none
  deriving DecidableEq, Repr

/-- An entry that waits for a free mailbox entry (R232): the core, the engine it comes from, and the class whose command
slot it still takes, none when it takes none. -/
structure HeldMail where
  core : Nat
  src : Nat
  mail : Mail
  since : Nat := 0
  reported : Bool := false
  slot : Option Bool := none
  /-- the command that does not complete before the entry has landed (R132) -/
  cmd : Option Nat := none
  deriving DecidableEq, Repr

/-- One batch table entry (R340): member words, [12:0] the stream and [31:16] the chunk. -/
structure BatchEntry where
  valid : Bool := false
  members : List Nat := []
  deriving DecidableEq, Repr

/-- What a submission port reported last (R335, R352). -/
inductive PortReport where
  | none | accepted | retry | refused (code : Nat)
  deriving DecidableEq, Repr

/-- The Roundabout (R333 to R378) and the mailboxes of the control cores. -/
structure Roundabout where
  /-- settings of 0x2500 and 0x4018 written since a batch last closed, with the values still in force: index x 256 + subindex
  (R393, R400) -/
  live : Tbl Nat := []
  /-- accepted commands, in acceptance order -/
  cmds : List Cmd := []
  nextSeq : Nat := 0
  /-- the core last accepted (R334) -/
  lastCore : Nat := 3
  /-- what each core's port reported last -/
  report : Tbl PortReport := []
  /-- run[e] (R375) -/
  run : Tbl Nat := []
  /-- ptr[e] (R376) -/
  ptr : Tbl Nat := []
  /-- def[e][p], key e x 16 + p (R376) -/
  deficit : Tbl Int := []
  batches : Tbl BatchEntry := []
  /-- mailbox of each core, oldest first -/
  mail : Tbl (List Mail) := []
  /-- entries that wait for a free mailbox entry, in order (R232) -/
  heldMail : List HeldMail := []
  /-- free entries of a mailbox: the spec gives no size -/
  mailCap : Nat := 64
  /-- regulator counts: partition x 8 + regulator (R369) -/
  bucket : Tbl Int := []
  /-- charges of the present microsecond (R369) -/
  charges : Tbl Nat := []
  /-- engine counters of window 0x4002: engine x 16 + subindex (R527) -/
  engCtr : Tbl Nat := []
  /-- domain states, key d of R561: 0 OFF, 1 WAKING, 2 ON, 3 CLOSING, 4 SELF_REFRESH, 5 TRAINING -/
  domain : Tbl Nat := []
  /-- times, in ns, of the last faults blamed on each Square (R430) -/
  sqFaults : Tbl (List Nat) := []
  /-- Squares that left service: 1 out of service, 2 under shadow qualification (R368, R430, R592) -/
  sqOut : Tbl Nat := []
  /-- chunks that ended while commands of theirs still ran: their tags are emptied once these have completed (R25, R427) -/
  orphans : List (Nat × Nat) := []
  /-- parts that peers have cancelled while commands of theirs still ran, as stream, chunk word and batch flag: their tags are
  emptied once these have completed (R465) -/
  cancelled : List (Nat × Nat × Bool) := []
  deriving DecidableEq, Repr

end Sys2Proof.Machine
end

