-- ==== Sys2Proof/Machine/Operands.lean ====
section
/-! DEFINITION. Command descriptors: their fields, operand records, opcodes, roles and the checks of acceptance
(chapter "Command descriptors and opcode reference"). -/

namespace Sys2Proof.Machine

/-! ### Descriptor words (R337, R338) -/

/-- OPCODE. -/
def Desc.opcode (d : Desc) : Nat := bits d.w0.toNat 0 8
/-- ENGINE. -/
def Desc.engine (d : Desc) : Nat := bits d.w0.toNat 8 8
/-- CLASS: true is BE. -/
def Desc.isBe (d : Desc) : Bool := bitAt d.w0.toNat 16
/-- PARTITION. -/
def Desc.part (d : Desc) : Nat := bits d.w0.toNat 17 4
/-- STREAM. -/
def Desc.stream (d : Desc) : Nat := bits d.w0.toNat 21 13
/-- The batch ID of a batch command. -/
def Desc.batchId (d : Desc) : Nat := bits d.w0.toNat 21 9
/-- CHUNK. -/
def Desc.chunk (d : Desc) : Nat := bits d.w0.toNat 34 16
/-- FENCE_E. -/
def Desc.fenceE (d : Desc) : Bool := bitAt d.w0.toNat 50
/-- FENCE_S. -/
def Desc.fenceS (d : Desc) : Bool := bitAt d.w0.toNat 51
/-- FENCE_P. -/
def Desc.fenceP (d : Desc) : Bool := bitAt d.w0.toNat 52
/-- FENCE_D. -/
def Desc.fenceD (d : Desc) : Bool := bitAt d.w0.toNat 53
/-- FENCE_X. -/
def Desc.fenceX (d : Desc) : Bool := bitAt d.w0.toNat 54
/-- RELEASE_ALL. -/
def Desc.releaseAll (d : Desc) : Bool := bitAt d.w0.toNat 55
/-- TRAP. -/
def Desc.trap (d : Desc) : Bool := bitAt d.w0.toNat 56
/-- OPL. -/
def Desc.opl (d : Desc) : Bool := bitAt d.w0.toNat 57
/-- BATCH. -/
def Desc.batch (d : Desc) : Bool := bitAt d.w0.toNat 58
/-- NOSTR. -/
def Desc.nostr (d : Desc) : Bool := bitAt d.w0.toNat 59
/-- DEADLINE. -/
def Desc.deadline (d : Desc) : Nat := d.w1.toNat
/-- A field of PARAM (W2). -/
def Desc.param (d : Desc) (lo w : Nat) : Nat := bits d.w2.toNat lo w
/-- PEER_MASK. -/
def Desc.peerMask (d : Desc) : Nat := bits d.w7.toNat 0 8
/-- COMP_CC. -/
def Desc.compCc (d : Desc) : Nat := bits d.w7.toNat 8 2
/-- COMP_EN. -/
def Desc.compEn (d : Desc) : Bool := bitAt d.w7.toNat 10
/-- CMD_TAG. -/
def Desc.cmdTag (d : Desc) : Nat := bits d.w7.toNat 16 16
/-- The list word of an OPL descriptor (R343): handle, row, count. -/
def Desc.listHandle (d : Desc) : Nat := bits d.w3.toNat 0 8
/-- LIST_OFF. -/
def Desc.listOff (d : Desc) : Nat := bits d.w3.toNat 8 16
/-- LIST_COUNT. -/
def Desc.listCount (d : Desc) : Nat := bits d.w3.toNat 24 7
/-- Words W3 to W6. -/
def Desc.word (d : Desc) (k : Nat) : Nat :=
  (if k = 3 then d.w3 else if k = 4 then d.w4 else if k = 5 then d.w5 else if k = 6 then d.w6 else 0).toNat

/-! ### Units (R15) -/

/-- Kinds of units that take commands. -/
inductive Unt where
  | mx | vx | se | at | inn | fe | tk | eg | ln | cc
  deriving DecidableEq, Repr

/-- The unit of an engine ID, none for a reserved ID (R15, R16). -/
def unitOf (e : Nat) : Option Unt :=
  if e < 0x40 then
    (if e % 8 ≤ 1 then some .mx else if e % 8 ≤ 3 then some .vx else if e % 8 = 4 then some .se
     else if e % 8 = 5 then some .at else none)
  else if e = 0x40 then some .inn
  else if e = 0x41 ∨ e = 0x42 then some .fe
  else if e = 0x43 ∨ e = 0x44 then some .tk
  else if e = 0x45 then some .eg
  else if 0x48 ≤ e ∧ e ≤ 0x4F then some .ln
  else if 0x50 ≤ e ∧ e ≤ 0x53 then some .cc
  else none

/-- The Square of an engine ID, none for global units. -/
def squareOf (e : Nat) : Option Nat := if e < 0x40 then some (e / 8) else none

/-! ### Operand records (R342) -/

/-- Reads an operand record. -/
def Operand.ofRec (r : Nat) : Operand :=
  { used := bits r 0 8 != 0xFF, handle := bits r 0 8, off := bits r 8 16, stride := bits r 24 16, mode := bits r 40 3
    readers := bits r 43 4, fmt := bits r 47 4, kind := bits r 51 3, xflag := bitAt r 54 }

/-- The number format of an FMT code, none for record formats and reserved codes. -/
def fmtOf (n : Nat) : Option Fmt :=
  [Fmt.int4, .int8, .uint8, .int16, .int32, .e4m3, .e5m2, .fp16, .bf16, .fp32][n]?

/-- Bits of one element of an FMT code: formats, SCALE_REC, REQ_REC, TOKEN16. -/
def fmtBits (n : Nat) : Nat :=
  match fmtOf n with
  | some f => f.width
  | none => if n = 10 then 128 else if n = 11 then 64 else 16

/-- What a role does with its rows. -/
inductive RoleUse where
  | read
  /-- written, with the modes that the opcode allows -/
  | write (modes : List Nat)
  /-- the mode of the record has no meaning: the opcode makes its own claims or none -/
  | free
  deriving DecidableEq, Repr

/-- A record role of an opcode (R345, R347). -/
structure Role where
  use : RoleUse
  required : Bool := true
  deriving DecidableEq, Repr

/-- Every write mode. -/
def anyWrite : RoleUse := .write [1, 2, 3, 4]

/-- A required role that reads. -/
def rd : Role := ⟨.read, true⟩
/-- An optional role that reads. -/
def rdOpt : Role := ⟨.read, false⟩
/-- A required role that writes. -/
def wr : Role := ⟨anyWrite, true⟩
/-- An optional role that writes. -/
def wrOpt : Role := ⟨anyWrite, false⟩
/-- A required role without a mode. -/
def noMode : Role := ⟨.free, true⟩
/-- A role that must stay unused. -/
def absent : Role := ⟨.free, false⟩

/-- An opcode: its unit, whether it needs an operand list, and the opcode words among W3 to W6 (R345, R348 to R351). -/
structure OpInfo where
  unt : Option Unt
  roles : List Role
  needsList : Bool := false
  words : List Nat := []
  deriving DecidableEq, Repr

/-- The opcode table (R345). Roles that depend on a parameter take it from the descriptor. -/
def opInfo (d : Desc) : Option OpInfo :=
  match d.opcode with
  | 0x00 => some ⟨none, [], false, []⟩
  | 0x10 => some ⟨some .mx, [rd, rd] ++ (if bitAt d.w2.toNat 40 then [rd, rd] else [absent, absent]), false, []⟩
  | 0x11 => some ⟨some .mx, [⟨.write [1, 2], true⟩], false, []⟩
  | 0x20 => some ⟨some .vx, [rdOpt, rdOpt, rdOpt, rdOpt, wr, wrOpt, rd, rdOpt, wrOpt, wrOpt], true, [4, 5]⟩
  | 0x21 => some ⟨some .vx, [rd, wr, rdOpt, wrOpt], false, []⟩
  | 0x30 => some ⟨some .se, [rd, wr, rd, noMode, rd], true, []⟩
  | 0x31 => some ⟨some .se, [rd, rd, noMode, rd, rd], true, []⟩
  | 0x40 => some ⟨some .at, [rd, rd], false, []⟩
  | 0x41 => some ⟨some .at, [rd, rd, ⟨.write [1, 4], true⟩, rd], false, []⟩
  | 0x42 => some ⟨some .at, [rd, rd, ⟨.write [1, 4], true⟩, rd], false, []⟩
  | 0x43 => some ⟨some .at, [rd, rd, wr], false, []⟩
  | 0x50 => some ⟨some .tk, [rd, wr], false, []⟩
  | 0x51 => some ⟨some .tk, [rd, wr], false, []⟩
  | 0x52 => some ⟨some .tk, [rd, rd, wr], false, []⟩
  | 0x53 => some ⟨some .tk, [rd, rd, rd, wr], false, []⟩
  | 0x54 => some ⟨some .tk, [rd, rd, wr, wr], false, []⟩
  | 0x58 => some ⟨some .eg, [rd, rd], false, []⟩
  | 0x59 => some ⟨some .eg, [rd, rd, wr, wr], false, []⟩
  | 0x5A => some ⟨some .eg, [rdOpt, rdOpt], false, []⟩
  | 0x60 => some ⟨some .inn, [noMode], false, []⟩
  | 0x64 => some ⟨some .fe, [rd], false, []⟩
  | 0x70 => some ⟨some .ln, (if d.param 0 2 = 0 then [wr] else if d.param 0 2 = 1 then [rd] else [rd, wr]), false,
                    if d.param 0 2 ≤ 1 then [4] else []⟩
  | 0x71 => some ⟨some .ln, (if d.param 0 2 = 0 then [wr] else if d.param 0 2 = 1 then [rd] else [absent]), false,
                    if d.param 0 2 ≤ 1 then [4] else [4, 5]⟩
  | 0x72 => some ⟨some .ln, [rd], false, []⟩
  | 0x73 => some ⟨some .ln, [], false, []⟩
  | 0x74 => some ⟨some .ln, [wr], false, []⟩
  | 0x7C => some ⟨some .cc, (if bitAt d.w2.toNat 6 then [absent] else [noMode]), false, []⟩
  | 0x7D => some ⟨some .cc, [], false, [3, 4, 5, 6]⟩
  | _ => none

/-- Fields of PARAM that an opcode uses: (low bit, width). Every other bit is reserved (R348 to R351). -/
def paramFields (op : Nat) : List (Nat × Nat) :=
  match op with
  | 0x10 => [(0, 41)]
  | 0x11 => [(0, 4)]
  | 0x20 => [(0, 37)]
  | 0x21 => [(0, 28), (32, 32)]
  | 0x30 => [(0, 48)]
  | 0x31 => [(0, 48)]
  | 0x40 => [(0, 62)]
  | 0x41 => [(0, 62)]
  | 0x42 => [(0, 62)]
  | 0x43 => [(4, 26), (32, 32)]
  | 0x50 => [(0, 64)]
  | 0x51 => [(0, 37)]
  | 0x52 => [(0, 38)]
  | 0x53 => [(0, 37)]
  | 0x54 => [(0, 20)]
  | 0x58 => [(0, 11)]
  | 0x59 => [(0, 19)]
  | 0x5A => [(0, 13)]
  | 0x70 => [(0, 19)]
  | 0x71 => [(0, 34)]
  | 0x72 => [(0, 51)]
  | 0x73 => [(0, 33)]
  | 0x74 => [(0, 47)]
  | 0x7C => [(0, 18)]
  | _ => []

/-- Bits of a word outside a list of fields. -/
def outside (n : Nat) (fs : List (Nat × Nat)) : Nat := fs.foldl (fun v f => setBits v f.1 f.2 0) n

/-- A binary32 word that is positive and normal (R233, R302). -/
def posNormal (w : Nat) : Bool := decide (0x00800000 ≤ w ∧ w < 0x7F800000)

/-- Element and row geometry of a MATMUL format pair (R159): E, and 1 when W rows serve two K-rows; none when the pair
is not allowed. -/
def matFormats (a w : Nat) : Option (Nat × Bool) :=
  if (a = 1 ∨ a = 2) ∧ w = 1 then some (512, false)
  else if (a = 1 ∨ a = 2) ∧ w = 0 then some (512, true)
  else if a = 0 ∧ w = 0 then some (1024, false)
  else if (a = 5 ∨ a = 6) ∧ (w = 5 ∨ w = 6) then some (512, false)
  else if a = 8 ∧ w = 8 then some (256, false)
  else if a = 7 ∧ w = 7 then some (256, false)
  else if a = 3 ∧ w = 3 then some (256, false)
  else none

/-- A number from `lo` to `hi`. -/
def within (lo hi n : Nat) : Bool := decide (lo ≤ n ∧ n ≤ hi)

/-- Whether the parameter words keep their ranges (code 0x45 of R352). `dev` is the device's own DEV_ID. -/
def paramInRange (dev : Nat) (d : Desc) (rec : Nat → Operand) : Bool :=
  match d.opcode with
  | 0x10 =>
    let e := ((matFormats (rec 0).fmt (rec 1).fmt).map (·.1)).getD 1024
    within 1 4 (d.param 3 3) && within 1 64 (d.param 10 7) && within 1 64 (d.param 17 7) && within 1 16 (d.param 24 5)
      && within 1 e (d.param 29 11)
      && (d.opl || (decide (1 ≤ (rec 0).stride ∧ 1 ≤ (rec 1).stride)))
  | 0x20 =>
    within 1 65536 (d.param 0 17) && within 1 65536 (d.param 17 17) && decide (d.param 0 17 * d.param 17 17 ≤ 2 ^ 24)
  | 0x21 => within 1 8192 (d.param 0 14) && within 1 4096 (d.param 14 13)
      && (d.opl || (decide (1 ≤ (rec 0).stride ∧ 1 ≤ (rec 1).stride)))
  | 0x30 =>
    within 1 1024 (d.param 0 11) && within 1 1024 (d.param 11 11) && decide (d.param 0 11 % d.param 11 11 = 0)
      && within 1 256 (d.param 22 9) && within 1 64 (d.param 31 7) && within 0 256 (d.param 38 9)
      && decide (d.param 0 11 * (6 * d.param 31 7 + 2 * d.param 38 9) ≤ 786432)
  | 0x31 =>
    within 1 1024 (d.param 0 11) && within 1 1024 (d.param 11 11) && decide (d.param 0 11 % d.param 11 11 = 0)
      && within 2 256 (d.param 22 9) && within 1 64 (d.param 31 7) && within 0 256 (d.param 38 9)
      && decide (d.param 0 11 * (6 * d.param 31 7 + 2 * d.param 38 9) ≤ 786432)
  | 0x40 => within 1 256 (d.param 4 9) && within 1 512 (d.param 13 10)
      && decide (d.param 23 4 = 0 ∧ d.param 27 20 = 0 ∧ d.param 47 14 = 0)
  | 0x41 => within 1 256 (d.param 4 9) && within 1 512 (d.param 13 10) && within 6 13 (d.param 23 4)
      && within 1 (2 ^ d.param 23 4) (d.param 47 14) && decide (d.param 61 1 = 0)
  | 0x42 => within 1 256 (d.param 4 9) && within 1 512 (d.param 13 10) && within 6 13 (d.param 23 4)
      && within 1 (2 ^ d.param 23 4) (d.param 47 14) && decide (d.param 61 1 = 0)
  | 0x43 => within 1 256 (d.param 4 9) && within 1 512 (d.param 13 10) && within 2 64 (d.param 23 7)
  | 0x50 => within 2 65536 (d.param 0 17) && within 1 4096 (d.param 17 13)
      && decide (d.param 48 16 < d.param 0 17)
  | 0x51 => within 2 65536 (d.param 0 17) && within 1 4096 (d.param 17 13) && within 1 64 (d.param 30 7)
  | 0x52 => within 2 65536 (d.param 0 17) && within 1 16 (d.param 17 5) && decide (d.param 22 16 < d.param 0 17)
  | 0x53 => within 2 65536 (d.param 0 17) && within 1 8 (d.param 17 4) && decide (d.param 21 16 < d.param 0 17)
  | 0x54 => within 0 4096 (d.param 0 13)
  | 0x58 => within 1 16 (d.param 0 5)
  | 0x59 => within 1 4096 (d.param 0 13)
  | 0x5A => within 1 4096 (d.param 0 13)
  | 0x70 => within 0 2 (d.param 0 2) && within 1 65536 (d.param 2 17)
      && (decide (d.param 0 2 = 2) || decide (bits d.w4.toNat 0 36 % 512 = 0))
  | 0x71 => within 1 (2 ^ 32 - 1) (d.param 2 32)
      && (decide (d.param 0 2 ≤ 1) || decide (bits d.w5.toNat 0 36 % 64 = 0))
  | 0x72 => within 1 65536 (d.param 3 17) && within 1 4 (d.param 44 3) && decide (d.param 0 3 ≠ dev)
  | 0x73 => decide (d.param 0 3 ≠ dev)
  | 0x74 => within 1 65536 (d.param 3 17) && decide (d.param 44 3 = 0 ∧ d.param 0 3 ≠ dev)
  | 0x7C => !bitAt d.w2.toNat 6 || decide (unitOf (d.param 7 8) = some .mx)
  | _ => true

/-- Whether the formats of the records are allowed (code 0x46 of R352): R159, R233, and FP32 or BF16 logits (R307). -/
def formatsAllowed (d : Desc) (rec : Nat → Operand) : Bool :=
  match d.opcode with
  | 0x10 => (matFormats (rec 0).fmt (rec 1).fmt).isSome
  | 0x21 => [7, 8, 9].contains (rec 0).fmt && [5, 6, 7, 8, 9].contains (rec 1).fmt
  | 0x50 => [8, 9].contains (rec 0).fmt
  | 0x51 => [8, 9].contains (rec 0).fmt
  | 0x52 => [8, 9].contains (rec 0).fmt
  | 0x53 => [8, 9].contains (rec 0).fmt
  | _ => true

/-- The rules that a VX_RUN's operand list must keep among its records (start check 0x60): formats by kind (R211, R212),
a TILE source, whose format is the tile's (R211, R213), the row of a PERM source (R225), PASS (R224). -/
def vxRecordsOk (d : Desc) (rec : Nat → Operand) : Bool :=
  let rows := d.param 0 17
  let elems := d.param 17 17
  let tile := [0, 1, 2, 3].any fun k => (rec k).used && (rec k).kind == 3
  ([0, 1, 2, 3].all fun k =>
    let o := rec k
    !o.used ||
      (match o.kind with
       | 0 => decide (o.fmt ≤ 9) && !tile
       | 1 => decide (o.fmt ≤ 11)
       | 2 => decide (o.fmt ≤ 11)
       | 3 => decide (o.off < 16 ∧ rows = 64 ∧ elems = 64)
       | 4 => decide (o.fmt ≤ 9 ∧ elems * fmtBits o.fmt ≤ 32768)
       | _ => false))
  && [4, 5].all fun k =>
    let o := rec k
    !o.used || (decide (o.fmt ≤ 9)
      && (!o.xflag || ((rec 0).used && (rec 0).kind == 0 && (rec 0).fmt == o.fmt)))

/-- The rules that an SE command's operand list must keep (start check 0x60): FMT of X is BF16, FP16 or INT16, the strides of
X and Y are at least ceil(LINES / 256), and the STATE handle is tagged (R255, R256). -/
def seRecordsOk (d : Desc) (rec : Nat → Operand) : Bool :=
  let least := (d.param 0 11 + 255) / 256
  [3, 7, 8].contains (rec 0).fmt && decide (least ≤ (rec 0).stride)
    && (d.opcode == 0x31 || decide (least ≤ (rec 1).stride))
    && decide ((rec (if d.opcode = 0x30 then 3 else 2)).slotRows ≠ 0)

/-- Whether the mode of a record obeys R347 for its role. Codes 5 to 7 are reserved (R342). -/
def modeAllowed (r : Role) (o : Operand) : Bool :=
  match r.use with
  | .read => o.mode == 0
  | .write ms => ms.contains o.mode
  | .free => decide (o.mode ≤ 4)

/-- READERS is a declared count in modes FILL and CLOSE, and 0 otherwise (R342). -/
def readersAllowed (o : Operand) : Bool := o.mode == 1 || o.mode == 4 || o.readers == 0

/-- Whether a record is present as its role wants (code 0x4B of R352). -/
def presenceOk (r : Role) (o : Operand) : Bool :=
  if r.required then o.used else (r.use != .free || !o.used)

/-- The inline records of a descriptor in role order (R343). -/
def Desc.inlineRec (d : Desc) (k : Nat) : Operand := Operand.ofRec (d.word (3 + k))

/-- The words of W3 to W6 that a descriptor leaves reserved. -/
def reservedWords (d : Desc) (i : OpInfo) : List Nat :=
  [3, 4, 5, 6].filter fun k =>
    !i.words.contains k && (if d.opl then k != 3 else decide (i.roles.length ≤ k - 3))

/-- Reserved bits of the opcode words: above an HBM address of 36 bits (R351). -/
def reservedAbove (d : Desc) : Bool :=
  (d.opcode == 0x70 && decide (d.param 0 2 ≤ 1) && bits d.w4.toNat 36 28 != 0)
    || (d.opcode == 0x71 && decide (2 ≤ d.param 0 2) && bits d.w5.toNat 36 28 != 0)

/-- Any reserved bit or word that is not 0 (code 0x44 of R352). -/
def reservedSet (d : Desc) (i : OpInfo) : Bool :=
  bits d.w0.toNat 60 4 != 0 || bits d.w7.toNat 11 5 != 0 || bits d.w7.toNat 32 32 != 0
    || outside d.w2.toNat (paramFields d.opcode) != 0
    || (reservedWords d i).any (fun k => d.word k != 0)
    || (if d.opl then bits d.w3.toNat 31 33 != 0
        else (List.range i.roles.length).any fun k => bits (d.word (3 + k)) 55 9 != 0)
    || reservedAbove d

/-- Whether a record is a FILL or a CLOSE. -/
def fills (r : Role) (o : Operand) : Bool :=
  match r.use with
  | .write _ => o.used && (o.mode == 1 || o.mode == 4)
  | _ => false

/-- A role that its opcode lets be a FILL or a CLOSE. -/
def mayFill (r : Role) : Bool :=
  match r.use with
  | .write ms => ms.contains 1 || ms.contains 4
  | _ => false

/-- The tile of a MATMUL that it fills or closes. -/
def fillsTile (d : Desc) : Bool := d.opcode == 0x10 && (d.param 3 3 == 1 || d.param 3 3 == 4)

/-- A FILL or CLOSE role among the inline records, or a MATMUL tile so filled; with an operand list, a role that may be one (for
RELEASE_ALL, code 0x4F). -/
def hasFillRole (d : Desc) (i : OpInfo) : Bool :=
  fillsTile d || (if d.opl then i.roles.any mayFill
                  else (List.range i.roles.length).any fun k => fills (i.roles.getD k absent) (d.inlineRec k))

end Sys2Proof.Machine
end

