-- ==== Sys2Proof/Machine/StateStream.lean ====
section
/-! DEFINITION. State of model slots, streams, chunks, cache pages and egress: plain data only. -/

namespace Sys2Proof.Machine

/-- STATE of a stream table entry (R23), in the order of the codes 0x0 to 0x9. -/
inductive StreamState where
  | free | opening | active | idle | parked | draining | migrating | held | closed | lost
  deriving DecidableEq, Repr

/-- A record of an output ring: words W0 to W7 (R323). -/
structure Rec where
  w0 : Nat
  w1 : Nat := 0
  w2 : Nat := 0
  w3 : Nat := 0
  w4 : Nat := 0
  w5 : Nat := 0
  w6 : Nat := 0
  w7 : Nat := 0
  deriving DecidableEq, Repr

/-! ### Model slots -/

/-- The cache descriptor of a package that uses AT (R264). -/
structure CacheDesc where
  layers : Nat := 1
  latW : Nat := 64
  latFmt : Nat := 8
  heads : Nat := 1
  headDim : Nat := 32
  maxTokens : Nat := 0
  splitTokens : Nat := 0
  histRow : Nat := 11
  deriving DecidableEq, Repr, Inhabited

/-- SELECT of a token descriptor (R306). -/
inductive SelectMode where
  | ctcGreedy | ctcPrefix | rnntGreedy | attnGreedy | attnBeam | none
  deriving DecidableEq, Repr, Inhabited

/-- The token descriptor of a package (R306). -/
structure TokenDesc where
  vocab : Nat := 2
  select : SelectMode := .none
  blankId : Nat := 0
  endId : Nat := 0
  beams : Nat := 1
  symMax : Nat := 1
  stepMax : Nat := 1
  draftHead : Bool := false
  tokctxRow : Nat := 11
  detokOffset : Nat := 0
  detokBytes : Nat := 0
  olaFrame : Nat := 0
  olaHop : Nat := 0
  olaRow : Nat := 0
  deriving DecidableEq, Repr, Inhabited

/-- One state-engine layer of a layer table (R241, R251): coefficients as binary32 words, pairs real then imaginary. -/
structure SeLayer where
  modes : Nat := 1
  firLen : Nat := 0
  lambda : List (Nat × Nat) := []
  b : List (Nat × Nat) := []
  c : List (Nat × Nat) := []
  fir : List Nat := []
  chunkSteps : Option Nat := none
  powers : List (Nat × Nat) := []
  deriving DecidableEq, Repr, Inhabited

/-- What the device takes from a layer table. The spec names these parts and not their byte layout. -/
structure LayerTable where
  /-- bytes the table takes (what MODEL_HASH covers, R38) -/
  bytes : Nat := 0
  /-- every layer uses formats, opcodes and sizes the die supports (step 5 of R40) -/
  supported : Bool := true
  cache : Option CacheDesc := none
  token : TokenDesc := {}
  seLayers : List SeLayer := []
  /-- Square masks of a placement map, empty when the package has none (R383) -/
  placeMap : List Nat := []
  /-- bytes of each layer's block of the weight image (R385) -/
  blocks : List Nat := []
  /-- working handles and rows declared for a batch size (R396) -/
  workHandles : Nat := 0
  workRows : Nat := 0
  deriving DecidableEq, Repr, Inhabited

/-- One cost-table entry (R39). -/
structure CostEntry where
  batch : Nat
  chunkMs : Nat
  enc : Nat
  dec : Nat
  tok : Nat
  deriving DecidableEq, Repr

/-- A model slot (R38 to R42, R523). `state`: 0 EMPTY, 1 LOADING, 2 LOADED, 3 UNLOADING. -/
structure ModelSlot where
  state : Nat := 0
  pkg : List Byte := []
  table : LayerTable := {}
  partMask : Nat := 0
  /-- the two copies of the weight image, in different stacks: ranges of HBM as (address, bytes), in image order (R40, R620) -/
  copyA : List (Nat × Nat) := []
  copyB : List (Nat × Nat) := []
  /-- copies with an unreadable line: bit 0 the first, bit 1 the second (R433) -/
  badCopies : Nat := 0
  changeCount : Nat := 0
  /-- while LOADING: HOST_TAG, package length and ring of the MODEL_LOAD entry -/
  hostTag : Nat := 0
  pkgLen : Nat := 0
  ring : Nat := 0
  /-- resident blocks: (block, rows, last use) (R385) -/
  resident : List (Nat × Nat × Nat) := []
  deriving DecidableEq, Repr

/-! ### Cache pages -/

/-- One entry of a page table (R276). -/
structure PageEntry where
  page : Nat := 0
  valid : Bool := false
  shared : Bool := false
  deriving DecidableEq, Repr

/-- One copy of a sequence's page table (R276). -/
structure PageTable where
  committedLen : Nat := 0
  workLen : Nat := 0
  rebuiltLen : Nat := 0
  prefixEnd : Nat := 0
  workChunk : Nat := 0
  headroom : Option Nat := none
  model : Nat := 0
  part : Nat := 0
  gen : Nat := 0
  entries : List PageEntry := []
  deriving DecidableEq, Repr

/-- An edit of a page table that waits until the copy that it writes has no walkers (step 1 of R279): the named page and those
after it leave (R294), every page leaves (R293). -/
inductive DueEdit where
  | lost (page : Nat) | drop
  deriving DecidableEq, Repr

/-- A sequence: its root (R275), the two table copies, walker counts and reclaim lists (R278, R279). -/
structure Sequence where
  /-- VALID of the root; an ended sequence stays listed while walkers or reclaim lists of it remain -/
  valid : Bool := true
  cur : Bool := false
  gen : Nat := 0
  rebuild : Bool := false
  pageWait : Bool := false
  waitSince : Nat := 0
  /-- device row of copy A and rows per copy (R275) -/
  tblRow : Nat := 0
  tblRows : Nat := 0
  copyA : PageTable := {}
  copyB : PageTable := {}
  walkersA : Nat := 0
  walkersB : Nat := 0
  reclaimA : List Nat := []
  reclaimB : List Nat := []
  /-- the chunk with which it is a member of a decoder batch, and when it last joined one (R290) -/
  joined : Option Nat := none
  admittedAt : Nat := 0
  lastWalk : Nat := 0
  /-- first position of the rebuild step in progress, whose later layers are still to append (R300) -/
  rebuildAt : Option Nat := none
  /-- edits that wait (R279) -/
  due : List DueEdit := []
  deriving DecidableEq, Repr

/-- A node of the prefix tree (R283). -/
structure TreeNode where
  slot : Nat
  part : Nat
  parent : Nat
  tokens : List Nat
  page : Nat
  lastUse : Nat := 0
  deriving DecidableEq, Repr

/-- Page pools, sequences and the prefix tree. -/
structure Pages where
  /-- first row of the page-pool region: Brusk's own choice -/
  poolBase : Nat := 0
  /-- spill frames: frame x 32,768 + byte (R270) -/
  spill : Mem := []
  /-- spill frames that hold an unreadable line -/
  spillBad : List Nat := []
  /-- the HBM stack that the next spill frame is taken from (R271) -/
  spillStack : Nat := 0
  seqs : Tbl Sequence := []
  /-- on-chip frames that LC work took from its reserve (R412) -/
  reserveFrames : List Nat := []
  nodes : Tbl TreeNode := []
  nextNode : Nat := 0
  deriving DecidableEq, Repr

/-! ### Streams -/

/-- Parameters of a stream (R28). Times in ms; `cls` 0 LC, 1 BE. -/
structure StreamCfg where
  part : Nat := 0
  model : Nat := 0
  fallback : Option Nat := none
  cls : Nat := 0
  chunkMs : Nat := 0
  lookMs : Nat := 0
  budgetMs : Nat := 0
  inFormat : Nat := 0
  inRate : Nat := 0
  outFormat : Nat := 0
  outRing : Nat := 0
  provisional : Bool := false
  carried : Bool := false
  dcBlock : Bool := false
  gapMs : Nat := 200
  idleMs : Nat := 5000
  deriving DecidableEq, Repr

/-- A gap record waiting for its chunk's commit (R80). -/
structure GapRec where
  gapNs : Nat
  zeros : Nat
  pos : Nat
  deriving DecidableEq, Repr

/-- A model-rate sample that IN has delivered: its value, the value before the DC blocker, its ingest timestamp, and
whether it comes of zeros inserted under R79. -/
structure Sample where
  v : Nat
  y : Nat := 0
  ts : Nat := 0
  z : Bool := false
  deriving DecidableEq, Repr

/-- Ingest of a stream: IN's conversion, gap and resampler state and the model-rate samples not yet passed by FE. -/
structure Ingest where
  /-- ENTRY_SEQ expected next -/
  entrySeq : Nat := 0
  /-- expected PTS, once a stamped entry has set the base (R78) -/
  expectedPts : Option Nat := none
  /-- inputs and outputs since the last restart (R83) -/
  inCount : Nat := 0
  outCount : Nat := 0
  /-- the last 48 input values, newest first -/
  delay : List Nat := []
  /-- state of the DC blocker (R84) -/
  dcIn : Nat := 0
  dcOut : Nat := 0
  /-- model-rate samples from position `bufPos` on -/
  buf : List Sample := []
  bufPos : Nat := 0
  /-- the chunk in progress: its number and its first position -/
  chunkNo : Nat := 0
  chunkStart : Nat := 0
  /-- GAP records that wait for the chunk they fall to (R80) -/
  gaps : List GapRec := []
  /-- ingest timestamp of the last consumed entry (R82) -/
  lastTs : Nat := 0
  /-- the idle timer has expired and the stream goes IDLE when its last chunk commits (R82) -/
  idlePending : Bool := false
  /-- counters of R77 -/
  samplesIn : Nat := 0
  nonfinite : Nat := 0
  clamped : Nat := 0
  clipped : Nat := 0
  formatViolation : Nat := 0
  gapsFilled : Nat := 0
  gapEvents : Nat := 0
  zeroInserted : Nat := 0
  ptsOverlap : Nat := 0
  deriving DecidableEq, Repr

/-- CMVN statistics after a frame (R89). -/
structure FeStats where
  mean : List Nat := []
  var : List Nat := []
  n : Nat := 0
  deriving DecidableEq, Repr, Inhabited

/-- The live ingest context of FE (R92): statistics, and the samples before the chunk in hand. -/
structure FeContext where
  stats : FeStats := {}
  tail : List Nat := []
  /-- frames computed as look-ahead and still to be delivered as owned frames (R86): end position, row, statistics -/
  ahead : List (Nat × List Byte × FeStats) := []
  deriving DecidableEq, Repr

/-- An unresolved provisional range (R322): RANGE_ID, first position, chunk, drafts. -/
structure Ledger where
  range : Nat
  pos : Nat
  chunk : Nat
  drafts : List Nat
  deriving DecidableEq, Repr

/-- EG's state store for a stream (R424), with the provisional ledger (R322). -/
structure EgStore where
  pubNext : Nat := 0
  lastCommit : Option Nat := none
  rangeNext : Nat := 0
  ledger : Option Ledger := none
  deriving DecidableEq, Repr

/-- The commit record (R418). -/
structure CommitRec where
  cur : Bool := false
  step : Nat := 0
  committed : Bool := false
  commitSeq : Nat := 0
  model : Nat := 0
  staged : Nat := 0
  /-- winning beam of the commit in progress, for its later steps (R310): the model's own note -/
  beam : Nat := 0
  deriving DecidableEq, Repr

/-- An EXPORT or MIGRATE_OUT that has acted and waits for its capture (R63). -/
structure ExportReq where
  opcode : Nat
  hostTag : Nat
  ring : Nat
  /-- last chunk of the capture boundary plus one -/
  boundary : Nat
  bufAddr : Nat := 0
  bufLen : Nat := 0
  detach : Bool := false
  dest : Nat := 0
  /-- the blob, once captured, waiting to be written -/
  blob : List Byte := []
  captured : Bool := false
  deriving DecidableEq, Repr

/-- One entry of the stream table that is not FREE. -/
structure Stream where
  state : StreamState := .opening
  cfg : StreamCfg := {}
  ing : Ingest := {}
  fe : FeContext := {}
  eg : EgStore := {}
  cr : CommitRec := {}
  /-- chunks committed: number of the next chunk to commit (R524) -/
  nextSeq : Nat := 0
  /-- first model-rate sample, or token, not covered by committed chunks (R66) -/
  samplePos : Nat := 0
  /-- scratchpad state slot: first row of S0; S1 follows (R44) -/
  slot : Option Nat := none
  /-- unreadable mirror copies: bit n for Mn (R50) -/
  badMirror : Nat := 0
  /-- the model of the last chunk placed (R524) -/
  running : Nat := 0
  /-- decision state of R389, R390: runs its fallback; consecutive good chunks; a switch waiting for its record:
  (FROM, TO, BACK, SLACK_US) -/
  onFallback : Bool := false
  hyst : Nat := 0
  switch : Option (Nat × Nat × Bool × Int) := none
  lastSlackUs : Int := 0
  /-- the CLOSE that drains the stream: HOST_TAG (R61) -/
  closing : Option Nat := none
  /-- exports and migrations that have acted and are not captured, in order -/
  exports : List ExportReq := []
  /-- timestamps of the CLOSE that padded the last chunk, for look-ahead (R25) -/
  closeTs : Nat := 0
  lastCommitTime : Nat := 0
  /-- LC load and cache pages reserved at admission (R367, R368) -/
  load : Nat := 0
  lcPages : Nat := 0
  deadlineMisses : Nat := 0
  symLimit : Nat := 0
  audioTrunc : Nat := 0
  utf8Replaced : Nat := 0
  /-- source of a HELD or awaited copy: DEV_ID and stream there; ring and HOST_TAG of the MIGRATE_IN (R468) -/
  peerDev : Nat := 0
  peerStream : Nat := 0
  hostTag : Nat := 0
  /-- while OPENING: ring of the entry, and BLOB_LEN of an IMPORT -/
  entRing : Nat := 0
  blobLen : Nat := 0
  /-- the entry was taken by MIGRATE_IN -/
  fromPeer : Bool := false
  heldSince : Nat := 0
  deriving DecidableEq, Repr

/-- Where a chunk stands between its formation and its commit. -/
inductive ChunkPhase where
  | forming | full | ready | placed | backoff | committing | aborting
  deriving DecidableEq, Repr

/-- An abort in progress, until the chunk's issued commands have run to completion (R427): the fault's class, whether no replay
follows, the Square to blame, and the phase that the chunk returns to. -/
structure Abort where
  cls : Nat
  final : Bool
  sq : Option Nat
  back : ChunkPhase
  deriving DecidableEq, Repr

/-- A hypothesis of a beam search: its score, its tokens, and whether END_ID ended it (R310). -/
structure Hypothesis where
  score : Nat := 0
  ids : List Nat := []
  finished : Bool := false
  deriving DecidableEq, Repr

/-- What the token stage keeps of a chunk as it decodes (R309 to R312, R316). -/
structure Decoding where
  /-- tokens emitted so far -/
  tokens : List Nat := []
  /-- END_ID or STEP_MAX has ended the chunk -/
  done : Bool := false
  /-- transducer: symbols of the present frame, and frames that SYM_MAX ended -/
  frameSyms : Nat := 0
  symLimits : Nat := 0
  /-- the label of the last frame of a CTC head, blank included -/
  label : Option Nat := none
  /-- beam search: the hypotheses in beam order, and the expansions run -/
  beams : List Hypothesis := [{}]
  steps : Nat := 0
  deriving DecidableEq, Repr

/-- A chunk that has been formed and has not ended (R32, R91, R382). -/
structure Chunk where
  sid : Nat
  no : Nat
  phase : ChunkPhase := .forming
  start : Nat := 0
  /-- owned model-rate samples, hop padding included; tokens for synthesis -/
  owned : Nat := 0
  /-- the chunk ended at EOU, an idle timer or a CLOSE -/
  ended : Bool := false
  /-- every sample that the chunk needs has been consumed, and its deadline is set -/
  complete : Bool := false
  /-- 0: look-ahead from later audio; 1: none (EOU); 2: samples before `lookEnd`, then zeros (R35, R25) -/
  lookKind : Nat := 0
  lookEnd : Nat := 0
  zeros : Bool := false
  deadline : Nat := 0
  budgetMs : Nat := 0
  provisional : Bool := false
  /-- the fallback model in force as the chunk began formation (R58) -/
  fallbackSlot : Option Nat := none
  draftMax : Nat := 0
  /-- SAT_THRESHOLD and WIDEN_K_MAX as the chunk began formation (R207) -/
  satThreshold : Nat := 4
  widenK : Nat := 8
  model : Option Nat := none
  square : Nat := 0
  frames : Nat := 0
  gaps : List GapRec := []
  tokens : List Nat := []
  /-- the input slot: device row, rows written, whether it is held; its copy in the recovery extent (R421) -/
  base : Nat := 0
  rows : Nat := 0
  slotHeld : Bool := false
  extent : List Byte := []
  extentHeld : Bool := false
  extentBad : Bool := false
  /-- state of the DC blocker after the last owned sample, and statistics after the last owned frame (R92) -/
  dcIn : Nat := 0
  dcOut : Nat := 0
  snap : FeStats := {}
  zeroed : Bool := false
  /-- when the chunk was last placed in a batch (R290) -/
  placedAt : Nat := 0
  /-- the abort in progress in phase `aborting` (R427) -/
  abort : Option Abort := none
  aborts : Nat := 0
  backoffUntil : Nat := 0
  /-- when the chunk became ready (R380, R381) -/
  readyAt : Nat := 0
  blamed : Option Nat := none
  /-- drafts selected and the accepted count (R316) -/
  drafts : List Nat := []
  accepted : Nat := 0
  dec : Decoding := {}
  /-- staged COMMIT_TOKENS records in scratchpad and in the extent (R422) -/
  staged : List Rec := []
  stagedCopy : List Rec := []
  /-- synthesis: encoded bytes, clipped samples, first sample position -/
  audio : List Byte := []
  audioClipped : Nat := 0
  /-- output samples of those bytes, frames not added, and U+FFFD substitutions, which count at the commit -/
  audioSamples : Nat := 0
  trunc : Nat := 0
  replaced : Nat := 0
  committedTokens : List Nat := []
  /-- OUT_POS of the committed state that the chunk reads (R325) -/
  outPos : Nat := 0
  /-- slack in ns under the primary model, evaluated as the batch closed, and whether it reached the threshold (R388) -/
  slack : Option (Int × Bool) := none
  /-- the FALLBACK record that its commit publishes: FROM, TO, BACK, SLACK_US (R389, R390) -/
  fallback : Option (Nat × Nat × Bool × Int) := none
  /-- what the commit makes of the stream (R24, R26, R82): 0 nothing, 1 IDLE, 2 drained, 3 its last number, 4 a CLOSE in
  ABORT mode that met it past its commit point -/
  closeKind : Nat := 0
  deriving DecidableEq, Repr

/-- A forming or closed batch and its reservations (R380, R395, R396). -/
structure Batch where
  model : Nat
  cls : Nat
  chunkMs : Nat
  members : List (Nat × Nat) := []
  closedAt : Nat := 0
  deadline : Nat := 0
  square : Nat := 0
  /-- reservation level held, 0 to 5 -/
  level : Nat := 0
  waitSince : Nat := 0
  slots : Nat := 0
  /-- predicted time in ns, and the Square of each layer under PINNED (R383, R387) -/
  pred : Rat := 0
  layers : List Nat := []
  handles : Nat := 0
  rows : Nat := 0
  /-- its remote parts have their descriptors (level 4) -/
  crossing : Bool := false
  deriving DecidableEq, Repr

/-- One publication that waits for egress room (R328): a commit at step 4, by its stream, or records of another
publication with the audio run of each. -/
structure Waiting where
  part : Nat
  ring : Nat
  commit : Option Nat := none
  recs : List (Rec × List Byte) := []
  /-- the mark of its records (R141) -/
  mark : Nat := 0
  /-- an OPENING entry that becomes FREE with this publication (R20) -/
  frees : Option Nat := none
  /-- a model slot that becomes usable with this publication (R41) -/
  loads : Option Nat := none
  deriving DecidableEq, Repr

/-- One commit-log entry (R425). -/
structure LogEntry where
  sid : Nat
  chunk : Nat
  cur : Bool
  cacheLen : Nat
  recFirst : Nat
  recCount : Nat
  model : Nat
  time : Nat
  deriving DecidableEq, Repr

/-- Streams, chunks, batches and models. -/
structure Streams where
  tab : Tbl Stream := []
  epoch : Tbl Nat := []
  chunks : List Chunk := []
  /-- mirror buffers: (stream x 2 + n) x 196,608 + byte (R44) -/
  mirror : Mem := []
  models : Tbl ModelSlot := []
  batches : Tbl Batch := []
  /-- the commit log, newest last, at most 2^20 entries (R425) -/
  log : List LogEntry := []
  /-- publications that wait, in the order in which they began to wait (R328) -/
  waiting : List Waiting := []
  /-- deadline misses of the present second (R392) -/
  missSecond : Nat := 0
  /-- working handles and rows held by batches (R396) -/
  workRowsFree : Nat := 65536
  useClock : Nat := 0
  deriving DecidableEq, Repr

end Sys2Proof.Machine
end

