-- ==== Sys2Proof/Machine/StateHost.lean ====
section
/-! DEFINITION. State of the host interface: rings, egress queues, interrupts, mailboxes, functions. -/

namespace Sys2Proof.Machine

/-- A submission ring (R537, R539). -/
structure SubRing where
  base : Nat := 0
  log2 : Nat := 8
  enable : Bool := false
  headWb : Nat := 0
  head : Nat := 0
  tail : Nat := 0
  /-- HEAD as last written to HEAD_WB -/
  headWritten : Nat := 0
  deriving DecidableEq, Repr

/-- An output ring with its egress queue (R328, R537, R540, R541). -/
structure OutRing where
  base : Nat := 0
  log2 : Nat := 8
  enable : Bool := false
  vector : Nat := 0
  prodWb : Nat := 0
  modRecords : Nat := 1
  modUs : Nat := 0
  audioBase : Nat := 0
  audioBytes : Nat := 0
  prod : Nat := 0
  cons : Nat := 0
  /-- PROD at the last message, and whether the moderation timer runs (R541) -/
  pSent : Nat := 0
  timer : Bool := false
  /-- the egress queue in HBM, oldest first, at most 4,096 records (R328), with the audio run of an AUDIO_OUT record -/
  queue : List (Rec × List Byte) := []
  /-- for each queued record, the acceptance number from which on a FENCE_D command must wait for it (R141, R157) -/
  marks : List Nat := []
  /-- records ever published to the queue (R424) -/
  pubIndex : Nat := 0
  /-- audio area: next offset, bytes held by runs that the host has not passed, and (record index, bytes) of each -/
  audioNext : Nat := 0
  audioHeld : Nat := 0
  audioRuns : List (Nat × Nat) := []
  deriving DecidableEq, Repr

/-- The mailbox of a function (R543). -/
structure Mailbox where
  index : Nat := 0
  sub : Nat := 0
  write : Bool := false
  first : Bool := false
  last : Bool := false
  offset : Nat := 0
  len : Nat := 0
  busy : Bool := false
  done : Bool := false
  goIgnored : Bool := false
  abort : Nat := 0
  respLen : Nat := 0
  respLast : Bool := false
  total : Nat := 0
  data : List Byte := []
  /-- a segmented write in progress: index, subindex and the bytes so far -/
  xfer : Option (Nat × Nat × List Byte) := none
  /-- the abort code of a transfer that ended between segments, for the segment that comes next -/
  xferAbort : Nat := 0
  deriving DecidableEq, Repr

/-- A function and its partition block (R535, R537, R541, R544, R546). -/
structure Function where
  present : Bool := false
  bme : Bool := false
  /-- Max Payload Size and Max Read Request Size, as powers of two above 128 bytes; ASPM L1 (R534) -/
  payload : Nat := 0
  readReq : Nat := 2
  aspmL1 : Bool := false
  /-- AER: a completion timeout stands as an uncorrectable non-fatal error (R544) -/
  aerTimeout : Bool := false
  mbxVector : Nat := 0
  /-- flags DB_INVALID, DB_DISABLED, CFG_LOCKED, CFG_INVALID as bits 0 to 3 -/
  errFlags : Nat := 0
  errEvents : Nat := 0
  sq : Tbl SubRing := []
  oq : Tbl OutRing := []
  /-- MSI-X: masked vectors, pending bits, and messages sent (vectors, oldest first) -/
  masked : Nat := 0xFFFF
  /-- address and data words of the MSI-X table: vector x 4 + 0 to 2 -/
  msixTable : Tbl Nat := []
  pending : Nat := 0
  sent : List Nat := []
  mbx : Mailbox := {}
  /-- an FLR or partition reset in progress -/
  resetting : Bool := false
  deriving DecidableEq, Repr

/-- The host interface. -/
structure HostIf where
  /-- functions by partition: 0 the PF, n VF n -/
  fns : Tbl Function := []
  numVfs : Nat := 0
  linkUp : Bool := false
  /-- rate and width that the link negotiated (R534) -/
  linkRate : LinkRate := .gt16
  linkWidth : LinkWidth := .x16
  /-- PERST_N released (R613) -/
  perstReleased : Bool := false
  /-- bytes that the device has written to host memory -/
  mem : Mem := []
  /-- what the last read of the debug window returned (R545) -/
  windowData : List Byte := []
  deriving DecidableEq, Repr

end Sys2Proof.Machine
end

