-- ==== Sys2Proof/Machine/StateLink.lean ====
section
/-! DEFINITION. State of the Crossings and of the timebase. -/

namespace Sys2Proof.Machine

/-- State of a Crossing port (R460), in the order of the codes 0 to 7. -/
inductive PortState where
  | disabled | down | detect | lock | deskew | ident | up | held
  deriving DecidableEq, Repr

/-- A frame of the link (R453): channel, type, link sequence number, header fields and payload. -/
structure Frame where
  vc : Nat
  type : Nat
  seq : Nat := 0
  part : Nat := 0
  txn : Nat := 0
  frame : Nat := 0
  payload : List Byte := []
  /-- receive timestamp, in units of 2^-32 ns (R479) -/
  at_ : Nat := 0
  deriving DecidableEq, Repr

/-- A Crossing port (R457 to R462, R470, R479). -/
structure XPort where
  state : PortState := .down
  enable : Bool := true
  peerDev : Nat := 0xFF
  downReason : Nat := 0
  framesTx : Nat := 0
  framesRx : Nat := 0
  crcErrors : Nat := 0
  retries : Nat := 0
  downEvents : Nat := 0
  attempts : Nat := 0
  rxDiscarded : Nat := 0
  /-- training: consecutive good IDENT frames received, and PEER_OK seen (R460) -/
  identGood : Nat := 0
  peerOk : Bool := false
  /-- transmitter: next SEQ, frames unacknowledged (oldest first), retry count (R457, R458) -/
  txSeq : Nat := 0
  retry : List Frame := []
  retryCount : Nat := 0
  /-- frames waiting for a credit, per channel 0 to 3, oldest first -/
  txQueue : List Frame := []
  /-- credits held per channel (R459) -/
  credit : List Nat := [48, 48, 8, 16]
  /-- VC0 frames passed over since the last one sent (R459) -/
  vc0Passed : Nat := 0
  /-- receiver: SEQ expected, accepted frames not yet acknowledged, whether a gap is to be signalled (R457) -/
  rxSeq : Nat := 0
  unacked : Nat := 0
  nakDue : Bool := false
  nakSent : Bool := false
  /-- credits to return, per channel -/
  owed : List Nat := [0, 0, 0, 0]
  /-- accepted frames waiting to be acted on, oldest first -/
  rx : List Frame := []
  /-- blocks sent to the lanes, oldest first (R452) -/
  lanes : List Block := []
  /-- transaction numbers of this device's own open object requests (R506) -/
  open_ : List Nat := []
  nextTxn : Nat := 0
  deriving DecidableEq, Repr

/-- A receive descriptor (R463). -/
structure RxDesc where
  src : Nat
  part : Nat
  handle : Nat
  first : Nat
  rows : Nat
  /-- device row of the first row -/
  base : Nat
  stream : Nat
  batch : Bool := false
  chunk : Nat
  mode : Nat
  /-- the tag that the registration claimed, none when the handle is untagged (R463) -/
  tag : Option Nat := none
  /-- registered by this device's own CC1, for a chunk or a batch of its own -/
  home : Bool := false
  /-- the WRITE frames of the row that arrive now, with their bytes: four in a row write it whole (R464) -/
  run : List (Nat × List Byte) := []
  /-- quarter rows landed -/
  landed : List Nat := []
  /-- WRITE_END frames whose rows have not all landed: first row within the descriptor, rows, mode, readers -/
  ends : List (Nat × Nat × Nat × Nat) := []
  deriving DecidableEq, Repr

/-- What an RX_REG frame says (R463). The spec gives no byte layout of its payload. -/
inductive RxMsg where
  | request (handle first rows stream : Nat) (batch : Bool) (chunk mode : Nat)
  | grant (handle first rows number : Nat)
  | denial
  deriving DecidableEq, Repr, Inhabited

/-- What an IDENT frame says (R460). The spec gives no byte layout of its payload. -/
structure IdentMsg where
  dev : Nat
  port : Nat
  version : Nat
  credits : List Nat
  squares : Nat
  peerOk : Bool
  deriving DecidableEq, Repr, Inhabited

/-- A descriptor that a peer has granted to this device (R464). -/
structure TxGrant where
  peer : Nat
  part : Nat
  handle : Nat
  first : Nat
  rows : Nat
  number : Nat
  deriving DecidableEq, Repr

/-- A remote operation of this device that waits for an answer: the command it belongs to and its frame. -/
structure RemoteOp where
  port : Nat
  txn : Nat
  cmd : Nat
  req : Frame
  /-- device row where read data lands -/
  base : Nat := 0
  left : Nat := 0
  /-- waiting for the 1 µs retry timer -/
  retrying : Bool := false
  deriving DecidableEq, Repr

/-- A migration: this side, its peer, its stage and what it has moved (R468). -/
structure Migration where
  sid : Nat
  source : Bool
  port : Nat
  /-- transaction number of the source, which every frame of the migration carries (R453) -/
  txn : Nat := 0
  peerStream : Nat := 0
  /-- 0 offered, 1 not ready, 2 receiving, 3 waiting for ACK or release, 4 waiting for release after MIGRATE_HELD -/
  stage : Nat := 0
  firstOffer : Nat := 0
  blob : List Byte := []
  blobLen : Nat := 0
  deriving DecidableEq, Repr

/-- A walk granted to a peer: port, sequence, copy, chunk word (R467). -/
structure Walk where
  port : Nat
  seq : Nat
  copy : Bool
  chunk : Nat
  deriving DecidableEq, Repr

/-- What a part that this device runs for a peer holds of the owner's table of a sequence: the bytes of WALK_DATA (R467). -/
structure PeerTable where
  port : Nat
  cmd : Nat
  seq : Nat
  bytes : List Byte := []
  deriving DecidableEq, Repr

/-- What a part that this device runs for a peer has read of a page of the owner (R467). -/
structure PeerPage where
  cmd : Nat
  page : Nat
  bytes : List Byte
  deriving DecidableEq, Repr

/-- The Crossings. -/
structure Crossings where
  devId : Nat := 0
  strapBad : Bool := false
  ports : Tbl XPort := []
  rxDescs : Tbl RxDesc := []
  grants : List TxGrant := []
  ops : List RemoteOp := []
  migs : List Migration := []
  /-- walkers of peers on this device's tables -/
  walks : List Walk := []
  /-- what parts run for peers hold of their owners' tables and pages (R298, R467) -/
  peerTables : List PeerTable := []
  peerPages : List PeerPage := []
  deriving DecidableEq, Repr

/-- Time state (R475), in the order of the codes. -/
inductive TimeState where
  | free | sourced | locked | holdover | untrusted
  deriving DecidableEq, Repr

/-- A follower's exchange in progress (R479). Times are in units of 2^-32 ns. -/
structure Exchange where
  exch : Nat
  t1 : Option Nat := none
  t2 : Nat := 0
  t3 : Option Nat := none
  retx : Bool := false
  since : Nat := 0
  deriving DecidableEq, Repr

/-- The source of an offset (R480, R533). -/
inductive OffsetSource where
  | exchange | pps | operator
  deriving DecidableEq, Repr

/-- The timebase (R471 to R486). `t` counts units of 2^-32 ns. -/
structure Timebase where
  t : Nat := 0
  /-- CK_TIME cycles since the die left reset: the local time of timers (R472) -/
  cycles : Nat := 0
  state : TimeState := .free
  /-- e and r of R481, as fractions of one -/
  e : Rat := 0
  r : Rat := 0
  oPrev : Rat := 0
  /-- local time, in cycles, of the previous accepted offset or step, and its source -/
  refSince : Option Nat := none
  refSource : Option (OffsetSource × Nat) := none
  /-- a step has occurred since the last accepted offset -/
  stepped : Bool := false
  /-- PPS: acquired, cycles of the last counted and last accepted edges, phase of the last accepted edge in ns -/
  ppsValid : Bool := false
  ppsLastEdge : Option Nat := none
  ppsAccepted : Option Nat := none
  ppsPhase : Rat := 0
  /-- election: candidates heard (DEV_ID, class), and the master -/
  heard : Tbl Nat := []
  master : Nat := 0
  exchNo : Nat := 0
  exch : Option Exchange := none
  /-- holdover: cycles at entry; whether the master reports HOLDOVER, and its HOLD_S (R484) -/
  holdSince : Nat := 0
  masterHold : Bool := false
  holdS : Nat := 0
  /-- a refusal since the last accepted offset has been reported (R483) -/
  refusedReported : Bool := false
  offsetNs : Int := 0
  lastStepNs : Int := 0
  deriving DecidableEq, Repr

end Sys2Proof.Machine
end

