-- ==== Sys2Proof/Config.lean ====
section
/-! DEFINITION. What the spec leaves open: free values, and the byte layouts that it does not give. Nothing here has a body. -/

namespace Sys2Proof

/-- The n-th free value: a value that the spec does not state. It is applied to the counter `Machine.State.free`. -/
opaque Config.freeValue : Nat → BitVec 64

/-- What a package's layer table says. The spec names what the table declares (R264, R306, R383, R385, R396) and not
where its bytes hold it. Applied to the bytes of the package from LAYER_TABLE_OFFSET on and to LAYER_COUNT. -/
opaque Config.layerTable : List Byte → Nat → Machine.LayerTable

/-- A predicted time where every listed chunk length is 0, so that the scale of R365 has no value: a function of the
length asked for and of the listed time. -/
opaque Config.zeroLengthCost : Nat → Nat → Nat

/-- What the payload of an RX_REG frame says, and the payload that says it (R463 gives its content and no layout). -/
opaque Config.rxMsgOf : List Byte → Machine.RxMsg

/-- The payload of an RX_REG frame. -/
opaque Config.rxMsgBytes : Machine.RxMsg → List Byte

/-- What the payload of an IDENT frame says (R460 gives its content and no layout). -/
opaque Config.identOf : List Byte → Machine.IdentMsg

/-- The payload of an IDENT frame. -/
opaque Config.identBytes : Machine.IdentMsg → List Byte

/-- The release that the header of a boot image names, none when the header is not well formed (R517, R584: the spec gives no
layout of the header). -/
opaque Config.imageRelease : List Byte → Option Nat

/-- The HBM2E stack that holds a structure whose placement the spec leaves open (R620); `Machine.useStack` reads it. -/
opaque Config.useStack : HbmUse → Nat

/-- Whether the module is a TRS4-M64-P rather than a TRS4-M64-A (R517). -/
opaque Config.orderP : Bool

end Sys2Proof
end

