-- ==== Sys2Proof/Machine/Objects.lean ====
section
/-! DEFINITION. The object dictionary as a table: index, subindex, length, access letters, default and range of every
subindex (chapters "Object reference" and those it names). -/

namespace Sys2Proof.Machine

/-- An access letter of a port class (R502): none, read-only, read-write, write-only. -/
inductive Access where
  | no | ro | rw | wo
  deriving DecidableEq, Repr

/-- The range of a subindex (check 7 of R503). -/
inductive Rng where
  /-- every value of the type -/
  | any
  /-- from `lo` to `hi` -/
  | nat (lo hi : Nat)
  /-- one of a few values, or from `lo` to `hi` -/
  | orNat (vs : List Nat) (lo hi : Nat)
  /-- signed, from `lo` to `hi` -/
  | int (lo hi : Int)
  /-- a range that rests on other values: by the object's own rule -/
  | own
  deriving DecidableEq, Repr

/-- A row of an object table. `len` is in bytes; 0 is a DOMAIN. -/
structure ObjRow where
  idx : Nat
  idxHi : Nat
  sub : Nat
  subHi : Nat
  len : Nat
  f : Access
  h : Access
  v : Access
  p : Access
  d : Access
  dflt : Nat := 0
  rng : Rng := .any
  deriving DecidableEq, Repr

/-- A row for one subindex. -/
def ob (idx sub len : Nat) (f h v p d : Access) (dflt : Nat := 0) (rng : Rng := .any) : ObjRow :=
  ⟨idx, idx, sub, sub, len, f, h, v, p, d, dflt, rng⟩

/-- A row for subindices `sub` to `subHi`. -/
def obs (idx sub subHi len : Nat) (f h v p d : Access) (dflt : Nat := 0) (rng : Rng := .any) : ObjRow :=
  ⟨idx, idx, sub, subHi, len, f, h, v, p, d, dflt, rng⟩

/-- A row for a subindex range of indices `idx` to `idxHi`. -/
def obi (idx idxHi sub subHi len : Nat) (f h v p d : Access) (dflt : Nat := 0) (rng : Rng := .any) : ObjRow :=
  ⟨idx, idxHi, sub, subHi, len, f, h, v, p, d, dflt, rng⟩

open Access

/-- Communication profile (R517 to R520). -/
def objComm : List ObjRow := [
  ob 0x1000 0 4 ro ro ro ro ro 0x00040000,
  ob 0x1001 0 1 ro ro ro ro ro,
  ob 0x1008 0 10 ro ro ro ro ro,
  ob 0x1009 0 6 ro ro ro ro ro,
  ob 0x100A 0 14 ro ro ro ro ro,
  ob 0x1016 0 1 ro ro no ro ro 1,
  ob 0x1016 1 4 rw ro no ro ro 0 .own,
  ob 0x1017 0 2 rw ro no ro ro 1000 (.orNat [0] 10 65535),
  ob 0x1018 0 1 ro ro ro ro ro 4,
  ob 0x1018 1 4 ro ro ro ro ro 0x05A7,
  ob 0x1018 2 4 ro ro ro ro ro 0x00040001,
  ob 0x1018 3 4 ro ro ro ro ro,
  ob 0x1018 4 4 ro ro ro ro ro,
  ob 0x1400 0 1 ro ro no ro ro 2,
  ob 0x1400 1 4 ro ro no ro ro,
  ob 0x1400 2 1 ro ro no ro ro 255,
  ob 0x1600 0 1 ro ro no ro ro 2,
  ob 0x1600 1 4 ro ro no ro ro 0x21110010,
  ob 0x1600 2 4 ro ro no ro ro 0x21120008,
  obi 0x1800 0x1803 0 0 1 ro ro no ro ro 5,
  obi 0x1800 0x1803 1 1 4 rw ro no ro ro 0 .own,
  obi 0x1800 0x1801 2 2 1 rw ro no ro ro 254 (.nat 254 255),
  obi 0x1802 0x1803 2 2 1 rw ro no ro ro 255 (.nat 254 255),
  obi 0x1800 0x1801 3 3 2 rw ro no ro ro 1000,
  obi 0x1802 0x1803 3 3 2 rw ro no ro ro 0,
  obi 0x1800 0x1801 5 5 2 rw ro no ro ro 1000,
  obi 0x1802 0x1803 5 5 2 rw ro no ro ro 5000,
  ob 0x1A00 0 1 ro ro no ro ro 5,
  ob 0x1A00 1 4 ro ro no ro ro 0x21000110,
  ob 0x1A00 2 4 ro ro no ro ro 0x21000210,
  ob 0x1A00 3 4 ro ro no ro ro 0x21000310,
  ob 0x1A00 4 4 ro ro no ro ro 0x21100008,
  ob 0x1A00 5 4 ro ro no ro ro 0x21110010,
  ob 0x1A01 0 1 ro ro no ro ro 4,
  ob 0x1A01 1 4 ro ro no ro ro 0x23000110,
  ob 0x1A01 2 4 ro ro no ro ro 0x23000210,
  ob 0x1A01 3 4 ro ro no ro ro 0x23000308,
  ob 0x1A01 4 4 ro ro no ro ro 0x23000410,
  ob 0x1A02 0 1 ro ro no ro ro 6,
  ob 0x1A02 1 4 ro ro no ro ro 0x29000620,
  ob 0x1A02 2 4 ro ro no ro ro 0x29000720,
  ob 0x1A02 3 4 ro ro no ro ro 0x25000A08,
  ob 0x1A02 4 4 ro ro no ro ro 0x40180320,
  ob 0x1A02 5 4 ro ro no ro ro 0x40100820,
  ob 0x1A02 6 4 ro ro no ro ro 0x40100B20,
  ob 0x1A03 0 1 ro ro no ro ro 5,
  ob 0x1A03 1 4 ro ro no ro ro 0x22130108,
  ob 0x1A03 2 4 ro ro no ro ro 0x22130820,
  ob 0x1A03 3 4 ro ro no ro ro 0x40010120,
  ob 0x1A03 4 4 ro ro no ro ro 0x40030120,
  ob 0x1A03 5 4 ro ro no ro ro 0x40000120]

/-- Device objects (R521, R522, R491). -/
def objDevice : List ObjRow := [
  ob 0x2000 0 1 ro ro ro ro ro 0x0C,
  ob 0x2000 1 1 ro ro ro ro ro 8,
  ob 0x2000 2 2 ro ro ro ro ro 8192,
  ob 0x2000 3 1 ro ro ro ro ro 64,
  ob 0x2000 4 1 ro ro ro ro ro 16,
  ob 0x2000 5 8 ro ro ro ro ro 0x1000000000,
  ob 0x2000 6 1 ro ro ro ro ro 7,
  ob 0x2000 7 2 ro ro ro ro ro 0x1FFF,
  ob 0x2000 8 1 ro ro ro ro ro 1,
  ob 0x2000 9 1 ro ro ro ro ro 3,
  ob 0x2000 0xA 2 ro ro ro ro ro 0x0100,
  ob 0x2000 0xB 1 ro ro ro ro ro,
  ob 0x2000 0xC 1 ro ro ro ro ro 1,
  ob 0x2001 0 1 ro ro no ro ro 6,
  ob 0x2001 1 1 rw ro no ro ro 0x10 (.nat 1 127),
  ob 0x2001 2 1 rw ro no ro ro 3 (.nat 0 3),
  ob 0x2001 3 1 rw ro no ro ro 3 .own,
  ob 0x2001 4 1 rw rw no ro ro 1 (.nat 0 1),
  ob 0x2001 5 1 ro ro no ro ro,
  ob 0x2001 6 1 ro ro no ro ro,
  ob 0x2010 0 4 ro ro ro ro ro 524288,
  ob 0x2100 0 1 ro ro no ro ro 3,
  obs 0x2100 1 3 2 ro ro no ro ro,
  obi 0x2101 0x210A 0 0 1 ro ro no ro ro 6,
  obi 0x2101 0x210A 1 5 2 ro ro no ro ro,
  obi 0x2101 0x210A 6 6 4 ro ro no ro ro,
  ob 0x2110 0 1 ro ro ro ro ro,
  ob 0x2111 0 2 rw ro no ro ro 300 (.nat 30 300),
  ob 0x2112 0 1 rw ro no ro ro 0 (.nat 0 4),
  ob 0x2113 0 2 rw rw no ro ro 50 (.orNat [0] 10 60000),
  ob 0x2114 0 1 rw ro no ro ro 0xF0 .own,
  ob 0x2115 0 1 ro ro no ro ro 5,
  ob 0x2115 1 1 rw ro no ro ro 0 (.nat 0 1),
  ob 0x2115 2 2 rw ro no ro ro 1380 (.nat 0 1439),
  ob 0x2115 3 2 rw ro no ro ro 420 (.nat 0 1439),
  ob 0x2115 4 4 rw ro no ro ro 0 (.int (-86400) 86400),
  ob 0x2115 5 2 rw ro no ro ro 1 (.nat 0 600),
  ob 0x2116 0 1 ro ro no ro ro 6,
  ob 0x2116 1 1 ro ro no ro ro 1,
  ob 0x2116 2 1 ro ro no ro ro,
  ob 0x2116 3 1 rw rw no ro ro,
  obs 0x2116 4 6 4 ro ro no ro ro,
  ob 0x2117 0 1 ro ro no ro ro,
  ob 0x2130 0 1 ro ro no ro ro 98,
  obs 0x2130 1 98 1 ro ro no ro ro]

/-- Clocks, time, temperature (R579, R486, R522, R575). -/
def objClock : List ObjRow := [
  ob 0x2200 0 1 ro ro no ro ro 8,
  ob 0x2200 1 1 ro ro no ro ro,
  ob 0x2200 2 2 ro ro no ro ro,
  ob 0x2200 3 1 ro ro no ro ro,
  ob 0x2200 4 1 ro ro no ro ro,
  ob 0x2200 5 4 ro ro no ro ro,
  ob 0x2200 6 1 ro ro no ro ro,
  obs 0x2200 7 8 4 ro ro no ro ro,
  ob 0x2210 0 1 ro ro ro ro ro 2,
  ob 0x2210 1 8 rw rw ro ro ro,
  ob 0x2210 2 4 ro ro ro ro ro,
  ob 0x2211 0 4 rw rw ro ro ro 1000 (.nat 1 1000000),
  ob 0x2212 0 4 rw rw ro ro ro 600 (.nat 1 86400),
  ob 0x2213 0 1 ro ro no ro ro 0x0D,
  obs 0x2213 1 3 1 ro ro no ro ro,
  ob 0x2213 4 1 rw rw no ro ro,
  obs 0x2213 5 6 4 ro ro no ro ro,
  ob 0x2213 7 8 ro ro no ro ro,
  obs 0x2213 8 0xC 4 ro ro no ro ro,
  ob 0x2213 0xD 1 wo no no no no 0 (.nat 1 1),
  ob 0x2300 0 1 ro ro no ro ro 0x0A,
  obs 0x2300 1 2 2 ro ro no ro ro,
  ob 0x2300 3 1 ro ro no ro ro,
  ob 0x2300 4 2 ro ro no ro ro,
  ob 0x2300 5 2 rw ro no ro ro 950 (.nat 800 950),
  ob 0x2300 6 1 ro ro no ro ro 100,
  ob 0x2300 7 1 rw rw no rw rw 0 (.nat 0 20),
  ob 0x2300 8 2 ro ro no ro ro,
  ob 0x2300 9 1 ro ro no ro ro,
  ob 0x2300 0xA 4 ro ro no ro ro]

/-- Sharing and scheduling objects (R363, R393, R384, R272, R288, R207, R318, R394). -/
def objSharing : List ObjRow := [
  obi 0x2400 0x240F 0 0 1 ro ro ro ro ro 0x10,
  ob 0x2400 1 2 rw rw ro ro ro 8192 (.nat 0 8192),
  obi 0x2401 0x240F 1 1 2 rw rw ro ro ro 0 (.nat 0 8192),
  ob 0x2400 2 4 rw rw ro ro ro 8000000 (.nat 0 8000000),
  obi 0x2401 0x240F 2 2 4 rw rw ro ro ro 0 (.nat 0 8000000),
  obi 0x2400 0x240F 3 3 1 rw rw ro ro ro 16 (.nat 1 255),
  obi 0x2400 0x240F 4 4 2 ro ro ro ro ro,
  obi 0x2400 0x240F 5 5 4 ro ro ro ro ro,
  obi 0x2400 0x240F 6 6 4 rw rw ro ro ro 0 (.nat 0 1638400),
  obi 0x2400 0x240F 7 7 2 rw rw ro ro ro 1024 (.nat 1 65535),
  obi 0x2400 0x240F 8 8 4 rw rw ro ro ro 0 (.nat 0 1638400),
  obi 0x2400 0x240F 9 9 2 rw rw ro ro ro 1024 (.nat 1 65535),
  obi 0x2400 0x240F 0xA 0xA 4 rw rw ro ro ro 0 (.nat 0 10000000),
  obi 0x2400 0x240F 0xB 0xB 2 rw rw ro ro ro 1024 (.nat 1 65535),
  obi 0x2400 0x240F 0xC 0xC 4 rw rw ro ro ro 0 (.nat 0 100000),
  obi 0x2400 0x240F 0xD 0xD 2 rw rw ro ro ro 1024 (.nat 1 65535),
  obi 0x2400 0x240F 0xE 0xE 4 rw rw ro ro ro 0 (.nat 0 32000),
  obi 0x2400 0x240F 0xF 0xF 2 rw rw ro ro ro 1024 (.nat 1 65535),
  obi 0x2400 0x240F 0x10 0x10 1 ro ro ro ro ro,
  ob 0x2500 0 1 ro ro no ro ro 0xA,
  ob 0x2500 1 1 rw rw no ro ro 16 (.nat 2 16),
  ob 0x2500 2 1 rw rw no ro ro 25 .own,
  ob 0x2500 3 1 rw rw no ro ro 8 (.nat 1 255),
  ob 0x2500 4 2 rw rw no ro ro 1024 (.nat 256 3072),
  ob 0x2500 5 1 rw rw no ro ro 75 (.nat 10 100),
  ob 0x2500 6 1 rw rw no ro ro 50 .own,
  ob 0x2500 7 2 rw rw no ro ro 20 (.nat 1 2000),
  ob 0x2500 8 2 rw rw no ro ro 1024 (.nat 64 65535),
  ob 0x2500 9 2 rw rw no ro ro 256 (.nat 1 65535),
  ob 0x2500 0xA 1 ro ro no ro ro,
  ob 0x2600 0 1 ro ro ro no ro 0x0D,
  ob 0x2600 1 1 rw rw rw no rw 0 (.nat 0 63),
  obs 0x2600 2 3 1 ro ro ro no ro,
  ob 0x2600 4 2 ro ro ro no ro,
  ob 0x2600 5 32 ro ro ro no ro,
  obs 0x2600 6 7 16 ro ro ro no ro,
  ob 0x2600 8 2 ro ro ro no ro,
  ob 0x2600 9 8 ro ro ro no ro,
  ob 0x2600 0xA 4 ro ro ro no ro,
  ob 0x2600 0xB 2 ro ro ro no ro,
  obs 0x2600 0xC 0xD 4 ro ro ro no ro,
  ob 0x2700 0 1 ro ro no ro ro 0x43,
  obs 0x2700 1 0x40 1 ro rw no ro ro 2 .own,
  ob 0x2700 0x41 4 ro rw no ro ro 131072 .own,
  obs 0x2700 0x42 0x43 4 ro ro no ro ro,
  ob 0x2800 0 1 ro ro ro no ro 0x1C,
  ob 0x2800 1 2 rw rw rw no rw 0 (.nat 0 8191),
  ob 0x2800 2 1 ro ro ro no ro,
  ob 0x2800 3 4 ro ro ro no ro,
  obs 0x2800 4 8 1 ro ro ro no ro,
  obs 0x2800 9 0xB 2 ro ro ro no ro,
  obs 0x2800 0xC 0xF 4 ro ro ro no ro,
  ob 0x2800 0x10 1 ro ro ro no ro,
  obs 0x2800 0x11 0x1C 4 ro ro ro no ro,
  ob 0x2900 0 1 ro ro no ro ro 11,
  ob 0x2900 1 4 rw rw no ro ro 1024 (.nat 256 4096),
  ob 0x2900 2 4 rw rw no ro ro 524288 (.nat 0 524288),
  ob 0x2900 3 2 rw rw no ro ro 256 .own,
  ob 0x2900 4 2 rw rw no ro ro 64 .own,
  ob 0x2900 5 2 rw rw no ro ro 10 (.nat 1 1000),
  obs 0x2900 6 0xB 4 ro ro no ro ro,
  ob 0x2A00 0 1 ro ro no ro ro 6,
  ob 0x2A00 1 4 rw rw no ro ro 16384 (.nat 0 65536),
  ob 0x2A00 2 1 rw no no ro ro 0 (.nat 0 1),
  obs 0x2A00 3 6 4 ro ro no ro ro,
  ob 0x2B00 0 1 ro ro ro ro ro 2,
  ob 0x2B00 1 2 rw rw ro ro ro 4,
  ob 0x2B00 2 1 rw rw ro ro ro 8 (.nat 1 8),
  ob 0x2C00 0 1 ro ro ro ro ro 7,
  ob 0x2C00 1 1 rw rw ro ro ro 8 (.nat 0 16),
  obs 0x2C00 2 7 4 ro ro ro ro ro,
  obi 0x3000 0x300F 0 0 1 ro ro ro ro ro 0x10,
  obi 0x3000 0x300F 1 1 4 ro ro ro ro ro,
  obi 0x3000 0x300F 2 2 8 ro ro ro ro ro,
  obi 0x3000 0x300F 3 4 4 ro ro ro ro ro,
  obi 0x3000 0x300F 5 0xF 8 ro ro ro ro ro,
  obi 0x3000 0x300F 0x10 0x10 1 wo wo no no no 0 (.nat 1 1)]

/-- Errors, ports, firmware, rights (R447, R526 to R531, R446, R400, R470, R604, R509 to R511). -/
def objErrors : List ObjRow := [
  ob 0x4000 0 1 ro ro no ro ro 3,
  ob 0x4000 1 4 ro ro no ro ro,
  ob 0x4000 2 4 rw rw no ro rw,
  ob 0x4000 3 64 ro ro no ro ro,
  ob 0x4001 0 1 ro ro no ro ro 0x27,
  obs 0x4001 1 3 4 ro ro no ro ro,
  ob 0x4001 4 2 rw rw no ro ro 60 (.nat 10 3600),
  obs 0x4001 5 7 4 ro ro no ro ro,
  ob 0x4001 8 1 rw rw no ro ro,
  ob 0x4001 9 4 ro ro no ro ro,
  obs 0x4001 0x10 0x27 4 ro ro no ro ro,
  ob 0x4002 0 1 ro ro no ro ro 8,
  ob 0x4002 1 1 rw rw no rw rw 0 .own,
  obs 0x4002 2 8 4 ro ro no ro ro,
  ob 0x4003 0 1 ro ro no ro ro 0xA,
  obs 0x4003 1 0xA 4 ro ro no ro ro,
  ob 0x4004 0 1 ro ro no ro ro 4,
  obs 0x4004 1 4 4 ro ro no ro ro,
  ob 0x4005 0 1 ro ro no ro ro 9,
  obs 0x4005 1 6 4 ro ro no ro ro,
  obs 0x4005 7 9 1 ro ro no ro ro,
  ob 0x4010 0 1 ro ro no ro ro 0xB,
  ob 0x4010 1 1 rw rw no ro ro 3 (.nat 1 15),
  ob 0x4010 2 2 rw rw no ro ro 10 (.nat 1 1000),
  ob 0x4010 3 1 rw rw no ro ro 2 (.nat 1 15),
  ob 0x4010 4 2 rw rw no ro ro 1000 (.nat 100 60000),
  ob 0x4010 5 2 rw rw no ro ro 10 (.nat 2 1000),
  ob 0x4010 6 1 rw rw no ro ro 1 (.nat 1 16),
  ob 0x4010 7 1 rw rw no ro ro 24 (.nat 1 168),
  obs 0x4010 8 0xB 4 ro ro no ro ro,
  ob 0x4018 0 1 ro ro no ro ro 8,
  ob 0x4018 1 4 rw rw no ro ro 2000 (.nat 100 1000000),
  ob 0x4018 2 1 rw rw no ro ro 1 (.nat 0 1),
  ob 0x4018 3 4 ro ro no ro ro,
  ob 0x4018 4 1 rw rw no ro ro 16 (.nat 4 64),
  ob 0x4018 5 2 rw rw no ro ro 10 (.nat 1 1000),
  obs 0x4018 6 8 4 ro ro no ro ro,
  ob 0x4020 0 1 wo wo no no no 0 (.nat 1 1),
  obi 0x4100 0x4106 0 0 1 ro ro no ro ro 0xC,
  obi 0x4100 0x4106 1 1 1 rw rw no ro ro 1 (.nat 0 1),
  obi 0x4100 0x4106 2 4 1 ro ro no ro ro,
  obi 0x4100 0x4106 5 0xB 4 ro ro no ro ro,
  obi 0x4100 0x4106 0xC 0xC 2 ro ro no ro ro,
  ob 0x4200 0 1 ro ro no ro ro 0x10,
  ob 0x4200 1 1 rw rw no ro ro 1 (.nat 0 1),
  ob 0x4200 2 2 rw rw no ro ro 24 (.nat 1 720),
  ob 0x4200 3 2 rw rw no ro ro 650 (.nat 650 850),
  ob 0x4200 4 1 ro ro no ro ro,
  ob 0x4200 5 2 rw rw no ro ro 2000 (.nat 500 60000),
  obs 0x4200 6 7 4 ro ro no ro ro,
  ob 0x4200 8 1 rw rw no rw rw 0 (.nat 0 7),
  obs 0x4200 9 0xB 2 ro ro no ro ro,
  ob 0x4200 0xC 1 ro ro no ro ro,
  obs 0x4200 0xD 0xE 2 ro ro no ro ro,
  ob 0x4200 0xF 2 rw rw no ro ro 150 (.nat 50 400),
  ob 0x4200 0x10 1 wo no no no no 0 (.nat 1 1),
  ob 0x5000 0 1 ro ro no ro ro 8,
  ob 0x5000 1 1 ro ro no ro ro,
  obs 0x5000 2 4 32 ro ro no ro ro,
  obs 0x5000 5 6 1 ro ro no ro ro,
  ob 0x5000 7 1 rw ro no ro ro 0 (.nat 0 1),
  ob 0x5000 8 0 wo wo no no no,
  ob 0x5001 0 1 ro ro no ro ro 4,
  ob 0x5001 1 32 rw ro no ro ro 1,
  obs 0x5001 2 4 32 rw ro no ro ro,
  ob 0x5F00 0 1 ro ro ro ro ro 4,
  obs 0x5F00 1 4 1 rw ro ro ro ro 0 (.nat 0 2),
  ob 0x5F01 0 1 ro ro no ro ro 3,
  obs 0x5F01 1 2 1 rw ro no ro ro 0 (.nat 0 1),
  ob 0x5F01 3 1 ro ro no ro ro]

/-- The whole dictionary. -/
def objTable : List ObjRow := objComm ++ objDevice ++ objClock ++ objSharing ++ objErrors

/-- The row of a subindex. -/
def objRow? (idx sub : Nat) : Option ObjRow :=
  objTable.find? fun r => Nat.ble r.idx idx && Nat.ble idx r.idxHi && Nat.ble r.sub sub && Nat.ble sub r.subHi

/-- Whether the dictionary holds an index (R513). -/
def objIndexExists (idx : Nat) : Bool := objTable.any fun r => Nat.ble r.idx idx && Nat.ble idx r.idxHi

/-- The default of a subindex. -/
def objDefault (idx sub : Nat) : Nat := ((objRow? idx sub).map (·.dflt)).getD 0

/-- Objects whose written values persist through power-down (R512). -/
def objPersists (idx sub : Nat) : Bool :=
  idx == 0x1016 || idx == 0x1017 || (idx == 0x2001 && decide (1 ≤ sub ∧ sub ≤ 4)) || idx == 0x2113 || idx == 0x2114
    || idx == 0x2115 || (decide (0x4100 ≤ idx ∧ idx ≤ 0x4106) && sub == 1)
    || (idx == 0x4200 && (decide (1 ≤ sub ∧ sub ≤ 3) || sub == 0xF)) || (idx == 0x5000 && sub == 7)
    || idx == 0x5001 || idx == 0x5F00 || (idx == 0x2200 && sub == 8)

/-- Objects reset to defaults by a reset communication: the communication profile area. -/
def objIsComm (idx : Nat) : Bool := decide (0x1000 ≤ idx ∧ idx < 0x2000)

end Sys2Proof.Machine
end

