-- ==== Sys2Proof/Machine/StateCtl.lean ====
section
/-! DEFINITION. State of the control plane: object values, the fault log, the field port. -/

namespace Sys2Proof.Machine

/-- NMT states (R493). -/
inductive Nmt where
  | init | preop | operational | stopped
  deriving DecidableEq, Repr

/-- NMT commands (R492). -/
inductive NmtCmd where
  | start | stop | preop | resetNode | resetComm
  deriving DecidableEq, Repr

/-- A fault-log entry: words W0 to W7 (R448). -/
structure FaultEntry where
  words : List Nat
  deriving DecidableEq, Repr

/-- An EMCY message: error code and the bytes of the manufacturer field (R501). -/
structure Emcy where
  code : Nat
  mfr : List Nat := []
  /-- the error register that the message carries -/
  reg : Nat := 0
  deriving DecidableEq, Repr

/-- A frame that the field port has sent: COB-ID and data. -/
structure CanFrame where
  cob : Nat
  data : List Nat
  deriving DecidableEq, Repr

/-- An open USDO session (R500): client, index, subindex, write flag, bytes so far. -/
structure UsdoSession where
  client : Nat
  index : Nat
  sub : Nat
  write : Bool
  data : List Byte := []
  deriving DecidableEq, Repr

/-- A TPDO as last sent (R518): values, and time of sending in ns. -/
structure TpdoSent where
  data : List Nat := []
  at_ : Nat := 0
  deriving DecidableEq, Repr

/-- The control plane. -/
structure Ctl where
  /-- object values by index x 256 + subindex; an unlisted key reads as the object's default -/
  od : Tbl Nat := []
  /-- values that persist in the boot flash, by the same keys (R512): copies A and B -/
  flashA : Tbl Nat := []
  flashB : Tbl Nat := []
  /-- SELECT values: port number x 65,536 x 256 + key (R515) -/
  sel : Tbl Nat := []
  /-- TIME_FRAC at the last read of TIME_NS, per port (R486) -/
  timeFrac : Tbl Nat := []
  /-- the fault log, oldest first, at most 4,096 entries (R447) -/
  faultLog : List FaultEntry := []
  /-- NMT state, the state being frozen for, and the commands that wait for the present one, oldest first (R493 to R495) -/
  nmt : Nmt := .init
  freezeTo : Option Nmt := none
  nmtWait : List NmtCmd := []
  /-- the freeze is that of a reset node (R496) -/
  resetPending : Bool := false
  /-- EMCY queue, oldest first, at most 32; active conditions (code, manufacturer field) -/
  emcy : List Emcy := []
  conditions : List (Nat × List Nat) := []
  /-- frames sent by the field port, oldest first -/
  canOut : List CanFrame := []
  nodeId : Nat := 0x10
  nodeSource : Nat := 0
  /-- rate codes in use (R488, R491) -/
  nominalRate : Nat := 3
  dataRate : Nat := 3
  /-- CK_TIME cycle of the last EMCY message sent (R501) -/
  emcyAt : Option Nat := none
  usdo : List UsdoSession := []
  /-- bytes of a STAGE_IMAGE write in progress, by port (R531) -/
  stage : Tbl (List Byte) := []
  tpdo : Tbl TpdoSent := []
  /-- consumed heartbeat lost (R497) -/
  hbLost : Bool := false
  /-- DBG_EN as sampled, and the TAP in Test-Logic-Reset (R507) -/
  dbgStrap : Bool := false
  tapReset : Bool := true
  /-- JTAG on J3 rather than J2 (R610) -/
  probeJ3 : Bool := false
  /-- lost parts of a CC reset: cores being reset (R416) -/
  coresDown : List Nat := []
  /-- entries of the last answer of each port: abort code and bytes (what the port sees) -/
  answers : Tbl (Nat × List Byte) := []
  deriving DecidableEq, Repr

end Sys2Proof.Machine
end

