-- ==== Sys2Proof/Machine/StatePower.lean ====
section
/-! DEFINITION. State of supplies, power management, clocks, start-up and live calibration. -/

namespace Sys2Proof.Machine

/-- A supply monitor (R560): present, lowest and highest value in mV. -/
structure Monitor where
  mv : Nat := 0
  min : Nat := 0
  max : Nat := 0
  /-- false until a sample has been taken since power-up or a clear -/
  seen : Bool := false
  events : Nat := 0
  deriving DecidableEq, Repr

/-- A temperature sensor (R572): last reading and last accepted reading in 0.1 °C, whether it is accepted, and
plausible readings in a row since it was excluded. -/
structure Sensor where
  last : Int := 0
  seen : Bool := false
  ok : Bool := true
  good : Nat := 0
  deriving DecidableEq, Repr

/-- Why the module last powered down (R553, R580). -/
inductive DownCause where
  | none | vin | vaux | rail | thermal | pll
  deriving DecidableEq, Repr

/-- Supplies, power states, throttling (R548 to R575). -/
structure Power where
  /-- AUX_PG (R548) and PG_MOD (R613) -/
  auxPg : Bool := false
  pgMod : Bool := false
  /-- VIN has met its start condition and has not been lost since -/
  vinOk : Bool := false
  /-- a VIN start condition met before AUX_PG waits (R550) -/
  vinWaits : Bool := false
  /-- rail step under way, 1 to 6; 0 when the sequencer rests (R555) -/
  seqStep : Nat := 0
  /-- rails in their windows, by code 1 to 8 -/
  railsUp : List Nat := []
  /-- a power-down has run and no start has begun since: ALERT_N (R559) -/
  down : Bool := false
  downCause : DownCause := .none
  /-- rail faults of the present start-up, held off after the second, VIN seen below 15.0 V since (R558) -/
  railFaults : Nat := 0
  heldOff : Bool := false
  vinFell : Bool := false
  holdupOk : Bool := false
  /-- 2 ms ride-through timer running (R552) -/
  ride : Bool := false
  /-- monitors by index 0x2101 to 0x210A -/
  mon : Tbl Monitor := []
  /-- module power state code 1 to 4 (R563) and the state the device moves to or holds -/
  powerState : Nat := 1
  target : Nat := 1
  /-- a change is under way; a request written during it waits (R564) -/
  changing : Bool := false
  waiting : Option Nat := none
  /-- the present Crocus is automatic (R565); a wake trigger came during entry -/
  autoCrocus : Bool := false
  wake : Bool := false
  tulipPending : Bool := false
  /-- TULIP_MASK as it stood when the last move to Tulip began (R564) -/
  tulipMask : Nat := 0xF0
  /-- Snowdrop steps done: receive descriptors and ports disabled by it, to be enabled at exit -/
  snowPorts : List Nat := []
  /-- input power, 10 ms average, in 0.1 W; power level, thermal level (R571, R573) -/
  powerDw : Nat := 0
  levelP : Nat := 0
  levelT : Nat := 0
  /-- milliseconds below 95 % of the limit, and below the thermal release point -/
  lowMs : Nat := 0
  coolMs : Nat := 0
  sensors : Tbl Sensor := []
  /-- stacks that refresh at twice the rate (R573), as a mask -/
  fastRefresh : Nat := 0
  /-- STATE_REQUEST saved by a scheduled start (R570), and the day on which the start last acted -/
  schedSaved : Option Nat := none
  schedDay : Option Nat := none
  deriving DecidableEq, Repr

/-- A qualification in progress (R593 to R596). -/
structure Qual where
  /-- distinct chunks compared: (stream, chunk) -/
  chunks : List (Nat × Nat) := []
  /-- equal comparisons by local index 0 to 5 -/
  equal : List Nat := [0, 0, 0, 0, 0, 0]
  mismatch : Bool := false
  /-- the window has expired: reference-set chunks are placed -/
  refSet : Bool := false
  deriving DecidableEq, Repr

/-- What a qualification is for, while a Square is under it (R592, R599). -/
inductive SqStage where
  /-- a return, a guard raise or an abandoned walk -/
  | qualifying
  /-- a margin walk: qualifying at a lowered point -/
  | walkStep
  /-- a margin walk: qualifying at the raised point after a mismatch -/
  | walkFinal
  deriving DecidableEq, Repr

/-- Live calibration of one Square (R598 to R604). Temperatures in 0.1 °C, points in mV. -/
structure SquareCal where
  point : Nat := 800
  fusePoint : Nat := 800
  lastFail : Nat := 0
  temp : Int := 0
  stage : SqStage := .qualifying
  qual : Option Qual := none
  /-- the last point that passed during a walk -/
  lastPassed : Nat := 800
  attempts : Nat := 0
  /-- it failed at the cap of R598: out of service until the next reset that reaches the die -/
  capped : Bool := false
  deriving DecidableEq, Repr

/-- A boot bank of the flash (R531): state 0 empty, 1 trusted, 2 untrusted, 3 incomplete. -/
structure Bank where
  state : Nat := 0
  digest : List Byte := List.replicate 32 0
  /-- release of the header, [15:11] MM, [10:5] mm, [4:0] pp -/
  release : Nat := 0
  headerOk : Bool := false
  deriving DecidableEq, Repr

/-- Clocks, resets, start-up, boot flash banks, calibration. -/
structure Boot where
  pllLocked : Bool := false
  engDiv : Nat := 8
  /-- start-up step under way, 2 to 9; 0 before start-up; 10 once start-up has completed (R581) -/
  step : Nat := 0
  fails : Nat := 0
  hold : Bool := false
  resetCause : Nat := 1
  failedStep : Nat := 0
  lockLosses : Nat := 0
  /-- ms since the sequencer started are not counted by the model: the value reported for the last start-up -/
  startupMs : Nat := 0
  runningBank : Nat := 0
  /-- as shipped: a trusted image in bank A, bank B empty (R616) -/
  bankA : Bank := { state := 1, digest := leBytes 32 1, headerOk := true }
  bankB : Bank := {}
  runningDigest : List Byte := List.replicate 32 0
  serial : Nat := 1
  squares : Tbl SquareCal := []
  globalPoint : Nat := 740
  /-- a walk's Square, and the Square next to be walked -/
  walkSquare : Option Nat := none
  walkNext : Nat := 0
  /-- recorded points: Square, (point, temperature, last fail) (R586, R599) -/
  recorded : Tbl (Nat × Int × Nat) := []
  deriving DecidableEq, Repr

end Sys2Proof.Machine
end

