-- ==== Sys2Proof/Machine/State.lean ====
section
/-! DEFINITION. The whole state of the block, its reasons to stop, and the state after reset. -/

namespace Sys2Proof.Machine

/-- The state of the block: the queue of waiting commands and every piece of state the spec names, by unit. -/
structure State where
  /-- commands waiting, first in first out -/
  pending : List Instr := []
  /-- the model's own counter of free values drawn: no spec state -/
  free : Nat := 0
  /-- memories: scratchpad, tags, handles, gather ports, accumulators, HBM, control memory -/
  st : Store := {}
  /-- the Roundabout, its commands, mailboxes, regulators, domains -/
  rb : Roundabout := {}
  /-- cache pages, page tables, prefix tree -/
  pg : Pages := {}
  /-- streams, chunks, batches, models, commit log -/
  str : Streams := {}
  /-- host interface -/
  host : HostIf := {}
  /-- Crossings -/
  xr : Crossings := {}
  /-- timebase -/
  tm : Timebase := {}
  /-- object values, fault log, field port -/
  ctl : Ctl := {}
  /-- supplies and power states -/
  pw : Power := {}
  /-- clocks, start-up, calibration -/
  boot : Boot := {}
  deriving DecidableEq, Repr

/-- Reasons to stop with a fault: none. The block reports every error in its own state and goes on. -/
inductive Fault where
  deriving DecidableEq, Repr

/-- Reasons to refuse a command. -/
inductive Refusal where
  /-- raised by `exec` alone, for a command that has no meaning yet, by mnemonic. Safe. -/
  | notModelled (mnemonic : String)
  deriving DecidableEq, Repr

/-- The state after power-on reset (R580): every store clear, every register at its default, supplies not yet good. -/
def State.reset : State := {}

end Sys2Proof.Machine
end

