-- ==== Sys2Proof/Machine/Ops.lean ====
section
/-! DEFINITION. Operations that every unit uses: time, object values and counters, the fault log, emergency messages,
free values, the stream table. -/

namespace Sys2Proof.Machine

/-- The outcome of a command that completes. -/
abbrev Out := Host.Outcome State Fault Refusal

/-- The integer part of the timebase, in ns (R472). -/
def State.now (s : State) : Nat := s.tm.t / 2 ^ 32

/-- Draws one free value. -/
def State.draw (s : State) : BitVec 64 × State := (Config.freeValue s.free, { s with free := s.free + 1 })

/-! ### Object values (R513 to R515) -/

/-- The key of a subindex. -/
def objKey (idx sub : Nat) : Nat := idx * 256 + sub

/-- The value held under a subindex: the written value, else the default of the object's table. -/
def State.obj (s : State) (idx sub : Nat) : Nat := (Tbl.get? s.ctl.od (objKey idx sub)).getD (objDefault idx sub)

/-- Sets a value. -/
def State.setObj (s : State) (idx sub v : Nat) : State :=
  { s with ctl := { s.ctl with od := Tbl.put s.ctl.od (objKey idx sub) v } }

/-- Adds to a counter, which wraps at 2^32 (R515). -/
def State.addObj (s : State) (idx sub n : Nat) : State := s.setObj idx sub ((s.obj idx sub + n) % 2 ^ 32)

/-- Adds to a 64-bit counter (R394). -/
def State.addObj64 (s : State) (idx sub n : Nat) : State := s.setObj idx sub ((s.obj idx sub + n) % 2 ^ 64)

/-- Raises a counter by one. -/
def State.incObj (s : State) (idx sub : Nat) : State := s.addObj idx sub 1

/-- Adds to an engine counter of window 0x4002 (R527). -/
def State.addEng (s : State) (e sub n : Nat) : State :=
  { s with rb := { s.rb with engCtr := Tbl.put s.rb.engCtr (e * 16 + sub)
                              ((Tbl.getD s.rb.engCtr 0 (e * 16 + sub) + n) % 2 ^ 32) } }

/-! ### Emergency messages (R501, R532, R533) -/

/-- The bit of the error register that an error code sets (R533). -/
def emcyBit (code : Nat) : Nat :=
  if code = 0x3100 then 2
  else if code = 0x4200 then 3
  else if code = 0x5000 then 0
  else if code / 256 = 0x81 ∨ code / 256 = 0x82 then 4
  else 7

/-- The error register from the active conditions: their bits, and bit 0 while any is active (R532). -/
def errorRegister (conds : List (Nat × List Nat)) : Nat :=
  conds.foldl (fun r c => setBit r (emcyBit c.1) true) (if conds.isEmpty then 0 else 1)

/-- Queues a message; the oldest is dropped when 32 wait, and EMCY_DROPPED rises (R501). -/
def State.queueEmcy (s : State) (m : Emcy) : State :=
  if s.ctl.emcy.length < 32 then { s with ctl := { s.ctl with emcy := s.ctl.emcy ++ [m] } }
  else ({ s with ctl := { s.ctl with emcy := s.ctl.emcy.drop 1 ++ [m] } }).incObj 0x4005 0x06

/-- An event: its message carries the register with the event's bit also set (R532). -/
def State.emcyEvent (s : State) (code : Nat) (mfr : List Nat) : State :=
  s.queueEmcy ⟨code, mfr, setBit (errorRegister s.ctl.conditions) (emcyBit code) true⟩

/-- A condition begins: nothing when it is already active (R532, R533). -/
def State.emcyRaise (s : State) (code : Nat) (mfr : List Nat) : State :=
  if s.ctl.conditions.any (fun c => c.1 == code && c.2 == mfr) then s
  else
    let conds := s.ctl.conditions ++ [(code, mfr)]
    ({ s with ctl := { s.ctl with conditions := conds } }).queueEmcy ⟨code, mfr, errorRegister conds⟩

/-- The conditions of a code that satisfy `p` end, each with an error reset that names the code (R532). -/
def State.emcyEnd (s : State) (code : Nat) (p : List Nat → Bool) : State :=
  let gone := s.ctl.conditions.filter fun c => c.1 == code && p c.2
  let conds := s.ctl.conditions.filter fun c => !(c.1 == code && p c.2)
  gone.foldl (fun t _ => t.queueEmcy ⟨0, [code % 256, code / 256], errorRegister conds⟩)
    { s with ctl := { s.ctl with conditions := conds } }

/-! ### The fault log (R447, R448) -/

/-- What a fault-log entry names. -/
structure FaultInfo where
  cls : Nat
  source : Nat := 0xFF
  action : Nat := 0
  stream : Nat := 0
  batch : Bool := false
  chunk : Nat := 0
  addr : Nat := 0
  payload : List Nat := [0, 0, 0, 0]
  deriving DecidableEq, Repr

/-- Writes a fault-log entry: the log keeps the last 4,096, and LOG_WRITTEN counts (R447). -/
def State.logFault (s : State) (f : FaultInfo) : State :=
  let no := s.obj 0x4000 1
  let e : FaultEntry :=
    ⟨[f.cls + 256 * f.source + 65536 * f.action + 2 ^ 32 * no, s.now,
      f.stream % 8192 + 8192 * b2n f.batch + 65536 * (f.chunk % 65536), f.addr % 2 ^ 36] ++ f.payload⟩
  ({ s with ctl := { s.ctl with faultLog := pushRing 4096 s.ctl.faultLog e } }).incObj 0x4000 1

/-! ### Domains (R561) -/

/-- The state of domain `d`: 0 OFF to 5 TRAINING. -/
def State.domain (s : State) (d : Nat) : Nat := Tbl.getD s.rb.domain 0 d

/-- Sets the state of a domain. -/
def State.setDomain (s : State) (d v : Nat) : State :=
  { s with rb := { s.rb with domain := Tbl.setD s.rb.domain 0 d v } }

/-- The domain of an engine ID (R15, R561): none for Lanes and control cores, which stay powered. -/
def engineDomain (e : Nat) : Option Nat :=
  if e < 0x40 then (if e % 8 < 6 then some (10 * (e / 8) + e % 8) else none)
  else if e = 0x40 then some 82
  else if e = 0x41 then some 80
  else if e = 0x42 then some 81
  else if e = 0x43 then some 83
  else if e = 0x44 then some 84
  else if e = 0x45 then some 85
  else none

/-- The quarter (0 to 31) of a device row (R98). -/
def rowQuarter (row : Nat) : Nat := (row / 16384) % 32

/-- The domain of a quarter (R561). -/
def quarterDomain (q : Nat) : Nat := 10 * (q / 4) + 6 + q % 4

/-- Whether a quarter is ON (R126). -/
def State.quarterOn (s : State) (q : Nat) : Bool := s.domain (quarterDomain q) == 2

/-- Whether IN and its idle timers stand still: a freeze runs, or the device is in Crocus or Snowdrop or on its way there
(R495, R567). -/
def State.frozen (s : State) : Bool :=
  s.ctl.freezeTo.isSome || (s.ctl.nmt != .stopped && (decide (3 ≤ s.pw.powerState) || (s.pw.changing && decide (3 ≤ s.pw.target))))

/-! ### Streams, chunks, models -/

/-- The stream under an ID, none when its entry is FREE. -/
def State.stream? (s : State) (sid : Nat) : Option Stream := Tbl.get? s.str.tab sid

/-- Puts a stream table entry. -/
def State.putStream (s : State) (sid : Nat) (st : Stream) : State :=
  { s with str := { s.str with tab := Tbl.put s.str.tab sid st } }

/-- Changes a stream table entry. -/
def State.modStream (s : State) (sid : Nat) (f : Stream → Stream) : State :=
  { s with str := { s.str with tab := Tbl.modify s.str.tab sid f } }

/-- The chunk of a stream with a number, while it exists. -/
def State.chunk? (s : State) (sid no : Nat) : Option Chunk :=
  s.str.chunks.find? fun c => c.sid == sid && c.no == no

/-- Changes the chunk of a stream with a number. -/
def State.modChunk (s : State) (sid no : Nat) (f : Chunk → Chunk) : State :=
  { s with str := { s.str with chunks := s.str.chunks.map fun c => if c.sid == sid && c.no == no then f c else c } }

/-- Removes a chunk. -/
def State.dropChunk (s : State) (sid no : Nat) : State :=
  { s with str := { s.str with chunks := s.str.chunks.filter fun c => !(c.sid == sid && c.no == no) } }

/-- The chunk of a stream whose number ends in a 16-bit chunk word (R337). -/
def State.chunkByWord? (s : State) (sid w : Nat) : Option Chunk :=
  s.str.chunks.find? fun c => c.sid == sid && c.no % 65536 == w

/-- A model slot; an empty one when nothing is held. -/
def State.model (s : State) (m : Nat) : ModelSlot := Tbl.getD s.str.models {} m

/-- Sets a model slot. -/
def State.setModel (s : State) (m : Nat) (x : ModelSlot) : State :=
  { s with str := { s.str with models := Tbl.put s.str.models m x } }

/-- Little-endian package field. -/
def ModelSlot.field (m : ModelSlot) (off n : Nat) : Nat := leAt m.pkg off n

/-- MODEL_RATE in Hz (R38). -/
def ModelSlot.rate (m : ModelSlot) : Nat :=
  if m.field 0x8C 1 = 0 then 8000 else if m.field 0x8C 1 = 1 then 16000 else 24000

/-- STATE_ROWS (R38). -/
def ModelSlot.stateRows (m : ModelSlot) : Nat := m.field 0x80 4

/-- RESIDUAL_ROWS (R38). -/
def ModelSlot.residualRows (m : ModelSlot) : Nat := m.field 0x84 4

/-- FLAGS[1]: uses AT (R38). -/
def ModelSlot.usesAt (m : ModelSlot) : Bool := bitAt (m.field 0x8E 2) 1

/-- KIND: 2 is synthesis (R38). -/
def ModelSlot.kind (m : ModelSlot) : Nat := m.field 0x8D 1

/-- A field of FEATURE_CONFIG (R85). -/
def ModelSlot.feat (m : ModelSlot) (off n : Nat) : Nat := m.field (0x90 + off) n

/-- The least power of two that is at least `n`, for `n` of 1 or more. -/
def pow2Ceil (n : Nat) : Nat := if 2 ^ Nat.log2 n = n then n else 2 ^ (Nat.log2 n + 1)

/-- T_p: tokens to a page (R265). -/
def CacheDesc.tokensPerPage (c : CacheDesc) : Nat :=
  let bl := c.latW * (if c.latFmt = 8 then 2 else 1)
  let layers := pow2Ceil c.layers
  32768 / (bl * layers)

/-- Bytes of one latent (R265). -/
def CacheDesc.latBytes (c : CacheDesc) : Nat := c.latW * (if c.latFmt = 8 then 2 else 1)

/-- The value in force of a setting of 0x2500 or 0x4018: a write applies from the next batch that closes (R393, R400). -/
def State.inForce (s : State) (idx sub : Nat) : Nat := (Tbl.get? s.rb.live (idx * 256 + sub)).getD (s.obj idx sub)

/-- The function of a partition. -/
def State.fn (s : State) (p : Nat) : Function := Tbl.getD s.host.fns {} p

/-- Sets a function. -/
def State.setFn (s : State) (p : Nat) (f : Function) : State :=
  { s with host := { s.host with fns := Tbl.put s.host.fns p f } }

/-- A read of host memory for a partition failed: AER shows a completion that timed out (R544). -/
def State.hostReadFault (s : State) (p : Nat) (f : ReadFault) : State :=
  match f with
  | .timeout => s.setFn p { s.fn p with aerTimeout := true }
  | .completion => s

/-- A submission ring. -/
def State.sq (s : State) (p r : Nat) : SubRing := Tbl.getD (s.fn p).sq {} r

/-- Sets a submission ring. -/
def State.setSq (s : State) (p r : Nat) (x : SubRing) : State :=
  s.setFn p { s.fn p with sq := Tbl.put (s.fn p).sq r x }

/-- An output ring. -/
def State.oq (s : State) (p r : Nat) : OutRing := Tbl.getD (s.fn p).oq {} r

/-- Sets an output ring. -/
def State.setOq (s : State) (p r : Nat) (x : OutRing) : State :=
  s.setFn p { s.fn p with oq := Tbl.put (s.fn p).oq r x }

/-- Writes bytes to host memory. -/
def State.hostWrite (s : State) (a : Nat) (bs : List Byte) : State :=
  { s with host := { s.host with mem := Mem.writeBytes s.host.mem a bs } }

end Sys2Proof.Machine
end

