-- ==== Sys2Proof/Machine/Scratch.lean ====
section
/-! DEFINITION. Scratchpad: rows and their error correction, tags, handles, gather ports, quarters (chapter "Scratchpad
memory"), and HBM lines (R413). -/

namespace Sys2Proof.Machine

/-! ### Rows and error correction (R119 to R124) -/

/-- The 512 data bytes of a device row as written. -/
def State.row (s : State) (r : Nat) : List Byte := Mem.readBytes s.st.sp (r * 512) 512

/-- The four sectors of a stored error pattern, as symbol places and values (R119). -/
def sectorErrors (err : List (Nat × Nat)) (sec : Nat) : List (Nat × Nat) :=
  (err.filter fun e => e.1 % 4 == sec).map fun e => (e.1 / 4, e.2)

/-- What the decoder makes of a row's stored error pattern: 0 no error, 1 corrected, 2 uncorrectable (R121). A pattern
of 6 or more symbols lies outside the code's reach; the decoder's own rule decides it. -/
def rowVerdict (err : List (Nat × Nat)) : Nat :=
  let vs := (List.range 4).map fun sec => rsDecode 136 3 (sectorErrors err sec)
  if vs.any (·.isNone) then 2 else if vs.all (· == some []) then 0 else 1

/-- What a decode of the stored pattern leaves in the data bytes: the error values not removed by the corrections. -/
def residualErrors (err : List (Nat × Nat)) : List (Nat × Nat) :=
  (List.range 4).flatMap fun sec =>
    let es := sectorErrors err sec
    let fix := (rsDecode 136 3 es).getD []
    (List.range 128).filterMap fun sym =>
      let v := Nat.xor ((es.filter (·.1 == sym)).foldl (fun a e => Nat.xor a e.2) 0)
                       ((fix.filter (·.1 == sym)).foldl (fun a e => Nat.xor a e.2) 0)
      if v = 0 then none else some (sym * 4 + sec, v)

/-- The stored error pattern of a row. -/
def State.rowErr (s : State) (r : Nat) : List (Nat × Nat) := Tbl.getD s.st.spErr [] r

/-- Whether a read of the row is poisoned (R124). -/
def State.rowPoisoned (s : State) (r : Nat) : Bool := rowVerdict (s.rowErr r) == 2

/-- The bytes that a read of the row returns: corrected where the decoder corrects (R121, R123). With a poisoned row the spec
states no bytes; they are the bytes as last written (DESIGN CHOICE, log 40), which no command uses (R124). -/
def State.readRow (s : State) (r : Nat) : List Byte :=
  let err := s.rowErr r
  if err.isEmpty ∨ rowVerdict err = 2 then s.row r
  else (residualErrors err).foldl (fun bs e => bs.set e.1 (bs.getD e.1 0 ^^^ BitVec.ofNat 8 e.2)) (s.row r)

/-- A transposed tile read (R113, R114): output row `j` of the 32 source rows `o + i * stride`, as elements of `e` bytes. No
command of the table names this pattern of the read ports. -/
def State.transposedRow (s : State) (o stride e j : Nat) : List Byte :=
  (List.range (512 / e)).flatMap fun p =>
    slice (s.readRow (o + p % 32 * stride)) ((j * (16 / e) + p / 32) * e) e

/-- The 32 rows that a transposed tile read delivers (R114). -/
def State.transposedTile (s : State) (o stride e : Nat) : List (List Byte) := (List.range 32).map (s.transposedRow o stride e)

/-- A read by a unit: counts the rows that were corrected (R123) and says whether any was poisoned. -/
def State.countReads (s : State) (rows : List Nat) : State × Option Nat :=
  let fixed := rows.filter fun r => rowVerdict (s.rowErr r) == 1
  let s' := fixed.foldl (fun t r => (t.incObj 0x4001 1).incObj 0x4001 (0x10 + r / 65536)) s
  (s', rows.find? fun r => s.rowPoisoned r)

/-- Stores 512 bytes: new check bytes, so any error or poison of the row is gone (R124). -/
def State.writeRow (s : State) (r : Nat) (bs : List Byte) : State :=
  { s with st := { s.st with sp := Mem.writeBytes s.st.sp (r * 512) (slice bs 0 512)
                             spErr := Tbl.setD s.st.spErr [] r [] } }

/-- Stores rows from row `r` up. -/
def State.writeRows (s : State) (r : Nat) : List (List Byte) → State
  | [] => s
  | b :: bs => State.writeRows (s.writeRow r b) (r + 1) bs

/-- The event of an uncorrectable scratchpad row: counters, EMCY 0xFF10; the log entry is written by the caller's fault
treatment (R124). -/
def State.spUncorrected (s : State) (r source : Nat) : State :=
  ((s.incObj 0x4001 2).incObj 0x4001 (0x18 + r / 65536)).emcyEvent 0xFF10
    [2, source, r % 256, r / 256 % 256, r / 65536 % 256]

/-! ### Tags (R106 to R112) -/

/-- A slot tag. -/
def State.tag (s : State) (n : Nat) : Tag := Tbl.getD s.st.tags {} n

/-- A tile tag: MX index x 8 + tile. -/
def State.tileTag (s : State) (n : Nat) : Tag := Tbl.getD s.st.tileTags {} n

/-- Sets a slot tag. -/
def State.setTag (s : State) (n : Nat) (t : Tag) : State :=
  { s with st := { s.st with tags := Tbl.setD s.st.tags {} n t } }

/-- Sets a tile tag. -/
def State.setTileTag (s : State) (n : Nat) (t : Tag) : State :=
  { s with st := { s.st with tileTags := Tbl.setD s.st.tileTags {} n t } }

/-- The tag that a claim names. -/
def State.claimTag (s : State) (c : Claim) : Tag := if c.isTile then s.tileTag c.key else s.tag c.key

/-- Sets the tag that a claim names. -/
def State.setClaimTag (s : State) (c : Claim) (t : Tag) : State :=
  if c.isTile then s.setTileTag c.key t else s.setTag c.key t

/-- The transition of a tag at a command's first access in a mode, none while the access must wait (R108, R109). Modes:
0 READ, 1 FILL, 2 OPEN, 3 CONT, 4 CLOSE. -/
def Tag.claim (t : Tag) (mode : Nat) : Option Tag :=
  match mode with
  | 0 =>
    if t.state = .full ∧ t.claims < 15 then
      if t.readers = 0 then some { t with claims := t.claims + 1 }
      else some { t with readers := t.readers - 1, claims := t.claims + 1
                         state := if t.readers = 1 then .draining else .full }
    else none
  | 1 => if t.state = .empty then some { t with state := .filling } else none
  | 2 => if t.state = .empty then some { t with state := .filling } else none
  | _ => if t.state = .filling then some t else none

/-- The transition at the end of a read claim (R108). -/
def Tag.release (t : Tag) : Tag :=
  let n := t.claims - 1
  { t with claims := n, state := if t.state = .draining ∧ n = 0 then .empty else t.state }

/-- FILLING to FULL with the declared reads (R108). -/
def Tag.fill (t : Tag) (readers : Nat) : Tag :=
  if t.state = .filling then { t with state := .full, readers := readers } else t

/-- TAG_SET (R111). -/
def Tag.set (t : Tag) (st : TagState) (readers : Nat) : Tag :=
  if st = .empty ∧ t.claims ≠ 0 then { t with state := .draining, readers := 0 }
  else { t with state := st, readers := readers }

/-- The tag state of a 2-bit code (R107). -/
def TagState.ofCode (n : Nat) : TagState :=
  if n = 0 then .empty else if n = 1 then .filling else if n = 2 then .full else .draining

/-- The 2-bit code of a tag state (R107). -/
def TagState.code : TagState → Nat
  | .empty => 0
  | .filling => 1
  | .full => 2
  | .draining => 3

/-! ### Handles (R101 to R104) -/

/-- A handle entry's words. Handle 0xFF is never valid (R102). -/
def State.handle (s : State) (p h : Nat) : Word × Word := if h = 0xFF then (0, 0) else Tbl.getD s.st.handles (0, 0) (p * 256 + h)

/-- Fields of a handle entry (R101). -/
structure HandleEntry where
  valid : Bool
  isLocal : Bool
  rd : Bool
  wr : Bool
  mask : Nat
  base : Nat
  bound : Nat
  slotRows : Nat
  deriving DecidableEq, Repr

/-- Reads a handle entry. -/
def HandleEntry.of (w : Word × Word) : HandleEntry :=
  let a := w.1.toNat
  { valid := bitAt a 0, isLocal := bitAt a 1, rd := bitAt a 2, wr := bitAt a 3, mask := bits a 8 8
    base := bits a 16 19, bound := bits a 40 17, slotRows := bits w.2.toNat 0 9 }

/-- Whether the handle unit accepts an entry: the ranges of R101 and the conditions of R102. -/
def handleAccepts (w : Word × Word) : Bool :=
  let e := HandleEntry.of w
  (!e.isLocal || decide (e.base / 65536 = 0))
    && decide (1 ≤ e.bound ∧ e.bound ≤ 65536)
    && decide (e.base / 65536 = (e.base + e.bound - 1) / 65536)
    && decide (e.mask ≠ 0)
    && (decide (e.slotRows = 0) ||
        decide (4 ≤ e.slotRows ∧ e.slotRows ≤ 256 ∧ e.slotRows % 4 = 0 ∧ e.base % 4 = 0 ∧ e.bound % e.slotRows = 0))

/-- An entry without its reserved bits, which read 0 (R6, R101). -/
def handleStored (w : Word × Word) : Word × Word :=
  (BitVec.ofNat 64 (bits w.1.toNat 0 4 + bits w.1.toNat 8 27 * 2 ^ 8 + bits w.1.toNat 40 17 * 2 ^ 40),
   BitVec.ofNat 64 (bits w.2.toNat 0 9))

/-! ### Gather ports (R115 to R118) -/

/-- The row buffers of a gather port, least recently written first. -/
def State.gatherPort (s : State) (g : Nat) : List GatherBuf := Tbl.getD s.st.gather [] g

/-- Sets a gather port. -/
def State.setGather (s : State) (g : Nat) (bs : List GatherBuf) : State :=
  { s with st := { s.st with gather := Tbl.setD s.st.gather [] g bs } }

/-- The engine ID that a gather port's events are logged against: IN, TK0, TK1, EG, CC0 to CC3; 0xFF for the debug
window. -/
def gatherSource (g : Nat) : Nat :=
  if g = 0 then 0x40 else if g ≤ 2 then 0x42 + g else if g = 3 then 0x45 else if g ≤ 7 then 0x50 + (g - 4) else 0xFF

/-- The gather port of a unit, none when it has none (R115). -/
def gatherOf (e : Nat) : Option Nat := firstIndex 8 fun g => gatherSource g == e

/-- A row with the masked bytes of a buffer over it. -/
def mergeBytes (row : List Byte) (bs : Tbl Byte) : List Byte := bs.foldl (fun r b => r.set b.1 b.2) row

/-- One flush: a whole row is written whole; otherwise the row is read, corrected, merged and written back; a poisoned
row is not written and the event is logged against the port's unit (R116, R124). -/
def State.flushBuf (s : State) (g : Nat) (b : GatherBuf) : State :=
  if b.bytes.length = 512 then s.writeRow b.row (mergeBytes (List.replicate 512 0) b.bytes)
  else if s.rowPoisoned b.row then
    ((s.spUncorrected b.row (gatherSource g)).logFault
      { cls := 2, source := gatherSource g, action := 8, addr := b.row })
  else
    let t := (s.countReads [b.row]).1
    t.writeRow b.row (mergeBytes (s.readRow b.row) b.bytes)

/-- Flushes the buffers of a port that satisfy `p`. -/
def State.flushPort (s : State) (g : Nat) (p : GatherBuf → Bool) : State :=
  let hit := (s.gatherPort g).filter p
  hit.foldl (fun t b => t.flushBuf g b) (s.setGather g ((s.gatherPort g).filter fun b => !p b))

/-- Flushes the buffers of every port that satisfy `p`. -/
def State.flushAll (s : State) (p : Nat → GatherBuf → Bool) : State :=
  (List.range 9).foldl (fun t g => t.flushPort g (p g)) s

/-- A narrow write of up to 64 bytes at a byte of a row, into a port: it merges, takes a free buffer, or flushes the
buffer written least recently first (R115). `own` is the (partition, stream) it is made for (R143). -/
def State.narrowWrite (s : State) (g row off : Nat) (bs : List Byte) (own : List (Nat × Nat)) : State :=
  let port := s.gatherPort g
  let add := fun (b : GatherBuf) =>
    { b with bytes := ((List.range bs.length).foldl (fun t i => Tbl.put t (off + i) (bs.getD i 0)) b.bytes)
             owners := (b.owners.filter fun o => !own.contains o) ++ own }
  match port.find? (·.row == row) with
  | some b => s.setGather g (port.filter (fun x => !(x.row == row)) ++ [add b])
  | none =>
    if port.length < 8 then s.setGather g (port ++ [add { row := row }])
    else
      match port with
      | [] => s
      | oldest :: rest => (s.setGather g (rest ++ [add { row := row }])).flushBuf g oldest

/-- A narrow read: the port's own buffered bytes over the row (R118). -/
def State.narrowRead (s : State) (g row off n : Nat) : List Byte :=
  let base := s.readRow row
  let full := match (s.gatherPort g).find? (·.row == row) with
    | some b => mergeBytes base b.bytes
    | none => base
  slice full off n

/-! ### HBM lines (R413) -/

/-- What the decoder makes of a line's stored error: 0 none, 1 corrected, 2 uncorrectable. Symbol i of 0 to 63 is data
byte i. -/
def lineVerdict (err : List (Nat × Nat)) : Nat :=
  match rsDecode 72 3 err with
  | none => 2
  | some [] => 0
  | some _ => 1

/-- The HBM2E stack of an address: 16 GiB each (R620). -/
def hbmStack (a : Nat) : Nat := a / 2 ^ 34

/-- The HBM2E stack of what a scrub visit names. Spill frames lie over the four stacks in rotation (R271, DEDUCED: frame n in
stack n mod 4); the mirror buffers of a stream lie in different stacks (R44), of which the spec names none; the placement of
the other structures is open (R620). -/
def useStack : HbmUse → Nat
  | .line n => hbmStack (n * 64)
  | .spill frame => frame % 4
  | .mirror sid false => Config.useStack (.mirror sid false) % 4
  | .mirror sid true => (Config.useStack (.mirror sid false) + 1 + Config.useStack (.mirror sid true) % 3) % 4
  | u => Config.useStack u % 4

/-- Reads HBM bytes, counting corrected lines; the first uncorrectable line is named. -/
def State.readHbm (s : State) (a n : Nat) : List Byte × State × Option Nat :=
  let lines := (List.range ((a % 64 + n + 63) / 64)).map (a / 64 + ·)
  let bad := s.st.hbmErr.filter fun e => lines.contains e.1
  let s' := bad.foldl (fun t e => if lineVerdict e.2 = 1 then (t.incObj 0x4003 1).incObj 0x4003 (3 + hbmStack (e.1 * 64)) else t) s
  (Mem.readBytes s.st.hbm a n, s', (bad.find? fun e => lineVerdict e.2 == 2).map (·.1))

/-- Writes HBM bytes; a whole-line write clears the line's error. -/
def State.writeHbm (s : State) (a : Nat) (bs : List Byte) : State :=
  { s with st := { s.st with hbm := Mem.writeBytes s.st.hbm a bs
                             hbmErr := s.st.hbmErr.filter fun e => !decide (a ≤ e.1 * 64 ∧ e.1 * 64 + 64 ≤ a + bs.length) } }

/-- The event of an uncorrectable HBM line (R413). -/
def State.hbmUncorrected (s : State) (line source : Nat) : State :=
  let a := line * 64
  ((s.incObj 0x4003 2).incObj 0x4003 (7 + hbmStack a)).emcyEvent 0xFF10
    [3, source, a % 256, a / 256 % 256, a / 65536 % 256]

end Sys2Proof.Machine
end

