-- ==== Sys2Proof/Machine/Engine.lean ====
section
/-! DEFINITION. What every engine command shares: members, handle resolution, row patterns, claims, and the result of a
datapath (R101 to R112, R340 to R344, R353). -/

namespace Sys2Proof.Machine

/-! ### Whose command it is (R340, R341) -/

/-- A batch table entry. -/
def State.batchEntry (s : State) (b : Nat) : BatchEntry := Tbl.getD s.rb.batches {} b

/-- The streams and chunk words that a command belongs to (R341). -/
def State.members (s : State) (d : Desc) : List (Nat × Nat) :=
  if d.batch then (s.batchEntry d.batchId).members.map fun m => (m % 8192, m / 65536)
  else if d.nostr then []
  else [(d.stream, d.chunk)]

/-- The partition of a stream, 0 when its entry is FREE. -/
def State.streamPart (s : State) (sid : Nat) : Nat := ((s.stream? sid).map (·.cfg.part)).getD 0

/-- The partitions that a command belongs to, one for each member (R341). -/
def State.partsOf (s : State) (d : Desc) : List Nat :=
  if d.batch then (s.members d).map fun m => s.streamPart m.1 else [d.part]

/-- The partition whose handle table a command uses (R341). -/
def State.tablePart (s : State) (d : Desc) : Nat := (s.partsOf d).headD 0

/-- The model slot of a command: that of its first member's chunk, else the stream's primary model. -/
def State.cmdModelNo (s : State) (d : Desc) : Nat :=
  match s.members d with
  | [] => 0
  | m :: _ =>
    match (s.chunkByWord? m.1 m.2).bind (·.model) with
    | some n => n
    | none => ((s.stream? m.1).map (·.cfg.model)).getD 0

/-! ### Row patterns -/

/-- A run of rows of one operand: operand index, first row offset, stride, count. -/
structure Span where
  op : Nat
  first : Nat
  stride : Nat := 1
  count : Nat
  deriving DecidableEq, Repr

/-- The row offsets of a span. -/
def Span.rows (p : Span) : List Nat := (List.range p.count).map fun i => p.first + i * p.stride

/-- Rows that hold a number of bits. -/
def rowsForBits (n : Nat) : Nat := (n + 4095) / 4096

/-- Rows of a tensor of `rows` logical rows by `elems` elements: packed densely at stride 0, else a logical row at each
stride (R212). -/
def tensorSpans (op off stride rows elems width : Nat) : List Span :=
  if stride = 0 then [⟨op, off, 1, rowsForBits (rows * elems * width)⟩]
  else (List.range (rowsForBits (elems * width))).map fun j => ⟨op, off + j, stride, rows⟩

/-- The cache descriptor of a model. -/
def ModelSlot.cache (m : ModelSlot) : CacheDesc := m.table.cache.getD {}

/-- The sequence entries of a member map: (sequence ID, P0), 64 to a row (R300). -/
def mapEntries (rows : List Byte) (n : Nat) : List (Nat × Nat) :=
  (List.range n).map fun i => (leAt rows (8 * i) 2, leAt rows (8 * i + 4) 4)

/-- A sequence. -/
def State.seq? (s : State) (q : Nat) : Option Sequence := (Tbl.get? s.pg.seqs q).filter (·.valid)

/-- The current copy of a sequence's table. -/
def Sequence.table (q : Sequence) : PageTable := if q.cur then q.copyB else q.copyA

/-- Changes the current copy. -/
def Sequence.setTable (q : Sequence) (t : PageTable) : Sequence := if q.cur then { q with copyB := t } else { q with copyA := t }

/-- The model slot of an AT command: that of the sequences it walks. AT_MERGE names none and takes its stream's. -/
def State.atModel (s : State) (d : Desc) : ModelSlot := s.model (s.cmdModelNo d)

/-- The spans that a descriptor fixes, over its operand records (R104 check 4). The state rows of SE commands come from
the line map (R257). -/
def State.spans (s : State) (d : Desc) (ops : List Operand) : List Span :=
  let o := fun k => ops.getD k {}
  let run := fun k n => if (o k).used then [Span.mk k (o k).off 1 n] else []
  match d.opcode with
  | 0x10 =>
    let kr := d.param 24 5
    let half := ((matFormats (o 0).fmt (o 1).fmt).map (·.2)).getD false
    ((List.range kr).map fun i => ⟨0, (o 0).off + i * (o 0).stride, 1, d.param 10 7⟩)
      ++ ((List.range (if half then (kr + 1) / 2 else kr)).map fun i => ⟨1, (o 1).off + i * (o 1).stride, 1, d.param 17 7⟩)
      ++ run 2 1 ++ run 3 1
  | 0x11 => run 0 (32 + d.param 3 1)
  | 0x20 =>
    let rows := d.param 0 17
    let elems := d.param 17 17
    let src := fun k =>
      if !(o k).used then []
      else if (o k).kind = 0 ∨ (o k).kind = 4 then tensorSpans k (o k).off (o k).stride rows elems (fmtBits (o k).fmt)
      else if (o k).kind = 1 then run k (rowsForBits (elems * fmtBits (o k).fmt))
      else if (o k).kind = 2 then run k (rowsForBits (rows * fmtBits (o k).fmt))
      else []
    let recs := (rows + (o 8).stride) / ((o 8).stride + 1) * (if (o 8).kind % 2 = 1 then elems else 1)
    src 0 ++ src 1 ++ src 2 ++ src 3
      ++ tensorSpans 4 (o 4).off (o 4).stride rows elems (fmtBits (o 4).fmt)
      ++ (if (o 5).used then tensorSpans 5 (o 5).off (o 5).stride rows elems (fmtBits (o 5).fmt) else [])
      ++ run 6 1
      ++ (if (o 7).used then
            (List.range ((elems + 4095) / 4096)).map fun j => ⟨7, (o 7).off + j, (o 7).stride, if (o 7).stride = 0 then 1 else rows⟩
          else [])
      ++ run 8 (rowsForBits (recs * 128)) ++ run 9 (rowsForBits (recs * 32))
  | 0x21 =>
    let len := d.param 0 14
    let rows := d.param 14 13
    tensorSpans 0 (o 0).off (o 0).stride rows len (fmtBits (o 0).fmt)
      ++ tensorSpans 1 (o 1).off (o 1).stride rows len (fmtBits (o 1).fmt)
      ++ (if (o 2).used then
            (List.range ((len + 4095) / 4096)).map fun j => ⟨2, (o 2).off + j, (o 2).stride, if (o 2).stride = 0 then 1 else rows⟩
          else [])
      ++ run 3 ((rows + 31) / 32)
  | 0x30 =>
    let lines := d.param 0 11
    let chans := d.param 11 11
    let n := d.param 22 9
    tensorSpans 0 (o 0).off (o 0).stride n lines 16 ++ tensorSpans 1 (o 1).off (o 1).stride n lines 16
      ++ run 2 (chans * (if d.param 38 9 = 0 then 3 else 5)) ++ run 4 ((lines / chans + 31) / 32)
  | 0x31 =>
    let lines := d.param 0 11
    let chans := d.param 11 11
    tensorSpans 0 (o 0).off (o 0).stride (d.param 22 9) lines 16 ++ run 1 chans ++ run 3 ((lines / chans + 31) / 32)
      ++ run 4 lines
  | 0x40 =>
    let c := (s.atModel d).cache
    ((List.range (rowsForBits (d.param 13 10 * c.latBytes * 8))).map fun j => ⟨0, (o 0).off + j, (o 0).stride, d.param 4 9⟩)
      ++ run 1 ((d.param 4 9 + 63) / 64)
  | 0x41 =>
    let c := (s.atModel d).cache
    let n := d.param 4 9 * d.param 13 10 * c.heads
    run 0 n ++ run 1 (rowsForBits (c.heads * c.headDim * c.latW * 16))
      ++ ((List.range (rowsForBits (2 ^ d.param 23 4 * 32))).map fun j => ⟨2, (o 2).off + j, (o 2).stride, n⟩)
      ++ run 3 ((d.param 4 9 + 63) / 64)
  | 0x42 =>
    let c := (s.atModel d).cache
    let n := d.param 4 9 * d.param 13 10 * c.heads
    ((List.range (rowsForBits (2 ^ d.param 23 4 * fmtBits (o 0).fmt))).map fun j => ⟨0, (o 0).off + j, (o 0).stride, n⟩)
      ++ run 1 (rowsForBits (c.heads * c.headDim * c.latW * 16))
      ++ ((List.range ((c.headDim + 127) / 128)).map fun j => ⟨2, (o 2).off + j, (o 2).stride, n⟩)
      ++ run 3 ((d.param 4 9 + 63) / 64)
  | 0x43 =>
    let c := (s.atModel d).cache
    let n := d.param 4 9 * d.param 13 10 * c.heads
    run 0 ((n * d.param 23 7 + 31) / 32)
      ++ ((List.range ((c.headDim + 127) / 128)).map fun j => ⟨1, (o 1).off + j, (o 1).stride, n * d.param 23 7⟩)
      ++ ((List.range (rowsForBits (c.headDim * fmtBits (o 2).fmt))).map fun j => ⟨2, (o 2).off + j, (o 2).stride, n⟩)
  | 0x50 =>
    tensorSpans 0 (o 0).off (if (o 0).stride = 0 then rowsForBits (d.param 0 17 * fmtBits (o 0).fmt) else (o 0).stride)
        (d.param 17 13) (d.param 0 17) (fmtBits (o 0).fmt)
      ++ run 1 (rowsForBits ((if d.param 30 1 = 1 then 64 else 0) + d.param 17 13 * 16))
  | 0x51 =>
    tensorSpans 0 (o 0).off (if (o 0).stride = 0 then rowsForBits (d.param 0 17 * fmtBits (o 0).fmt) else (o 0).stride)
        (d.param 17 13) (d.param 0 17) (fmtBits (o 0).fmt)
      ++ [⟨1, (o 1).off, Nat.max 1 (o 1).stride, d.param 17 13⟩]
  | 0x52 =>
    tensorSpans 0 (o 0).off (if (o 0).stride = 0 then rowsForBits (d.param 0 17 * fmtBits (o 0).fmt) else (o 0).stride)
        (d.param 17 5) (d.param 0 17) (fmtBits (o 0).fmt)
      ++ run 1 1 ++ run 2 1
  | 0x53 =>
    run 0 (rowsForBits (d.param 0 17 * fmtBits (o 0).fmt)) ++ run 1 1 ++ run 2 (d.param 17 4) ++ run 3 (d.param 17 4)
  | 0x54 =>
    run 0 (rowsForBits (d.param 0 13 * 16)) ++ run 1 1 ++ run 2 1 ++ run 3 ((d.param 0 13 + 63) / 64)
  | 0x58 => run 0 1 ++ run 1 1
  | 0x59 =>
    let t := (s.model (d.param 13 6)).table.token
    let tail := rowsForBits ((t.olaFrame - t.olaHop) * 32)
    tensorSpans 0 (o 0).off (if (o 0).stride = 0 then rowsForBits (t.olaFrame * 32) else (o 0).stride) (d.param 0 13) t.olaFrame 32
      ++ run 1 tail ++ run 2 tail ++ run 3 (rowsForBits (d.param 0 13 * t.olaHop * 16))
  | 0x5A => run 0 ((d.param 0 13 + 7) / 8) ++ run 1 1
  | 0x60 => run 0 1
  | 0x64 => run 0 11
  | 0x70 => run 0 (d.param 2 17) ++ run 1 (d.param 2 17)
  | 0x71 => run 0 ((d.param 2 32 + 511) / 512)
  | 0x72 => run 0 (d.param 3 17)
  | 0x74 => run 0 (d.param 3 17)
  | 0x7C => run 0 1
  | _ => []

/-! ### Resolution (R103, R104) -/

/-- An operand resolved in a handle table for an engine. A LOCAL handle takes the Square of the executing engine. -/
def State.resolve (s : State) (e tp : Nat) (o : Operand) : Operand :=
  if !o.used then o
  else
    let h := HandleEntry.of (s.handle tp o.handle)
    { o with base := if h.isLocal then (e / 8) * 65536 + h.base else h.base, bound := h.bound, slotRows := h.slotRows
             isLocal := h.isLocal }

/-- Whether an operand is read and whether it is written, by its role: a STAT operand is read in MERGE mode, and a SAT
operand is added to (R193, R229). -/
def roleAccess (op k : Nat) (o : Operand) (r : Role) : Bool × Bool :=
  match r.use with
  | .read => (true, false)
  | .write _ => (op == 0x20 && ((k == 8 && o.xflag) || k == 9), true)
  | .free => if op = 0x30 ∨ op = 0x31 then (true, true) else (false, false)

/-- The first error of R104 for an operand list, none when every operand resolves. -/
def State.accessError (s : State) (e tp : Nat) (op : Nat) (roles : List Role) (ops : List Operand) (sp : List Span) :
    Option Nat :=
  let idx := List.range ops.length
  let o := fun k => ops.getD k {}
  let role := fun k => roles.getD k absent
  let used := idx.filter fun k => (o k).used && !(op == 0x20 && (o k).kind == 3 && k < 4)
  let ent := fun k => HandleEntry.of (s.handle tp (o k).handle)
  let isGlobal := decide (0x40 ≤ e)
  if idx.any (fun k => (role k).required && !(o k).used) || used.any (fun k => !(ent k).valid) then some flHandleInvalid
  else if used.any (fun k => let a := roleAccess op k (o k) (role k); (a.1 && !(ent k).rd) || (a.2 && !(ent k).wr))
  then some flHandleAccess
  else if used.any (fun k => if isGlobal then (ent k).isLocal else !bitAt (ent k).mask (e / 8)) then some flHandleSquare
  else if sp.any (fun p => decide (0 < p.count) && decide ((o p.op).bound ≤ p.first + (p.count - 1) * p.stride))
  then some flHandleBound
  else if sp.any (fun p => p.rows.any fun r => !s.quarterOn (rowQuarter ((o p.op).base + r))) then some flHandleOff
  else none

/-! ### Claims (R108, R109, R344) -/

/-- The tag of a slot of a tagged operand: the tag of the slot's first row group (R106). -/
def slotTag (o : Operand) (off : Nat) : Nat := (o.base + off / o.slotRows * o.slotRows) / 4

/-- Each key once, in order of first use. -/
def dedup : List Nat → List Nat
  | [] => []
  | k :: ks => k :: (dedup ks).filter (· != k)

/-- The key of the tile that a TILE source of a VX names: the tile in record bits [10:8], the engine in bit [11] (R342). -/
def vxTileKey (e : Nat) (o : Operand) : Nat := (e / 8 * 2 + bits o.off 3 1) * 8 + bits o.off 0 3

/-- Claims with each slot named once in a mode, however many records name it: the first one's readers count (R109). -/
def onceEach : List Claim → List Claim
  | [] => []
  | c :: cs => c :: (onceEach cs).filter fun x => !(x.isTile == c.isTile && x.key == c.key && x.mode == c.mode)

/-- Claims that are not among those held: the operand list may lie in a slot that a record also names (R109, R344). -/
def notHeld (held : List Claim) (l : List Claim) : List Claim :=
  l.filter fun x => !held.any fun c => x.isTile == c.isTile && x.key == c.key && x.mode == c.mode

/-- The claims that the operands' own modes make, in record order; the tile of a MATMUL last (R162, R344). Shadow copies
claim only through LOCAL handles and in their own engine's tiles (R593). -/
def claimsFor (e : Nat) (d : Desc) (roles : List Role) (ops : List Operand) (sp : List Span) (shadow : Bool) : List Claim :=
  let o := fun k => ops.getD k {}
  let slots := fun k => dedup ((sp.filter fun p => p.op == k).flatMap fun p => p.rows.map (slotTag (o k)))
  let one := fun k =>
    if !(o k).used then []
    else if d.opcode = 0x20 ∧ k < 4 ∧ (o k).kind = 3 then
      [Claim.mk true (vxTileKey e (o k)) 0 0]
    else if (o k).slotRows = 0 ∨ (shadow ∧ !(o k).isLocal) then []
    else
      match (roles.getD k absent).use with
      | .read => (slots k).map fun t => ⟨false, t, 0, 0⟩
      | .write _ => (slots k).map fun t => ⟨false, t, (o k).mode, (o k).readers⟩
      | .free => []
  onceEach ((List.range ops.length).flatMap one
    ++ (if d.opcode = 0x10 then [⟨true, (e / 8 * 2 + e % 8) * 8 + d.param 0 3, d.param 3 3, d.param 6 4⟩]
        else if d.opcode = 0x11 then [⟨true, (e / 8 * 2 + e % 8) * 8 + d.param 0 3, 0, 0⟩]
        else []))

/-! ### Map operands: the line map of SE commands, the member map of AT commands (R257, R258, R300) -/

/-- The operand that is a line map or a member map. Its rows are read once, before the command runs. -/
def mapOperand (op : Nat) : Option Nat :=
  if op = 0x30 ∨ op = 0x41 ∨ op = 0x42 then some (if op = 0x30 then 4 else 3)
  else if op = 0x31 then some 3
  else if op = 0x40 then some 1
  else none

/-- The device rows of the map operand. -/
def mapOperandRows (d : Desc) (ops : List Operand) : List Nat :=
  match mapOperand d.opcode with
  | none => []
  | some k =>
    let m := ops.getD k {}
    let n := if d.opcode = 0x30 ∨ d.opcode = 0x31 then (d.param 0 11 / d.param 11 11 + 31) / 32 else (d.param 4 9 + 63) / 64
    (List.range n).map fun i => m.base + m.off + i

/-- What the map operand says: for each group of an SE command SIN_OFF, SOUT_OFF, RIN_OFF, ROUT_OFF; for each member of an AT
command its sequence and P0. -/
def State.readMap (s : State) (d : Desc) (ops : List Operand) : List (List Nat) :=
  let bs := (mapOperandRows d ops).flatMap s.readRow
  if d.opcode = 0x30 ∨ d.opcode = 0x31 then
    (List.range (d.param 0 11 / d.param 11 11)).map fun g => (List.range 4).map fun f => leAt bs (16 * g + 4 * f) 4
  else (mapEntries bs (d.param 4 9)).map fun m => [m.1, m.2]

/-- The members of an AT command: sequence and P0. -/
def Cmd.atMembers (c : Cmd) : List (Nat × Nat) := c.map.map fun e => (nthD e 0, nthD e 1)

/-- The STATE operand of an SE command. -/
def stateOperand (d : Desc) (ops : List Operand) : Operand := ops.getD (if d.opcode = 0x30 then 3 else 2) {}

/-- SREC of R242. -/
def srecOf (firLen : Nat) : Nat := if firLen ≤ 129 then 1 else 2

/-- State rows and residual quarter rows that a map names: (state rows in, state rows out, residual rows in, residual
rows out), as row offsets of the STATE handle. -/
def mapRows (d : Desc) (map : List (List Nat)) : List Nat × List Nat × List Nat × List Nat :=
  let chans := d.param 11 11
  let n := chans * srecOf (d.param 38 9)
  let res := d.param 47 1 == 1
  let q := fun off => (List.range chans).map fun j => (off + j) / 4
  (map.flatMap (fun e => (List.range n).map (nthD e 0 + ·)), map.flatMap (fun e => (List.range n).map (nthD e 1 + ·)),
   (if res then map.flatMap (fun e => q (nthD e 2)) else []), if res then map.flatMap (fun e => q (nthD e 3)) else [])

/-- The claims that a line map adds: slots only read in READ mode, slots written in CONT mode (R258). -/
def mapClaims (o : Operand) (rows : List Nat × List Nat × List Nat × List Nat) : List Claim :=
  if o.slotRows = 0 then []
  else
    let outs := dedup ((rows.2.1 ++ rows.2.2.2).map (slotTag o))
    let ins := (dedup ((rows.1 ++ rows.2.2.1).map (slotTag o))).filter fun t => !outs.contains t
    ins.map (fun t => ⟨false, t, 0, 0⟩) ++ outs.map fun t => ⟨false, t, 3, 0⟩

/-! ### The commands of the Roundabout -/

/-- The command that holds an engine: issued, or ended and not yet completed. -/
def State.atEngine? (s : State) (e : Nat) : Option Cmd :=
  s.rb.cmds.find? fun c => c.desc.engine == e && (c.phase == .issued || c.phase == .ended)

/-- Replaces the command with the same acceptance number and engine. -/
def State.putCmd (s : State) (c : Cmd) : State :=
  { s with rb := { s.rb with cmds := s.rb.cmds.map fun x => if x.seq = c.seq ∧ x.shadow = c.shadow then c else x } }

/-- Takes a command away. -/
def State.dropCmd (s : State) (c : Cmd) : State :=
  { s with rb := { s.rb with cmds := s.rb.cmds.filter fun x => !(x.seq == c.seq && x.shadow == c.shadow) } }

/-- Ends a command with a flag: it makes no access (R104, R353). -/
def Cmd.endWith (c : Cmd) (flag code : Nat) : Cmd :=
  { c with phase := .ended, flags := withFlag c.flags flag, code := code, wanted := [] }

/-! ### Results of a datapath -/

/-- What a datapath computes: flags, completion fields, rows to write by operand, a tile, engine counters, a summary. -/
structure Result where
  flags : Nat := 0
  code : Nat := 0
  detail : Nat := 0
  /-- operand index, row offset from the handle's base, bytes -/
  rows : List (Nat × Nat × List Byte) := []
  /-- 33 rows of a tile -/
  tile : Option (Nat × List (List Byte)) := none
  /-- narrow writes of a unit with a gather port (R115): operand index, row offset, byte, bytes -/
  narrow : List (Nat × Nat × Nat × List Byte) := []
  /-- rows of on-chip cache pages to write: device row, bytes (R270) -/
  pages : List (Nat × List Byte) := []
  /-- counters of window 0x4002: subindex and increment -/
  counters : List (Nat × Nat) := []
  /-- control core and record (R230) -/
  summary : Option (Nat × List Nat) := none
  /-- a fault-log entry without EMCY (R237, R303, R353) -/
  logs : Bool := false
  /-- ADDR of that entry -/
  logAddr : Nat := 0
  deriving DecidableEq, Repr

/-- Whether a result writes anything. A result that fails a check writes nothing (R104, R353), but for TK_PREFIX, which writes its
prefixes beside DESC_CHECK (R350). -/
def Result.writes (r : Result) : Bool := !r.rows.isEmpty || !r.narrow.isEmpty || !r.pages.isEmpty || r.tile.isSome

/-- Reads one row of an operand. -/
def State.opRow (s : State) (o : Operand) (off : Nat) : List Byte := s.readRow (o.base + off)

/-- Reads a run of rows of an operand as one list of bytes. -/
def State.opRows (s : State) (o : Operand) (off n : Nat) : List Byte := (List.range n).flatMap fun i => s.opRow o (off + i)

/-- The device rows of the operands that satisfy `p` and that a command reads, in record order. -/
def readRowsOf (p : Nat → Bool) (roles : List Role) (op : Nat) (ops : List Operand) (sp : List Span) : List Nat :=
  (sp.filter fun x => p x.op && (roleAccess op x.op (ops.getD x.op {}) (roles.getD x.op absent)).1).flatMap fun x =>
    x.rows.map fun r => (ops.getD x.op {}).base + r

/-- The MX index of an engine: Square x 2 + 0 or 1. -/
def mxIndex (e : Nat) : Nat := e / 8 * 2 + e % 8

/-- The engine ID of an MX index. -/
def mxEngine (mx : Nat) : Nat := mx / 2 * 8 + mx % 2

/-- The index of the accumulator store whose word 0 an engine's upsets count from: an MX's own; of the two of its Square, the
first for a VX, which reads both; none for another unit. -/
def accBase (e : Nat) : Option Nat :=
  match unitOf e with
  | some .mx => some (mxIndex e)
  | some .vx => some (e / 8 * 2)
  | _ => none

/-- A control word in error that a command meets: a corrected one is counted, one held twice is repaired from its other copy
and counted with it, any other stays with the command (R414, R434, R442). -/
def State.ctlWord (s : State) (w : CtlWord) : State :=
  match w with
  | .corrected => s.incObj 0x4004 1
  | .twice => (s.incObj 0x4004 3).incObj 0x4010 0x0A
  | .lost _ | .other _ => s

/-- Applies what the hardware does beside a command: error patterns that reads then meet (R119, R413, R168), control words in
error (R414). -/
def State.upset (s : State) (e : Nat) (hw : Hw) : State :=
  let sp := hw.sp.foldl (fun t u => Tbl.setD t [] u.1 (Tbl.getD t [] u.1 ++ [(u.2.1, u.2.2)])) s.st.spErr
  let hb := hw.hbm.foldl (fun t u => Tbl.setD t [] u.1 (Tbl.getD t [] u.1 ++ [(u.2.1, u.2.2)])) s.st.hbmErr
  let ac := match accBase e with
    | some mx => hw.acc.foldl (fun t u => Tbl.setD t 0 (mx * 33792 + u.1) (Tbl.getD t 0 (mx * 33792 + u.1) + u.2)) s.st.accErr
    | none => s.st.accErr
  hw.ctl.foldl (fun t w => t.ctlWord w)
    { s with st := { s.st with spErr := sp, hbmErr := hb, accErr := ac }
             pg := { s.pg with spillBad := s.pg.spillBad ++ hw.spill } }

/-- The control word that a command meets and that cannot be repaired (R434, R442). -/
def ctlLost (hw : Hw) : Option CtlWord :=
  hw.ctl.find? fun w => match w with
    | .other _ | .lost _ => true
    | _ => false

/-- CRC-32C of one written row for a write signature (R594). -/
def rowSignature (off : Nat) (bs : List Byte) : Nat := crc32c (leBytes 4 off ++ slice bs 0 512)

/-- The write signature of a result (R594). -/
def Result.signature (r : Result) : Nat :=
  let base := Nat.xor (crc32c (leBytes 8 r.flags))
    (match r.summary with
     | some m => crc32c (m.2.flatMap (leBytes 8))
     | none => 0)
  let rows := r.pages.foldl (fun a w => Nat.xor a (rowSignature w.1 w.2))
    (r.rows.foldl (fun a w => Nat.xor a (rowSignature w.2.1 w.2.2)) base)
  match r.tile with
  | some t => (List.range t.2.length).foldl (fun a i => Nat.xor a (rowSignature i (t.2.getD i []))) rows
  | none => rows

/-- Bytes of a tile store row: MX index x 8 + tile, row 0 to 32 (R163). -/
def tileAddr (key row : Nat) : Nat := (key * 33 + row) * 512

/-- A row of a tile. -/
def State.tileRow (s : State) (key row : Nat) : List Byte := Mem.readBytes s.st.acc (tileAddr key row) 512

/-- Writes the 33 rows of a tile; new words carry new check bits (R168). -/
def State.writeTile (s : State) (key : Nat) (rows : List (List Byte)) : State :=
  let acc := (List.range rows.length).foldl (fun m i => Mem.writeBytes m (tileAddr key i) (slice (rows.getD i []) 0 512)) s.st.acc
  { s with st := { s.st with acc := acc, accErr := s.st.accErr.filter fun e => e.1 / 4224 != key } }

/-- The errors of a row of a tile: word addresses and bits in error (R168). -/
def State.tileRowErr (s : State) (key row : Nat) : List (Nat × Nat) := s.st.accErr.filter fun e => e.1 / 128 == key * 33 + row

/-- The first row, in the order of the reads, that holds an uncorrectable word (R168). -/
def State.tileBad (s : State) (key : Nat) (rows : List Nat) : Option Nat :=
  rows.find? fun r => (s.tileRowErr key r).any fun e => 2 ≤ e.2

/-- Counts, for the MX of a tile, the words that a read of some of its rows corrects (R168). -/
def State.countAcc (s : State) (key : Nat) (rows : List Nat) : State :=
  s.addEng (mxEngine (key / 8)) 2 ((rows.flatMap (s.tileRowErr key)).filter fun e => e.2 == 1).length

/-- The event of an uncorrectable accumulator word of an MX: EMCY 0xFF10 (R168). -/
def State.accUncorrected (s : State) (mx : Nat) : State := (s.addEng mx 3 1).emcyEvent 0xFF10 [2, mx]

/-- `n` free words as bytes. -/
def State.freeWords (s : State) : Nat → List Byte × State
  | 0 => ([], s)
  | n + 1 =>
    let d := s.draw
    let r := State.freeWords d.2 n
    (leBytes 8 d.1.toNat ++ r.1, r.2)

/-- The data flags of R355: bits 26 to 16 and 37 to 32. -/
def dataFlags : Nat := 0x3F07FF0000

/-- A result of which the spec states no value: every written byte, every data flag and the summary are free. -/
def State.havoc (s : State) (r : Result) : Result × State :=
  let rows := r.rows.foldl (fun (acc : List (Nat × Nat × List Byte) × State) w =>
    let f := acc.2.freeWords 64
    (acc.1 ++ [(w.1, w.2.1, f.1)], f.2)) ([], s)
  let nar := r.narrow.foldl (fun (acc : List (Nat × Nat × Nat × List Byte) × State) w =>
    let f := acc.2.freeWords ((w.2.2.2.length + 7) / 8)
    (acc.1 ++ [(w.1, w.2.1, w.2.2.1, f.1.take w.2.2.2.length)], f.2)) ([], rows.2)
  let d := nar.2.draw
  let sm := match r.summary with
    | some m =>
      let f := d.2.freeWords 4
      (some (m.1, (chunksOf 4 8 f.1).map leNat), f.2)
    | none => (none, d.2)
  ({ r with rows := rows.1, narrow := nar.1, summary := sm.1, flags := Nat.lor (Nat.land d.1.toNat dataFlags) (outside r.flags [(16, 11), (32, 6)]) },
   sm.2)

/-- Whether a command reads a row that it also writes, other than in the cases that the spec settles: an element program
that reads and writes the same elements (R133), a STAT record merged in place, and state rows of SE, read whole before
they are written (R258). -/
def overlaps (c : Cmd) (roles : List Role) (sp : List Span) (r : Result) : Bool :=
  let op := c.desc.opcode
  let o := fun k => c.ops.getD k {}
  let out := fun k => ((r.rows.filter fun w => w.1 == k).map fun w => (o k).base + w.2.1)
    ++ (r.narrow.filter fun w => w.1 == k).flatMap fun w =>
      (List.range ((w.2.2.1 + w.2.2.2.length + 511) / 512)).map fun i => (o k).base + w.2.1 + i
  let same := fun k j => (o k).base + (o k).off == (o j).base + (o j).off && (o k).stride == (o j).stride
    && fmtBits (o k).fmt == fmtBits (o j).fmt && (o k).kind == 0
  if op = 0x30 ∨ op = 0x31 then false
  else
    (sp.filter fun p => (roleAccess op p.op (o p.op) (roles.getD p.op absent)).1).any fun p =>
      (List.range c.ops.length).any fun j =>
        !(j == p.op) && !(op == 0x20 && (j == 4 || j == 5) && decide (p.op < 4) && same p.op j)
          && p.rows.any fun x => (out j).contains ((o p.op).base + x)

/-- Narrow writes of at most 64 bytes each, within rows (R115). -/
def State.narrowAll (s : State) (g row off : Nat) (own : List (Nat × Nat)) (bs : List Byte) : State :=
  (List.range ((off % 64 + bs.length + 63) / 64)).foldl (fun t i =>
    let a := if i = 0 then off else off / 64 * 64 + 64 * i
    t.narrowWrite g (row + a / 512) (a % 512) ((bs.drop (a - off)).take (64 - a % 64)) own) s

/-- The (partition, stream) pairs for which a command writes; one of no stream is owned by stream 8192 of its partition (R143). -/
def State.owners (s : State) (d : Desc) : List (Nat × Nat) :=
  if d.nostr then [(d.part, 8192)] else (s.partsOf d).zip ((s.members d).map (·.1))

/-- Lands the rows, the narrow writes and the tile of a result. A shadow copy writes only through LOCAL handles (R593). -/
def State.land (s : State) (c : Cmd) (r : Result) : State :=
  let rows := r.rows.filter fun w => !c.shadow || (c.ops.getD w.1 {}).isLocal
  let s0 := rows.foldl (fun t w => t.writeRow ((c.ops.getD w.1 {}).base + w.2.1) w.2.2) s
  let s1 := if c.shadow then s0 else r.pages.foldl (fun t w => t.writeRow w.1 w.2) s0
  let own := s.owners c.desc
  let s2 := match gatherOf c.desc.engine with
    | some g => r.narrow.foldl (fun t w => t.narrowAll g ((c.ops.getD w.1 {}).base + w.2.1) w.2.2.1 own w.2.2.2) s1
    | none => s1
  match r.tile with
  | some t => s2.writeTile t.1 t.2
  | none => s2

/-- A core's mailbox takes an entry, or holds it in turn while no entry is free (R232, R354). `slot` is the class (true
for BE) whose command slot a completion entry keeps until it lands; `cmd` is the command that does not complete before the
entry has landed (R132). -/
def State.postMail (s : State) (core src : Nat) (m : Mail) (slot : Option Bool) (cmd : Option Nat) : State :=
  let box := Tbl.getD s.rb.mail [] core
  if box.length < s.rb.mailCap ∧ !(s.rb.heldMail.any (·.core == core)) then
    { s with rb := { s.rb with mail := Tbl.put s.rb.mail core (box ++ [m]) } }
  else { s with rb := { s.rb with heldMail := s.rb.heldMail ++ [⟨core, src, m, s.now, false, slot, cmd⟩] } }

/-- Ends a command with its result: counters, rows, tile, summary; the command then waits for its completion. A result whose check
failed does not land; the state writes of an SE command do, uncommitted (R262). -/
def State.finish (s : State) (c : Cmd) (r : Result) : State :=
  let s1 := r.counters.foldl (fun t k => t.addEng c.desc.engine k.1 k.2) s
  let s2 := if hasAbortFlag r.flags && !bitAt r.flags flSeResidue then s1 else s1.land c r
  let s3 := match r.summary with
    | some m => if c.shadow || hasAbortFlag r.flags then s2 else s2.postMail m.1 c.desc.engine ⟨1, m.2, some c.desc⟩ none (some c.seq)
    | none => s2
  let s4 := if r.logs then
      s3.logFault { cls := 0, source := c.desc.engine, action := 8, stream := bits c.desc.w0.toNat 21 13, batch := c.desc.batch
                    chunk := c.desc.chunk, addr := r.logAddr, payload := [r.detail, r.flags, 0, 0] }
    else s3
  s4.putCmd { c with phase := .ended, flags := Nat.lor c.flags r.flags, code := r.code, detail := r.detail
                     wrote := c.wrote || r.writes, signature := r.signature }

/-- A command of an opcode that holds its claims and may run at an engine, none otherwise. -/
def State.ready? (s : State) (e op : Nat) : Option Cmd :=
  match s.atEngine? e with
  | some c => if c.phase = .issued ∧ c.desc.opcode = op ∧ c.stage = 2 ∧ c.wanted = [] ∧ c.remoteLeft = 0 then some c else none
  | none => none

/-- Rows that a command reads beside those of its spans: the state and residual rows that a line map names, with the
residual rows that it writes only in part (R257, R258). -/
def Cmd.mapReads (c : Cmd) : List Nat :=
  if c.desc.opcode = 0x30 ∨ c.desc.opcode = 0x31 then
    let rows := mapRows c.desc c.map
    ((rows.1 ++ rows.2.2.1 ++ rows.2.2.2.filter fun r => decide (rows.2.2.2.count r < 4))).map
      ((stateOperand c.desc c.ops).base + ·)
  else []

/-- What a global unit sees of the scratchpad: the bytes that its own gather port holds, over the rows (R118). -/
def State.viewOf (s : State) (e : Nat) : State :=
  match gatherOf e with
  | some g => (s.gatherPort g).foldl (fun t b => t.writeRow b.row (mergeBytes (t.readRow b.row) b.bytes)) s
  | none => s

/-- Ends a command that read a poisoned row (R124). -/
def State.failRow (s : State) (c : Cmd) (row : Nat) : State :=
  (s.spUncorrected row c.desc.engine).putCmd
    { c with phase := .ended, flags := withFlag c.flags flEccUncorr, addr := row, wanted := [] }

/-- Ends a command that read an uncorrectable word of a tile: the MX whose tile it is takes the event (R168). -/
def State.failTile (s : State) (c : Cmd) (key row : Nat) : State :=
  (s.accUncorrected (mxEngine (key / 8))).putCmd
    { c with phase := .ended, flags := withFlag c.flags flEccUncorr, inTile := true, addr := key % 8 * 33 + row
             source := some (mxEngine (key / 8)) }

/-- Reads rows for a command: corrections are counted (R123); a poisoned row ends the command (R124), else it goes on. -/
def State.readOr (s : State) (c : Cmd) (rows : List Nat) (go : State → State) : State :=
  let rd := s.countReads rows
  match rd.2 with
  | some row => rd.1.failRow c row
  | none => go rd.1

/-- Reads tiles for a command, in order: corrections are counted, an uncorrectable word ends the command (R168). -/
def State.readTilesOr (s : State) (c : Cmd) (tiles : List (Nat × List Nat)) (go : State → State) : State :=
  match tiles.findSome? fun k => (s.tileBad k.1 k.2).map fun r => (k.1, r) with
  | some b => s.failTile c b.1 b.2
  | none => go (tiles.foldl (fun t k => t.countAcc k.1 k.2) s)

/-- The Square of an engine or of a Lane; Lane n stands in Square n (R270). -/
def homeSquare (e : Nat) : Option Nat :=
  if e < 0x40 then some (e / 8) else if 0x48 ≤ e ∧ e ≤ 0x4F then some (e - 0x48) else none

/-- How many device rows lie outside the Square of a command's engine (R370). -/
def Cmd.farOf (c : Cmd) (rows : List Nat) : Nat :=
  match homeSquare c.desc.engine with
  | none => 0
  | some q => (rows.filter fun r => r / 65536 != q).length

/-- The device rows that a result writes. -/
def Result.rowsWritten (r : Result) (c : Cmd) : List Nat :=
  r.rows.map (fun w => (c.ops.getD w.1 {}).base + w.2.1) ++ r.pages.map (·.1)

/-- A start check: the operands whose rows it reads, and the result that ends the command when they fail it (R353). -/
structure StartCheck where
  ops : Cmd → List Nat
  fails : State → Cmd → Option Result

/-- What an engine command reads and computes. -/
structure Datapath where
  op : Nat
  /-- start checks, made in order before any other access -/
  checks : List StartCheck := []
  /-- tiles, with the rows of each in the order in which they are read -/
  tiles : Cmd → List (Nat × List Nat) := fun _ => []
  /-- operands whose rows are read a second time -/
  twice : List Nat := []
  /-- device rows read beside those of its operands -/
  extra : State → Cmd → List Nat := fun _ c => c.mapReads
  data : State → Cmd → Result
  /-- what a command that ends well does beside its writes: over what it saw, on the state that it leaves -/
  after : State → Cmd → State → State := fun _ _ t => t

/-- Makes the start checks in order; each reads the rows of its operands first. -/
def State.startChecks (s : State) (c : Cmd) (i : OpInfo) (sp : List Span) : List StartCheck → (State → State) → State
  | [], go => go s
  | k :: ks, go =>
    s.readOr c (readRowsOf ((k.ops c).contains ·) i.roles c.desc.opcode c.ops sp) fun t =>
      match k.fails (t.viewOf c.desc.engine) c with
      | some r => t.finish c r
      | none => t.startChecks c i sp ks go

/-- The operands that a datapath reads as it runs: not those of its start checks, nor its map, which were read before. -/
def Datapath.later (p : Datapath) (c : Cmd) (k : Nat) : Bool :=
  !(p.checks.any fun x => (x.ops c).contains k) && mapOperand c.desc.opcode != some k

/-- Rows that a datapath reads once its start checks have passed. -/
def Datapath.rows (p : Datapath) (s : State) (c : Cmd) (i : OpInfo) (sp : List Span) : List Nat :=
  readRowsOf (p.later c) i.roles c.desc.opcode c.ops sp ++ readRowsOf (p.twice.contains ·) i.roles c.desc.opcode c.ops sp
    ++ p.extra s c

/-- Every row that a datapath reads, its start checks and its map among them. -/
def Datapath.allRows (p : Datapath) (s : State) (c : Cmd) (i : OpInfo) (sp : List Span) : List Nat :=
  p.rows s c i sp ++ mapOperandRows c.desc c.ops
    ++ p.checks.flatMap fun k => readRowsOf ((k.ops c).contains ·) i.roles c.desc.opcode c.ops sp

/-- Lands what a datapath computes, free where the command reads what it writes (R133). -/
def State.landPath (s : State) (p : Datapath) (c : Cmd) (i : OpInfo) (sp : List Span) : State :=
  let v := s.viewOf c.desc.engine
  let r := p.data v c
  let h := if overlaps c i.roles sp r then s.havoc r else (r, s)
  let t := h.2.finish { c with far := c.farOf (p.allRows s c i sp ++ h.1.rowsWritten c) } h.1
  if hasAbortFlag r.flags || (hasCheckFlag r.flags && !r.writes) || hasPtFlag r.flags || c.shadow then t else p.after v c t

/-- Runs what stands for a command's effect at an engine: the faults of `hw` strike; a command whose own word is lost ends
without an access (R434), any other goes on. -/
def State.atCommand (s : State) (e op : Nat) (hw : Hw) (go : State → Cmd → State) : State :=
  match s.ready? e op with
  | none => s
  | some c0 =>
    let c := { c0 with ctl := c0.ctl.or (ctlLost hw) }
    let t := (s.upset e hw).putCmd c
    if c.ctl.isSome then t.putCmd { c with phase := .ended } else go t c

/-- Runs a datapath for a command: the start checks are made, rows and tiles are read, a poisoned row or an uncorrectable word
ends the command with ECC_UNCORR (R124, R168), else the result lands. -/
def State.runOn (s : State) (p : Datapath) (c : Cmd) : State :=
  match opInfo c.desc with
  | none => s
  | some i =>
    let sp := s.spans c.desc c.ops
    s.startChecks c i sp p.checks fun s1 =>
      s1.readOr c (p.rows s1 c i sp) fun s2 => s2.readTilesOr c (p.tiles c) fun s3 => s3.landPath p c i sp

/-- Runs a datapath at an engine. -/
def State.runPath (s : State) (e : Nat) (hw : Hw) (p : Datapath) : State := s.atCommand e p.op hw fun t c => t.runOn p c

end Sys2Proof.Machine
end

