-- ==== Sys2Proof/Machine/PageOps.lean ====
section
/-! DEFINITION. Cache pages: pools, page tables, walkers, the prefix tree (chapter "Attention engines and the paged latent
cache", R263 to R294). -/

namespace Sys2Proof.Machine

/-! ### Page IDs and frames (R270, R271) -/

/-- A page ID of the spill pool has bit 19 set. -/
def isSpill (page : Nat) : Bool := bitAt page 19

/-- The frame of a page ID. -/
def pageFrame (page : Nat) : Nat := bits page 0 19

/-- The page ID of a spill frame. -/
def spillPage (f : Nat) : Nat := 2 ^ 19 + f

/-- The pages that a table copy names, headroom included. -/
def PageTable.pages (t : PageTable) : List Nat :=
  ((t.entries.filter (·.valid)).map (·.page)) ++ t.headroom.toList

/-- Every page that is in use: named by a current copy, by a tree node, or held by a reclaim list (R271). -/
def State.usedPages (s : State) : List Nat :=
  dedup ((s.pg.seqs.flatMap fun q => (if q.2.valid then q.2.table.pages else []) ++ q.2.reclaimA ++ q.2.reclaimB)
    ++ s.pg.nodes.map (·.2.page))

/-- On-chip frames in use. -/
def State.usedOnchip (s : State) : List Nat := (s.usedPages.filter fun p => !isSpill p).map pageFrame

/-- Spill frames in use. -/
def State.usedSpill (s : State) : List Nat := (s.usedPages.filter isSpill).map pageFrame

/-- FREE_ONCHIP of 0x2900. -/
def State.freeOnchip (s : State) : Nat := s.obj 0x2900 1 - s.usedOnchip.length

/-- FREE_SPILL of 0x2900. -/
def State.freeSpill (s : State) : Nat := s.obj 0x2900 2 - s.usedSpill.length

/-- Frames of the LC on-chip reserve that are free: the reserve less what LC work took from it and still holds (R412). -/
def State.reserveFree (s : State) : Nat :=
  Nat.min s.freeOnchip (s.obj 0x2900 3 - (s.pg.reserveFrames.filter fun f => s.usedOnchip.contains f).length)

/-- The pages that all beams of a stream hold, each once (R273). -/
def State.heldPages (s : State) (sid : Nat) : List Nat :=
  dedup ((List.range 8).flatMap fun b => ((s.seq? (sid * 8 + b)).map fun q => q.table.pages).getD [])

/-- LC_UNUSED: frames reserved by LC streams and not held (R272). -/
def State.lcUnused (s : State) : Nat :=
  s.str.tab.foldl (fun n e => if e.2.cfg.cls = 0 then n + (e.2.lcPages - (s.heldPages e.1).length) else n) 0

/-- Whether an LC stream draws on its own reservation (R273). -/
def State.lcWithin (s : State) (sid : Nat) : Bool :=
  match s.stream? sid with
  | some st => st.cfg.cls == 0 && decide ((s.heldPages sid).length < st.lcPages)
  | none => false

/-- Whether a page request of a stream may succeed under R273. -/
def State.mayTakePage (s : State) (sid : Nat) : Bool :=
  s.lcWithin sid || decide (s.lcUnused < s.freeOnchip + s.freeSpill)

/-- The HBM stack of a spill frame: frames lie over the four stacks in rotation (R271). DEDUCED: a frame's number gives its stack,
its number modulo 4. -/
def spillStackOf (f : Nat) : Nat := f % 4

/-- First byte of a spill frame in HBM, in the spill region that follows the system region of its stack (R620). -/
def spillAddr (f : Nat) : Nat := (spillStackOf f * 16 + 2) * 2 ^ 30 + f / 4 * 32768

/-- The spill frame that is taken next: the lowest free one of the first stack with one, from the stack after the last one taken
(R271). -/
def State.nextSpill (s : State) : Option Nat :=
  (List.range 4).findSome? fun i =>
    let k := (s.pg.spillStack + i) % 4
    (firstIndex (s.usedSpill.length + 1) fun j =>
      decide (4 * j + k < s.obj 0x2900 2) && !s.usedSpill.contains (4 * j + k)).map fun j => 4 * j + k

/-- A spill frame is taken: the rotation goes on after its stack (R271). -/
def State.claimSpill (s : State) (f : Nat) : State := { s with pg := { s.pg with spillStack := (spillStackOf f + 1) % 4 } }

/-- The lowest number that a list does not hold. -/
def lowestFree (used : List Nat) : Nat := (firstIndex (used.length + 1) fun i => !used.contains i).getD used.length

/-- On-chip frames that a stream of a class may take now: LC work takes of the reserve first (R412). -/
def State.onchipFor (s : State) (lc : Bool) : Nat := if lc then s.freeOnchip else s.freeOnchip - s.reserveFree

/-- First device row of an on-chip frame. -/
def State.frameRow (s : State) (f : Nat) : Nat := s.pg.poolBase + 64 * f

/-- Marks on-chip frames as taken: their bytes are 0 (R266); those that LC work takes count against the reserve first
(R412). -/
def State.claimFrames (s : State) (fs : List Nat) (lc : Bool) : State :=
  let res := s.pg.reserveFrames.filter fun x => s.usedOnchip.contains x
  let s1 := { s with pg := { s.pg with reserveFrames := res ++ (if lc then fs.take s.reserveFree else []) } }
  fs.foldl (fun t f => t.writeRows (t.frameRow f) (List.replicate 64 (List.replicate 512 0))) s1

/-- Marks one on-chip frame as taken. -/
def State.claimFrame (s : State) (f : Nat) (lc : Bool) : State := s.claimFrames [f] lc

/-- The `n` lowest numbers that a list does not hold. -/
def lowestFrees (used : List Nat) : Nat → List Nat
  | 0 => []
  | n + 1 => lowestFree used :: lowestFrees (lowestFree used :: used) n

/-- Takes an on-chip frame for a stream, none when it may not. -/
def State.takeOnchip (s : State) (sid : Nat) : Option (Nat × State) :=
  let lc := ((s.stream? sid).map fun st => st.cfg.cls == 0).getD false
  if s.mayTakePage sid && decide (0 < s.onchipFor lc) then
    let f := lowestFree s.usedOnchip
    some (f, s.claimFrame f lc)
  else none

/-- The 32,768 bytes of a page. -/
def State.pageBytes (s : State) (page : Nat) : List Byte :=
  if isSpill page then Mem.readBytes s.pg.spill (pageFrame page * 32768) 32768
  else (List.range 64).flatMap fun i => s.readRow (s.frameRow (pageFrame page) + i)

/-- Whether a page holds a poisoned row or an unreadable line. -/
def State.pageBad (s : State) (page : Nat) : Bool :=
  if isSpill page then s.pg.spillBad.contains (pageFrame page)
  else (List.range 64).any fun i => s.rowPoisoned (s.frameRow (pageFrame page) + i)

/-- Writes a page's bytes. -/
def State.writePage (s : State) (page : Nat) (bs : List Byte) : State :=
  if isSpill page then
    { s with pg := { s.pg with spill := Mem.writeBytes s.pg.spill (pageFrame page * 32768) (slice bs 0 32768)
                               spillBad := s.pg.spillBad.filter (· != pageFrame page) } }
  else s.writeRows (s.frameRow (pageFrame page)) (chunksOf 64 512 bs)

/-! ### Sequences and their tables (R275 to R282) -/

/-- Puts a sequence. -/
def State.putSeq (s : State) (q : Nat) (x : Sequence) : State :=
  { s with pg := { s.pg with seqs := Tbl.put s.pg.seqs q x } }

/-- Whether the copy that is not current has no walkers (step 1 of R279). -/
def Sequence.editable (q : Sequence) : Bool := if q.cur then q.walkersA == 0 else q.walkersB == 0

/-- Publishes a new table in the copy that is not current (R279): CUR flips, GEN rises, and what only the old copy names
goes on the old copy's reclaim list. The list of the copy now reused is freed when its walkers are gone. -/
def Sequence.publish (q : Sequence) (t : PageTable) : Sequence :=
  let old := q.table
  let gen := (q.gen + 1) % 65536
  let gone := old.pages.filter fun p => !t.pages.contains p
  if q.cur then
    { q with cur := false, gen := gen, copyA := { t with gen := gen }
             reclaimA := if q.walkersA = 0 then [] else q.reclaimA
             reclaimB := q.reclaimB ++ gone }
  else
    { q with cur := true, gen := gen, copyB := { t with gen := gen }
             reclaimB := if q.walkersB = 0 then [] else q.reclaimB
             reclaimA := q.reclaimA ++ gone }

/-- A table with the entries at or beyond a length removed; the first removed frame fills an empty headroom slot when it
lies on chip (R282, R289). -/
def PageTable.cut (t : PageTable) (keep : Nat) : PageTable :=
  let gone := ((t.entries.drop keep).filter (·.valid)).map (·.page)
  { t with entries := t.entries.take keep
           headroom := match t.headroom with
             | some h => some h
             | none => gone.find? fun p => !isSpill p }

/-- Pages that hold a number of positions. -/
def pagesFor (tp len : Nat) : Nat := (len + tp - 1) / tp

/-- Whether a table copy lacks pages: REBUILT_LEN equals COMMITTED_LEN unless REBUILD marks it (R276). -/
def PageTable.rebuilding (t : PageTable) : Bool := decide (t.rebuiltLen < t.committedLen)

/-- A table after a commit (R282). The pages of a marked sequence are still absent: its REBUILT_LEN stays (R276, R294). -/
def PageTable.commit (t : PageTable) (rebuild : Bool) (tp len nextChunk : Nat) : PageTable :=
  { t.cut (pagesFor tp len) with committedLen := len, workLen := len, workChunk := nextChunk % 65536
                                 rebuiltLen := if rebuild then Nat.min t.rebuiltLen len else len }

/-- A table after an abort: the uncommitted positions are dropped (R282, R427). -/
def PageTable.abort (t : PageTable) (tp : Nat) : PageTable :=
  { t.cut (pagesFor tp t.committedLen) with workLen := t.committedLen }

/-- A table without the first committed entry that names a page and those after it; REBUILT_LEN falls to the first absent page
(R294). None when no committed entry names the page. -/
def PageTable.lose (t : PageTable) (tp page : Nat) : Option PageTable :=
  match t.entries.findIdx? fun e => e.valid && e.page == page with
  | some i => if i * tp < t.committedLen then some { t with entries := t.entries.take i, rebuiltLen := Nat.min t.rebuiltLen (i * tp) }
              else none
  | none => none

/-- Tokens to a page of a sequence's model. -/
def State.seqTp (s : State) (q : Sequence) : Nat := (s.model q.table.model).cache.tokensPerPage

/-- Sequence IDs of a stream that exist. -/
def State.seqsOf (s : State) (sid : Nat) : List Nat :=
  ((List.range 8).map fun b => sid * 8 + b).filter fun q => (s.seq? q).isSome

/-- Changes a sequence that exists. -/
def State.modSeq (s : State) (q : Nat) (f : Sequence → Sequence) : State :=
  match s.seq? q with
  | some x => s.putSeq q (f x)
  | none => s

/-- Whether a command of a stream with one of some opcodes is issued or queued. -/
def State.hasCommand (s : State) (sid : Nat) (p : Nat → Bool) : Bool :=
  s.rb.cmds.any fun c => p c.desc.opcode && (s.members c.desc).any fun m => m.1 == sid

/-- Whether an AT command of a stream is issued or queued (R279). -/
def State.atBusy (s : State) (sid : Nat) : Bool := s.hasCommand sid fun o => decide (0x40 ≤ o ∧ o ≤ 0x43)

/-- Whether a sequence's table may be edited: no AT command of its stream, no walker on the copy to be written (R279). -/
def State.mayEdit (s : State) (q : Nat) : Bool :=
  match s.seq? q with
  | some x => x.editable && !s.atBusy (q / 8)
  | none => false

/-- Adds or removes walkers of one copy. -/
def State.walk (s : State) (q : Nat) (copyB : Bool) (n : Int) : State :=
  match Tbl.get? s.pg.seqs q with
  | none => s
  | some x =>
    let f := fun (w : Nat) => ((w : Int) + n).toNat
    let y := if copyB then { x with walkersB := f x.walkersB } else { x with walkersA := f x.walkersA }
    if 0 < n then
      { s with str := { s.str with useClock := s.str.useClock + 1 } }.putSeq q { y with lastWalk := s.str.useClock + 1 }
    else s.putSeq q y

/-- Frees the reclaim list of a copy whose walkers are gone (R279); an ended sequence without walkers goes. -/
def State.reclaim (s : State) (q : Nat) (copyB : Bool) : State :=
  match Tbl.get? s.pg.seqs q with
  | none => s
  | some x =>
    let y := if copyB then (if x.walkersB = 0 then { x with reclaimB := [] } else x)
             else if x.walkersA = 0 then { x with reclaimA := [] } else x
    if !y.valid && y.walkersA == 0 && y.walkersB == 0 && y.reclaimA.isEmpty && y.reclaimB.isEmpty then
      { s with pg := { s.pg with seqs := Tbl.erase s.pg.seqs q } }
    else s.putSeq q y

/-- A sequence ends: its root becomes invalid, and every frame of its table returns once no walker can still read it (R279,
R290). -/
def State.endSeq (s : State) (q : Nat) : State :=
  match s.seq? q with
  | none => s
  | some x =>
    let y := { x with valid := false, due := [] }
    let z := if x.cur then { y with reclaimB := y.reclaimB ++ x.copyB.pages } else { y with reclaimA := y.reclaimA ++ x.copyA.pages }
    ((s.putSeq q z).reclaim q false).reclaim q true

/-- Ends every sequence of a stream. -/
def State.endSeqs (s : State) (sid : Nat) : State := (s.seqsOf sid).foldl (fun t q => t.endSeq q) s

/-- Publishes an edit of a sequence's table; frames that no walker still reads are free at once (R279). -/
def State.editSeq (s : State) (q : Nat) (f : PageTable → PageTable) : State :=
  match s.seq? q with
  | some x => (s.putSeq q (x.publish (f x.table))).reclaim q x.cur
  | none => s

/-- What a waiting edit makes of a table, none when it changes nothing. -/
def DueEdit.apply (tp : Nat) (t : PageTable) : DueEdit → Option PageTable
  | .lost page => t.lose tp page
  | .drop => some { t with entries := [], rebuiltLen := 0, headroom := none }

/-- Makes a waiting edit, counts what it marks and clears the root's REBUILD where nothing committed is absent (R279, R293,
R294). -/
def State.applyDue (s : State) (q : Nat) (e : DueEdit) : State :=
  match s.seq? q with
  | none => s
  | some x =>
    match e.apply (s.seqTp x) x.table with
    | none => s
    | some t =>
      ((s.putSeq q { x.publish t with rebuild := t.rebuilding, rebuildAt := none }).reclaim q x.cur).incObj 0x2900 0x0B

/-- Makes the first waiting edit of a sequence when the copy it writes has no walkers (step 1 of R279). -/
def State.settleSeq (s : State) (q : Nat) : Nat → State
  | 0 => s
  | n + 1 =>
    match s.seq? q with
    | none => s
    | some x =>
      match x.due with
      | [] => s
      | e :: es => if x.editable then ((s.putSeq q { x with due := es }).applyDue q e).settleSeq q n else s

/-- An edit that may come at any time but for step 1 of R279. -/
def State.editWhenFree (s : State) (q : Nat) (e : DueEdit) : State :=
  (s.modSeq q fun x => { x with due := x.due ++ [e] }).settleSeq q 8

/-- Every sequence that names a page is marked (R287, R294). -/
def State.markPage (s : State) (page : Nat) : State :=
  (s.pg.seqs.filter fun q => q.2.valid && (q.2.table.lose (s.seqTp q.2) page).isSome).foldl (fun t q => t.editWhenFree q.1 (.lost page)) s

/-- Removes a walker (R278): the reclaim list of its copy is checked, and an edit that waited for it is made (R279). -/
def State.endWalk (s : State) (q : Nat) (copyB : Bool) : State := ((s.walk q copyB (-1)).reclaim q copyB).settleSeq q 8

/-- Whether an abort changes a sequence's table. -/
def State.cutsSeq (s : State) (q : Nat) : Bool := ((s.seq? q).map fun x => decide (x.table.abort (s.seqTp x) ≠ x.table)).getD false

/-- Drops the uncommitted positions of a stream's sequences in new table copies (R282, step 4 of R427). -/
def State.abortSeqs (s : State) (sid : Nat) : State :=
  ((s.seqsOf sid).filter s.cutsSeq).foldl (fun t q => t.editSeq q fun x => x.abort (((t.seq? q).map t.seqTp).getD 1)) s

/-! ### Where table copies lie (R275, R276) -/

/-- Rows of a table copy sized for LC_PAGES entries (R276). -/
def ModelSlot.tblRows (m : ModelSlot) : Nat := (64 + 4 * m.field 0x88 4 + 511) / 512

/-- The lowest device row behind the page pool at which two copies of `n` rows lie apart from those of every sequence. DESIGN
CHOICE: the spec leaves the place of the copies open. -/
def State.tableRow (s : State) (n : Nat) : Nat :=
  let first := s.pg.poolBase + 64 * s.obj 0x2900 1
  let held := s.pg.seqs.map fun q => (q.2.tblRow, q.2.tblRow + 2 * q.2.tblRows)
  let ok := fun r => decide (first ≤ r) && held.all fun h => decide (r + 2 * n ≤ h.1 ∨ h.2 ≤ r)
  (((first :: held.map (·.2)).filter ok).foldl (fun (a : Option Nat) r => some (Nat.min (a.getD r) r)) none).getD first

/-- A sequence comes into being with a table. A copy that walkers of an ended sequence of the same number still read is left as
it is where the other is free. -/
def State.beginTable (s : State) (q : Nat) (rebuild : Bool) (t : PageTable) : State :=
  match Tbl.get? s.pg.seqs q with
  | none =>
    let n := (s.model t.model).tblRows
    s.putSeq q { rebuild := rebuild, tblRow := s.tableRow n, tblRows := n, copyA := { t with gen := 0 } }
  | some x =>
    let y := { x with valid := true, rebuild := rebuild, pageWait := false, joined := none, rebuildAt := none, due := [] }
    let gen := (x.gen + 1) % 65536
    s.putSeq q (if !x.editable then y.setTable { t with gen := x.gen }
                else if x.cur then { y with cur := false, gen := gen, copyA := { t with gen := gen } }
                else { y with cur := true, gen := gen, copyB := { t with gen := gen } })

/-! ### The prefix tree (R283 to R287) -/

/-- The key string of a node (R283). -/
def nodeKey (slot part parent : Nat) (tokens : List Nat) : Nat :=
  crc64 (leBytes 1 slot ++ leBytes 1 part ++ leBytes 4 parent ++ leBytes 2 tokens.length ++ tokens.flatMap (leBytes 2))

/-- The key of a node that exists. -/
def TreeNode.key (n : TreeNode) : Nat := nodeKey n.slot n.part n.parent n.tokens

/-- The partition byte of a key (R283). -/
def State.treePart (s : State) (p : Nat) : Nat := if s.obj 0x2A00 2 = 1 then 0xFF else p

/-- Whether a node is unreferenced: no table entry names its page and it has no child (R287). -/
def State.nodeFree (s : State) (id : Nat) (n : TreeNode) : Bool :=
  !(s.pg.seqs.any fun q => q.2.valid && q.2.table.pages.contains n.page) && !(s.pg.nodes.any fun m => m.2.parent == id)

/-- Evicts the least recently used unreferenced node that satisfies `p`, if any (R287). -/
def State.evictNode (s : State) (p : TreeNode → Bool) : Option State :=
  match argMin (fun e : Nat × TreeNode => e.2.lastUse) (s.pg.nodes.filter fun e => p e.2 && s.nodeFree e.1 e.2) with
  | some e => some (({ s with pg := { s.pg with nodes := Tbl.erase s.pg.nodes e.1 } }).incObj 0x2A00 6)
  | none => none

/-- Removes the nodes that name a page, with the nodes under them (R287). -/
def State.dropNodes (s : State) (page : Nat) : State :=
  let step := fun (dead : List Nat) =>
    dead ++ ((s.pg.nodes.filter fun e => dead.contains e.2.parent && !dead.contains e.1).map (·.1))
  let dead0 := (s.pg.nodes.filter fun e => e.2.page == page).map (·.1)
  let dead := if dead0.isEmpty then [] else (List.range s.pg.nodes.length).foldl (fun d _ => step d) dead0
  { s with pg := { s.pg with nodes := s.pg.nodes.filter fun e => !dead.contains e.1 } }

/-- A page that cannot be read: its node goes and every sequence that names it is marked (R287, R294). -/
def State.pageLost (s : State) (page : Nat) : State := (s.dropNodes page).markPage page

/-- The on-chip page of a device row, none outside the pool. -/
def State.rowPage (s : State) (row : Nat) : Option Nat :=
  if s.pg.poolBase ≤ row ∧ row < s.pg.poolBase + 64 * s.obj 0x2900 1 then some ((row - s.pg.poolBase) / 64) else none

/-- Cancels receive descriptors: the slots that they claimed, still FILLING, return to EMPTY (R463, R465). -/
def State.cancelRx (s : State) (p : RxDesc → Bool) : State :=
  let gone := s.xr.rxDescs.filter fun d => p d.2
  let s1 := gone.foldl (fun t d => match d.2.tag with
    | some k => if (t.tag k).state = .filling then t.setTag k ((t.tag k).set .empty 0) else t
    | none => t) s
  { s1 with xr := { s1.xr with rxDescs := s1.xr.rxDescs.filter fun d => !p d.2 } }

end Sys2Proof.Machine
end

