-- ==== Sys2Proof/Machine/Publish.lean ====
section
/-! DEFINITION. Output records, the egress queues and the order of publications (R323 to R328, R331, R61, R622, R424). -/

namespace Sys2Proof.Machine

/-! ### Records (R323 to R325) -/

/-- Words W0 and W2 of a record of a stream; TIME and REC_SEQ are set at publication. -/
def mkRec (type sid chunk tag : Nat) : Rec :=
  { w0 := type + (sid % 8192) * 2 ^ 16 + (chunk % 2 ^ 32) * 2 ^ 32, w2 := (tag % 2 ^ 32) * 2 ^ 32 }

/-- A record with NO_STREAM (R622). -/
def mkRec0 (type tag : Nat) : Rec := { w0 := type + 2 ^ 9, w2 := (tag % 2 ^ 32) * 2 ^ 32 }

/-- Whether a record carries NO_STREAM. -/
def Rec.noStream (r : Rec) : Bool := bitAt r.w0 9

/-- TYPE. -/
def Rec.type (r : Rec) : Nat := bits r.w0 0 8

/-- STREAM. -/
def Rec.sid (r : Rec) : Nat := bits r.w0 16 13

/-- The 64 bytes of a record. -/
def Rec.toBytes (r : Rec) : List Byte := [r.w0, r.w1, r.w2, r.w3, r.w4, r.w5, r.w6, r.w7].flatMap (leBytes 8)

/-- CHUNK_SEQ of an event: the last committed chunk, 0 before the first (R323). -/
def Stream.lastChunk (st : Stream) : Nat := if st.cr.committed then st.cr.commitSeq else 0

/-- A STREAM_EVENT record of a stream (R61, R325). -/
def eventRec (sid chunk ev reason op tag arg : Nat) : Rec :=
  { mkRec 0x09 sid chunk tag with w3 := ev + reason * 2 ^ 8 + op * 2 ^ 16 + (arg % 2 ^ 32) * 2 ^ 32 }

/-- A STREAM_EVENT record that names no stream. -/
def eventRec0 (ev reason op tag arg : Nat) : Rec :=
  { mkRec0 0x09 tag with w3 := ev + reason * 2 ^ 8 + op * 2 ^ 16 + (arg % 2 ^ 32) * 2 ^ 32 }

/-- The fields of a DESC_ERROR record (R325, R326). -/
def descErrorFields (r : Rec) (code op ring seq expected : Nat) : Rec :=
  { r with w3 := code + op * 2 ^ 8 + (ring % 16) * 2 ^ 16 + (seq % 2 ^ 32) * 2 ^ 32, w4 := expected % 2 ^ 32 }

/-- A COMMIT_TOKENS (0x01) or PROVISIONAL (0x02) record: at most 8 tokens and 16 bytes of whole characters. -/
def tokensRec (type sid chunk tag pos : Nat) (toks : List Nat) (text : List Byte) : Rec :=
  { mkRec type sid chunk tag with
    w3 := pos % 2 ^ 32 + toks.length * 2 ^ 32 + text.length * 2 ^ 36
    w4 := leNat ((toks.take 4).flatMap (leBytes 2))
    w5 := leNat (((toks.drop 4).take 4).flatMap (leBytes 2))
    w6 := leNat (text.take 8)
    w7 := leNat ((text.drop 8).take 8) }

/-- A CONFIRM (0x03) or RETRACT (0x04) record. -/
def resolveRec (type sid chunk rangeId pos count kept : Nat) : Rec :=
  { mkRec type sid chunk rangeId with w3 := pos % 2 ^ 32 + count * 2 ^ 32 + kept * 2 ^ 48 }

/-- The record that resolves a range with `kept` drafts committed: CONFIRM when all of them are (R321). -/
def Ledger.record (l : Ledger) (sid kept : Nat) : Rec :=
  resolveRec (if kept = l.drafts.length then 0x03 else 0x04) sid l.chunk l.range l.pos l.drafts.length kept

/-- An AUDIO_OUT record; DATA_OFF is set at publication. -/
def audioRec (sid chunk bytes samplePos format : Nat) (tail : Bool) (clipped : Nat) : Rec :=
  { mkRec 0x05 sid chunk 0 with
    w3 := bytes * 2 ^ 32, w4 := samplePos % 2 ^ 64, w5 := format + 4 * b2n tail, w6 := clipped % 2 ^ 32 }

/-- Microseconds late, rounded up, stopping at 2^32 - 1 (R325). -/
def lateUs (time deadline : Nat) : Nat := Nat.min (2 ^ 32 - 1) ((time - deadline + 999) / 1000)

/-- A LATE record. -/
def lateRec (sid chunk time deadline : Nat) : Rec :=
  { mkRec 0x06 sid chunk 0 with w3 := deadline, w4 := lateUs time deadline }

/-- A FALLBACK record. -/
def fallbackRec (sid chunk src dst : Nat) (back : Bool) (slackUs : Int) : Rec :=
  { mkRec 0x07 sid chunk 0 with w3 := src + dst * 2 ^ 8 + b2n back * 2 ^ 16, w4 := unsignedOf 32 slackUs }

/-- A GAP record. -/
def gapRec (sid chunk : Nat) (g : GapRec) : Rec :=
  { mkRec 0x08 sid chunk 0 with w3 := g.gapNs % 2 ^ 64, w4 := g.zeros % 2 ^ 32, w5 := g.pos % 2 ^ 64 }

/-- An EXPORT_DONE record. -/
def exportDoneRec (sid chunk tag len steps pos : Nat) : Rec :=
  { mkRec 0x0A sid chunk tag with w3 := len % 2 ^ 32, w4 := steps, w5 := pos % 2 ^ 64 }

/-- FINAL on the last record of a publication (R327). -/
def finalise : List (Rec × List Byte) → List (Rec × List Byte)
  | [] => []
  | [r] => [({ r.1 with w0 := setBit r.1.w0 8 true }, r.2)]
  | r :: rs => r :: finalise rs

/-! ### The audio area (R331) -/

/-- Where a run of `n` bytes goes and what it takes of the area, none while it does not fit. A run that would cross the
end starts at 0, and the bytes it skips are held with it. -/
def OutRing.audioFit (o : OutRing) (n : Nat) : Option (Nat × Nat) :=
  if o.audioHeld = 0 then
    (if o.audioNext + n ≤ o.audioBytes then some (o.audioNext, n) else if n ≤ o.audioBytes then some (0, n) else none)
  else if o.audioNext + n ≤ o.audioBytes then
    (if o.audioHeld + n ≤ o.audioBytes then some (o.audioNext, n) else none)
  else
    let skip := o.audioBytes - o.audioNext
    if o.audioHeld + skip + n ≤ o.audioBytes then some (0, skip + n) else none

/-- Whether the audio runs of records fit, one after another. -/
def OutRing.audioFits (o : OutRing) : List (Rec × List Byte) → Bool
  | [] => true
  | (_, []) :: rs => OutRing.audioFits o rs
  | (_, run) :: rs =>
    match o.audioFit run.length with
    | some (off, held) =>
      OutRing.audioFits { o with audioNext := off + run.length, audioHeld := o.audioHeld + held } rs
    | none => false

/-- Places one record in the queue with its mark (R141): an audio run gets its DATA_OFF. -/
def OutRing.enqueue (o : OutRing) (mark : Nat) (r : Rec × List Byte) : OutRing :=
  let q := { o with queue := o.queue ++ [r], marks := o.marks ++ [mark], pubIndex := o.pubIndex + 1 }
  if r.2 = [] then q
  else
    match o.audioFit r.2.length with
    | some (off, held) =>
      { q with queue := o.queue ++ [({ r.1 with w3 := r.1.w3 + off }, r.2)]
               audioNext := off + r.2.length, audioHeld := o.audioHeld + held
               audioRuns := o.audioRuns ++ [(o.pubIndex, held)] }
    | none => q

/-! ### Publication (R328, R424) -/

/-- A stream's table entry becomes FREE (R20): its sequences, chunks and exports go with it. -/
def State.freeStream (s : State) (sid : Nat) : State :=
  let s1 := s.endSeqs sid
  { s1 with str := { s1.str with tab := Tbl.erase s1.str.tab sid
                                 chunks := s1.str.chunks.filter fun c => c.sid != sid } }

/-- What follows the publication of a record: CLOSED and STREAM_LOST free the entry (R20, R24). -/
def State.published (s : State) (r : Rec) : State :=
  if r.type = 0x09 ∧ !r.noStream ∧ (bits r.w3 0 8 = 0x03 ∨ bits r.w3 0 8 = 0x08) then
    match s.stream? r.sid with
    | some st => if st.state = .closed ∨ st.state = .lost then s.freeStream r.sid else s
    | none => s
  else s

/-- Writes one record into the queue of a ring: REC_SEQ from the stream's PUB_NEXT (R323, R424); TIME is the
publication's unless the record is a commit's. `mark` is the acceptance number from which on a FENCE_D waits for it. -/
def State.place (s : State) (p ring mark : Nat) (commit : Bool) (r : Rec × List Byte) : State :=
  let sid := r.1.sid
  let r1 := if commit then r.1 else { r.1 with w1 := s.now }
  let seq := if r1.noStream then 0 else ((s.stream? sid).map (·.eg.pubNext)).getD 0
  let s1 := s.setOq p ring ((s.oq p ring).enqueue mark ({ r1 with w2 := setBits r1.w2 0 32 seq }, r.2))
  if r1.noStream then s1
  else s1.modStream sid fun st => { st with eg := { st.eg with pubNext := (seq + 1) % 2 ^ 32 } }

/-- Writes a whole publication: its records take consecutive places (R327). -/
def State.placeAll (s : State) (p ring mark : Nat) (commit : Bool) (rs : List (Rec × List Byte)) : State :=
  let s1 := (finalise rs).foldl (fun t r => t.place p ring mark commit r) s
  rs.foldl (fun t r => t.published r.1) s1

/-- Whether a publication fits the queue of a ring and its audio area (R328, R331). -/
def State.roomFor (s : State) (p ring : Nat) (rs : List (Rec × List Byte)) : Bool :=
  decide ((s.oq p ring).queue.length + rs.length ≤ 4096) && (s.oq p ring).audioFits rs

/-- Whether a publication waits at a ring already. -/
def State.ringWaits (s : State) (p ring : Nat) : Bool :=
  s.str.waiting.any fun w => w.part == p && w.ring == ring

/-- Gives a model slot a state, which CHANGE_COUNT counts (R523). -/
def ModelSlot.become (m : ModelSlot) (state : Nat) : ModelSlot :=
  { m with state := state, changeCount := (m.changeCount + 1) % 2 ^ 32 }

/-- Writes a publication that no commit carries; an OPENING entry that it refuses becomes FREE (R20), a model slot that it
announces becomes usable (R41). -/
def State.placeOwn (s : State) (w : Waiting) : State :=
  let s1 := s.placeAll w.part w.ring w.mark false w.recs
  let s2 := match w.loads with
    | some slot => s1.setModel slot ((s1.model slot).become 2)
    | none => s1
  match w.frees with
  | some sid => s2.freeStream sid
  | none => s2

/-- Publishes records that no commit carries: at once when there is room and none waits before them, else in turn
(R328). -/
def State.publishW (s : State) (w : Waiting) : State :=
  if w.recs = [] then s
  else if !s.ringWaits w.part w.ring && s.roomFor w.part w.ring w.recs then s.placeOwn w
  else { s with str := { s.str with waiting := s.str.waiting ++ [w] } }

/-- Publishes records at a ring with a mark. -/
def State.publishAt (s : State) (mark p ring : Nat) (rs : List (Rec × List Byte)) : State :=
  s.publishW { part := p, ring := ring, recs := rs, mark := mark }

/-- Publishes records at a ring: a FENCE_D accepted from now on waits for them. -/
def State.publish (s : State) (p ring : Nat) (rs : List (Rec × List Byte)) : State := s.publishAt s.rb.nextSeq p ring rs

/-- Publishes an event of a stream on its own ring. -/
def State.streamEvent (s : State) (sid ev reason op tag arg : Nat) : State :=
  match s.stream? sid with
  | some st => s.publish st.cfg.part st.cfg.outRing [(eventRec sid st.lastChunk ev reason op tag arg, [])]
  | none => s

/-- Publishes an event on output ring 0 of a partition (R622). -/
def State.ring0Event (s : State) (p ev reason op tag arg : Nat) : State :=
  s.publish p 0 [(eventRec0 ev reason op tag arg, [])]

/-- Refuses entries that wait for a capture, with reason STATE (R64). -/
def State.refuseExports (s : State) (sid : Nat) (es : List ExportReq) : State :=
  es.foldl (fun t e => t.streamEvent sid 0x09 0x0E e.opcode e.hostTag 0) s

/-- Refuses the exports of a stream that satisfy `p`, as it leaves the states in which they were accepted (R64). -/
def State.dropExports (s : State) (sid : Nat) (p : ExportReq → Bool) : State :=
  match s.stream? sid with
  | some st =>
    (s.refuseExports sid (st.exports.filter p)).modStream sid fun x => { x with exports := x.exports.filter fun e => !p e }
  | none => s

/-- RETRACT with KEPT 0 for the unresolved range, which leaves the ledger (R25, R322, R442). -/
def State.retractAt (s : State) (mark sid : Nat) : State :=
  match s.stream? sid with
  | none => s
  | some st =>
    match st.eg.ledger with
    | none => s
    | some l =>
      ((s.modStream sid fun x => { x with eg := { x.eg with ledger := none } }).incObj 0x2C00 5).publishAt mark
        st.cfg.part st.cfg.outRing [(l.record sid 0, [])]

/-- RETRACT for the unresolved range, as a publication of its own. -/
def State.retractLedger (s : State) (sid : Nat) : State := s.retractAt s.rb.nextSeq sid

/-- The stream closes: CLOSED is published for an entry's opcode and tag, and the entry becomes FREE once it has been
(R20, R24, R61). It is held back while the blob of an export is being written (R67). -/
def State.closeStream (s : State) (sid op tag : Nat) : State :=
  let s1 := (s.dropExports sid fun e => !e.captured).modStream sid fun x =>
    { x with state := .closed, slot := none, closing := if op = 0x11 then some tag else x.closing }
  match s1.stream? sid with
  | some st => if st.exports = [] then s1.streamEvent sid 0x03 0 op tag 0 else s1
  | none => s1

end Sys2Proof.Machine
end

