-- ==== Sys2Proof/Machine/LinkOps.lean ====
section
/-! DEFINITION. Sending on a Crossing: frames, credits, sequence numbers (R453 to R459), receive descriptors (R463). -/

namespace Sys2Proof.Machine

/-- A Crossing port. -/
def State.port (s : State) (p : Nat) : XPort := Tbl.getD s.xr.ports {} p

/-- Sets a Crossing port. -/
def State.setPort (s : State) (p : Nat) (x : XPort) : State :=
  { s with xr := { s.xr with ports := Tbl.put s.xr.ports p x } }

/-- The port that is UP with a peer. -/
def State.portTo (s : State) (dev : Nat) : Option Nat :=
  firstIndex 7 fun p => (s.port p).state == .up && (s.port p).peerDev == dev

/-- The channel whose credits the next header returns: the lowest with credits owed. -/
def XPort.creditVc (x : XPort) : Nat := (firstIndex 4 fun v => decide (0 < nthD x.owed v)).getD 0

/-- The 8 header bytes of a frame (R453): acknowledgement and credits of the port as they stand. -/
def XPort.header (x : XPort) (f : Frame) : List Byte :=
  let v := x.creditVc
  leBytes 8 (f.vc + f.type * 2 ^ 2 + 2 ^ 6 + b2n x.nakDue * 2 ^ 7 + f.seq * 2 ^ 8 + ((x.rxSeq + 255) % 256) * 2 ^ 16
    + f.payload.length * 2 ^ 24 + v * 2 ^ 32 + (Nat.min 63 (nthD x.owed v)) * 2 ^ 34 + f.part * 2 ^ 40 + f.txn * 2 ^ 44
    + f.frame * 2 ^ 54)

/-- The blocks of a frame: 7 bytes in the start block, 8 in each that follows, what is left in the terminate block (R452). -/
def frameBlocks (bs : List Byte) : List Block :=
  let rest := bs.drop 7
  .start (bs.take 7) :: ((chunksOf (rest.length / 8) 8 rest).map Block.data ++ [.terminate (rest.drop (rest.length / 8 * 8))])

/-- Whether a block stands between frames. -/
def betweenFrames : Block → Bool
  | .idle | .marker _ => true
  | _ => false

/-- Blocks follow on a port's block stream, block i on lane i mod 4: after 16,384 blocks of each lane come the four alignment
markers (R451; that the markers follow the blocks they are counted by is a DESIGN CHOICE, log 53). -/
def sendBlocks (line : List Block) (bs : List Block) : List Block :=
  bs.foldl (fun l b => (if l.length % 65540 = 65536 then l ++ (List.finRange 4).map Block.marker else l) ++ [b]) line

/-- Puts a frame on the lanes: its header acknowledges what was accepted and returns credits (R457, R459); an idle block follows
(R452; how many stand between frames is open: one, DESIGN CHOICE, log 53). -/
def XPort.emit (x : XPort) (f : Frame) : XPort :=
  let v := x.creditVc
  let body := x.header f ++ f.payload
  { x with lanes := sendBlocks x.lanes (frameBlocks (body ++ leBytes 4 (crc32c body)) ++ [.idle]), unacked := 0, nakDue := false
           owed := setNth x.owed v (nthD x.owed v - Nat.min 63 (nthD x.owed v)), framesTx := (x.framesTx + 1) % 2 ^ 32 }

/-- A NULL frame: acknowledgement and credits only; it takes no SEQ (R454, R457). -/
def XPort.emitNull (x : XPort) : XPort := x.emit { vc := 2, type := 0 }

/-- The first waiting frame of a channel that holds a credit. -/
def XPort.nextOf (x : XPort) (vc : Nat) : Option Frame :=
  if 0 < nthD x.credit vc then x.txQueue.find? (·.vc == vc) else none

/-- The frame the transmitter chooses (R459): VC3, VC2, VC1, VC0; VC0 at least once in 8. -/
def XPort.choose (x : XPort) : Option Frame :=
  match x.nextOf 0 with
  | some f => if 7 ≤ x.vc0Passed then some f else ((x.nextOf 3).or ((x.nextOf 2).or (x.nextOf 1))).or (some f)
  | none => (x.nextOf 3).or ((x.nextOf 2).or (x.nextOf 1))

/-- Takes the first frame equal to `f` out of a list. -/
def dropFirst (f : Frame) : List Frame → List Frame
  | [] => []
  | g :: gs => if g = f then gs else g :: dropFirst f gs

/-- Sends one chosen frame: it takes a credit and the next SEQ and stays in the retry buffer (R457, R459). -/
def XPort.sendOne (x : XPort) (f : Frame) : XPort :=
  let g := { f with seq := x.txSeq }
  let y := { x with txQueue := dropFirst f x.txQueue, credit := setNth x.credit f.vc (nthD x.credit f.vc - 1)
                    txSeq := (x.txSeq + 1) % 256, retry := x.retry ++ [g]
                    vc0Passed := if f.vc = 0 then 0 else if (x.nextOf 0).isSome then x.vc0Passed + 1 else x.vc0Passed }
  y.emit g

/-- Sends what credits and the window of 64 allow. -/
def XPort.pump : Nat → XPort → XPort
  | 0, x => x
  | n + 1, x =>
    if x.state = .up ∧ x.retry.length < 64 then
      match x.choose with
      | some f => XPort.pump n (x.sendOne f)
      | none => x
    else x

/-- Queues a frame on a port that is UP and sends what may go. -/
def State.send (s : State) (p : Nat) (f : Frame) : State :=
  let x := s.port p
  if x.state = .up then s.setPort p (XPort.pump 64 { x with txQueue := x.txQueue ++ [f] }) else s

/-- Sends frames in order. -/
def State.sendAll (s : State) (p : Nat) (fs : List Frame) : State := fs.foldl (fun t f => t.send p f) s

/-- The address block of R455. -/
def addrBlock (handle mode readers off rows tstate : Nat) : List Byte :=
  leBytes 1 handle ++ leBytes 1 (mode + readers * 8) ++ leBytes 2 off ++ leBytes 2 rows ++ leBytes 1 tstate
    ++ List.replicate 9 0

/-- The address block in page form. -/
def pageBlock (row rows page seq : Nat) : List Byte :=
  leBytes 1 0xFF ++ leBytes 1 128 ++ leBytes 2 row ++ leBytes 2 rows ++ leBytes 2 0 ++ leBytes 4 page ++ leBytes 2 seq
    ++ leBytes 2 0

/-- The 4 data bytes of CANCEL (R454). -/
def cancelPayload (sid chunk : Nat) (batch : Bool) : List Byte :=
  leBytes 4 (sid % 8192 + (chunk % 65536) * 2 ^ 13 + b2n batch * 2 ^ 29)

/-- Whether a receive descriptor of this device's own belongs to a stream's chunk. -/
def RxDesc.isOf (d : RxDesc) (sid chunk : Nat) : Bool := d.home && !d.batch && d.stream == sid && d.chunk == chunk % 65536

/-- Cancels the parts of a chunk that peers run: CANCEL on VC3 to each, and this device's descriptors go (R465). -/
def State.cancelParts (s : State) (sid chunk : Nat) : State :=
  let devs := dedup ((s.xr.rxDescs.filter fun d => d.2.isOf sid chunk).map fun d => d.2.src)
  let s1 := devs.foldl (fun t dev => match t.portTo dev with
    | some p => t.send p { vc := 3, type := 0xB, payload := cancelPayload sid chunk false }
    | none => t) s
  s1.cancelRx fun d => d.isOf sid chunk

/-- A part that this device runs for a peer ends: WALK_END for each table that it walked (R467). WALK_END names the copy, which no
field of WALK_DATA does: it is the low bit of GEN, which each publication raises as it changes the copy (DEDUCED, log 54). -/
def State.endParts (s : State) (cmd : Nat) : State :=
  let mine := s.xr.peerTables.filter fun t => t.cmd == cmd && !t.bytes.isEmpty
  let s1 := mine.foldl (fun u t => u.send t.port { vc := 3, type := 0xA, payload := leBytes 2 t.seq ++ leBytes 1 (leAt t.bytes 0x1A 2 % 2) }) s
  { s1 with xr := { s1.xr with peerTables := s1.xr.peerTables.filter fun t => t.cmd != cmd
                               peerPages := s1.xr.peerPages.filter fun t => t.cmd != cmd } }

end Sys2Proof.Machine
end

