-- ==== Sys2Proof/Machine/Recovery.lean ====
section
/-! DEFINITION. Completion entries, cancellation, abort, and the treatment of faults (R354 to R357, R426 to R438). -/

namespace Sys2Proof.Machine

/-! ### Completion entries (R354) -/

/-- KIND of a completion entry. -/
inductive CompKind where
  | done | refused | cancelled
  deriving DecidableEq, Repr

/-- The code of KIND. -/
def CompKind.code : CompKind → Nat
  | .done => 0
  | .refused => 1
  | .cancelled => 2

/-- The four words of a completion entry (R354). -/
def compWords (d : Desc) (kind : CompKind) (code flags time detail : Nat) : List Nat :=
  [d.opcode + d.engine * 2 ^ 8 + d.cmdTag * 2 ^ 16 + kind.code * 2 ^ 32 + b2n (hasAbortFlag flags) * 2 ^ 34 + code * 2 ^ 40
     + d.stream * 2 ^ 48 + b2n d.batch * 2 ^ 61,
   flags, time, detail % 2 ^ 32 + d.chunk * 2 ^ 32]

/-- Whether an entry is posted although COMP_EN is 0 (R354). -/
def mustPost (d : Desc) (kind : CompKind) (flags : Nat) : Bool :=
  d.compEn || kind != .done || hasCheckFlag flags || hasAbortFlag flags

/-- Posts a command's completion entry to COMP_CC, where one is due (R354). -/
def State.complete (s : State) (d : Desc) (kind : CompKind) (code flags detail : Nat) : State :=
  if mustPost d kind flags then
    s.postMail d.compCc d.engine ⟨0, compWords d kind code flags s.now detail, some d⟩ (some d.isBe) none
  else s

/-! ### MX domains (R169) and engines that drain (R562) -/

/-- Whether an MX may switch off: every tile tag EMPTY and no command issued to it (R169). -/
def State.mxIdle (s : State) (mx : Nat) : Bool :=
  ((List.range 8).all fun t => (s.tileTag (mx * 8 + t)).state == .empty)
    && !(s.rb.cmds.any fun c => c.phase != .queued && c.desc.engine == mxEngine mx)

/-- Clears an MX's accumulator store: every word 0, every tile tag EMPTY (R169). -/
def State.clearMx (s : State) (mx : Nat) : State :=
  { s with st := { s.st with acc := Mem.clearRange s.st.acc (mx * 135168) 135168
                             accErr := s.st.accErr.filter fun e => e.1 / 33792 != mx
                             tileTags := s.st.tileTags.filter fun t => t.1 / 8 != mx } }

/-- A CLOSING engine whose drain rule is met switches off (R169, R562). -/
def State.settleEngine (s : State) (e : Nat) : State :=
  match engineDomain e with
  | none => s
  | some d =>
    if s.domain d ≠ 3 then s
    else if unitOf e = some .mx then
      (if s.mxIdle (mxIndex e) then (s.clearMx (mxIndex e)).setDomain d 0 else s)
    else if s.rb.cmds.any fun c => c.phase != .queued && c.desc.engine == e then s
    else s.setDomain d 0

/-- Every CLOSING MX whose last tile has become EMPTY switches off, whoever emptied it (R169). -/
def State.settleMxs (s : State) : State := (List.range 16).foldl (fun t mx => t.settleEngine (mxEngine mx)) s

/-! ### Tags, with who changed them (R408) -/

/-- The tag with its last changer. -/
def Tag.by (t : Tag) (d : Desc) : Tag :=
  { t with producer := d.engine, prodStream := bits d.w0.toNat 21 13, prodChunk := d.chunk, prodBatch := d.batch }

/-- Releases the claims of a command; on success its FILL and CLOSE slots become FULL (R108, R111). -/
def State.releaseClaims (s : State) (c : Cmd) (ok : Bool) : State :=
  c.held.foldl (fun t cl =>
    let tag := t.claimTag cl
    if cl.mode = 0 then t.setClaimTag cl (tag.release.by c.desc)
    else if ok && (cl.mode == 1 || cl.mode == 4) then t.setClaimTag cl ((tag.fill cl.readers).by c.desc)
    else t) s

/-- Releases the claims of a command; MX domains that waited for a tile then switch off. -/
def State.endClaims (s : State) (c : Cmd) (ok : Bool) : State := (s.releaseClaims c ok).settleMxs

/-- Removes the walkers of a command (R278); lists that wait for them are then checked. -/
def State.endWalks (s : State) (c : Cmd) : State :=
  c.walks.foldl (fun t w => t.endWalk w.1 w.2) s

/-! ### Cancellation (R357) -/

/-- Takes the shadow copies of a command away (R593). -/
def State.dropCopies (s : State) (c : Cmd) : State :=
  (s.rb.cmds.filter fun x => x.shadow && x.seq == c.seq).foldl (fun t x => (t.endClaims x false).dropCmd x) s

/-- Takes a command out of its queue: its claims end, KIND CANCELLED is posted, its slot is free. -/
def State.cancelCmd (s : State) (c : Cmd) : State :=
  (((((s.dropCopies c).endClaims c false).endWalks c).endParts c.seq).dropCmd c).complete c.desc .cancelled 0 0 0

/-- Whether a command lists a chunk. -/
def State.lists (s : State) (d : Desc) (sid chunk : Nat) : Bool := (s.members d).contains (sid, chunk % 65536)

/-- Cancels every command of a stream's chunk that stands in a queue: those not issued, and those parked (R357,
R372). -/
def State.cancelChunk (s : State) (sid chunk : Nat) : State :=
  (s.rb.cmds.filter fun c => (c.phase == .queued || c.phase == .parked) && s.lists c.desc sid chunk).foldl
    (fun t c => t.cancelCmd c) s

/-- Both copies of a part of a stream's committed state are unreadable (R50, R442): RETRACT, STREAM_LOST, EMCY 0xFF21.
`cls` is the class of the fault (R417). -/
def State.loseStream (s : State) (sid cls : Nat) : State :=
  match s.stream? sid with
  | none => s
  | some st =>
    if st.state = .lost then s else
    let mine := s.str.chunks.filter fun c => c.sid == sid
    let s0 := mine.foldl (fun (t : State) (c : Chunk) => t.cancelChunk sid c.no)
      { s with rb := { s.rb with orphans := s.rb.orphans ++ mine.map fun c => (sid, c.no) } }
    let s1 := (s0.dropExports sid fun _ => true).retractLedger sid
    let s2 := s1.modStream sid fun x => { x with state := .lost, slot := none }
    let s3 := { s2 with str := { s2.str with chunks := s2.str.chunks.filter fun c => c.sid != sid } }
    let s4 := ((s3.incObj 0x4010 0x0B).emcyEvent 0xFF21 [cls, sid % 256, sid / 256, st.cfg.part]).logFault
      { cls := cls, action := 5, stream := sid }
    s4.streamEvent sid 0x08 0 0 0 0

/-! ### Stream state copies (R44 to R50, R432, R433) -/

/-- Rows of a stream's state: planes and residual plane. -/
def State.stateRowsOf (s : State) (st : Stream) : Nat :=
  (s.model st.cfg.model).stateRows + (s.model st.cfg.model).residualRows

/-- First device row of scratchpad buffer Sn of a resident stream (R44). -/
def State.bufRow (s : State) (st : Stream) (n : Bool) : Nat := st.slot.getD 0 + (if n then s.stateRowsOf st else 0)

/-- Byte address of mirror buffer Mn. -/
def mirrorAddr (sid : Nat) (n : Bool) : Nat := (sid * 2 + b2n n) * 196608

/-- Whether mirror buffer Mn has an unreadable line. -/
def Stream.mirrorBad (st : Stream) (n : Bool) : Bool := bitAt st.badMirror (b2n n)

/-- Whether buffer Sn holds a poisoned row. -/
def State.bufBad (s : State) (st : Stream) (n : Bool) : Bool :=
  (List.range (s.stateRowsOf st)).any fun i => s.rowPoisoned (s.bufRow st n + i)

/-- Rows of buffer Sn. -/
def State.bufRows (s : State) (st : Stream) (n : Bool) : List Nat := (List.range (s.stateRowsOf st)).map (s.bufRow st n + ·)

/-- Lands what gather ports still hold of a stream, and of rows that satisfy `p` (R137, R153). -/
def State.flushOwn (s : State) (sid : Nat) (p : Nat → Bool) : State :=
  s.flushAll fun _ b => p b.row || b.owners.any fun o => o.2 == sid

/-- Copies Sn to Mm: rows that the read corrects are counted (R123). -/
def State.copyToMirror (s0 : State) (sid : Nat) (st : Stream) (n m : Bool) : State :=
  let s := (s0.countReads (s0.bufRows st n)).1
  let bs := (s.bufRows st n).flatMap s.readRow
  let s1 := { s with str := { s.str with mirror := Mem.writeBytes s.str.mirror (mirrorAddr sid m) bs } }
  s1.modStream sid fun x => { x with badMirror := setBit x.badMirror (b2n m) false }

/-- Copies Mm to Sn. -/
def State.copyFromMirror (s : State) (sid : Nat) (st : Stream) (m n : Bool) : State :=
  let bs := Mem.readBytes s.str.mirror (mirrorAddr sid m) (s.stateRowsOf st * 512)
  s.writeRows (s.bufRow st n) (chunksOf (s.stateRowsOf st) 512 bs)

/-- Copies one mirror buffer to the other. -/
def State.copyMirror (s : State) (sid : Nat) (st : Stream) (src dst : Bool) : State :=
  let bs := Mem.readBytes s.str.mirror (mirrorAddr sid src) (s.stateRowsOf st * 512)
  let s1 := { s with str := { s.str with mirror := Mem.writeBytes s.str.mirror (mirrorAddr sid dst) bs } }
  s1.modStream sid fun x => { x with badMirror := setBit x.badMirror (b2n dst) false }

/-- An unreadable Sc of a resident stream: rewritten from Mc, or the stream is lost when Mc cannot be read either (R427,
R432, R442, R50). -/
def State.restoreS (s : State) (sid : Nat) (cls : Nat) : State :=
  match s.stream? sid with
  | none => s
  | some st =>
    if st.slot.isSome && s.bufBad st st.cr.cur then
      if st.mirrorBad st.cr.cur then s.loseStream sid cls else s.copyFromMirror sid st st.cr.cur st.cr.cur
    else s

/-- An unreadable Mc: rewritten from Sc when the stream is resident, else from M(1-c); lost when that cannot be read
(R433, R442). -/
def State.restoreM (s : State) (sid : Nat) (cls : Nat) : State :=
  match s.stream? sid with
  | none => s
  | some st =>
    let c := st.cr.cur
    if !st.mirrorBad c then s
    else if st.slot.isSome then
      (if s.bufBad st c then s.loseStream sid cls else s.copyToMirror sid st c c)
    else if st.mirrorBad (!c) then s.loseStream sid cls
    else s.copyMirror sid st (!c) c

/-! ### Abort (R426, R427) -/

/-- Whether a tag was last changed by a command of a chunk on an engine, Lane or global unit. -/
def State.tagOfChunk (s : State) (t : Tag) (sid chunk : Nat) : Bool :=
  decide (t.producer < 0x50) && t.state != .empty &&
    (if t.prodBatch then (s.batchEntry (t.prodStream % 512)).members.contains (sid + (chunk % 65536) * 65536)
     else t.prodStream == sid && t.prodChunk == chunk % 65536)

/-- Sets every slot and tile of a chunk to EMPTY with TAG_SET (step 3 of R427). -/
def State.emptyTags (s : State) (sid chunk : Nat) : State :=
  let s1 := (s.st.tags.filter fun e => s.tagOfChunk e.2 sid chunk).foldl (fun t e => t.setTag e.1 (e.2.set .empty 0)) s
  ((s1.st.tileTags.filter fun e => s1.tagOfChunk e.2 sid chunk).foldl (fun t e => t.setTileTag e.1 (e.2.set .empty 0)) s1).settleMxs

/-- Whether a row of a chunk's input slot cannot be read. -/
def State.slotBad (s : State) (c : Chunk) : Bool :=
  c.slotHeld && (List.range c.rows).any fun i => s.rowPoisoned (c.base + i)

/-- Owned and look-ahead frames of a chunk that is complete, or samples in MODE 1, or tokens (R86, R91). -/
def State.slotCounts (s : State) (c : Chunk) : Nat × Nat :=
  match s.stream? c.sid with
  | none => (0, 0)
  | some st =>
    let m := s.model st.cfg.model
    let hop := m.feat 1 1 * m.rate / 1000
    let look := if c.lookKind = 1 then 0 else st.cfg.lookMs * m.rate / 1000
    if m.kind = 2 ∨ m.feat 5 1 = 1 then (c.owned, look) else (c.owned / hop, look / hop)

/-- Row 0 of a chunk's input slot (R91). -/
def State.slotHeader (s : State) (c : Chunk) : List Byte :=
  let n := s.slotCounts c
  slice (leBytes 8 (c.no % 2 ^ 32 + n.1 * 2 ^ 32 + n.2 * 2 ^ 48)
    ++ [BitVec.ofNat 8 (b2n (c.ended && c.lookKind == 1) + 2 * b2n c.zeros)]) 0 512

/-- The bytes of a chunk's input slot. -/
def State.slotBytes (s : State) (c : Chunk) : List Byte := (List.range c.rows).flatMap fun i => s.readRow (c.base + i)

/-- Sets the tag of a chunk's input slot, as FE or IN does. -/
def State.tagSlot (s : State) (c : Chunk) (t : TagState) : State :=
  if c.slotHeld then
    s.setTag (c.base / 4) { (s.tag (c.base / 4)).set t 0 with producer := 0x41 + c.sid % 2, prodStream := c.sid
                                                              prodChunk := c.no % 65536, prodBatch := false }
  else s

/-- Whether a command of a chunk has not completed. -/
def State.hasCmdOf (s : State) (sid no : Nat) : Bool := s.rb.cmds.any fun c => s.lists c.desc sid no

/-- Steps 3 to 6 of R427 for a chunk whose issued commands have completed: a replay follows unless the abort is final; the chunk
becomes ready again with its input kept, and its staged records and results are gone. -/
def State.finishAbort (s : State) (c : Chunk) (a : Abort) : State :=
  let s1 := ((s.emptyTags c.sid c.no).abortSeqs c.sid).restoreS c.sid a.cls
  if a.final then s1.dropChunk c.sid c.no
  else
    (s1.tagSlot c .full).modChunk c.sid c.no fun x =>
      { x with phase := a.back, abort := none, aborts := x.aborts + 1, blamed := a.sq.or x.blamed
               staged := [], stagedCopy := [], audio := [], audioClipped := 0, audioSamples := 0, trunc := 0, replaced := 0
               drafts := [], accepted := 0, dec := {}, committedTokens := [] }

/-- Whether an abort may go on to step 3 of R427: no command of the chunk is left, and its stream's tables may be edited. -/
def State.mayFinishAbort (s : State) (c : Chunk) : Bool :=
  !s.hasCmdOf c.sid c.no && ((s.seqsOf c.sid).filter s.cutsSeq).all s.mayEdit

/-- Whether a command carries the stream or batch and the chunk of a part that a peer cancels (R465). -/
def Desc.isPart (d : Desc) (stream chunk : Nat) (batch : Bool) : Bool :=
  d.batch == batch && d.chunk == chunk && (if batch then d.batchId == stream % 512 else d.stream == stream)

/-- Whether a command of a cancelled part has not completed. -/
def State.hasCmdOfPart (s : State) (o : Nat × Nat × Bool) : Bool := s.rb.cmds.any fun c => c.desc.isPart o.1 o.2.1 o.2.2

/-- Whether a tag was last changed by a command of a cancelled part. -/
def Tag.ofPart (t : Tag) (o : Nat × Nat × Bool) : Bool :=
  decide (t.producer < 0x50) && t.state != .empty && t.prodBatch == o.2.2 && t.prodChunk == o.2.1
    && (if o.2.2 then t.prodStream % 512 == o.1 % 512 else t.prodStream == o.1)

/-- Discards what the commands of a cancelled part have made: its slots and tiles are EMPTY (R465). -/
def State.emptyPart (s : State) (o : Nat × Nat × Bool) : State :=
  let s1 := (s.st.tags.filter fun e => e.2.ofPart o).foldl (fun t e => t.setTag e.1 (e.2.set .empty 0)) s
  ((s1.st.tileTags.filter fun e => e.2.ofPart o).foldl (fun t e => t.setTileTag e.1 (e.2.set .empty 0)) s1).settleMxs

/-- Empties the tags of chunks that are gone and of cancelled parts whose commands have completed (R427, R465). -/
def State.settleGone (s : State) : State :=
  let free := s.rb.orphans.filter fun o => !s.hasCmdOf o.1 o.2
  let parts := s.rb.cancelled.filter fun o => !s.hasCmdOfPart o
  let s1 := free.foldl (fun t o => t.emptyTags o.1 o.2)
    { s with rb := { s.rb with orphans := s.rb.orphans.filter fun o => s.hasCmdOf o.1 o.2
                               cancelled := s.rb.cancelled.filter s.hasCmdOfPart } }
  parts.foldl (fun t o => t.emptyPart o) s1

/-- Carries the aborts on whose commands have completed. Tags of chunks that are gone are emptied likewise (R427). -/
def State.settleAborts (s : State) : State :=
  let s1 := s.settleGone
  s1.str.chunks.foldl (fun t c => match c.abort with
    | some a => if t.mayFinishAbort c then t.finishAbort c a else t
    | none => t) s1

/-- Aborts a chunk for a fault of class `cls` (R427): its queued commands are cancelled, its parts on peers too; the rest follows
once its issued commands have completed. `sq` is the Square whose engine the fault is attributed to (R429). Nothing happens to a
chunk past its commit point (R419). -/
def State.abortChunk (s : State) (sid no cls : Nat) (final : Bool) (sq : Option Nat) : State :=
  match s.chunk? sid no with
  | none => s
  | some c =>
    if c.phase = .committing then s
    else
      let a : Abort := match c.abort with
        | some b => { b with final := b.final || final, sq := sq.or b.sq }
        | none => { cls := cls, final := final, sq := sq, back := if c.phase = .placed ∨ c.phase = .backoff then .ready else c.phase }
      (((s.modChunk sid no fun x => { x with phase := .aborting, abort := some a }).cancelChunk sid no).cancelParts sid no).settleAborts

/-- The members of a command that are still alive and not past their commit point: the chunks a fault aborts, those whose
abort is under way among them (the faults of one abort are each a recovery, R446). -/
def State.abortable (s : State) (d : Desc) : List (Nat × Nat) :=
  (s.members d).filterMap fun m =>
    match s.chunkByWord? m.1 m.2 with
    | some c => if c.phase = .placed ∨ c.phase = .backoff ∨ c.phase = .ready ∨ c.phase = .aborting then some (c.sid, c.no) else none
    | none => none

/-- A Square leaves service at its limit of faults within the window (R430). -/
def State.blameSquare (s : State) (sq : Nat) : State :=
  let win := s.obj 0x4010 4 * 1000000
  let times := (Tbl.getD s.rb.sqFaults [] sq ++ [s.now]).filter fun t => decide (s.now ≤ t + win)
  let s1 := { s with rb := { s.rb with sqFaults := Tbl.setD s.rb.sqFaults [] sq times } }
  if s.obj 0x4010 3 ≤ times.length ∧ Tbl.getD s.rb.sqOut 0 sq ≠ 1 then
    let s2 := { s1 with rb := { s1.rb with sqOut := Tbl.put s1.rb.sqOut sq 1, sqFaults := Tbl.erase s1.rb.sqFaults sq } }
    (s2.emcyRaise 0x5000 [2, sq]).logFault { cls := 1, source := 0xFF, action := 4, addr := sq }
  else s1

/-- A fault that a command carries: its chunks are aborted and replayed, one RECOVERY message names how many, and the
fault log and the counters of R446 record it (R426, R431, R435). `src` is the engine that the fault names. -/
def State.faultCommand (s : State) (d : Desc) (src cls addr flags detail : Nat) (payload : List Nat) : State :=
  let hit := s.abortable d
  let s1 := s.logFault { cls := cls, source := src, action := if hit.isEmpty then 8 else 1, stream := bits d.w0.toNat 21 13
                         batch := d.batch, chunk := d.chunk, addr := addr
                         payload := if payload.isEmpty then [detail, flags, 0, 0] else payload }
  if hit.isEmpty then s1.incObj 0x4010 0x0A
  else
    let s2 := hit.foldl (fun t m => t.abortChunk m.1 m.2 cls false (squareOf d.engine)) s1
    (s2.incObj 0x4010 8).emcyEvent 0xFF20 [cls, src, hit.length % 256, hit.length / 256 % 256]

/-- The address of a control word, where it has one. -/
def ctlAddress : CtlWord → Nat
  | .other w => w
  | _ => 0

/-- A control word that cannot be repaired: the chunks whose command, message or batch entry it held are aborted and replayed
(R414, R434). -/
def State.ctlFault (s : State) (d : Desc) (word : Nat) : State :=
  ((s.incObj 0x4004 2).emcyEvent 0xFF10 [4, d.engine, word % 256, word / 256 % 256, word / 65536 % 256]).faultCommand d d.engine 4
    word 0 0 []

/-- Counts a fault of class ENGINE, SP_ECC or TIMEOUT against the engine's Square (R430). -/
def State.blameEngine (s : State) (e : Nat) : State :=
  match squareOf e with
  | some sq => s.blameSquare sq
  | none => s

/-- The class of R417 of a command's abort flags. -/
def faultClass (flags : Nat) (hbm : Bool) : Nat :=
  if bitAt flags flEccUncorr then (if hbm then 3 else 2)
  else if bitAt flags flTimeout then 5
  else if bitAt flags flPeerDown then 7
  else 1

/-- What a poisoned row held decides the rest of an SP_ECC treatment (R432): a page is marked for rebuilding, a state
buffer of a stream between chunks is rewritten, an input slot is rewritten from the extent. -/
def State.repairRow (s : State) (row : Nat) : State :=
  match s.rowPage row with
  | some page => s.pageLost page
  | none => (s.str.tab.map (·.1)).foldl (fun t sid => t.restoreS sid 2) s

end Sys2Proof.Machine
end

