-- ==== Sys2Proof/Machine/Memory.lean ====
section
/-! DEFINITION. Commands on the memories: handle table, narrow writes, scrubbers, quarters, MX domains, batch table. -/

namespace Sys2Proof.Machine

/-! ### Handles (R101, R102) -/

/-- HANDLE_WRITE: an accepted entry replaces the old one whole; a rejected one leaves it and raises REJECTS (R102). -/
def execHandleWrite (p : Part) (h : Byte) (w0 w1 : Word) (s : State) : Out :=
  if handleAccepts (w0, w1) then
    .next { s with st := { s.st with
      handles := Tbl.setD s.st.handles (0, 0) (p.val * 256 + h.toNat) (handleStored (w0, w1)) } }
  else .next (s.incObj 0x4001 5)

/-! ### Narrow writes (R104, R108, R115 to R118) -/

/-- Whether a narrow write through a handle passes R104 for a global unit. -/
def State.narrowOk (s : State) (p h off : Nat) : Bool :=
  let e := HandleEntry.of (s.handle p h)
  h != 0xFF && e.valid && e.wr && !e.isLocal && decide (off < e.bound) && s.quarterOn (rowQuarter (e.base + off))

/-- The tag of a narrow write's slot after the write enters the port in a mode, none while it must wait (R108, R115). A
unit that has claimed the slot goes on writing it. -/
def narrowClaim (t : Tag) (src mode : Nat) : Option Tag :=
  if mode = 1 ∨ mode = 2 then
    (if t.state = .empty then some { t with state := .filling, producer := src }
     else if t.state = .filling ∧ t.producer = src then some t else none)
  else if t.state = .filling then some t else none

/-- The end of a narrow writer's FILL or CLOSE: its port flushes the slot's rows, then the slot is FULL (R117, R152). -/
def State.narrowFinish (s : State) (g tag slotRows readers : Nat) : State :=
  let s1 := s.flushPort g fun b => decide (tag * 4 ≤ b.row ∧ b.row < tag * 4 + slotRows)
  s1.setTag tag ((s1.tag tag).fill readers)

/-- `n` bytes at a byte address, as a unit reads them through its port (R118). -/
def State.portBytes (s : State) (g addr n : Nat) : List Byte := s.narrowRead g (addr / 512) (addr % 512) n

/-- SAT_THRESHOLD and WIDEN_K_MAX for a stream's chunk in hand: as that chunk began formation (R207). -/
def State.sharing (s : State) (sid : Nat) : Nat × Nat :=
  match (s.stream? sid).bind fun st => s.chunk? sid st.nextSeq with
  | some c => (c.satThreshold, c.widenK)
  | none => (s.obj 0x2B00 1, s.obj 0x2B00 2)

/-- What a narrow write places: bytes, or the record that a control core forms (R197, R201, R205). -/
def State.narrowBytes (s : State) (g sid : Nat) : NarrowData → List Byte
  | .bytes l => l
  | .scale fmt stat => (deriveScale ((fmtOf fmt.val).getD .int8) (StatRec.ofBytes true (s.portBytes g stat 16))).toBytes
  | .requant factor source zp =>
    let const := (source.map fun a => (ScaleRec.ofBytes (s.portBytes g a 16)).constChannel).getD false
    ({ deriveRequantFrom const factor.toNat with zp := if const then 0 else zp.toInt }).toBytes
  | .adapt fmt record stat sat =>
    let k := s.sharing sid
    (adaptScale ((fmtOf fmt.val).getD .int8) k.1 k.2 (ScaleRec.ofBytes (s.portBytes g record 16))
      (StatRec.ofBytes true (s.portBytes g stat 16)) (leNat (s.portBytes g sat 4))).toBytes

/-- The rows that forming the data of a narrow write reads. -/
def narrowReads : NarrowData → List Nat
  | .bytes _ => []
  | .scale _ stat => [stat / 512]
  | .requant _ source _ => source.toList.map (· / 512)
  | .adapt _ record stat sat => [record / 512, stat / 512, sat / 512]

/-- A narrow write of 1 to 64 bytes lies in its row; control cores alone form records. -/
def narrowFits (g at_ : Nat) (data : NarrowData) (bs : List Byte) : Bool :=
  decide (1 ≤ bs.length ∧ bs.length ≤ 64 ∧ at_ + bs.length ≤ 512) && (narrowReads data == [] || decide (4 ≤ g))

/-- The placing of a narrow write whose data is at hand: its slot is claimed at the first one, and filled at the last (R108,
R115). -/
def State.placeNarrow (s : State) (g : Nat) (e : HandleEntry) (off at_ : Nat) (own : List (Nat × Nat)) (bs : List Byte)
    (mode : Nat) (fin : Option Nat) : State :=
  if e.slotRows = 0 then s.narrowWrite g (e.base + off) at_ bs own
  else
    let tag := slotTag { used := true, base := e.base, slotRows := e.slotRows } off
    match narrowClaim (s.tag tag) (gatherSource g) mode with
    | none => s
    | some t =>
      let s1 := (s.setTag tag t).narrowWrite g (e.base + off) at_ bs own
      match fin with
      | some n => s1.narrowFinish g tag e.slotRows (n % 16)
      | none => s1

/-- NARROW_WRITE: `data` at byte `at_` of row `off` of a handle; `mode` is the access mode of R108; `fin` is the
declared count where this write ends the unit's FILL or CLOSE. A write that fails R104 has no completion to carry the flag:
it is dropped, and no counter tells of it (DESIGN CHOICE, log 41). A record whose source row is poisoned is not formed (R124). -/
def execNarrowWrite (port : NarrowNo) (p : Part) (sid : Sid) (h : Byte) (off : BitVec 16) (at_ : Nat) (data : NarrowData)
    (mode : Nat) (fin : Option Nat) (s : State) : Out :=
  let bs := s.narrowBytes port.val sid.val data
  if !narrowFits port.val at_ data bs || !s.narrowOk p.val h.toNat off.toNat then .next s
  else
    let rd := s.countReads (narrowReads data)
    match rd.2 with
    | some row =>
      .next ((rd.1.spUncorrected row (gatherSource port.val)).logFault
        { cls := 2, source := gatherSource port.val, action := 8, addr := row })
    | none => .next (rd.1.placeNarrow port.val (HandleEntry.of (s.handle p.val h.toNat)) off.toNat at_ [(p.val, sid.val)] bs mode fin)

/-- GATHER_IDLE_FLUSH: the buffer that holds the row flushes (R117). -/
def execGatherIdleFlush (port : GatherNo) (row : Nat) (s : State) : Out :=
  .next (s.flushPort port.val fun b => b.row == row)

/-! ### Patrol scrubbers (R125, R413, R432, R433) -/

/-- The next row of a Square's ON quarters that its scrubber visits, from row `r` on. -/
def State.scrubRow (s : State) (square r : Nat) : Option Nat :=
  (List.range 5).findSome? fun k =>
    let q := (r / 16384 + k) % 4
    if s.quarterOn (square * 4 + q) then some (if k = 0 then r else q * 16384) else none

/-- SCRUB_VISIT: particles may have upset bits before the visit; a correctable row is written back corrected, an
uncorrectable one is left and reported with no unit to blame, and what it held is repaired (R125, R432). -/
def execScrubVisit (square : SquareNo) (upsets : List (Nat × Nat × Nat)) (s : State) : Out :=
  let s0 := s.upset 0xFF { sp := upsets }
  match s0.scrubRow square.val (Tbl.getD s0.st.scrubNext 0 square.val) with
  | none => .next s0
  | some r =>
    let row := square.val * 65536 + r
    let s1 := { s0 with st := { s0.st with scrubNext := Tbl.setD s0.st.scrubNext 0 square.val ((r + 1) % 65536) } }
    match rowVerdict (s1.rowErr row) with
    | 0 => .next s1
    | 1 =>
      let s2 := (s1.countReads [row]).1
      .next (((s2.writeRow row (s2.readRow row)).incObj 0x4001 3).incObj 0x4001 (0x20 + square.val))
    | _ =>
      let s2 := (s1.spUncorrected row 0xFF).logFault { cls := 2, action := 3, addr := row }
      .next ((s2.repairRow row).incObj 0x4010 0x0A)

/-- A corrected line: the counters of R413. -/
def State.hbmCorrected (s : State) (use : HbmUse) : State := (s.incObj 0x4003 1).incObj 0x4003 (3 + useStack use)

/-- The event of an uncorrectable line of a structure whose addresses R620 leaves open: counters, EMCY, log (R413). -/
def State.hbmEvent (s : State) (use : HbmUse) (action : Nat) : State :=
  (((s.incObj 0x4003 2).incObj 0x4003 (7 + useStack use)).emcyEvent 0xFF10 [3, 0xFF]).logFault { cls := 3, action := action }

/-- The offset in an image of an address within the ranges that hold it. -/
def imageOff : List (Nat × Nat) → Nat → Option Nat
  | [], _ => none
  | r :: rs, a => if r.1 ≤ a ∧ a < r.1 + r.2 then some (a - r.1) else (imageOff rs a).map (r.2 + ·)

/-- The address that holds an offset of an image. -/
def imageAddr : List (Nat × Nat) → Nat → Option Nat
  | [], _ => none
  | r :: rs, o => if o < r.2 then some (r.1 + o) else imageAddr rs (o - r.2)

/-- The weight copy of a model over a line: its slot, and the line of the other copy that holds the same part of the image. -/
def State.weightAt (s : State) (line : Nat) : Option (Nat × Nat) :=
  s.str.models.findSome? fun m =>
    let twin := fun (mine other : List (Nat × Nat)) => ((imageOff mine (line * 64)).bind (imageAddr other)).map fun a => (m.1, a / 64)
    (twin m.2.copyA m.2.copyB).or (twin m.2.copyB m.2.copyA)

/-- Rewrites an unreadable line of a weight copy from the replica (R433). -/
def State.repairWeight (s : State) (line other : Nat) : State := s.writeHbm (line * 64) (Mem.readBytes s.st.hbm (other * 64) 64)

/-- Whether a line of the replica can be read. -/
def State.replicaGood (s : State) (other : Nat) : Bool := lineVerdict (Tbl.getD s.st.hbmErr [] other) != 2

/-- HBM_SCRUB_VISIT: a corrected line is written back; an uncorrectable one is reported and what it held is treated
under R433. -/
def execHbmScrubVisit (use : HbmUse) (upsets : List (Nat × Nat)) (s : State) : Out :=
  match use with
  | .line n =>
    let s0 := s.upset 0xFF { hbm := upsets.map fun u => (n, u.1, u.2) }
    match lineVerdict (Tbl.getD s0.st.hbmErr [] n) with
    | 0 => .next s0
    | 1 =>
      let s1 := s0.hbmCorrected use
      .next { s1 with st := { s1.st with hbmErr := Tbl.setD s1.st.hbmErr [] n [] } }
    | _ =>
      match s0.weightAt n with
      | some (_, other) =>
        let s1 := (s0.hbmUncorrected n 0xFF).logFault { cls := 3, action := 3, addr := n * 64 }
        .next ((if s1.replicaGood other then s1.repairWeight n other else s1).incObj 0x4010 0x0A)
      | none => .next (((s0.hbmUncorrected n 0xFF).logFault { cls := 3, action := 8, addr := n * 64 }).incObj 0x4010 0x0A)
  | .mirror sid m1 =>
    match lineVerdict upsets with
    | 0 => .next s
    | 1 => .next (s.hbmCorrected use)
    | _ =>
      let s1 := (s.hbmEvent use 3).modStream sid.val fun x => { x with badMirror := setBit x.badMirror (b2n m1) true }
      .next ((s1.restoreM sid.val 3).incObj 0x4010 0x0A)
  | .spill frame =>
    match lineVerdict upsets with
    | 0 => .next s
    | 1 => .next (s.hbmCorrected use)
    | _ =>
      let s1 := s.hbmEvent use 3
      .next (({ s1 with pg := { s1.pg with spillBad := s1.pg.spillBad ++ [frame] } }.pageLost (spillPage frame)).incObj
        0x4010 0x0A)
  | .extent sid no =>
    match lineVerdict upsets with
    | 0 => .next s
    | 1 => .next (s.hbmCorrected use)
    | _ => .next (((s.hbmEvent use 3).modChunk sid.val no fun c =>
        if c.slotHeld && !s.slotBad c then { c with extent := s.slotBytes c, extentBad := false } else { c with extentBad := true }).incObj
        0x4010 0x0A)
  | .egress =>
    match lineVerdict upsets with
    | 0 => .next s
    | 1 => .next (s.hbmCorrected use)
    | _ => .next (((s.hbmEvent use 3).incObj 0x4004 3).incObj 0x4010 0x0A)
  | .log =>
    match lineVerdict upsets with
    | 0 => .next s
    | 1 => .next (s.hbmCorrected use)
    | _ => .next ((s.hbmEvent use 8).incObj 0x4010 0x0A)

/-! ### Quarter power (R126 to R128) -/

/-- Rows that an SE command may touch through its STATE handle: those of its line map, and while that is still to be read
every row of the handle in a quarter that was ON (R104, R257). -/
def stateRows (c : Cmd) : List Nat :=
  if c.desc.opcode = 0x30 ∨ c.desc.opcode = 0x31 then
    let o := stateOperand c.desc c.ops
    let rows := mapRows c.desc c.map
    if c.stage = 2 then (rows.1 ++ rows.2.1 ++ rows.2.2.1 ++ rows.2.2.2).map (o.base + ·)
    else ((List.range o.bound).map (o.base + ·)).filter fun r => c.quarters.contains (rowQuarter r)
  else []

/-- Whether a command in the engines or parked holds a resolution into a quarter (R127). -/
def State.holdsQuarter (s : State) (q : Nat) (c : Cmd) : Bool :=
  c.phase != .queued &&
    ((c.stage == 0 && c.desc.opl && rowQuarter c.listRow == q)
      || (c.ops != [] && ((s.spans c.desc c.ops).any fun p => p.rows.any fun r => rowQuarter ((c.ops.getD p.op {}).base + r) == q))
      || (stateRows c).any fun r => rowQuarter r == q)

/-- Clears tags of a quarter: EMPTY with READERS 0. -/
def State.clearQuarterTags (s : State) (q : Nat) : State :=
  { s with st := { s.st with tags := s.st.tags.filter fun t => t.1 / 4096 != q } }

/-- Clears the rows of a quarter: contents lost or written with zeros, with no stored error. -/
def State.clearQuarterRows (s : State) (q : Nat) : State :=
  { s with st := { s.st with sp := Mem.clearRange s.st.sp (q * 8388608) 8388608
                             spErr := s.st.spErr.filter fun e => e.1 / 16384 != q } }

/-- QUARTER_POWER_DOWN (steps 1 and 2 of R127). -/
def execQuarterPowerDown (q : QuarterNo) (s : State) : Out :=
  if s.quarterOn q.val then
    let s1 := (s.setDomain (quarterDomain q.val) 3).flushAll fun _ b => rowQuarter b.row == q.val
    .next { s1 with st := { s1.st with closingSince := Tbl.put s1.st.closingSince q.val s1.now } }
  else .next s

/-- QUARTER_DRAINED (steps 3 and 4 of R127): narrow writes that entered a port before the quarter closed, or through handles
resolved before, land first. -/
def execQuarterDrained (q : QuarterNo) (s : State) : Out :=
  if s.domain (quarterDomain q.val) = 3 ∧ !(s.rb.cmds.any fun c => s.holdsQuarter q.val c) then
    let s0 := s.flushAll fun _ b => rowQuarter b.row == q.val
    let s1 := ((s0.clearQuarterTags q.val).clearQuarterRows q.val).setDomain (quarterDomain q.val) 0
    .next { s1 with st := { s1.st with closingSince := Tbl.erase s1.st.closingSince q.val } }
  else .next s

/-- DRAIN_ABANDON: the quarter returns to ON and DRAIN_ABANDONED rises (R127). -/
def execDrainAbandon (q : QuarterNo) (s : State) : Out :=
  if s.domain (quarterDomain q.val) = 3 ∧ (s.rb.cmds.any fun c => c.phase == .parked && s.holdsQuarter q.val c) then
    let s1 := (s.setDomain (quarterDomain q.val) 2).incObj 0x4001 6
    .next { s1 with st := { s1.st with closingSince := Tbl.erase s1.st.closingSince q.val } }
  else .next s

/-- QUARTER_POWER_UP (steps 1 and 2 of R128). -/
def execQuarterPowerUp (q : QuarterNo) (s : State) : Out :=
  if s.domain (quarterDomain q.val) = 0 then .next (s.setDomain (quarterDomain q.val) 1) else .next s

/-- QUARTER_WAKE_DONE (steps 3 and 4 of R128). -/
def execQuarterWakeDone (q : QuarterNo) (s : State) : Out :=
  if s.domain (quarterDomain q.val) = 1 then
    .next (((s.clearQuarterTags q.val).clearQuarterRows q.val).setDomain (quarterDomain q.val) 2)
  else .next s

/-! ### MX domains (R169) -/


/-- MX_POWER_DOWN: off when both conditions of R169 hold; else the domain closes and waits for them. -/
def execMxPowerDown (mx : MxNo) (s : State) : Out :=
  match engineDomain (mxEngine mx.val) with
  | none => .next s
  | some d =>
    if s.domain d = 2 ∨ s.domain d = 3 then
      (if s.mxIdle mx.val then .next ((s.clearMx mx.val).setDomain d 0) else .next (s.setDomain d 3))
    else .next s

/-! ### Batch table (R340) -/

/-- BATCH_TABLE_WRITE: one entry; its members are 1 to 256 words with bits 15 to 13 zero. -/
def execBatchTableWrite (bid : BatchId) (valid : Bool) (members : List Nat) (s : State) : Out :=
  if valid && (members.isEmpty || decide (256 < members.length)) then .next s
  else
    let e : BatchEntry :=
      if valid then { valid := true, members := members.map fun w => w % 8192 + bits w 16 16 * 65536 } else {}
    .next { s with rb := { s.rb with batches := Tbl.setD s.rb.batches {} bid.val e } }

end Sys2Proof.Machine
end

