-- ==== Sys2Proof/Machine/PowerOps.lean ====
section
/-! DEFINITION. Throttle levels, and how a change of the power state begins and what wakes the device (R563 to R565, R571,
R576). -/

namespace Sys2Proof.Machine

/-! ### Throttle levels (R571) -/

/-- The throttle level: max(P, T). -/
def State.level (s : State) : Nat := Nat.max s.pw.levelP s.pw.levelT

/-- Issue duty of a level, in percent. -/
def levelDuty (n : Nat) : Nat := if n ≤ 3 then 100 else if n = 4 then 75 else if n = 5 then 50 else 25

/-- Divider of CK_ENG at a level. -/
def levelDiv (n : Nat) : Nat := nthD [4, 5, 6] n + (if 3 ≤ n then 8 else 0)

/-- Whether the Roundabout issues commands in the present part of the microsecond. -/
def State.dutyOpen (s : State) : Bool := decide (s.now % 1000 < 10 * levelDuty s.level)

/-- CK_ENG in MHz (R576). -/
def State.clockMhz (s : State) : Nat := 4800 / s.boot.engDiv

/-- CK_ENG follows the throttle level, once start-up has set its point (R577, R586). -/
def State.followLevel (s : State) : State :=
  if 4 < s.boot.step then { s with boot := { s.boot with engDiv := levelDiv s.level } } else s

/-! ### Power states (R563 to R565) -/

/-- Changes the supplies' and power states' part. -/
def State.modPw (s : State) (f : Power → Power) : State := { s with pw := f s.pw }

/-- The power state that a request asks for. -/
def requestState (r : Nat) : Nat := if r = 0 then 1 else r

/-- The device begins to move to a power state; a device that is there already has nothing to change. -/
def State.toPower (s : State) (dst : Nat) : State :=
  s.modPw fun x => { x with target := dst, changing := decide (x.powerState ≠ dst), wake := false, tulipPending := false
                            tulipMask := if dst = 2 then s.obj 0x2114 0 else x.tulipMask }

/-- A trigger that ends an automatic Crocus: at once, or as soon as its entry completes (R565). -/
def State.wakeTrigger (s : State) : State :=
  if !s.pw.autoCrocus then s
  else if s.pw.changing then s.modPw fun x => { x with wake := true }
  else (s.modPw fun x => { x with autoCrocus := false }).toPower (requestState (s.obj 0x2112 0))

end Sys2Proof.Machine
end

