-- ==== Sys2Proof/Machine/Roundabout.lean ====
section
/-! DEFINITION. The Roundabout: acceptance, issue, claims, completion, cancellation, regulators, and the commands of the
control cores (chapters "Command descriptors", "Sharing the device", "Starvation and deadlock"). -/

namespace Sys2Proof.Machine

/-! ### Acceptance (R333 to R336, R352) -/

/-- Command slots taken: accepted commands, and completion entries that wait for a mailbox (R373). -/
def State.slotsTaken (s : State) : Nat :=
  (s.rb.cmds.filter fun c => !c.shadow).length + (s.rb.heldMail.filter fun h => h.slot.isSome).length

/-- Command slots held by BE work. -/
def State.slotsBe (s : State) : Nat :=
  (s.rb.cmds.filter fun c => !c.shadow && c.desc.isBe).length + (s.rb.heldMail.filter fun h => h.slot == some true).length

/-- Whether a command slot of the class is free (R373). -/
def State.slotFree (s : State) (be : Bool) : Bool :=
  decide (s.slotsTaken < 4096) && (!be || decide (s.slotsBe < 4096 - s.inForce 0x2500 4))

/-- Whether an engine's queue of a class is full: queued and parked commands keep an entry (R372). -/
def State.queueFull (s : State) (e : Nat) (be : Bool) : Bool :=
  decide (64 ≤ (s.rb.cmds.filter fun c => !c.shadow && c.desc.engine == e && c.desc.isBe == be
    && (c.phase == .queued || c.phase == .parked)).length)

/-- Whether a stream has the wrong parity for a TK or FE unit (R305, R350). -/
def wrongParity (e sid : Nat) : Bool :=
  if e = 0x43 ∨ e = 0x41 then sid % 2 == 1 else if e = 0x44 ∨ e = 0x42 then sid % 2 == 0 else false

/-- FMT, KIND and XFLAG of an inline record of a role that gives them no meaning (R342), and reserved format codes. -/
def badRecFields (op k : Nat) (o : Operand) : Bool :=
  decide (13 ≤ o.fmt) || (op != 0x20 && (o.kind != 0 || o.xflag))
    || (op == 0x20 && (decide (k < 4 ∧ 5 ≤ o.kind) || decide (4 ≤ k ∧ k ≠ 8 ∧ o.kind ≠ 0) || decide (k = 8 ∧ 2 ≤ o.kind)
          || (o.xflag && !(decide (k = 4 ∨ k = 5 ∨ k = 8)))))

/-- Whether LAYER, Q, PART_START or PART_LEN of an AT command lies outside what the cache of its model allows (R300, R301,
R349). -/
def State.badCacheRange (s : State) (d : Desc) : Bool :=
  decide (0x40 ≤ d.opcode ∧ d.opcode ≤ 0x43) &&
    (match (s.atModel d).table.cache with
     | none => true
     | some k => decide (k.tokensPerPage < d.param 13 10) || (d.opcode != 0x43 && decide (k.layers ≤ d.param 0 4))
         || ((d.opcode == 0x41 || d.opcode == 0x42) &&
             (d.param 27 20 % k.tokensPerPage != 0 || d.param 47 14 % k.tokensPerPage != 0)))

/-- The first failing check of R352, none when the descriptor is accepted. A TAG_SET whose ENGINE is not the submitting core's own
ID (R351) has a field outside its range (DEDUCED, log 45). -/
def State.refusal (s : State) (core : Nat) (d : Desc) : Option Nat :=
  let e := d.engine
  match opInfo d with
  | none => some 0x40
  | some i =>
    let recs := fun k => d.inlineRec k
    let inl := List.range i.roles.length
    let role := fun k => i.roles.getD k absent
    let off := match engineDomain e with
      | some n => s.domain n == 0 || s.domain n == 3
      | none => false
    if (unitOf e).isSome ∧ i.unt.isSome ∧ unitOf e ≠ i.unt then some 0x41
    else if unitOf e = none then some 0x42
    else if off then some 0x43
    else if reservedSet d i then some 0x44
    else if !paramInRange s.xr.devId d (if d.opl then fun _ => { stride := 1 } else recs)
        || (!d.isBe && d.deadline == 0) || s.badCacheRange d
        || (d.batch && bits d.w0.toNat 30 4 != 0) || (d.nostr && (d.stream != 0 || d.chunk != 0 || d.batch))
        || (!d.opl && inl.any fun k => (recs k).used && (badRecFields d.opcode k (recs k) || !readersAllowed (recs k)))
        || (d.opl && !within 1 64 d.listCount) || (d.opcode == 0x7C && e != 0x50 + core) then some 0x45
    else if !d.opl && !formatsAllowed d recs then some 0x46
    else if d.isBe && (d.opcode == 0x10 || d.opcode == 0x11) && decide (6 ≤ d.param 0 3) then some 0x47
    else if d.opcode == 0x10 && d.param 40 1 == 1
        && ((d.param 3 3 != 1 && d.param 3 3 != 4) || (!d.opl && !(((fmtOf (recs 0).fmt).map Fmt.isInt).getD false))) then some 0x48
    else if (d.opcode == 0x21 || d.opcode == 0x43) && !posNormal (d.param 32 32) then some 0x49
    else if !d.opl && inl.any fun k => (recs k).used && !modeAllowed (role k) (recs k) then some 0x4A
    else if (i.needsList && !d.opl) || (d.opl && (decide (d.listCount < i.roles.length) || d.listHandle == 0xFF))
        || (!d.opl && inl.any fun k => !presenceOk (role k) (recs k)) then some 0x4B
    else if d.batch && (!(s.batchEntry d.batchId).valid || d.part != 0 || d.chunk != 0) then some 0x4C
    else if (s.members d).any fun m => wrongParity e m.1 then some 0x4D
    else if (d.fenceX && (d.peerMask == 0 || bitAt d.peerMask s.xr.devId)) || (!d.fenceX && d.peerMask != 0) then some 0x4E
    else if (d.trap && d.opcode != 0x20) || (d.releaseAll && !hasFillRole d i) || (d.fenceS && d.nostr) then some 0x4F
    else none

/-- Whether a control core runs: it is not in reset, and in Snowdrop CC0 alone has its clock (R13, R416). -/
def State.coreRuns (s : State) (core : Nat) : Bool := !s.ctl.coresDown.contains core && (core == 0 || s.pw.powerState != 4)

/-- Sets what a core's port reports. -/
def State.setReport (s : State) (core : Nat) (r : PortReport) : State :=
  { s with rb := { s.rb with report := Tbl.put s.rb.report core r } }

/-- One descriptor comes to the Roundabout: RETRY keeps nothing (R335); one that fails a check is refused to the submitting
core (R352); else it takes its place in the acceptance order (R133). -/
def State.submit (s : State) (core : Nat) (d : Desc) : State :=
  let e := d.engine
  if !s.slotFree d.isBe || ((unitOf e).isSome && s.queueFull e d.isBe) then s.setReport core .retry
  else
    match s.refusal core d with
    | some code =>
      let s1 := (s.setReport core (.refused code)).postMail core e ⟨0, compWords d .refused code 0 s.now 0, some d⟩ none none
      if code = 0x43 then s1 else s1.incObj 0x4004 4
    | none =>
      let s1 := s.setReport core .accepted
      { s1 with rb := { s1.rb with cmds := s1.rb.cmds ++ [{ seq := s1.rb.nextSeq, desc := d, core := core, waitSince := s1.now }]
                                   nextSeq := s1.rb.nextSeq + 1, lastCore := core } }

/-- The submissions of one moment in the order in which they are served: round robin from the core after `last` (R334). -/
def turnOrder (last : Nat) (l : List (Core × Words8)) : List (Core × Words8) :=
  (List.range 4).filterMap fun k => l.find? fun x => x.1.val == (last + 1 + k) % 4

/-- DESC_SUBMIT: a core submits a descriptor, and `others` submit in the same cycle; cores that do not run submit nothing (R13,
R333 to R336). -/
def execDescSubmit (core : Core) (d : Words8) (others : List (Core × Words8)) (s : State) : Out :=
  .next (((turnOrder s.rb.lastCore ((core, d) :: others)).filter fun x => s.coreRuns x.1.val).foldl (fun t x => t.submit x.1.val x.2) s)

/-! ### Charges and accounting (R370, R394) -/

/-- Splits a quantity over the members' partitions: floor shares, the remainder to member 0's (R370). -/
def splitShares (parts : List Nat) (x : Nat) : List (Nat × Nat) :=
  let n := parts.length
  let ps := dedup parts
  let shares := ps.map fun p => (p, x * (parts.filter (· == p)).length / n)
  let rest := x - (shares.map (·.2)).sum
  match shares with
  | [] => []
  | f :: fs => (f.1, f.2 + rest) :: fs

/-- The byte counter of 0x300p for a regulator: HBM read, HBM write, Crossing, PCIe; none for the Boulevard (R394). -/
def regCounter (reg : Nat) : Option Nat :=
  if reg = 0 then some 0x0C else if reg = 1 then some 0x0D else if reg = 3 then some 0x0E else if reg = 4 then some 0x0F else none

/-- Charges one partition's regulator, and counts the bytes (R369, R394). -/
def State.chargePart (s : State) (p reg x : Nat) : State :=
  let s1 := { s with rb := { s.rb with charges := Tbl.setD s.rb.charges 0 (p * 8 + reg)
                                         (Tbl.getD s.rb.charges 0 (p * 8 + reg) + x) } }
  match regCounter reg with
  | some c => s1.addObj64 (0x3000 + p) c x
  | none => s1

/-- Charges a command's partitions. -/
def State.charge (s : State) (d : Desc) (reg x : Nat) : State :=
  if x = 0 then s else (splitShares (s.partsOf d) x).foldl (fun t p => t.chargePart p.1 reg p.2) s

/-- Whether a regulator of a partition is below zero (R371). -/
def State.overdrawn (s : State) (p : Nat) : Bool :=
  (List.range 5).any fun r => decide (Tbl.getD s.rb.bucket 0 (p * 8 + r) < 0)

/-- Rows of a command's patterns that lie in another Square (R370). -/
def State.farRows (s : State) (c : Cmd) : Nat :=
  match homeSquare c.desc.engine with
  | none => 0
  | some q =>
    ((s.spans c.desc c.ops).map fun p => (p.rows.filter fun r => ((c.ops.getD p.op {}).base + r) / 65536 != q).length).sum

/-- Charges of a Lane command at issue (R370). -/
def State.chargeIssue (s : State) (c : Cmd) : State :=
  let d := c.desc
  let dir := d.param 0 2
  let far := s.farRows c * 512
  match d.opcode with
  | 0x70 =>
    let s1 := if dir = 0 then s.charge d 0 (d.param 2 17 * 512) else if dir = 1 then s.charge d 1 (d.param 2 17 * 512) else s
    s1.charge d 2 far
  | 0x71 =>
    let n := d.param 2 32
    let s1 := if dir = 3 then s.charge d 0 n else if dir = 2 then s.charge d 1 n else s
    (s1.charge d 4 n).charge d 2 far
  | 0x72 => (s.charge d 3 (d.param 3 17 * 512)).charge d 2 far
  | 0x74 => (s.charge d 3 (d.param 3 17 * 512)).charge d 2 far
  | _ => s

/-- The busy-cycle counter of 0x300p for an engine ID, none for units that have none (R394). -/
def busyCounter (e : Nat) : Option Nat :=
  match unitOf e with
  | some .mx => some 5
  | some .vx => some 6
  | some .se => some 7
  | some .at => some 8
  | some .tk => some 9
  | some .eg => some 0xA
  | some .ln => some 0xB
  | _ => none

/-- Accounts busy cycles to the partitions and to the deficits of R376. -/
def State.account (s : State) (d : Desc) (busy : Nat) : State :=
  let sh := splitShares (s.partsOf d) busy
  let s1 := match busyCounter d.engine with
    | some c => sh.foldl (fun t p => t.addObj64 (0x3000 + p.1) c p.2) s
    | none => s
  if d.isBe then
    { s1 with rb := { s1.rb with deficit := sh.foldl (fun t p =>
        Tbl.setD t 0 (d.engine * 16 + p.1) (Tbl.getD t 0 (d.engine * 16 + p.1) - p.2)) s1.rb.deficit } }
  else s1

/-! ### Fences (R140 to R147) -/

/-- Whether a command sends remote writes or tag operations to a peer of a mask (FENCE.X of R141). -/
def sendsTo (d : Desc) (mask : Nat) : Bool :=
  (d.opcode == 0x72 || d.opcode == 0x73) && bitAt mask (d.param 0 3)

/-- Whether two commands share a stream of one partition, or a batch ID (R141, R341). -/
def State.sharesStream (s : State) (a b : Desc) : Bool :=
  (a.batch && b.batch && a.batchId == b.batchId)
    || (!a.nostr && !b.nostr && (s.owners a).any fun m => (s.owners b).contains m)

/-- Whether a command is in the scope of the fences that a descriptor carries (R141). -/
def State.inScope (s : State) (f x : Desc) : Bool :=
  (f.fenceE && x.engine == f.engine)
    || (f.fenceS && s.sharesStream f x)
    || (f.fenceP && (s.partsOf f).any fun p => (s.partsOf x).contains p)
    || f.fenceD
    || (f.fenceX && sendsTo x f.peerMask)

/-- Whether a descriptor carries a fence. -/
def Desc.fenced (d : Desc) : Bool := d.fenceE || d.fenceS || d.fenceP || d.fenceD || d.fenceX

/-- Whether a host write that FENCE_D of a command waits for is still to be made: a record, queued for a ring or waiting for
room, that was published before the command's acceptance or by a command accepted before it (R141, R157). -/
def State.undrained (s : State) (seq : Nat) : Bool :=
  (s.host.fns.any fun f => f.2.oq.any fun o => o.2.marks.any fun m => decide (m ≤ seq))
    || s.str.waiting.any fun w => decide (w.mark ≤ seq)

/-- Whether a command's fences are met: no earlier command in scope is still to complete (R142, R144), and under FENCE_D no
host write in scope is still to be made (R141). -/
def State.fenceMet (s : State) (c : Cmd) : Bool :=
  !c.desc.fenced ||
    (!(s.rb.cmds.any fun x => !x.shadow && decide (x.seq < c.seq) && s.inScope c.desc x.desc) && !(c.desc.fenceD && s.undrained c.seq))

/-- Whether a fence covers a gather buffer (R143). -/
def State.covers (s : State) (d : Desc) (g : Nat) (b : GatherBuf) : Bool :=
  (d.fenceE && gatherOf d.engine == some g) || d.fenceD
    || (d.fenceP && b.owners.any fun o => (s.partsOf d).contains o.1)
    || (d.fenceS && b.owners.any fun o => (s.owners d).contains o)

/-- Flushes the gather buffers that a command's fences cover (R142, R143). -/
def State.fenceFlush (s : State) (d : Desc) : State := if d.fenced then s.flushAll (s.covers d) else s

/-! ### Issue (R374 to R379, R402) -/

/-- An AT command that walks sequences: it names them in a member map. -/
def isWalk (d : Desc) : Bool := d.opcode == 0x40 || d.opcode == 0x41 || d.opcode == 0x42

/-- The member map of an AT command, when it can be read: its rows lie in an untagged buffer or in FULL slots. -/
def State.mapReady (s : State) (d : Desc) (ops : List Operand) : Bool :=
  let m := ops.getD (if d.opcode = 0x40 then 1 else 3) {}
  m.slotRows = 0 || ((List.range ((d.param 4 9 + 63) / 64)).all fun i => (s.tag (slotTag m (m.off + i))).state == .full)

/-- The walks of an AT command: each sequence of its map with the current copy (R277). -/
def State.walksOf (s : State) (d : Desc) (ops : List Operand) : List (Nat × Bool) :=
  if isWalk d then (s.readMap d ops).filterMap fun e => (s.seq? (nthD e 0)).map fun q => (nthD e 0, q.cur) else []

/-- Whether every walker count of a list stays below 256 with one walker more (R278). -/
def State.walkRoom (s : State) (ws : List (Nat × Bool)) : Bool :=
  ws.all fun w => match s.seq? w.1 with
    | some q => decide ((if w.2 then q.walkersB else q.walkersA) + (ws.filter (· == w)).length ≤ 255)
    | none => true

/-- Ends a command with a check flag (R104, R353); DESC_CHECK writes a fault-log entry without EMCY. -/
def State.failCmd (s : State) (c : Cmd) (flag code : Nat) : State :=
  let s1 := s.putCmd (c.endWith flag code)
  if flag = flDescCheck then
    s1.logFault { cls := 0, source := c.desc.engine, action := 8, stream := bits c.desc.w0.toNat 21 13, batch := c.desc.batch
                  chunk := c.desc.chunk, payload := [0, oneFlag flag, 0, 0] }
  else s1

/-- Whether the records of an operand list pass the start check 0x60: reserved bits, roles, presence, and what acceptance
could not check without them (R353). `ops` are the records of the opcode's roles as resolved: a handle that turned out untagged
makes MODE and READERS idle (R106, R347). -/
def listOk (dev : Nat) (d : Desc) (roles : List Role) (recs : List Nat) (ops : List Operand) : Bool :=
  let op := d.opcode
  let rs := fun k => ops.getD k {}
  formatsAllowed d rs && paramInRange dev { d with w0 := BitVec.ofNat 64 (setBit d.w0.toNat 57 false) } rs
    && !(op == 0x10 && d.param 40 1 == 1 && !(((fmtOf (rs 0).fmt).map Fmt.isInt).getD false))
    && (op != 0x20 || vxRecordsOk d rs) && (!(op == 0x30 || op == 0x31) || seRecordsOk d rs)
    && recs.all (bits · 55 9 == 0)
    && (!d.releaseAll || fillsTile d || (List.range roles.length).any fun k => fills (roles.getD k absent) (rs k))
    && (List.range roles.length).all fun k =>
      let o := rs k
      let role := roles.getD k absent
      presenceOk role o && (!o.used || ((o.slotRows == 0 || (modeAllowed role o && readersAllowed o)) && !badRecFields op k o))

/-- Resolves a command's operands and finds the claims it must make (R103, R104, R344). -/
def State.resolveCmd (s : State) (c : Cmd) (i : OpInfo) (recs : List Operand) (listBad : Bool) : State :=
  let e := c.desc.engine
  let tp := s.tablePart c.desc
  let ops := recs.map fun o => s.resolve e tp o
  let sp := s.spans c.desc ops
  match s.accessError e tp c.desc.opcode i.roles ops sp with
  | some flag => s.failCmd c flag 0
  | none =>
    if listBad then s.failCmd { c with ops := ops } flDescCheck 0x60
    else s.putCmd { c with ops := ops, stage := 1, phase := .issued
                           wanted := notHeld c.held (claimsFor e c.desc i.roles ops sp c.shadow) }

/-- Reads the operand list of a command whose list row may be read, and resolves the records (R343, R344). Where the list row
lies in a tagged slot, the handles that it names are resolved as the row is read, once its claim is held, which may be after
the cycle of the issue: R103 and R344 do not settle that wait (DESIGN CHOICE, log 42). -/
def State.loadList (s : State) (c : Cmd) (i : OpInfo) : State :=
  s.readOr c [c.listRow] fun t =>
    let bs := t.readRow c.listRow
    let recs := (List.range c.desc.listCount).map fun k => leAt bs (8 * k) 8
    let ops := ((recs.take i.roles.length).map Operand.ofRec)
    t.resolveCmd c i ops (!listOk t.xr.devId c.desc i.roles recs (ops.map fun o => t.resolve c.desc.engine (t.tablePart c.desc) o))

/-- Takes what the line map of an SE command says: its rows lie within the STATE handle and in quarters that were ON at the
issue, and their slots are to be claimed (R104, R257, R258). -/
def State.takeLineMap (s : State) (c : Cmd) : State :=
  s.readOr c (mapOperandRows c.desc c.ops) fun t =>
    let o := stateOperand c.desc c.ops
    let map := t.readMap c.desc c.ops
    let rows := mapRows c.desc map
    let all := rows.1 ++ rows.2.1 ++ rows.2.2.1 ++ rows.2.2.2
    if all.any fun r => decide (o.bound ≤ r) then t.failCmd c flHandleBound 0
    else if all.any fun r => !c.quarters.contains (rowQuarter (o.base + r)) then t.failCmd c flHandleOff 0
    else t.putCmd { c with map := map, stage := 2, wanted := if c.shadow && !o.isLocal then [] else notHeld c.held (mapClaims o rows) }

/-- Takes the members of an AT command and a walker on the current copy of each sequence, where every count has room (R277,
R278, R300). -/
def State.takeMembers (s : State) (c : Cmd) (stage : Nat) : State :=
  let ws := s.walksOf c.desc c.ops
  if !s.walkRoom ws then s
  else
    s.readOr c (mapOperandRows c.desc c.ops) fun t =>
      (ws.foldl (fun u w => u.walk w.1 w.2 1) t).putCmd { c with map := t.readMap c.desc c.ops, walks := ws, stage := stage }

/-- A shadow copy of an AT command takes no walker: it walks what the reference copy walks, and ends with it when that ends
before its walk (R593). -/
def State.shareWalks (s : State) (c : Cmd) : State :=
  match s.rb.cmds.find? fun x => x.seq == c.seq && !x.shadow with
  | none => s.putCmd { c with phase := .ended }
  | some x =>
    if x.map ≠ [] then s.putCmd { c with map := x.map, walks := x.walks, stage := 2 }
    else if x.phase = .ended then s.putCmd { c with phase := .ended, flags := x.flags, code := x.code }
    else s

/-- The next step of a command that has every claim it wanted: a list is read, a line map or a member map is read, or the
command may run. -/
def State.advance (s : State) (seq : Nat) (shadow : Bool) : State :=
  match s.rb.cmds.find? fun c => c.seq == seq && c.shadow == shadow with
  | none => s
  | some c =>
    if c.phase ≠ .issued ∨ c.wanted ≠ [] then s
    else
      match opInfo c.desc with
      | none => s
      | some i =>
        if c.stage = 0 then s.loadList c i
        else if c.stage = 1 then
          if c.desc.opcode = 0x30 ∨ c.desc.opcode = 0x31 then s.takeLineMap c
          else if isWalk c.desc && c.shadow then s.shareWalks c
          else if isWalk c.desc && c.map == [] then s.takeMembers c 2
          else s.putCmd { c with stage := 2 }
        else s

/-- Resolves the list handle of a command: the row of its operand list, and the claim on it where the handle is tagged (R343,
R344). -/
def State.openList (s : State) (c : Cmd) : State :=
  let d := c.desc
  let tp := s.tablePart d
  let h := s.resolve d.engine tp { used := true, handle := d.listHandle, off := d.listOff }
  match s.accessError d.engine tp 0 [rd] [h] [⟨0, h.off, 1, 1⟩] with
  | some flag => s.failCmd c flag 0
  | none =>
    s.putCmd { c with stage := 0, listRow := h.base + h.off
                      wanted := if h.slotRows = 0 ∨ (c.shadow ∧ !h.isLocal) then [] else [⟨false, slotTag h h.off, 0, 0⟩] }

/-- Puts a picked command to its engine: it resolves its handles, or goes on where it stood when it was parked. An AT command
takes its walkers as it issues, where its member map can be read then (R277). A parked command whose remote operation is over
completes (R402, R407). -/
def State.startCmd (s : State) (c : Cmd) : State :=
  if c.phase = .parked then s.putCmd { c with phase := if c.answered then .ended else .issued }
  else
    match opInfo c.desc with
    | none => s
    | some i =>
      let d := c.desc
      let c1 := { c with phase := .issued, waitSince := s.now, quarters := indicesWhere 32 s.quarterOn }
      let s1 := s.putCmd c1
      let s2 := if d.opl then s1.openList c1 else s1.resolveCmd c1 i ((List.range i.roles.length).map fun k => d.inlineRec k) false
      let s3 := (s2.advance c.seq c.shadow).advance c.seq c.shadow
      match s3.rb.cmds.find? fun x => x.seq == c.seq && x.shadow == c.shadow with
      | some x =>
        let s4 := if x.phase = .issued ∧ x.stage = 1 ∧ x.map = [] ∧ isWalk d ∧ !x.shadow ∧ s3.mapReady d x.ops then s3.takeMembers x 1 else s3
        if x.shadow ∨ x.phase ≠ .issued then s4 else s4.chargeIssue x
      | none => s3

/-- Squares under shadow qualification (R593). -/
def State.testSquares (s : State) : List Nat := indicesWhere 8 fun q => Tbl.getD s.rb.sqOut 0 q == 2

/-- Whether a Square is in service: some engine of it is ON, it neither left service nor is under qualification, and Tulip
does not mask it (R368, R566). -/
def State.inService (s : State) (q : Nat) : Bool :=
  Tbl.getD s.rb.sqOut 0 q == 0 && !(s.pw.target == 2 && bitAt s.pw.tulipMask q)
    && (List.range 6).any fun k => s.domain (10 * q + k) == 2

/-- The reference Square (R593). -/
def State.refSquare (s : State) : Option Nat := firstIndex 8 s.inService

/-- The engines that run shadow copies of an engine's commands. -/
def State.shadowEngines (s : State) (e : Nat) : List Nat :=
  if e < 0x40 ∧ s.refSquare = some (e / 8) then s.testSquares.map fun q => q * 8 + e % 8 else []

/-- A descriptor aimed at another engine: the shadow copy. -/
def Desc.atEngine (d : Desc) (e : Nat) : Desc := { d with w0 := BitVec.ofNat 64 (setBits d.w0.toNat 8 8 e) }

/-- Whether an issued command waits: for a claim that cannot be made now, for walker room, or for remote data (R402). -/
def State.waits (s : State) (c : Cmd) : Bool :=
  c.phase == .issued && (decide (0 < c.remoteLeft) ||
    match c.wanted with
    | cl :: _ => ((s.claimTag cl).claim cl.mode).isNone
    | [] => c.stage == 1)

/-- Whether the regulators hold a command back (R371). -/
def State.heldBack (s : State) (d : Desc) : Bool := !d.batch && s.overdrawn d.part

/-- Whether a queued or parked command is eligible (R374); an AT command also needs walker room (R278). -/
def State.eligible (s : State) (c : Cmd) : Bool :=
  !c.shadow &&
    (match c.phase with
     | .queued => s.fenceMet c && !s.heldBack c.desc
     | .parked => !s.heldBack c.desc
     | _ => false)

/-- The earliest deadline, ties to earlier acceptance (R375). -/
def pickEdf (l : List Cmd) : Option Cmd := argMin (fun c => c.desc.deadline) l

/-- The deficit round robin of R376, at most `fuel` steps: the choice, with the pointer and the deficits it leaves. -/
def drrPick (has : Nat → Bool) (step : Nat → Int) : Nat → Nat → (Nat → Int) → Nat × (Nat → Int)
  | 0, p, d => (p, d)
  | n + 1, p, d =>
    if has p && decide (0 < d p) then (p, d)
    else
      let d1 := fun x => if x = p && !has p then min (d p) 0 else d x
      let q := (p + 1) % 16
      let d2 := fun x => if x = q && has q then d1 q + step q else d1 x
      drrPick has step n q d2

/-- Picks a BE command for an engine (R376). -/
def State.pickDrr (s : State) (e : Nat) (l : List Cmd) : Option (Cmd × State) :=
  let has := fun p => l.any fun c => (s.partsOf c.desc).contains p
  let d0 := fun p => Tbl.getD s.rb.deficit 0 (e * 16 + p)
  let step := fun p => ((s.obj (0x2400 + p) 3 * s.inForce 0x2500 8 : Nat) : Int)
  let fuel := 16 * (2 + ((List.range 16).map fun p => (d0 p).natAbs).sum)
  let r := drrPick has step fuel (Tbl.getD s.rb.ptr 0 e) d0
  match l.find? fun c => (s.partsOf c.desc).contains r.1 with
  | none => none
  | some c =>
    some (c, { s with rb := { s.rb with
      ptr := Tbl.setD s.rb.ptr 0 e r.1
      deficit := (List.range 16).foldl (fun t p => Tbl.setD t 0 (e * 16 + p) (r.2 p)) s.rb.deficit } })

/-- Chooses among eligible commands of an engine (R375), with the counts it leaves. -/
def State.choose (s : State) (e : Nat) (l : List Cmd) : Option (Cmd × State) :=
  let lc := l.filter fun c => !c.desc.isBe
  let be := l.filter fun c => c.desc.isBe
  let run := Tbl.getD s.rb.run 0 e
  let setRun := fun (t : State) n => { t with rb := { t.rb with run := Tbl.setD t.rb.run 0 e n } }
  if be ≠ [] ∧ (lc = [] ∨ run + 1 = s.inForce 0x2500 1) then (s.pickDrr e be).map fun r => (r.1, setRun r.2 0)
  else (pickEdf lc).map fun c => (c, setRun s (if be = [] then 0 else run + 1))

/-- Issues a picked command, with its shadow copies in the same cycle (R593). -/
def State.issue (s : State) (c : Cmd) : State :=
  let s1 := s.fenceFlush c.desc
  let copies := s1.rb.cmds.filter fun x => x.shadow && x.seq == c.seq
  if c.phase = .parked then (c :: copies).foldl (fun t x => t.startCmd x) s1
  else
    let sh := (s1.shadowEngines c.desc.engine).map fun e =>
      { c with desc := c.desc.atEngine e, shadow := true }
    let s2 := { s1 with rb := { s1.rb with cmds := s1.rb.cmds ++ sh } }
    (c :: sh).foldl (fun t x => t.startCmd x) s2

/-- Parks the command that holds an engine, with its shadow copies (R378, R402). -/
def State.park (s : State) (c : Cmd) : State :=
  { s with rb := { s.rb with cmds := s.rb.cmds.map fun x =>
      if x.seq == c.seq && x.phase == .issued then { x with phase := .parked } else x } }

/-- Whether an engine has power: its domain is ON, or is CLOSING and still at work (R561, R562). -/
def State.enginePowered (s : State) (e : Nat) : Bool :=
  ((engineDomain e).map fun d => s.domain d == 2 || s.domain d == 3).getD true

/-- Whether an engine and the engines of its shadow copies can take a command. -/
def State.engineFree (s : State) (e : Nat) : Bool :=
  (e :: s.shadowEngines e).all fun x => s.enginePowered x && (s.atEngine? x).isNone

/-- ROUNDABOUT_ISSUE: an issued command that waits without having written yields to another eligible one (R402); a free
engine takes the next command in the order of R375, a parked one only when nothing else is eligible. None is issued in the
part of a microsecond that the issue duty leaves out (R571). -/
def execRoundaboutIssue (eng : Eng) (s : State) : Out :=
  let e := eng.toNat
  let fresh := s.rb.cmds.filter fun c => c.desc.engine == e && c.phase == .queued && s.eligible c
  let s1 := match s.atEngine? e with
    | some c => if !c.shadow && s.waits c && !c.wrote && !fresh.isEmpty then s.park c else s
    | none => s
  if !s1.engineFree e || !s.dutyOpen then .next s1
  else
    let old := s1.rb.cmds.filter fun c => c.desc.engine == e && c.phase == .parked && s1.eligible c
    match s1.choose e (if fresh.isEmpty then old else fresh) with
    | some (c, s2) => .next (s2.issue c)
    | none => .next s1

/-! ### Claims (R108, R109, R344) -/

/-- TAG_CLAIM: the engine's command makes its next claim, when the tag is in the state that its mode expects. -/
def execTagClaim (eng : Eng) (s : State) : Out :=
  match s.atEngine? eng.toNat with
  | none => .next s
  | some c =>
    match c.wanted with
    | [] => .next (s.advance c.seq c.shadow)
    | cl :: rest =>
      match (s.claimTag cl).claim cl.mode with
      | none => .next s
      | some t =>
        let s1 := s.setClaimTag cl (t.by c.desc)
        let s2 := s1.putCmd { c with wanted := rest, held := c.held ++ [cl], waitSince := s1.now, waitReported := false }
        .next ((s2.advance c.seq c.shadow).advance c.seq c.shadow)

/-! ### Completion (R354, R132, R593 to R595) -/

/-- Rows of the slot of a claim, by the operand that named it. -/
def Cmd.slotSpan (c : Cmd) (cl : Claim) (row : Nat) : Bool :=
  let n := ((c.ops.find? fun o => o.slotRows != 0 && decide (o.base ≤ cl.key * 4 ∧ cl.key * 4 < o.base + o.bound)).map
    (·.slotRows)).getD 4
  decide (cl.key * 4 ≤ row ∧ row < cl.key * 4 + n)

/-- Flushes what gather ports hold of the slots that a command completes: all writes of the fill land before the tag is FULL
(R117, R137). With RELEASE_ALL the command's own port flushes every row of its operands too (R138). -/
def State.flushForFill (s : State) (c : Cmd) : State :=
  let slots := c.held.filter fun cl => !cl.isTile && (cl.mode == 1 || cl.mode == 4)
  let s1 := s.flushAll fun _ b => slots.any fun cl => c.slotSpan cl b.row
  match gatherOf c.desc.engine with
  | some g =>
    if c.desc.releaseAll then
      (let rows := (s1.spans c.desc c.ops).flatMap fun p => p.rows.map ((c.ops.getD p.op {}).base + ·)
       s1.flushPort g fun b => rows.contains b.row)
    else s1
  | none => s1

/-- Fault counters of the failing engine (R431). -/
def State.countEngineFaults (s : State) (e flags : Nat) : State :=
  let s1 := if bitAt flags flMxCheck then s.addEng e 5 1 else s
  if bitAt flags flMxResidue ∨ bitAt flags flVxResidue ∨ bitAt flags flSeResidue ∨ bitAt flags flAtResidue
  then s1.addEng e 6 1 else s1

/-- The treatment of a command that ended with an abort flag (R431 to R437). The fault-log entry of an MX check names the tile in
ADDR (R179; the place of the tile is a DESIGN CHOICE, log 43). -/
def State.treatFault (s : State) (c : Cmd) : State :=
  let e := c.desc.engine
  let cls := if c.hostRead then 9 else faultClass c.flags c.inHbm
  let addr := if cls = 2 then c.addr else if cls = 3 then c.addr * 64
    else if cls = 1 ∧ unitOf e = some .mx then c.desc.param 0 3 else 0
  let s1 := (s.countEngineFaults e c.flags).faultCommand c.desc (c.source.getD e) cls addr c.flags c.detail []
  let s2 := if cls = 2 ∧ !c.inTile then s1.repairRow c.addr else s1
  if cls = 1 ∨ cls = 2 ∨ cls = 5 then s2.blameEngine e else s2

/-- The comparison of a pair (R595): void when the reference has an abort flag; else equal signatures count for the
Square's qualification, and a difference is its failure. -/
def State.comparePair (s : State) (r x : Cmd) : State :=
  let q := x.desc.engine / 8
  if hasAbortFlag r.flags then s
  else
    let same := r.signature == x.signature && !hasAbortFlag x.flags
    let k := x.desc.engine % 8
    let chunks := s.members r.desc
    let s1 := { s with boot := { s.boot with squares := Tbl.modify s.boot.squares q fun sq =>
      { sq with qual := sq.qual.map fun ql =>
          if same then { ql with chunks := (ql.chunks ++ (chunks.filter fun m => !ql.chunks.contains m)).take 64
                                 equal := setNth ql.equal k (nthD ql.equal k + 1) }
          else { ql with mismatch := true } } } }
    if same then s1 else s1.incObj 0x4200 7

/-- The end of a command: transitions, claims, walkers, accounting, completion entry, slot, faults (R354). It does not end while
a mailbox write of its own is still to land (R132, R137). A command whose word was lost ends with KIND CANCELLED (DESIGN CHOICE,
log 44) and its chunks are aborted (R434), or its stream is lost with both copies of the word (R442). -/
def State.completeCmd (s : State) (c : Cmd) (busy : Nat) : State :=
  let copies := s.rb.cmds.filter fun x => x.shadow && x.seq == c.seq
  if (copies.any fun x => x.phase != .ended) || s.rb.heldMail.any (·.cmd == some c.seq) then s
  else
    let ok := !hasAbortFlag c.flags && (!hasCheckFlag c.flags || c.wrote) && !bitAt c.flags flTrap && !hasPtFlag c.flags && c.ctl.isNone
    let s1 := (((s.flushForFill c).releaseClaims c ok).endWalks c).endParts c.seq
    let s2 := copies.foldl (fun t x => ((t.releaseClaims x ok).comparePair c x).dropCmd x) s1
    let s3 := if unitOf c.desc.engine = some .ln then s2 else s2.charge c.desc 2 (c.far * 512)
    let s4 := (s3.charge c.desc 0 c.spillReads).account c.desc busy
    let s5 := (s4.dropCmd c).complete c.desc (if c.ctl.isSome then .cancelled else .done) c.code c.flags c.detail
    let s6 := match c.ctl with
      | some (.lost sid) => ((s5.incObj 0x4004 2).emcyEvent 0xFF10 [4, c.desc.engine]).loseStream sid.val 4
      | some w => s5.ctlFault c.desc (ctlAddress w)
      | none => if hasAbortFlag c.flags then s5.treatFault c else s5
    (s6.settleEngine c.desc.engine).settleMxs.settleAborts

/-- COMMAND_COMPLETE: the command at the engine whose effect is done completes, with its busy cycles (R394). -/
def execCommandComplete (eng : Eng) (busy : Nat) (s : State) : Out :=
  match s.atEngine? eng.toNat with
  | some c => if c.phase = .ended ∧ !c.shadow then .next (s.completeCmd c busy) else .next s
  | none => .next s

/-- Whether an EG_PUBLISH waits for egress room, time that does not count (R328, R331, R415). -/
def State.waitsForRoom (s : State) (c : Cmd) : Bool :=
  c.desc.opcode == 0x5A && (s.members c.desc).any fun m => s.str.waiting.any fun w => w.commit == some m.1

/-- CMD_TIMEOUT: the engine's datapath is reset and its command ends with TIMEOUT; it makes no FILL or CLOSE transition,
and its claims are released (R415, R435). Time that a command waits does not count. -/
def execCmdTimeout (eng : Eng) (s : State) : Out :=
  match s.atEngine? eng.toNat with
  | some c =>
    if c.phase = .issued ∧ !s.waits c ∧ !s.waitsForRoom c then
      let c1 := { c with phase := .ended, flags := withFlag c.flags flTimeout, wanted := [] }
      let s1 := s.putCmd c1
      if c.shadow then .next s1 else .next (s1.completeCmd c1 0)
    else .next s
  | none => .next s

/-- NOP_CMD: an issued NOP completes (R346). -/
def execNopCmd (eng : Eng) (s : State) : Out :=
  match s.ready? eng.toNat 0x00 with
  | some c => .next (s.putCmd { c with phase := .ended })
  | none => .next s

/-! ### Commands of the control cores (R111, R150, R351) -/

/-- Ends a command without a result. -/
def State.endCmd (s : State) (c : Cmd) : State := s.putCmd { c with phase := .ended }

/-- TAG_SET: the slot or the tile takes STATE and READERS, after the core's gather port has flushed for FULL (R111, R137,
R152). -/
def execTagSet (eng : Eng) (hw : Hw) (s : State) : Out :=
  .next (s.atCommand eng.toNat 0x7C hw fun s0 c =>
    let d := c.desc
    let st : TagState := TagState.ofCode (d.param 0 2)
    let s1 := match gatherOf eng.toNat with
      | some g => if st = TagState.full then s0.flushPort g fun _ => true else s0
      | none => s0
    if d.param 6 1 = 1 then
      let key := mxIndex (d.param 7 8) * 8 + d.param 15 3
      ((s1.setTileTag key (((s1.tileTag key).set st (d.param 2 4)).by d)).settleEngine (d.param 7 8)).endCmd c
    else
      let o := c.ops.getD 0 {}
      if o.slotRows = 0 then s1.endCmd c
      else
        let t := slotTag o o.off
        (s1.setTag t (((s1.tag t).set st (d.param 2 4)).by d)).endCmd c)

/-- Control-memory writes of a core land: in control memory, and in the core's own view (R150). -/
def State.writeCtl (s : State) (core : Nat) (writes : List (Nat × Byte)) : State :=
  let put := fun (m : Mem) => writes.foldl (fun m w => Tbl.setD m 0 (w.1 % 2 ^ 20) w.2) m
  { s with st := { s.st with ctl := put s.st.ctl, ctlView := Tbl.setD s.st.ctlView [] core (put (Tbl.getD s.st.ctlView [] core)) } }

/-- A core sees control memory as it stands: it has taken a message (R150). -/
def State.acquireCtl (s : State) (core : Nat) : State :=
  { s with st := { s.st with ctlView := Tbl.setD s.st.ctlView [] core s.st.ctl } }

/-- MB_POST: the 32-byte payload goes to the mailbox of the core that ENGINE names (R150, R351). The post releases `writes`, what
the poster wrote into control memory since its last post. -/
def execMbPost (eng : Eng) (hw : Hw) (writes : List (Nat × Byte)) (s : State) : Out :=
  .next (s.atCommand eng.toNat 0x7D hw fun s0 c =>
    let d := c.desc
    ((s0.writeCtl c.core writes).postMail (eng.toNat - 0x50) eng.toNat ⟨2, [d.word 3, d.word 4, d.word 5, d.word 6], some d⟩ none
      (some c.seq)).endCmd c)

/-- What a core does with the entry that it reads: a message shows it the control memory that the poster released (R150); an
unreadable one aborts the chunks of its command (R434). -/
def State.takeMail (s : State) (core : Nat) (m : Mail) (bad : Bool) : State :=
  if bad then
    (match m.desc with
     | some d => s.ctlFault d 0
     | none => s)
  else if m.kind = 2 then s.acquireCtl core
  else s

/-- MAILBOX_FREED: the core reads its oldest entry, and the entry held longest for that mailbox lands (R232). `bad`: a word of
the entry cannot be read (R434). -/
def execMailboxFreed (core : Core) (bad : Bool) (s : State) : Out :=
  if !s.coreRuns core.val then .next s
  else
    match Tbl.getD s.rb.mail [] core.val with
    | [] => .next s
    | m :: rest =>
      match s.rb.heldMail.find? fun h => h.core == core.val with
      | none => .next ({ s with rb := { s.rb with mail := Tbl.setD s.rb.mail [] core.val rest } }.takeMail core.val m bad)
      | some h =>
        let i := (s.rb.heldMail.findIdx? fun x => x.core == core.val).getD 0
        .next ({ s with rb := { s.rb with mail := Tbl.put s.rb.mail core.val (rest ++ [h.mail])
                                          heldMail := s.rb.heldMail.eraseIdx i } }.takeMail core.val m bad)

/-- CHUNK_CANCEL: every queued command of the pair is removed with KIND CANCELLED (R357). -/
def execChunkCancel (sid : Sid) (chunk : BitVec 16) (s : State) : Out := .next (s.cancelChunk sid.val chunk.toNat).settleAborts

/-! ### Regulators and storms (R369, R392) -/

/-- A regulator's count after a microsecond: refill, clip at the upper limit, then the charges; with RATE 0 never below
zero (R369). -/
def refill (count : Int) (rate burst charge : Nat) : Int :=
  let c := min (count + rate) (burst * 1024 : Nat) - charge
  if rate = 0 then max c 0 else c

/-- REGULATOR_REFILL: the tick of every regulator; the charges of the microsecond are then taken. -/
def execRegulatorRefill (s : State) : Out :=
  .next { s with rb := { s.rb with
    bucket := (List.range 16).foldl (fun t p => (List.range 5).foldl (fun t r =>
      Tbl.setD t 0 (p * 8 + r) (refill (Tbl.getD t 0 (p * 8 + r)) (s.obj (0x2400 + p) (6 + 2 * r))
        (s.obj (0x2400 + p) (7 + 2 * r)) (Tbl.getD s.rb.charges 0 (p * 8 + r)))) t) s.rb.bucket
    charges := [] } }

/-- A second of the timebase ends: its misses decide STORM, which only a whole second at or below the limit clears
(R392). A step of the timebase ends a second early (R482). -/
def State.closeSecond (s : State) (whole : Bool) : State :=
  let n := s.str.missSecond
  let s1 := { s with str := { s.str with missSecond := 0 } }
  if s.inForce 0x2500 9 < n then
    (if s.obj 0x2500 0xA = 1 then s1
     else (s1.setObj 0x2500 0xA 1).emcyRaise 0xFF40 [Nat.min n 65535 % 256, Nat.min n 65535 / 256])
  else if whole && s.obj 0x2500 0xA == 1 then (s1.setObj 0x2500 0xA 0).emcyEnd 0xFF40 fun _ => true
  else s1

/-- STORM_SECOND (R392). -/
def execStormSecond (s : State) : Out := .next (s.closeSecond true)

/-! ### The wait-for watchdog (R407 to R409) -/

/-- W0 of a wait report: the waiting command (R408). -/
def waitHead (d : Desc) : Nat :=
  d.engine + d.opcode * 2 ^ 8 + d.cmdTag * 2 ^ 16 + bits d.w0.toNat 21 13 * 2 ^ 32 + b2n d.batch * 2 ^ 45 + d.chunk * 2 ^ 48

/-- µs waited, in W3 of a wait report. -/
def State.waitUs (s : State) (since : Nat) : Nat := ((s.now - since) / 1000) % 2 ^ 32

/-- The payload of a report on a command that waits (R408). KIND 0 waits for a tag claim, 1 for remote data. -/
def State.waitPayload (s : State) (c : Cmd) : List Nat :=
  match c.wanted with
  | [] => [waitHead c.desc, 1 * 2 ^ 45, 0xFF, s.waitUs c.waitSince]
  | cl :: _ =>
    let t := s.claimTag cl
    [waitHead c.desc,
     (if cl.isTile then 2 ^ 19 + mxEngine (cl.key / 8) * 2 ^ 20 + (cl.key % 8) * 2 ^ 28 else cl.key * 4)
       + t.state.code * 2 ^ 32 + t.readers * 2 ^ 34 + t.claims * 2 ^ 38 + cl.mode * 2 ^ 42,
     t.producer + t.prodStream * 2 ^ 8 + t.prodChunk * 2 ^ 21 + b2n t.prodBatch * 2 ^ 37, s.waitUs c.waitSince]

/-- The payload of a report on a held mailbox entry: KIND 2, the core in the place of the engine (R408). -/
def State.holdPayload (s : State) (h : HeldMail) : List Nat :=
  [(h.mail.desc.map waitHead).getD h.src, (0x50 + h.core) * 2 ^ 20 + 2 * 2 ^ 45, 0xFF, s.waitUs h.since]

/-- The log entry of a report after which the wait goes on. -/
def State.logWait (s : State) (src : Nat) (d : Option Desc) (pay : List Nat) : State :=
  match d with
  | some d => s.logFault { cls := 6, source := src, action := 8, stream := bits d.w0.toNat 21 13, batch := d.batch, chunk := d.chunk
                           payload := pay }
  | none => s.logFault { cls := 6, source := src, action := 8, payload := pay }

/-- WAIT_REPORT: one report for each wait; with WD_ACTION 1 the waiter's chunks are aborted and replayed, and a NOSTR
waiter is cancelled (R408, R409, R436). The waiter itself is cancelled in both cases: what it waits for may never come (DESIGN
CHOICE, log 47). -/
def execWaitReport (which : WaitId) (s : State) : Out :=
  match which with
  | .cmd seq =>
    match s.rb.cmds.find? fun c => c.seq == seq && !c.shadow with
    | none => .next s
    | some c =>
      if (c.phase = .issued ∨ c.phase = .parked) ∧ (c.wanted ≠ [] ∨ 0 < c.remoteLeft) ∧ !c.waitReported then
        let pay := s.waitPayload c
        let s1 := (s.putCmd { c with waitReported := true }).incObj 0x4018 3
        if s.inForce 0x4018 2 = 1 then
          (if c.desc.nostr then
             .next ((s1.logWait c.desc.engine none pay).cancelCmd c)
           else .next ((s1.cancelCmd c).faultCommand c.desc c.desc.engine 6 0 0 0 pay))
        else .next (s1.logWait c.desc.engine (some c.desc) pay)
      else .next s
  | .mail n =>
    match s.rb.heldMail[n]? with
    | none => .next s
    | some h =>
      if h.reported then .next s
      else
        let s1 := { s with rb := { s.rb with heldMail := s.rb.heldMail.set n { h with reported := true } } }.incObj 0x4018 3
        match h.mail.desc with
        | some d =>
          if s.inForce 0x4018 2 = 1 ∧ !d.nostr then .next (s1.faultCommand d h.src 6 0 0 0 (s.holdPayload h))
          else .next (s1.logWait h.src (some d) (s.holdPayload h))
        | none => .next (s1.logWait h.src none (s.holdPayload h))

end Sys2Proof.Machine
end

