-- ==== Sys2Proof/Machine/Matrix.lean ====
section
/-! DEFINITION. The matrix engine: MATMUL and TILE_STORE (chapter "Matrix engines"). -/

namespace Sys2Proof.Machine

/-! ### Operands of a MATMUL (R160, R161) -/

/-- Valid elements of K-row `kr`. -/
def matValid (d : Desc) (e kr : Nat) : Nat := if kr + 1 = d.param 24 5 then d.param 29 11 else e

/-- Elements of K that a command covers. -/
def matK (d : Desc) (e : Nat) : Nat := (d.param 24 5 - 1) * e + d.param 29 11

/-- The valid codes of row `m` of A over the command's K, K-row by K-row. -/
def State.matA (s : State) (c : Cmd) (f : Fmt) (e m : Nat) : List (List Nat) :=
  let o := c.ops.getD 0 {}
  (List.range (c.desc.param 24 5)).map fun kr =>
    (f.unpack (s.opRow o (o.off + kr * o.stride + m))).take (matValid c.desc e kr)

/-- The valid codes of column `n` of W. With INT4 weights beside 8-bit activations a row serves two K-rows. -/
def State.matW (s : State) (c : Cmd) (f : Fmt) (half : Bool) (e n : Nat) : List (List Nat) :=
  let o := c.ops.getD 1 {}
  (List.range (c.desc.param 24 5)).map fun kr =>
    let row := s.opRow o (o.off + (if half then kr / 2 else kr) * o.stride + n)
    let bs := if half then (row.drop (256 * (kr % 2))).take 256 else row
    (f.unpack bs).take (matValid c.desc e kr)

/-! ### Integer formats (R166, R170, R173, R174) -/

/-- The exact product sum of two rows of codes. -/
def intDot (fa fw : Fmt) (a w : List (List Nat)) : Int :=
  ((a.zip w).map fun r => ((r.1.zip r.2).map fun p => fa.intValue p.1 * fw.intValue p.2).sum).sum

/-- Word `i` of a list of 32-bit words in bytes, signed. -/
def int32At (bs : List Byte) (i : Nat) : Int := signedOf 32 (leAt bs (4 * i) 4)

/-- The correction of R174. -/
def zpCorr (rowSum : Int) (kCount : Nat) (za zw cw : Int) : Int := -(zw * rowSum) - za * cw + kCount * za * zw

/-! ### Floating formats (R171, R172) -/

/-- The binary32 words of codes of a floating format: exact conversions. -/
def toF32s (f : Fmt) (l : List Nat) : List Nat := l.map fun x => (convert f .fp32 x).1

/-- The block sums of two lists of K-rows, as binary32 words: the tree of R171 over each block of 32 products. -/
def blockSums (a w : List (List Nat)) : List Fp :=
  (a.zip w).flatMap fun r =>
    let ps := (r.1.zip r.2).map fun p => fpMul p.1 p.2
    (chunksOf (ps.length / 32 + 1) 32 ps).map treeBlock

/-- Block sums added one after another onto a value. -/
def sumOnto (acc : Fp) (l : List Fp) : Fp := l.foldl Fp.add acc

/-! ### The commands -/

/-- The 32-bit word of a tile at (m, n) (R163). -/
def tileWord (rows : List (List Byte)) (m n : Nat) : Nat := leAt (rows.getD (m / 2) []) (4 * (m % 2 * 64 + n)) 4

/-- The 33 rows of a tile. -/
def State.tileRows (s : State) (key : Nat) : List (List Byte) := (List.range 33).map fun r => s.tileRow key r

/-- The 33 rows that hold words and a side row. -/
def packTile (word : Nat → Nat → Nat) (rowSum : Nat → Int) (kCount : Nat) : List (List Byte) :=
  ((List.range 32).map fun r => (List.range 128).flatMap fun e => leBytes 4 (word (2 * r + e / 64) (e % 64)))
    ++ [(List.range 64).flatMap (fun m => leBytes 4 (unsignedOf 32 (rowSum m))) ++ leBytes 4 kCount ++ List.replicate 252 0]

/-- The key of the tile that an MX command names. -/
def mxTileKey (c : Cmd) : Nat := mxIndex c.desc.engine * 8 + c.desc.param 0 3

/-- Whether a zero point of ZA or ZW lies outside its format (start check 0x61 of R353). -/
def badZeroPoints (fa fw : Fmt) (zaRow zwRow : List Byte) : Bool :=
  (List.range 64).any fun i =>
    let za := int32At zaRow i
    let zw := int32At (zwRow.drop 256) i
    decide (za < fa.qmin ∨ fa.qmax < za ∨ zw < fw.qmin ∨ fw.qmax < zw)

/-! ### The checks of the array (R176 to R178) -/

/-- The first row below `rows` that fails a test. -/
def firstRow (rows : Nat) (fails : Nat → Bool) : Option Nat := (List.range rows).find? fails

/-- The integer checksum (R176): whether row `m` of A fails against the product sums `d`. The sums that the array forms are the
exact ones unless `faults` names others. -/
def intCheck (fa fw : Fmt) (a w : List (List (List Nat))) (d : Nat → Nat → Int) (m : Nat) : Bool :=
  let ws := w.map fun n => (n.flatten).map fw.intValue
  let qa := ((a.getD m []).flatten).map fa.intValue
  let wc := (List.range qa.length).map fun k => (ws.map fun n => n.getD k 0).sum
  let c := ((qa.zip wc).map fun p => p.1 * p.2).sum
  ((List.range w.length).map (d m)).sum != c

/-- Words summed in ascending order of columns: K-rows of the checksum column (R177). -/
def columnSums (w : List (List (List Nat))) : List (List Nat) :=
  w.foldl (fun acc n => (List.range n.length).map fun kr =>
    (List.range (n.getD kr []).length).map fun k => fadd (nthD (acc.getD kr []) k) (nthD (n.getD kr []) k)) []

/-- The floating checksum (R177): whether row `m` fails, by its words `a`, the words `w` of the columns, and the block sums
`sums` that the array formed. -/
def fpCheck (kCmd : Nat) (a : List (List (List Nat))) (w : List (List (List Nat))) (sums : Nat → Nat → List Fp) (m : Nat) : Bool :=
  let mag := fun (l : List (List Nat)) => l.map fun r => r.map (· % 2 ^ 31)
  let row := a.getD m []
  let c := f32 (sumOnto (0, 0) (blockSums row (columnSums w))).1
  let g := f32 (sumOnto (0, 0) (blockSums (mag row) (columnSums (w.map mag)))).1
  let s := f32 (((List.range w.length).flatMap (sums m)).foldl (fun x b => fadd x b.1) 0)
  s.isFinite && c.isFinite && g.isFinite
    && FVal.lt (FVal.mul (FVal.ofFrac (kCmd + 96 : Nat) (2 ^ 23)) g) (FVal.add s c.neg).abs

/-- The first row of a wrong addition that the residue modulo 3 shows (R178). -/
def residueRow (adder : List (Nat × Nat × Int)) : Option Nat :=
  firstRow 64 fun m => adder.any fun x => x.1 == m && x.2.2 % 3 != 0

/-- What the wrong additions make of cell (m, n). -/
def adderError (adder : List (Nat × Nat × Int)) (m n : Nat) : Int :=
  ((adder.filter fun x => x.1 == m && x.2.1 == n).map (·.2.2)).sum

/-- The result with the flags of the array's checks: the first failing row of each (R179). -/
def mxFault (check residue : Option Nat) (r : Result) : Result :=
  match check, residue with
  | none, none => r
  | some m, none => { r with flags := withFlag r.flags flMxCheck, detail := m }
  | none, some m => { r with flags := withFlag r.flags flMxResidue, detail := m }
  | some m, some n => { r with flags := withFlag (withFlag r.flags flMxCheck) flMxResidue, detail := Nat.min m n }

/-! ### MATMUL -/

/-- The ZW and ZA rows of a MATMUL. -/
def State.zeroRows (s : State) (c : Cmd) : List Byte × List Byte :=
  (s.opRow (c.ops.getD 2 {}) (c.ops.getD 2 {}).off, s.opRow (c.ops.getD 3 {}) (c.ops.getD 3 {}).off)

/-- MATMUL's start check of its zero points (R174, R353). -/
def zeroPointCheck : StartCheck :=
  { ops := fun c => if c.desc.param 40 1 = 1 then [2, 3] else []
    fails := fun s c =>
      match fmtOf (c.ops.getD 0 {}).fmt, fmtOf (c.ops.getD 1 {}).fmt with
      | some fa, some fw =>
        let z := s.zeroRows c
        if c.desc.param 40 1 == 1 && badZeroPoints fa fw z.2 z.1 then some { flags := oneFlag flDescCheck, code := 0x61, logs := true }
        else none
      | _, _ => none }

/-- The result of a MATMUL in an integer format: `a` and `w` are the codes by row and by column, `old` the tile before. The
array's product sums are exact but where `hw` says otherwise. -/
def intMatmul (hw : Hw) (s : State) (c : Cmd) (fa fw : Fmt) (e : Nat) (a w : List (List (List Nat))) (old : List (List Byte)) : Result :=
  let d := c.desc
  let fresh := decide (d.param 3 3 ≤ 2)
  let mC := d.param 10 7
  let nC := d.param 17 7
  let side := old.getD 32 []
  let sum0 := fun m => if fresh then 0 else int32At side m
  let k0 := if fresh then 0 else leAt side 256 4
  let zp := d.param 40 1 == 1
  let z := s.zeroRows c
  let rowSum := fun m => sum0 m + (if m < mC then ((a.getD m []).map fun r => (r.map fa.intValue).sum).sum else 0)
  let kCount := k0 + matK d e
  let dot := fun m n =>
    match hw.mac.find? fun x => x.1 == m && x.2.1 == n with
    | some x => x.2.2.2
    | none => intDot fa fw (a.getD m []) (w.getD n [])
  let exact := fun m n =>
    signedOf 32 (if fresh then 0 else tileWord old m n)
      + (if m < mC ∧ n < nC then dot m n else 0)
      + (if zp ∧ m < mC ∧ n < nC then
           zpCorr (rowSum m) kCount (int32At z.2 m) (int32At (z.1.drop 256) n) (int32At z.1 n) + adderError hw.adder m n else 0)
  let sats := ((List.range 64).flatMap fun m => (List.range 64).filter fun n => (sat32 (exact m n)).2).length
  mxFault (if hw.mac = [] then none else firstRow mC (intCheck fa fw a w dot)) (if zp then residueRow hw.adder else none)
    { flags := flagIf (decide (0 < sats)) flAccSat 0
      tile := some (mxTileKey c, packTile (fun m n => unsignedOf 32 (sat32 (exact m n)).1) rowSum kCount)
      counters := if sats = 0 then [] else [(4, sats)] }

/-- The result of a MATMUL in a floating format, which leaves the side row of a CONT or CLOSE as it was (R165). -/
def fpMatmul (hw : Hw) (c : Cmd) (fa fw : Fmt) (e : Nat) (a w : List (List (List Nat))) (old : List (List Byte)) : Result :=
  let d := c.desc
  let fresh := decide (d.param 3 3 ≤ 2)
  let mC := d.param 10 7
  let nC := d.param 17 7
  let aw := a.map fun m => m.map (toF32s fa)
  let ww := w.map fun n => n.map (toF32s fw)
  let sums := fun m n =>
    (hw.mac.filter fun x => x.1 == m && x.2.1 == n).foldl (fun (l : List Fp) x => l.set x.2.2.1 (unsignedOf 32 x.2.2.2, 0))
      (blockSums (aw.getD m []) (ww.getD n []))
  let oldWord := fun m n => if fresh then 0 else tileWord old m n
  let cell := fun m n => if m < mC ∧ n < nC then sumOnto (oldWord m n, 0) (sums m n) else (oldWord m n, 0)
  let word := fun m n => unsignedOf 32 ((cell m n).1 + adderError hw.adder m n)
  let flags := ((List.range 64).flatMap fun m => (List.range 64).map fun n => (cell m n).2).foldl Nat.lor 0
  let side := old.getD 32 []
  mxFault (if hw.mac = [] then none else firstRow mC (fpCheck (matK d e) aw ww sums)) (residueRow hw.adder)
    { flags := flags
      tile := some (mxTileKey c, packTile word (fun m => if fresh then 0 else int32At side m) (if fresh then 0 else leAt side 256 4)) }

/-- MATMUL's datapath (R160 to R174). -/
def matmulData (hw : Hw) (s : State) (c : Cmd) : Result :=
  let d := c.desc
  match fmtOf (c.ops.getD 0 {}).fmt, fmtOf (c.ops.getD 1 {}).fmt, matFormats (c.ops.getD 0 {}).fmt (c.ops.getD 1 {}).fmt with
  | some fa, some fw, some (e, half) =>
    let old := s.tileRows (mxTileKey c)
    let a := (List.range (d.param 10 7)).map fun m => s.matA c fa e m
    let w := (List.range (d.param 17 7)).map fun n => s.matW c fw half e n
    if fa.isInt then intMatmul hw s c fa fw e a w old else fpMatmul hw c fa fw e a w old
  | _, _, _ => { flags := oneFlag flDescCheck, code := 0x60, logs := true }

/-- The tile that a MATMUL reads: that of a CONT or CLOSE (R165). -/
def matmulTiles (c : Cmd) : List (Nat × List Nat) := if 3 ≤ c.desc.param 3 3 then [(mxTileKey c, List.range 33)] else []

/-- What a MATMUL reads and computes. -/
def matmulPath (hw : Hw) : Datapath :=
  { op := 0x10, checks := [zeroPointCheck], tiles := matmulTiles, data := matmulData hw }

/-- MATMUL (R160 to R180). -/
def execMatmul (eng : Eng) (hw : Hw) (s : State) : Out := .next (s.runPath eng.toNat hw (matmulPath hw))

/-! ### TILE_STORE -/

/-- TILE_STORE's datapath: the 32 data rows, and the side row last when SIDE is 1 (R181). -/
def tileStoreData (s : State) (c : Cmd) : Result :=
  let o := c.ops.getD 0 {}
  { rows := (List.range (32 + c.desc.param 3 1)).map fun r => (0, o.off + r, s.tileRow (mxTileKey c) r) }

/-- What a TILE_STORE reads and computes. -/
def tileStorePath : Datapath :=
  { op := 0x11, tiles := fun c => [(mxTileKey c, List.range (32 + c.desc.param 3 1))], data := tileStoreData }

/-- TILE_STORE (R181). -/
def execTileStore (eng : Eng) (hw : Hw) (s : State) : Out := .next (s.runPath eng.toNat hw tileStorePath)

end Sys2Proof.Machine
end

