-- ==== Sys2Proof/Machine/Transcend.lean ====
section
/-! DEFINITION. The correctly rounded functions of R221: each is computed in fixed point with 320 fractional bits and then
rounded once to binary32. -/

namespace Sys2Proof.Machine

/-- Fractional bits of the fixed point. -/
def fxBits : Nat := 320

/-- A fixed-point word as an exact value, half a unit above it: a result that is no binary fraction is never exact. -/
def fxSticky (neg : Bool) (m : Nat) : FVal := .fin neg (2 * m + 1) (2 ^ (fxBits + 1))

/-- Sum of z^(2i+1) / (2i+1), from term `i`: half the logarithm of (1 + z) / (1 - z). -/
def fxAtanhLoop (zz : Nat) : Nat → Nat → Nat → Nat → Nat
  | 0, _, _, acc => acc
  | n + 1, i, p, acc => fxAtanhLoop zz n (i + 1) (p * zz / 2 ^ fxBits) (acc + p / (2 * i + 1))

/-- atanh of a fixed-point word of at most 1/3. -/
def fxAtanh (z : Nat) : Nat := fxAtanhLoop (z * z / 2 ^ fxBits) 110 0 z 0

/-- The natural logarithm of 2. -/
def fxLn2 : Nat := 2 * fxAtanh (2 ^ fxBits / 3)

/-- Sum of r^i / i!, from term `i`. -/
def fxExpLoop (r : Nat) : Nat → Nat → Nat → Nat → Nat
  | 0, _, _, acc => acc
  | n + 1, i, t, acc => fxExpLoop r n (i + 1) (t * r / (2 ^ fxBits * i)) (acc + t)

/-- e^r of a fixed-point word below 1. -/
def fxExp (r : Nat) : Nat := fxExpLoop r 80 1 (2 ^ fxBits) 0

/-- A finite value in fixed point, rounded down. -/
def fxOf (v : FVal) : Int := (v.num * (2 ^ fxBits : Nat)) / (v.den : Int)

/-- m * 2^(k - fxBits), half a unit above. -/
def fxScaled (m : Nat) (k : Int) : FVal :=
  if 0 ≤ k then .fin false ((2 * m + 1) * 2 ^ k.toNat) (2 ^ (fxBits + 1))
  else .fin false (2 * m + 1) (2 ^ (fxBits + 1 + (-k).toNat))

/-- e^x of a finite value whose magnitude is below 256. -/
def fxExpVal (v : FVal) : FVal :=
  let x := fxOf v
  let k := x / (fxLn2 : Int)
  fxScaled (fxExp (x % (fxLn2 : Int)).toNat) k

/-- Whether a finite value's magnitude is at least `n`. -/
def magAtLeast (v : FVal) (n : Nat) : Bool := match v with
  | .fin _ a d => decide (n * d ≤ a)
  | .nan => false
  | .inf _ => true

/-- EXP2 (R221). -/
def exp2Val (v : FVal) : FVal :=
  match v with
  | .nan => .nan
  | .inf s => if s then .zero else .inf false
  | .fin s n d =>
    if n = 0 then .one
    else if magAtLeast v 1024 then (if s then .fin false 1 (2 ^ 1024) else .fin false (2 ^ 1024) 1)
    else
      let x := fxOf (.fin s n d)
      let k := x / (2 ^ fxBits : Nat)
      let f := (x % ((2 ^ fxBits : Nat) : Int)).toNat
      if f = 0 then (if 0 ≤ k then .fin false (2 ^ k.toNat) 1 else .fin false 1 (2 ^ (-k).toNat))
      else fxScaled (fxExp (f * fxLn2 / 2 ^ fxBits)) k

/-- LOG2 (R221). -/
def log2Val (v : FVal) : FVal :=
  match v with
  | .nan => .nan
  | .inf s => if s then .nan else .inf false
  | .fin s n d =>
    if n = 0 then .inf true
    else if s then .nan
    else
      let k := floorLog2 n d
      let g := dyadic 1 k
      let num := n * g.2
      let den := d * g.1
      if num = den then FVal.ofInt k
      else
        let z := (num - den) * 2 ^ fxBits / (num + den)
        let l := 2 * fxAtanh z * 2 ^ fxBits / fxLn2
        let t : Int := k * (2 ^ fxBits : Nat) + l
        .fin (decide (t < 0)) (2 * t + 1).natAbs (2 ^ (fxBits + 1))

/-- RCP (R221): exact. -/
def rcpVal (v : FVal) : FVal := FVal.div .one v

/-- One bit of a square root, from the top: bit `2^n` is kept when the square stays within `x`. -/
def isqrtLoop (x : Nat) : Nat → Nat → Nat
  | 0, r => r
  | n + 1, r => isqrtLoop x n (if (r + 2 ^ n) * (r + 2 ^ n) ≤ x then r + 2 ^ n else r)

/-- The whole part of a square root. -/
def isqrt (x : Nat) : Nat := isqrtLoop x (Nat.log2 x / 2 + 1) 0

/-- RSQRT (R221): the root of the inverse, with a half unit when it is not exact. -/
def rsqrtVal (v : FVal) : FVal :=
  match v with
  | .nan => .nan
  | .inf s => if s then .nan else .zero
  | .fin s n d =>
    if n = 0 then .inf s
    else if s then .nan
    else
      let x := d * 2 ^ (2 * fxBits) / n
      let r := isqrt x
      if r * r * n = d * 2 ^ (2 * fxBits) then .fin false r (2 ^ fxBits) else .fin false (2 * r + 1) (2 ^ (fxBits + 1))

/-- TANH (R221): (e^2|x| - 1) / (e^2|x| + 1) with the sign of x; below 2^-40 it is less than x by less than a unit. -/
def tanhVal (v : FVal) : FVal :=
  match v with
  | .nan => .nan
  | .inf s => .fin s 1 1
  | .fin s n d =>
    if n = 0 then .fin s 0 1
    else if n * 2 ^ 40 < d then .fin s (n * (2 ^ 60 - 1)) (d * 2 ^ 60)
    else if magAtLeast v 64 then .fin s (2 ^ 60 - 1) (2 ^ 60)
    else
      match fxExpVal (.fin false (2 * n) d) with
      | .fin _ a b => .fin s (a - b) (a + b)
      | .nan => .nan
      | .inf _ => .fin s 1 1

/-- SIGMOID (R221): e^x / (1 + e^x). -/
def sigmoidVal (v : FVal) : FVal :=
  match v with
  | .nan => .nan
  | .inf s => if s then .zero else .one
  | .fin s n _ =>
    if n = 0 then .fin false 1 2
    else if magAtLeast v 250 then (if s then .fin false 1 (2 ^ 300) else .fin false (2 ^ 60 - 1) (2 ^ 60))
    else
      match fxExpVal v with
      | .fin _ a b => .fin false a (a + b)
      | .nan => .nan
      | .inf _ => .one

/-- Whether a result is tiny and inexact after rounding (R228): below 2^-126 when rounded to 24 bits without a limit on
the exponent, and not what the word holds. -/
def tinyInexact (v : FVal) : Bool :=
  match v with
  | .fin _ n d => decide (0 < n ∧ n * 2 ^ 151 < d * (2 ^ 25 - 1)) && !(FVal.eqv (f32 (toF32 v)) v)
  | .nan => false
  | .inf _ => false

/-- A binary32 result of an operation with the flags of R220 and R228. -/
def vxFp (nanIn : Bool) (v : FVal) : Fp := (toF32 v, flagIf (tinyInexact v) flFpUnderflow (fpFlags nanIn v))

end Sys2Proof.Machine
end

