-- ==== Sys2Proof/Machine/Vector.lean ====
section
/-! DEFINITION. The vector engine: element programs and the soft maximum (chapter "Vector engines and element
programs"). -/

namespace Sys2Proof.Machine

/-! ### Programs (R216 to R219, R237) -/

/-- An operation word (R218). -/
structure VxOp where
  op : Nat
  a : Nat
  b : Nat
  c : Nat
  t : Bool
  qfmt : Nat
  reserved : Nat
  deriving DecidableEq, Repr

/-- Reads an operation word. -/
def VxOp.of (w : Nat) : VxOp := ⟨bits w 0 8, bits w 8 6, bits w 14 6, bits w 20 6, bitAt w 26, bits w 27 2, bits w 29 3⟩

/-- What an input of an operation must name. -/
inductive VxIn where
  | unused | value | scaleRec | reqRec | perm
  deriving DecidableEq, Repr

/-- Inputs of an operation code and the values of T that it allows: 0, 1 or either (2) (R219). -/
def vxShape (op : Nat) : Option (VxIn × VxIn × VxIn × Nat) :=
  if op = 0x04 then some (.value, .value, .value, 2)
  else if op = 0x05 ∨ op = 0x06 then some (.value, .unused, .unused, 2)
  else if 0x01 ≤ op ∧ op ≤ 0x0C then some (.value, .value, .unused, 2)
  else if op = 0x0D then some (.value, .value, .value, 1)
  else if op = 0x11 then some (.value, .unused, .unused, 1)
  else if 0x0E ≤ op ∧ op ≤ 0x13 then some (.value, .value, .unused, 1)
  else if op = 0x14 ∨ op = 0x15 then some (.value, .unused, .unused, 0)
  else if 0x20 ≤ op ∧ op ≤ 0x25 then some (.value, .unused, .unused, 0)
  else if op = 0x30 then some (.value, .unused, .unused, 0)
  else if op = 0x31 then some (.value, .unused, .unused, 1)
  else if op = 0x40 then some (.value, .scaleRec, .unused, 1)
  else if op = 0x41 then some (.value, .reqRec, .reqRec, 1)
  else if op = 0x42 then some (.value, .scaleRec, .unused, 0)
  else if op = 0x50 then some (.value, .perm, .unused, 1)
  else none

/-- Whether a reference names an element value: an earlier operation than `j`, a used source that is neither PERM nor of
a record format (a tile gives its own format, R211), an immediate, ELEM, ROW, ZERO, or TSUM beside a TILE source (R217, R237). -/
def vxValueRef (ops : List Operand) (j n : Nat) : Bool :=
  let o := fun k => ops.getD k {}
  if n < 32 then decide (n < j)
  else if n < 36 then (o (n - 32)).used && (o (n - 32)).kind != 4 && ((o (n - 32)).kind == 3 || decide ((o (n - 32)).fmt ≤ 9))
  else if n ≤ 42 then true
  else n == 43 && [0, 1, 2, 3].any fun k => (o k).used && (o k).kind == 3

/-- Whether a reference names a COLUMN or ROW source of a record format. -/
def vxRecRef (ops : List Operand) (fmt n : Nat) : Bool :=
  decide (32 ≤ n ∧ n < 36) && (let o := ops.getD (n - 32) {}
                               o.used && (o.kind == 1 || o.kind == 2) && o.fmt == fmt)

/-- Whether an input reference is allowed. -/
def vxInputOk (ops : List Operand) (j n : Nat) : VxIn → Bool
  | .unused => n == 63
  | .value => vxValueRef ops j n
  | .scaleRec => vxRecRef ops 10 n
  | .reqRec => n == 63 || vxRecRef ops 11 n
  | .perm => decide (32 ≤ n ∧ n < 36) && (ops.getD (n - 32) {}).used && (ops.getD (n - 32) {}).kind == 4

/-- Whether operation `j` is allowed. -/
def vxOpOk (ops : List Operand) (j : Nat) (x : VxOp) : Bool :=
  match vxShape x.op with
  | none => false
  | some (a, b, c, t) =>
    (t == 2 || b2n x.t == t) && x.reserved == 0 && vxInputOk ops j x.a a && vxInputOk ops j x.b b && vxInputOk ops j x.c c

/-- A program row (R216). -/
structure VxProg where
  ops : List VxOp
  out0 : Nat
  out1 : Nat
  summ : Nat
  pred : Nat
  stat : Nat
  summT : Bool
  statT : Bool
  deriving DecidableEq, Repr

/-- Reads a program row. -/
def VxProg.of (row : List Byte) : VxProg :=
  let f := fun i => leAt row (0x80 + i) 1
  { ops := (List.range (Nat.min 32 (f 0))).map fun j => VxOp.of (leAt row (4 * j) 4)
    out0 := f 1, out1 := f 2, summ := f 3, pred := f 4, stat := f 5, summT := bitAt (f 6) 0, statT := bitAt (f 6) 1 }

/-- Whether the engine takes a program row (R237): else PROG_INVALID. -/
def vxProgOk (row : List Byte) (ops : List Operand) : Bool :=
  let p := VxProg.of row
  let n := leAt row 0x80 1
  let opt := fun r => r == 63 || vxValueRef ops n r
  within 1 32 n
    && ((List.range n).all fun j => vxOpOk ops j (p.ops.getD j ⟨0, 0, 0, 0, false, 0, 0⟩))
    && vxValueRef ops n p.out0 && opt p.out1 && !(p.out1 == 63 && (ops.getD 5 {}).used)
    && opt p.summ && opt p.pred && opt p.stat
    && bits (leAt row 0x86 1) 2 6 == 0
    && ((row.drop (4 * n)).take (128 - 4 * n)).all (· == 0) && (row.drop 0x87).all (· == 0)

/-! ### Plain operations (R219 to R221) -/

/-- An INT32 result, saturated (R220). -/
def vxSat (x : Int) : Fp :=
  let r := sat32 x
  (unsignedOf 32 r.1, flagIf r.2 flIntSat 0)

/-- Less than among binary32 values with -0.0 below +0.0. -/
def fpBelow (a b : Nat) : Bool := flt a b || ((f32 a).isZero && (f32 b).isZero && (f32 a).sign && !(f32 b).sign)

/-- The operations of INT32 values (T = 1). F2I converts to an integer format, so its saturation is also one of R193. -/
def vxInt (op a b c : Nat) : Fp :=
  let x := signedOf 32 a
  let y := signedOf 32 b
  let z := signedOf 32 c
  let yes := fun (p : Bool) => ((b2n p, 0) : Fp)
  match op with
  | 0x01 => vxSat (x + y)
  | 0x02 => vxSat (x - y)
  | 0x03 => vxSat (x * y)
  | 0x04 => vxSat (x * y + z)
  | 0x05 => vxSat (-x)
  | 0x06 => vxSat x.natAbs
  | 0x07 => (if y < x then b else a, 0)
  | 0x08 => (if x < y then b else a, 0)
  | 0x09 => yes (x == y)
  | 0x0A => yes (x != y)
  | 0x0B => yes (decide (x < y))
  | 0x0C => yes (decide (x ≤ y))
  | 0x0D => (if a = 0 then c else b, 0)
  | 0x0E => (Nat.land a b, 0)
  | 0x0F => (Nat.lor a b, 0)
  | 0x10 => (Nat.xor a b, 0)
  | 0x11 => (2 ^ 32 - 1 - a, 0)
  | 0x12 => (if 32 ≤ b then 0 else a * 2 ^ b % 2 ^ 32, 0)
  | 0x13 => (unsignedOf 32 (x / (2 ^ Nat.min b 32 : Nat)), 0)
  | _ =>
    let r := toIntFmt .int32 (f32 a)
    (r.1, flagIf r.2.saturated flIntSat (flagIf r.2.saturated flQuantSat (flagIf r.2.nonfinite flNonfinite 0)))

/-- The operations of binary32 values (T = 0). -/
def vxFloat (op a b c : Nat) : Fp :=
  let va := f32 a
  let vb := f32 b
  let nn := va.isNaN || vb.isNaN
  let yes := fun (p : Bool) => ((b2n p, 0) : Fp)
  let sum := vxFp nn (FVal.add va vb)
  let prod := vxFp nn (FVal.mul va vb)
  match op with
  | 0x01 => sum
  | 0x02 => vxFp nn (FVal.add va vb.neg)
  | 0x03 => prod
  | 0x04 =>
    let r := vxFp ((f32 prod.1).isNaN || (f32 c).isNaN) (FVal.add (f32 prod.1) (f32 c))
    (r.1, Nat.lor prod.2 r.2)
  | 0x05 => (toF32 va.neg, 0)
  | 0x06 => (toF32 va.abs, 0)
  | 0x07 => (if nn then toF32 .nan else if fpBelow b a then b else a, 0)
  | 0x08 => (if nn then toF32 .nan else if fpBelow a b then b else a, 0)
  | 0x09 => yes (FVal.eqv va vb)
  | 0x0A => yes (!FVal.eqv va vb)
  | 0x0B => yes (FVal.lt va vb)
  | 0x0C => yes (FVal.le va vb)
  | 0x14 => yes va.isNaN
  | 0x15 => yes (!va.isNaN && !va.isFinite)
  | 0x20 => vxFp va.isNaN (exp2Val va)
  | 0x21 =>
    let r := vxFp va.isNaN (log2Val va)
    (r.1, flagIf va.isZero flFpDivzero r.2)
  | 0x22 =>
    let r := vxFp va.isNaN (rcpVal va)
    (r.1, flagIf va.isZero flFpDivzero r.2)
  | 0x23 =>
    let r := vxFp va.isNaN (rsqrtVal va)
    (r.1, flagIf va.isZero flFpDivzero r.2)
  | 0x24 => vxFp va.isNaN (tanhVal va)
  | 0x25 => vxFp va.isNaN (sigmoidVal va)
  | _ => (f32OfInt (signedOf 32 a), 0)

/-! ### Sources (R211 to R214) -/

/-- The format of an operand, FP32 where its code names none. -/
def Operand.format (o : Operand) : Fmt := (fmtOf o.fmt).getD .fp32

/-- The 32-bit pattern that a loaded code becomes (R214). -/
def vxLoad (f : Fmt) (code : Nat) : Nat :=
  match f.float? with
  | some g => toF32 (g.decode code)
  | none => unsignedOf 32 (f.intValue code)

/-- The code of element (r, e) of a tensor (R212). -/
def State.elemCode (s : State) (o : Operand) (elems r e : Nat) : Nat :=
  let f := o.format
  if o.stride = 0 then
    let i := r * elems + e
    f.elemAt (s.opRow o (o.off + i / f.perRow)) (i % f.perRow)
  else f.elemAt (s.opRow o (o.off + r * o.stride + e / f.perRow)) (e % f.perRow)

/-- Element `i` of a vector packed from the operand's first row. -/
def State.vecCode (s : State) (o : Operand) (i : Nat) : Nat :=
  o.format.elemAt (s.opRow o (o.off + i / o.format.perRow)) (i % o.format.perRow)

/-- Record `i` of `n` bytes packed from the operand's first row. -/
def State.vecRec (s : State) (o : Operand) (n i : Nat) : List Byte :=
  slice (s.opRow o (o.off + i * n / 512)) (i * n % 512) n

/-- The tiles that a command's TILE sources name (R213). -/
def vxTileKeys (c : Cmd) : List Nat :=
  dedup (([0, 1, 2, 3].filter fun k => (c.ops.getD k {}).used && (c.ops.getD k {}).kind == 3).map fun k =>
    vxTileKey c.desc.engine (c.ops.getD k {}))

/-- The tile whose row sums TSUM returns, none without a TILE source (R217). -/
def vxTile? (c : Cmd) : Option Nat := (vxTileKeys c).head?

/-- The value of source `k` for lane (r, e). A tile's word is FP32 or INT32 as the tile has it, and passes as it is (R211). -/
def State.vxSource (s : State) (c : Cmd) (k r e : Nat) : Nat :=
  let o := c.ops.getD k {}
  match o.kind with
  | 0 => vxLoad o.format (s.elemCode o (c.desc.param 17 17) r e)
  | 1 => vxLoad o.format (s.vecCode o e)
  | 2 => vxLoad o.format (s.vecCode o r)
  | _ => tileWord (s.tileRows (vxTileKey c.desc.engine o)) r e

/-- The value of a reference for lane (r, e), over the results so far (R217). -/
def State.vxRef (s : State) (c : Cmd) (r e : Nat) (vals : List Nat) (n : Nat) : Nat :=
  if n < 32 then nthD vals n
  else if n < 36 then s.vxSource c (n - 32) r e
  else if n < 40 then bits (c.desc.word (4 + (n - 36) / 2)) (32 * ((n - 36) % 2)) 32
  else if n = 40 then e
  else if n = 41 then r
  else if n = 43 then
    (match vxTile? c with
     | some k => leAt (s.tileRow k 32) (4 * r) 4
     | none => 0)
  else 0

/-- The index of a record that a COLUMN or ROW source gives to lane (r, e) (R222). -/
def recIndex (o : Operand) (r e : Nat) : Nat := if o.kind = 1 then e else r

/-- Requantisation record that a reference names for lane (r, e), none for NONE. -/
def State.vxReqRec (s : State) (c : Cmd) (n r e : Nat) : Option RequantRec :=
  if n = 63 then none
  else
    let o := c.ops.getD (n - 32) {}
    some (RequantRec.ofBytes (s.vecRec o 8 (recIndex o r e)))

/-- Scale record that a reference names for lane (r, e). -/
def State.vxScaleRec (s : State) (c : Cmd) (n r e : Nat) : ScaleRec :=
  let o := c.ops.getD (n - 32) {}
  ScaleRec.ofBytes (s.vecRec o 16 (recIndex o r e))

/-- The code format of QFMT (R218). -/
def qfmtOf (q : Nat) : Fmt := (fmtOf q).getD .int4

/-! ### Lanes -/

/-- What a lane holds while its operations run. -/
structure VxLane where
  vals : List Nat := []
  flags : Nat := 0
  /-- codes that saturated (R193) -/
  sats : Nat := 0
  /-- QUANT met a NaN (R191) -/
  nan : Bool := false
  /-- an index of PERM lay out of range (R225) -/
  oor : Bool := false
  deriving DecidableEq, Repr

/-- One operation of a lane. -/
def State.vxStep (s : State) (c : Cmd) (r e : Nat) (l : VxLane) (x : VxOp) : VxLane :=
  let ref := fun n => s.vxRef c r e l.vals n
  let add := fun (v : Fp) => { l with vals := l.vals ++ [v.1], flags := Nat.lor l.flags v.2 }
  match x.op with
  | 0x40 =>
    let q := quantise (qfmtOf x.qfmt) (s.vxScaleRec c x.b r e) (ref x.a)
    let f := flagIf q.2.saturated flQuantSat (flagIf q.2.nonfinite flNonfinite 0)
    { add (vxLoad (qfmtOf x.qfmt) q.1, f) with sats := l.sats + b2n q.2.saturated, nan := l.nan || q.2.nonfinite }
  | 0x41 =>
    let q := requantise (qfmtOf x.qfmt) (s.vxReqRec c x.b r e) (s.vxReqRec c x.c r e) (signedOf 32 (ref x.a))
    { add (vxLoad (qfmtOf x.qfmt) q.1, flagIf (decide (0 < q.2)) flQuantSat 0) with sats := l.sats + q.2 }
  | 0x42 =>
    let k := s.vxScaleRec c x.b r e
    let v := FVal.mul (f32 (f32OfInt (signedOf 32 (ref x.a) - k.zp))) (f32 k.scale)
    add (vxFp false v)
  | 0x50 =>
    let i := ref x.a
    let elems := c.desc.param 17 17
    let o := c.ops.getD (x.b - 32) {}
    if elems ≤ i then { add (0, 0) with oor := true }
    else add (vxLoad o.format (s.elemCode o elems r i), 0)
  | _ =>
    if x.t then
      let v := vxInt x.op (ref x.a) (ref x.b) (ref x.c)
      { add v with sats := l.sats + b2n (bitAt v.2 flQuantSat) }
    else add (vxFloat x.op (ref x.a) (ref x.b) (ref x.c))

/-- A lane after every operation. -/
def State.vxLane (s : State) (c : Cmd) (p : VxProg) (r e : Nat) : VxLane := p.ops.foldl (s.vxStep c r e) {}

/-- Bit e of row r of a mask operand, true without one (R223). -/
def State.maskBit (s : State) (o : Operand) (r e : Nat) : Bool :=
  !o.used || bitAt (leAt (s.opRow o (o.off + r * o.stride + e / 4096)) (e % 4096 / 8) 1) (e % 8)

/-- A value stored in a destination's format, with flags and whether it saturated a code (R214). -/
def vxStore (f : Fmt) (w : Nat) : Nat × Nat × Bool :=
  let r := if f.isInt then convert .int32 f w else convert .fp32 f w
  (r.1, flagIf r.2.overflow flFpOverflow (flagIf r.2.fp8Sat flFp8Sat (flagIf r.2.saturated flQuantSat 0)), r.2.saturated)

/-- What one lane yields: whether it is active, the codes of D0 and D1, its flags, and the values that summary,
predicate and statistics take. -/
structure VxOut where
  active : Bool
  d0 : Nat
  d1 : Nat
  flags : Nat
  sats : Nat
  nan : Bool
  oor : Bool
  summ : Nat
  pred : Nat
  stat : Nat
  deriving DecidableEq, Repr

/-- Lane (r, e) of a command (R223, R224). -/
def State.vxOut (s : State) (c : Cmd) (p : VxProg) (r e : Nat) : VxOut :=
  let o := fun k => c.ops.getD k {}
  let l := s.vxLane c p r e
  let ref := fun n => s.vxRef c r e l.vals n
  let act := s.maskBit (o 7) r e
  let pass := fun k => if (o k).xflag then s.elemCode (o 0) (c.desc.param 17 17) r e else 0
  let s0 := vxStore (o 4).format (ref p.out0)
  let s1 := if (o 5).used then vxStore (o 5).format (ref p.out1) else (0, 0, false)
  if act then
    { active := true, d0 := s0.1, d1 := s1.1
      flags := Nat.lor (flagIf l.oor flPermOor l.flags) (Nat.lor s0.2.1 s1.2.1), sats := l.sats + b2n s0.2.2 + b2n s1.2.2, nan := l.nan
      oor := l.oor, summ := ref p.summ, pred := ref p.pred, stat := ref p.stat }
  else { active := false, d0 := pass 4, d1 := pass 5, flags := 0, sats := 0, nan := false, oor := false, summ := 0, pred := 0, stat := 0 }

/-- Lanes of a group (R214): by the largest element among ELEMENT sources and destinations, 128 with a TILE. -/
def vxGroup (c : Cmd) : Nat :=
  let o := fun k => c.ops.getD k {}
  if (vxTile? c).isSome then 128
  else
    let ks := ([0, 1, 2, 3].filter fun k => (o k).used && (o k).kind == 0) ++ [4, 5].filter fun k => (o k).used
    512 / ((ks.map fun k => Nat.max 1 ((o k).format.width / 8)).foldl Nat.max 1)

/-- The flattened index at which the group of a flattened index begins: no group spans two logical rows, but a TILE
command's takes two tile rows. -/
def vxGroupStart (c : Cmd) (i : Nat) : Nat :=
  let elems := c.desc.param 17 17
  if (vxTile? c).isSome then i / 128 * 128 else i / elems * elems + i % elems / vxGroup c * vxGroup c

/-! ### Results -/

/-- The rows of a tensor of codes: operand, row offset, bytes, and the flattened index past the row's last element. -/
def tensorRows (op : Nat) (o : Operand) (rows elems : Nat) (code : Nat → Nat) : List (Nat × Nat × List Byte × Nat) :=
  let f := o.format
  let per := f.perRow
  if o.stride = 0 then
    (List.range ((rows * elems + per - 1) / per)).map fun j =>
      let last := Nat.min (rows * elems) ((j + 1) * per)
      (op, o.off + j, f.pack ((List.range (last - j * per)).map fun i => code (j * per + i)), last)
  else
    (List.range rows).flatMap fun r => (List.range ((elems + per - 1) / per)).map fun j =>
      let last := Nat.min elems ((j + 1) * per)
      (op, o.off + r * o.stride + j, f.pack ((List.range (last - j * per)).map fun i => code (r * elems + j * per + i)),
       r * elems + last)

/-- Rows of records packed from an operand's first row. -/
def recordRows (op : Nat) (o : Operand) (perRow : Nat) (recs : List (List Byte)) : List (Nat × Nat × List Byte) :=
  (List.range ((recs.length + perRow - 1) / perRow)).map fun j =>
    (op, o.off + j, ((recs.drop (j * perRow)).take perRow).flatMap id)

/-- The statistics record of a lane of R229. -/
def vxIndex (c : Cmd) (r e : Nat) : Nat :=
  let o := c.ops.getD 8 {}
  let elems := c.desc.param 17 17
  if o.kind = 1 then r / (o.stride + 1) * elems + e else r / (o.stride + 1)

/-- How many records STAT and SAT hold. -/
def vxRecords (c : Cmd) : Nat :=
  let o := c.ops.getD 8 {}
  (c.desc.param 0 17 + o.stride) / (o.stride + 1) * (if o.kind = 1 then c.desc.param 17 17 else 1)

/-- A statistics record with one more lane: the lane's value, and the NaN that a QUANT of it met, counted once (R191, R229). -/
def StatRec.addLane (isInt : Bool) (o : VxOut) (a : StatRec) : StatRec :=
  let b := if isInt then a.addInt (signedOf 32 o.stat) else a.addF32 o.stat
  if o.nan && (isInt || (f32 o.stat).isFinite) then b.addNonfinite else b

/-- The statistics rows (R229). -/
def State.vxStatRows (s : State) (c : Cmd) (p : VxProg) (outs : List VxOut) : List (Nat × Nat × List Byte) :=
  let o := c.ops.getD 8 {}
  let elems := c.desc.param 17 17
  if !o.used ∨ p.stat = 63 then []
  else
    recordRows 8 o 32 ((List.range (vxRecords c)).map fun i =>
      let lanes := (List.range outs.length).filter fun n =>
        vxIndex c (n / elems) (n % elems) == i && ((outs[n]?).map (·.active)).getD false
      let mine := lanes.foldl (fun (a : StatRec) n =>
        match outs[n]? with
        | some o => a.addLane p.statT o
        | none => a) {}
      let held := s.vecRec o 16 i
      if o.xflag then
        (if lanes.isEmpty then held else (StatRec.combine (!p.statT) (StatRec.ofBytes (!p.statT) held) mine).toBytes)
      else mine.toBytes)

/-- The rows of the saturation report: the counts held, with this command's added (R193, R229). -/
def State.vxSatRows (s : State) (c : Cmd) (outs : List VxOut) : List (Nat × Nat × List Byte) :=
  let o := c.ops.getD 9 {}
  let elems := c.desc.param 17 17
  if !o.used then []
  else
    recordRows 9 o 128 ((List.range (vxRecords c)).map fun i =>
      let n := ((List.range outs.length).map fun n =>
        if vxIndex c (n / elems) (n % elems) = i then ((outs[n]?).map (·.sats)).getD 0 else 0).sum
      leBytes 4 (Nat.min (2 ^ 32 - 1) (leNat (s.vecRec o 4 i) + n)))

/-- Blocks of 32 by flattened index, each summed by the tree of R171, added one after another from +0.0 (R231). -/
def blockSum (l : List Nat) : Nat := (tree32 (l.map fun w => (w, 0))).1

/-- The summary record of R230 and R231: four words. -/
def vxSummary (p : VxProg) (outs : List VxOut) (trap : Nat) : List Nat :=
  let idx := List.range outs.length
  let at_ := fun n => ((outs[n]?).map (·.summ)).getD 0
  let act := fun n => ((outs[n]?).map (·.active)).getD false
  let nan := fun n => !p.summT && (f32 (at_ n)).isNaN
  let q := if p.summ = 63 then [] else idx.filter fun n => act n && !nan n
  let below := fun a b => if p.summT then decide (signedOf 32 a < signedOf 32 b) else fpBelow a b
  let best := q.foldl (fun (m : Option Nat) n => match m with
    | none => some n
    | some k => if below (at_ k) (at_ n) then some n else some k) none
  let least := q.foldl (fun (m : Option Nat) n => match m with
    | none => some n
    | some k => if below (at_ n) (at_ k) then some n else some k) none
  let mx := match best with
    | some n => at_ n
    | none => if p.summT then 0x80000000 else 0xFF800000
  let mn := match least with
    | some n => at_ n
    | none => if p.summT then 0x7FFFFFFF else 0x7F800000
  let sum := if p.summT then unsignedOf 64 (q.map fun n => signedOf 32 (at_ n)).sum
             else if q.isEmpty then 0 else blockSum (idx.map fun n => if q.contains n then at_ n else 0)
  let count := if p.pred = 63 then 0 else (idx.filter fun n => act n && ((outs[n]?).map (·.pred)).getD 0 != 0).length
  let seen := p.summ != 63 && idx.any fun n => act n && nan n
  let sflags := b2n (0 < count) + 2 * b2n seen + 4 * b2n q.isEmpty
  [mx + 2 ^ 32 * mn, sum, best.getD 0xFFFFFFFF + 2 ^ 32 * count, sflags + 2 ^ 32 * trap]

/-- The sources of a record format that a command names: SCALE_REC 10, REQ_REC 11 (R211). -/
def vxRecSources (c : Cmd) (fmt : Nat) : List Nat :=
  [0, 1, 2, 3].filter fun k => (c.ops.getD k {}).used && [1, 2].contains (c.ops.getD k {}).kind && (c.ops.getD k {}).fmt == fmt

/-- The code formats for which a program uses the records of source `k`: any format's range for a source that no operation
names. -/
def vxCodeFmts (p : VxProg) (k : Nat) : List Fmt :=
  let l := (p.ops.filter fun x => ((x.op == 0x40 || x.op == 0x42) && x.b == 32 + k) || (x.op == 0x41 && (x.b == 32 + k || x.c == 32 + k))).map
    fun x => qfmtOf x.qfmt
  if l = [] then [.int16] else l

/-- Whether every record of a source is valid for the code formats it is used with. -/
def vxRecsOk (c : Cmd) (p : VxProg) (fmt : Nat) (ok : Operand → Fmt → Nat → Bool) : Bool :=
  (vxRecSources c fmt).all fun k => (vxCodeFmts p k).all fun f =>
    (List.range (if (c.ops.getD k {}).kind = 1 then c.desc.param 17 17 else c.desc.param 0 17)).all fun i => ok (c.ops.getD k {}) f i

/-- The program that a command names. -/
def State.vxProg (s : State) (c : Cmd) : VxProg := VxProg.of (s.opRow (c.ops.getD 6 {}) (c.ops.getD 6 {}).off)

/-- Whether every scale record that a command names is valid (R196, R222). -/
def State.vxScaleOk (s : State) (c : Cmd) (p : VxProg) : Bool :=
  vxRecsOk c p 10 fun o f i => (ScaleRec.ofBytes (s.vecRec o 16 i)).valid f

/-- Whether every requantisation record that a command names is valid (R198, R222). -/
def State.vxReqOk (s : State) (c : Cmd) (p : VxProg) : Bool :=
  vxRecsOk c p 11 fun o f i => (RequantRec.ofBytes (s.vecRec o 8 i)).valid f

/-- The check of the program row (R237). -/
def programCheck : StartCheck :=
  { ops := fun _ => [6]
    fails := fun s c =>
      let o := c.ops.getD 6 {}
      if vxProgOk (s.opRow o o.off) c.ops then none
      else some { flags := oneFlag flProgInvalid, logs := true, logAddr := o.base + o.off } }

/-- The start checks of the records (R353): scale records first. -/
def recordCheck : StartCheck :=
  { ops := fun c => vxRecSources c 10 ++ vxRecSources c 11
    fails := fun s c =>
      let p := s.vxProg c
      if !s.vxScaleOk c p then some { flags := oneFlag flDescCheck, code := 0x62, logs := true }
      else if !s.vxReqOk c p then some { flags := oneFlag flDescCheck, code := 0x63, logs := true }
      else none }

/-- VX_RUN's datapath (R209 to R238). -/
def vxRunData (hw : Hw) (s : State) (c : Cmd) : Result :=
  let o := fun k => c.ops.getD k {}
  let p := s.vxProg c
  let rows := c.desc.param 0 17
  let elems := c.desc.param 17 17
  let all := (List.range (rows * elems)).map fun n => s.vxOut c p (n / elems) (n % elems)
  let trap := if c.desc.trap ∧ hw.residue = none then (List.range all.length).find? fun n => ((all[n]?).map (·.oor)).getD false
              else none
  let stop := match trap with
    | some n => vxGroupStart c n
    | none => rows * elems
  let outs := all.take stop
  let code := fun (g : VxOut → Nat) n => ((all[n]?).map g).getD 0
  let dst := tensorRows 4 (o 4) rows elems (code (·.d0))
    ++ (if (o 5).used then tensorRows 5 (o 5) rows elems (code (·.d1)) else [])
  let flags := (outs.map (·.flags)).foldl Nat.lor 0
  let core := if c.desc.param 34 1 = 1 then some (c.desc.param 35 2) else none
  { flags := flagIf hw.residue.isSome flVxResidue (flagIf trap.isSome flTrap (flagIf trap.isSome flPermOor flags))
    detail := match trap with
      | some n => n
      | none => 0
    rows := ((dst.filter fun d => d.2.2.2 ≤ stop).map fun d => (d.1, d.2.1, d.2.2.1))
      ++ (if trap.isSome then [] else s.vxStatRows c p outs ++ s.vxSatRows c outs)
    summary := core.map fun k => (k, vxSummary p outs (trap.getD 0xFFFFFFFF)) }

/-- What a VX_RUN reads and computes. -/
def vxRunPath (hw : Hw) : Datapath :=
  { op := 0x20, checks := [programCheck, recordCheck]
    tiles := fun c => (vxTileKeys c).map fun k => (k, 32 :: List.range 32), data := vxRunData hw }

/-- VX_RUN (R209). -/
def execVxRun (eng : Eng) (hw : Hw) (s : State) : Out := .next (s.runPath eng.toNat hw (vxRunPath hw))

/-! ### Soft maximum (R233 to R236) -/

/-- One score row: the output words with their flags, m, sum, and which of ROW_EMPTY, ROW_NAN, ROW_INF it sets. -/
structure SoftRow where
  out : List Fp
  m : Nat
  sum : Nat
  empty : Bool := false
  nan : Bool := false
  inf : Bool := false
  deriving DecidableEq, Repr

/-- R234 over a row of binary32 scores, `act` telling the active lanes. -/
def softRow (norm : Bool) (scale : Nat) (x : List Nat) (act : List Bool) : SoftRow :=
  let l := x.zip act
  let isInf := fun (w : Nat) (neg : Bool) => f32 w == .inf neg
  let fill := fun (w : Nat) => l.map fun _ => ((w, 0) : Fp)
  if l.any fun p => p.2 && (f32 p.1).isNaN then
    { out := fill (toF32 .nan), m := toF32 .nan, sum := toF32 .nan, nan := true }
  else if l.any fun p => p.2 && isInf p.1 false then
    let n := (l.filter fun p => p.2 && isInf p.1 false).length
    let v := if norm then fdiv f32One (f32OfInt n) else f32One
    { out := l.map fun p => (if p.2 && isInf p.1 false then v else 0, 0), m := toF32 (.inf false), sum := f32OfInt n, inf := true }
  else if l.all fun p => !p.2 || isInf p.1 true then { out := fill 0, m := toF32 (.inf true), sum := 0, empty := true }
  else
    let incl := fun (p : Nat × Bool) => p.2 && !isInf p.1 true
    let m := (l.filter incl).foldl (fun (a : Option Nat) p => match a with
      | none => some p.1
      | some b => if fpBelow b p.1 then some p.1 else some b) none
    let mw := m.getD 0
    let e := l.map fun p =>
      if incl p then
        let d := vxFloat 0x02 p.1 mw 0
        let q := vxFloat 0x03 d.1 scale 0
        let r := vxFloat 0x20 q.1 0 0
        (r.1, Nat.lor d.2 (Nat.lor q.2 r.2))
      else (0, 0)
    let sum := blockSum (e.map (·.1))
    { out := if norm then (e.zip l).map fun p =>
        (if incl p.2 then (let v := vxFp false (FVal.div (f32 p.1.1) (f32 sum))
                           (v.1, Nat.lor p.1.2 v.2))
         else p.1) else e
      m := mw, sum := sum }

/-- A STATUS record (R235). -/
def SoftRow.status (r : SoftRow) : List Byte :=
  leBytes 4 r.m ++ leBytes 4 r.sum ++ leBytes 8 (b2n r.empty + 2 * b2n r.nan + 4 * b2n r.inf)

/-- VX_SOFTMAX's datapath (R233 to R236). -/
def vxSoftmaxData (hw : Hw) (s : State) (c : Cmd) : Result :=
  let o := fun k => c.ops.getD k {}
  let len := c.desc.param 0 14
  let rows := c.desc.param 14 13
  let norm := c.desc.param 27 1 == 1
  let rs := (List.range rows).map fun r =>
    softRow norm (c.desc.param 32 32) ((List.range len).map fun e => vxLoad (o 0).format (s.elemCode (o 0) len r e))
      ((List.range len).map fun e => s.maskBit (o 2) r e)
  let stored := rs.map fun r => r.out.map fun v =>
    let t := vxStore (o 1).format v.1
    (t.1, Nat.lor v.2 t.2.1)
  let flags := (stored.flatMap fun r => r.map (·.2)).foldl Nat.lor 0
  let f1 := flagIf (rs.any (·.empty)) flRowEmpty (flagIf (rs.any (·.nan)) flRowNan (flagIf (rs.any (·.inf)) flRowInf flags))
  let code := fun n => (((stored.getD (n / len) [])[n % len]?).map (·.1)).getD 0
  { flags := flagIf hw.residue.isSome flVxResidue f1
    rows := ((tensorRows 1 (o 1) rows len code).map fun d => (d.1, d.2.1, d.2.2.1))
      ++ (if (o 3).used then recordRows 3 (o 3) 32 (rs.map SoftRow.status) else []) }

/-- What a VX_SOFTMAX reads and computes: each score row is read twice (R236). -/
def vxSoftmaxPath (hw : Hw) : Datapath := { op := 0x21, twice := [0], data := vxSoftmaxData hw }

/-- VX_SOFTMAX (R234). -/
def execVxSoftmax (eng : Eng) (hw : Hw) (s : State) : Out := .next (s.runPath eng.toNat hw (vxSoftmaxPath hw))

end Sys2Proof.Machine
end

