-- ==== Sys2Proof/Machine/StateEngineOps.lean ====
section
/-! DEFINITION. The state engine: SE_SCAN and SE_CARRY (chapter "State engines: long convolutions as recurrences"). -/

namespace Sys2Proof.Machine

/-- A component of a mode: the stored code and its residual (R243, R244). -/
abbrev SeComp := Nat × Int

/-- The line of an SE command while it runs: modes as (real, imaginary), the input history newest first, flags, stores
that saturated, inputs that were replaced. -/
structure SeLine where
  modes : List (SeComp × SeComp) := []
  hist : List Nat := []
  flags : Nat := 0
  sats : Nat := 0
  nonfinite : Nat := 0
  deriving DecidableEq, Repr

/-- The exponent of ulp(h) (R244). -/
def seUlp (f : Fmt) (h : Nat) : Int :=
  match f.float?, f.value h with
  | some g, .fin _ n d => (if n = 0 then g.emin else max (floorLog2 n d) g.emin) - g.manBits
  | _, _ => 0

/-- The carried value of a component as a binary32 word (R244). -/
def seCarried (f : Fmt) (c : SeComp) : Nat :=
  let u := dyadic 1 (seUlp f c.1 - 7)
  toF32 (FVal.add (f.value c.1) (FVal.ofFrac (c.2 * u.1) u.2))

/-- The largest finite code of a format with a sign (R246). -/
def seEnd (f : Fmt) (neg : Bool) : Nat :=
  match f.float? with
  | some g => g.infCode - 1 + b2n neg * g.signBit
  | none => f.intBits (if neg then f.qmin else f.qmax)

/-- store(v) of R246: code, residual, and whether it saturated. -/
def seStore (f : Fmt) (res : Bool) (w : Nat) : SeComp × Bool :=
  match f32 w with
  | .nan => ((0, 0), true)
  | .inf neg => ((seEnd f neg, 0), true)
  | .fin neg n d =>
    let r : Nat × Bool := match f.float? with
      | some g => g.encode (.fin neg n d)
      | none => (let q := satCode f (FVal.fin neg n d).roundAway
                 (f.intBits q.1, q.2))
    if r.2 then ((seEnd f neg, 0), true)
    else if res then
      let diff := FVal.add (.fin neg n d) (f.value r.1).neg
      let u := dyadic 1 (seUlp f r.1 - 7)
      ((r.1, roundAway (diff.num * u.2) (diff.den * u.1)), false)
    else ((r.1, 0), false)

/-- (a x b) + (c x d) + e of binary32 words, or with the middle sign turned, each step rounded (R245). -/
def seSum3 (sub : Bool) (a b c d e : Nat) : Nat :=
  let p := fmul a b
  let q := fmul c d
  fadd (if sub then fsub p q else fadd p q) e

/-- A pair of binary32 words of a coefficient row: real and imaginary part of mode `i`. -/
def sePair (row : List Byte) (i : Nat) : Nat × Nat := (leAt row (8 * i) 4, leAt row (8 * i + 4) 4)

/-- One mode updated: the carried value times `p`, plus `add`; the new components, v, and how many stores saturated. -/
def seMode (f : Fmt) (res : Bool) (m : SeComp × SeComp) (p add : Nat × Nat) : (SeComp × SeComp) × (Nat × Nat) × Nat :=
  let wr := seCarried f m.1
  let wi := seCarried f m.2
  let vr := seSum3 true p.1 wr p.2 wi add.1
  let vi := seSum3 false p.1 wi p.2 wr add.2
  let a := seStore f res vr
  let b := seStore f res vi
  ((a.1, b.1), (vr, vi), b2n a.2 + b2n b.2)

/-- The input of a step: its code, +0.0 in place of a NaN or an infinity (R247). -/
def seInput (f : Fmt) (code : Nat) : Nat × Bool := if (f.value code).isFinite then (code, false) else (0, true)

/-- y[t] stored in FMT with its flags (R248). -/
def seOut (f : Fmt) (y : Nat) : Nat × Nat :=
  let r := convert .fp32 f y
  let v := f32 y
  (r.1, flagIf v.isNaN flFpInvalid (flagIf (!v.isNaN && !f.isInt && !(f.value r.1).isFinite) flFpOverflow
    (flagIf r.2.saturated flQuantSat (flagIf r.2.nonfinite flNonfinite 0))))

/-- A code as a binary32 word (R214, in code units for INT16). -/
def seWord (f : Fmt) (code : Nat) : Nat := toF32 (f.value code)

/-- One step of a line (R245): the new line and the code of y[t]. `coef` holds the rows LAMBDA, B, C and the FIR bytes. -/
def seStep (f : Fmt) (res : Bool) (fir : Nat) (coef : List (List Byte)) (l : SeLine) (x : Nat) : SeLine × Nat :=
  let inp := seInput f x
  let xs := seWord f inp.1
  let ms := (List.range l.modes.length).map fun i =>
    let b := sePair (coef.getD 1 []) i
    seMode f res (l.modes.getD i ((0, 0), (0, 0))) (sePair (coef.getD 0 []) i) (fmul b.1 xs, fmul b.2 xs)
  let zm := (tree32 ((List.range ms.length).map fun i =>
    let c := sePair (coef.getD 2 []) i
    let v := ((ms[i]?).map (·.2.1)).getD (0, 0)
    (fsub (fmul c.1 v.1) (fmul c.2 v.2), 0))).1
  let past := inp.1 :: l.hist
  let zf := (tree32 ((List.range fir).map fun j => (fmul (leAt (coef.getD 3 []) (4 * j) 4) (seWord f (nthD past j)), 0))).1
  let y := seOut f (if fir = 0 then zm else fadd zm zf)
  let sats := (ms.map (·.2.2)).sum
  ({ modes := ms.map (·.1), hist := past.take (fir - 1), sats := l.sats + sats, nonfinite := l.nonfinite + b2n inp.2
     flags := Nat.lor l.flags (flagIf (decide (0 < sats)) flStateSat (flagIf inp.2 flNonfinite y.2)) }, y.1)

/-- A line over its steps, with the codes of y. -/
def seScan (f : Fmt) (res : Bool) (fir : Nat) (coef : List (List Byte)) : SeLine → List Nat → SeLine × List Nat
  | l, [] => (l, [])
  | l, x :: xs =>
    let r := seStep f res fir coef l x
    let t := seScan f res fir coef r.1 xs
    (t.1, r.2 :: t.2)

/-- SE_CARRY of a line (R253): `p` the power row, `u` the row of increments. -/
def seCarry (f : Fmt) (res : Bool) (fir : Nat) (p u : List Byte) (l : SeLine) (xs : List Nat) : SeLine :=
  let ms := (List.range l.modes.length).map fun i =>
    seMode f res (l.modes.getD i ((0, 0), (0, 0))) (sePair p i) (sePair u i)
  let inps := xs.map (seInput f)
  let sats := (ms.map (·.2.2)).sum
  let bad := (inps.filter (·.2)).length
  { modes := ms.map (·.1), hist := ((inps.map (·.1)).reverse ++ l.hist).take (fir - 1), sats := sats, nonfinite := bad
    flags := flagIf (decide (0 < sats)) flStateSat (flagIf (decide (0 < bad)) flNonfinite l.flags) }

/-- A residual byte, clamped to -64 .. 64, and whether that changed it (R243). -/
def seResidual (b : Nat) : Int × Bool :=
  let r := signedOf 8 b
  (clampInt (-64) 64 r, decide (r < -64 ∨ 64 < r))

/-- Reads a line from its record rows and its 128 residual bytes (R242, R243). -/
def seLoad (res : Bool) (modes fir : Nat) (r0 r1 rho : List Byte) : SeLine :=
  let q := fun k => if res then seResidual (leAt rho k 1) else (0, false)
  { modes := (List.range modes).map fun i =>
      ((leAt r0 (4 * i) 2, (q (2 * i)).1), (leAt r0 (4 * i + 2) 2, (q (2 * i + 1)).1))
    hist := (List.range (fir - 1)).map fun k => if k < 128 then leAt r0 (256 + 2 * k) 2 else leAt r1 (2 * (k - 128)) 2
    flags := flagIf ((List.range (2 * modes)).any fun k => (q k).2) flResRange 0 }

/-- The record rows of a line (R242). -/
def SeLine.rows (l : SeLine) (srec : Nat) : List (List Byte) :=
  let ms := l.modes.flatMap fun m => leBytes 2 m.1.1 ++ leBytes 2 m.2.1
  let r0 := slice ms 0 256 ++ slice ((l.hist.take 128).flatMap (leBytes 2)) 0 256
  let r1 := slice ((l.hist.drop 128).flatMap (leBytes 2)) 0 512
  if srec = 1 then [r0] else [r0, r1]

/-- The residual bytes of a line (R243). -/
def SeLine.residuals (l : SeLine) : List Byte :=
  slice (l.modes.flatMap fun m => leBytes 1 (unsignedOf 8 m.1.2) ++ leBytes 1 (unsignedOf 8 m.2.2)) 0 128

/-- What an SE command takes from its descriptor: format, plane, lines, channels, modes, FIR length, rows to a record. -/
structure SeParams where
  f : Fmt
  res : Bool
  lines : Nat
  chans : Nat
  steps : Nat
  modes : Nat
  fir : Nat
  srec : Nat
  deriving DecidableEq, Repr

/-- The parameters of an SE command (R349). -/
def seParams (c : Cmd) : SeParams :=
  let d := c.desc
  { f := (c.ops.getD 0 {}).format, res := d.param 47 1 == 1, lines := d.param 0 11, chans := d.param 11 11
    steps := d.param 22 9, modes := d.param 31 7, fir := d.param 38 9, srec := srecOf (d.param 38 9) }

/-- The codes of x of line `l` (R255). -/
def State.seX (s : State) (c : Cmd) (p : SeParams) (l : Nat) : List Nat :=
  let o := c.ops.getD 0 {}
  (List.range p.steps).map fun t => leAt (s.opRow o (o.off + t * o.stride + l / 256)) (2 * (l % 256)) 2

/-- Line `l` as the map places it (R257). -/
def State.seLine (s : State) (o : Operand) (p : SeParams) (map : List (List Nat)) (l : Nat) : SeLine :=
  let e := map.getD (l / p.chans) []
  let j := l % p.chans
  let q := nthD e 2 + j
  seLoad p.res p.modes p.fir (s.opRow o (nthD e 0 + j * p.srec)) (s.opRow o (nthD e 0 + j * p.srec + 1))
    (slice (s.opRow o (q / 4)) (q % 4 * 128) 128)

/-- The rows that the lines write back: record rows, then residual quarter rows laid over the rows that hold them. -/
def State.seWrites (s : State) (k : Nat) (o : Operand) (p : SeParams) (map : List (List Nat)) (ls : List SeLine) :
    List (Nat × Nat × List Byte) :=
  let place := fun l (line : SeLine) =>
    let e := map.getD (l / p.chans) []
    let off := nthD e 1 + l % p.chans * p.srec
    (List.range p.srec).map fun i => (k, off + i, (line.rows p.srec).getD i [])
  let recs := (List.range ls.length).flatMap fun l => place l (ls.getD l {})
  let quarters := (List.range ls.length).map fun l => (nthD (map.getD (l / p.chans) []) 3 + l % p.chans, (ls.getD l {}).residuals)
  let resRows := dedup (quarters.map (·.1 / 4))
  recs ++ (if p.res then resRows.map fun r =>
      (k, r, quarters.foldl (fun bs q => if q.1 / 4 = r then spliceBytes bs (q.1 % 4 * 128) q.2 else bs) (s.opRow o r))
    else [])

/-- The flags and counters of an SE command (R261, R262). -/
def seResult (hw : Hw) (ls : List SeLine) (rows : List (Nat × Nat × List Byte)) : Result :=
  let sats := (ls.map (·.sats)).sum
  let bad := (ls.map (·.nonfinite)).sum
  { flags := flagIf hw.residue.isSome flSeResidue ((ls.map (·.flags)).foldl Nat.lor 0)
    detail := hw.residue.getD 0, rows := rows
    counters := (if sats = 0 then [] else [(7, sats)]) ++ if bad = 0 then [] else [(8, bad)] }

/-- SE_SCAN's datapath (R245 to R255). -/
def seScanData (hw : Hw) (s : State) (c : Cmd) : Result :=
  let o := fun k => c.ops.getD k {}
  let p := seParams c
  let map := c.map
  let block := if p.fir = 0 then 3 else 5
  let coef := fun l =>
    let b := (o 2).off + l % p.chans * block
    [s.opRow (o 2) b, s.opRow (o 2) (b + 1), s.opRow (o 2) (b + 2), s.opRow (o 2) (b + 3) ++ s.opRow (o 2) (b + 4)]
  let done := (List.range p.lines).map fun l =>
    seScan p.f p.res p.fir (coef l) (s.seLine (o 3) p map l) (s.seX c p l)
  let yRows := (List.range p.steps).flatMap fun t => (List.range ((p.lines + 255) / 256)).map fun b =>
    (1, (o 1).off + t * (o 1).stride + b,
     (List.range (Nat.min 256 (p.lines - b * 256))).flatMap fun i =>
       leBytes 2 (nthD ((done[b * 256 + i]?).map (·.2) |>.getD []) t))
  seResult hw (done.map (·.1)) (yRows ++ s.seWrites 3 (o 3) p map (done.map (·.1)))

/-- What an SE_SCAN reads and computes. -/
def seScanPath (hw : Hw) : Datapath := { op := 0x30, data := seScanData hw }

/-- SE_SCAN (R245, R255). -/
def execSeScan (eng : Eng) (hw : Hw) (s : State) : Out := .next (s.runPath eng.toNat hw (seScanPath hw))

/-- SE_CARRY's datapath (R253, R256). -/
def seCarryData (hw : Hw) (s : State) (c : Cmd) : Result :=
  let o := fun k => c.ops.getD k {}
  let p := seParams c
  let map := c.map
  let ls := (List.range p.lines).map fun l =>
    seCarry p.f p.res p.fir (s.opRow (o 1) ((o 1).off + l % p.chans)) (s.opRow (o 4) ((o 4).off + l))
      (s.seLine (o 2) p map l) (s.seX c p l)
  seResult hw ls (s.seWrites 2 (o 2) p map ls)

/-- What an SE_CARRY reads and computes. -/
def seCarryPath (hw : Hw) : Datapath := { op := 0x31, data := seCarryData hw }

/-- SE_CARRY (R253). -/
def execSeCarry (eng : Eng) (hw : Hw) (s : State) : Out := .next (s.runPath eng.toNat hw (seCarryPath hw))

/-! ### Powers (R252) -/

/-- The product of R252. -/
def sePow2 (a d : Nat × Nat) : Nat × Nat :=
  (fsub (fmul a.1 d.1) (fmul a.2 d.2), fadd (fmul a.1 d.2) (fmul a.2 d.1))

/-- The bits of `n` from bit `k - 1` down, applied to the power so far. -/
def sePowLoop (lam : Nat × Nat) (n : Nat) : Nat → Nat × Nat → Nat × Nat
  | 0, p => p
  | k + 1, p =>
    let q := sePow2 p p
    sePowLoop lam n k (if bitAt n k then sePow2 q lam else q)

/-- lambda^n by binary powering (R252). -/
def sePower (lam : Nat × Nat) (n : Nat) : Nat × Nat := sePowLoop lam n (Nat.log2 n) lam

/-- Whether a mode decays: |lambda|^2 at most (1 - 2^-20)^2, both sides exact (R241). -/
def seDecays (l : Nat × Nat) : Bool :=
  match f32 l.1, f32 l.2 with
  | .fin _ a b, .fin _ c d => decide ((a * a * (d * d) + c * c * (b * b)) * 2 ^ 40 ≤ (2 ^ 20 - 1) ^ 2 * (b * b * (d * d)))
  | _, _ => false

/-- The checks of R241 on one layer. -/
def seLayerOk (l : SeLayer) : Bool :=
  let fin := fun (w : Nat) => (f32 w).isFinite
  within 1 64 l.modes && within 0 256 l.firLen
    && (l.lambda ++ l.b ++ l.c).all (fun p => fin p.1 && fin p.2) && l.fir.all fin
    && l.lambda.all seDecays
    && (match l.chunkSteps with
        | none => true
        | some n => within 2 256 n && (l.powers == l.lambda.map fun x => sePower x n))

end Sys2Proof.Machine
end

