-- ==== Sys2Proof/Machine/Attention.lean ====
section
/-! DEFINITION. The attention engine: AT_APPEND, AT_SCORE, AT_VALUE, AT_MERGE (chapter "Attention engines and the paged
latent cache", R263 to R304). -/

namespace Sys2Proof.Machine

/-! ### Walks (R277, R281) -/

/-- The table copy that a command walks for a sequence: the copy it took at issue (R277). -/
def State.walkTable (s : State) (c : Cmd) (q : Nat) : Option PageTable :=
  (c.walks.find? (·.1 == q)).bind fun w => (Tbl.get? s.pg.seqs q).map fun x => if w.2 then x.copyB else x.copyA

/-- Whether a command belongs to the chunk that owns the working tail of a sequence (R281). -/
def State.ownsTail (s : State) (d : Desc) (q : Nat) (t : PageTable) : Bool :=
  (s.members d).any fun m => m.1 == q / 8 && m.2 == t.workChunk

/-- The flag that a read of one position raises, none when it may be read (R281, R303). -/
def State.readFlag (s : State) (d : Desc) (q : Nat) (t : PageTable) (tp pos : Nat) : Option Nat :=
  if !(decide (pos < t.committedLen) || (decide (pos < t.workLen) && s.ownsTail d q t)) then some flPtRange
  else if !(t.entries.getD (pos / tp) {}).valid || (t.rebuilding && decide (t.rebuiltLen ≤ pos)) then some flPtMissing
  else none

/-- Positions that an AT_SCORE or AT_VALUE walks for a member: those of its part below its read length (R295, R301). -/
def walkPositions (d : Desc) (p0 : Nat) : List Nat :=
  let first := d.param 27 20
  let last := Nat.min (first + d.param 47 14) (p0 + d.param 13 10)
  (List.range (last - first)).map (first + ·)

/-- A walk: the (sequence, position) pairs that it reads, member by member in ascending positions, up to the first PT flag, and
that flag (R303). -/
def State.walkOn (s : State) (c : Cmd) (tp : Nat) : List (Nat × Nat) → List (Nat × Nat) × Option Nat
  | [] => ([], none)
  | m :: ms =>
    match s.walkTable c m.1 with
    | none => ([], some flPtRange)
    | some t =>
      match s.readFlag c.desc m.1 t tp m.2 with
      | some f => ([], some f)
      | none =>
        let r := State.walkOn s c tp ms
        (m :: r.1, r.2)

/-- The walk of a command. -/
def State.walkAll (s : State) (c : Cmd) (tp : Nat) : List (Nat × Nat) × Option Nat :=
  s.walkOn c tp (c.atMembers.flatMap fun m => (walkPositions c.desc m.2).map fun p => (m.1, p))

/-! ### Latents (R265, R266) -/

/-- Where the latent of a position stands in its page: the first byte. -/
def CacheDesc.latOff (k : CacheDesc) (layer pos : Nat) : Nat :=
  layer * (k.tokensPerPage * k.latBytes) + pos % k.tokensPerPage * k.latBytes

/-- `n` bytes of a page from byte `off`. -/
def State.pageSlice (s : State) (page off n : Nat) : List Byte :=
  if isSpill page then Mem.readBytes s.pg.spill (pageFrame page * 32768 + off) n
  else
    let r0 := off / 512
    slice ((List.range ((off % 512 + n + 511) / 512)).flatMap fun i => s.readRow (s.frameRow (pageFrame page) + r0 + i)) (off % 512) n

/-- The format of latents. -/
def CacheDesc.fmt (k : CacheDesc) : Fmt := (fmtOf k.latFmt).getD .bf16

/-- The latent of a position as binary32 words. -/
def State.latent (s : State) (k : CacheDesc) (t : PageTable) (layer pos : Nat) : List Nat :=
  (k.fmt.unpack (s.pageSlice (t.entries.getD (pos / k.tokensPerPage) {}).page (k.latOff layer pos) k.latBytes)).map (vxLoad k.fmt)

/-- The pages that a walk reads, each once. -/
def State.walkPages (s : State) (c : Cmd) (tp : Nat) : List Nat :=
  dedup ((s.walkAll c tp).1.map fun m => (((s.walkTable c m.1).getD {}).entries.getD (m.2 / tp) {}).page)

/-- The device rows of a layer's section of an on-chip page (R266). -/
def State.sectionRows (s : State) (k : CacheDesc) (layer page : Nat) : List Nat :=
  let n := k.tokensPerPage * k.latBytes / 512
  (List.range n).map fun i => s.frameRow (pageFrame page) + layer * n + i

/-- The rows of on-chip pages that a walk reads. -/
def State.walkRows (s : State) (c : Cmd) : List Nat :=
  let k := (s.atModel c.desc).cache
  ((s.walkPages c k.tokensPerPage).filter fun p => !isSpill p).flatMap (s.sectionRows k (c.desc.param 0 4))

/-- An AT command meets an unreadable line of a spilled page: it ends with ECC_UNCORR, the page leaves the tree and its
sequences are marked (R287, R294, R303). Which line of the frame it is, is free. -/
def State.spillFault (s : State) (c : Cmd) (page : Nat) : State :=
  let d := s.draw
  let line := spillAddr (pageFrame page) / 64 + d.1.toNat % 512
  ((d.2.hbmUncorrected line c.desc.engine).pageLost page).putCmd
    { c with phase := .ended, flags := withFlag c.flags flEccUncorr, inHbm := true, addr := line }

/-- Runs an AT command over this device's own pages, which its walk reads beside its operands. -/
def State.walkOwn (s : State) (p : Datapath) (c0 : Cmd) : State :=
  let k := (s.atModel c0.desc).cache
  let spilled := (s.walkPages c0 k.tokensPerPage).filter isSpill
  let c := { c0 with spillReads := spilled.length * (k.tokensPerPage * k.latBytes) }
  match spilled.find? s.pageBad with
  | some page => (s.putCmd c).spillFault c page
  | none => (s.putCmd c).runOn p c

/-! ### AT_SCORE and AT_VALUE (R268, R296, R301) -/

/-- An expansion weight E[h][d][j], packed from the operand's first row, as a binary32 word (R268). -/
def State.expWord (s : State) (o : Operand) (k : CacheDesc) (h d j : Nat) : Nat :=
  let i := (h * k.headDim + d) * k.latW + j
  vxLoad .bf16 (Fmt.bf16.elemAt (s.opRow o (o.off + i / 256)) (i % 256))

/-- The flags of a list of results. -/
def fpOr (l : List Fp) : Nat := (l.map (·.2)).foldl Nat.lor 0

/-- q'[h][j] over j (R268). -/
def State.expandQuery (s : State) (k : CacheDesc) (o : Operand) (h : Nat) (q : List Nat) : List Fp :=
  (List.range k.latW).map fun j =>
    let t := tree32 ((List.range k.headDim).map fun d => fpMul (s.expWord o k h d j) (nthD q d))
    let r := convert .fp32 k.fmt t.1
    (vxLoad k.fmt r.1, flagIf r.2.overflow flFpOverflow (flagIf r.2.fp8Sat flFp8Sat t.2))

/-- AT_SCORE's datapath. -/
def atScoreData (hw : Hw) (s : State) (c : Cmd) : Result :=
  let d := c.desc
  let o := fun k => c.ops.getD k {}
  let k := (s.atModel d).cache
  match (s.walkAll c k.tokensPerPage).2 with
  | some f => { flags := oneFlag f, logs := true }
  | none =>
    let q := d.param 13 10
    let bucket := 2 ^ d.param 23 4
    let first := d.param 27 20
    let row := fun (m : Nat) (mem : Nat × Nat) (i h : Nat) =>
      let idx := (m * q + i) * k.heads + h
      let qs := (Fmt.bf16.unpack (s.opRow (o 0) ((o 0).off + idx))).map (vxLoad .bf16)
      let qe := s.expandQuery k (o 1) h qs
      let t := (s.walkTable c mem.1).getD {}
      let sc := (List.range bucket).map fun e =>
        if e < d.param 47 14 ∧ first + e ≤ mem.2 + i then
          tree32 ((qe.zip (s.latent k t (d.param 0 4) (first + e))).map fun p => fpMul p.1.1 p.2)
        else (toF32 (.inf true), 0)
      (idx, sc, Nat.lor (fpOr qe) (fpOr sc))
    let ms := c.atMembers
    let all := (List.range ms.length).flatMap fun m => (List.range q).flatMap fun i => (List.range k.heads).map fun h =>
      row m (ms.getD m (0, 0)) i h
    { flags := flagIf hw.residue.isSome flAtResidue ((all.map (·.2.2)).foldl Nat.lor 0)
      rows := all.flatMap fun r => (List.range ((bucket + 127) / 128)).map fun b =>
        (2, (o 2).off + r.1 * (o 2).stride + b, ((r.2.1.drop (128 * b)).take 128).flatMap fun w => leBytes 4 w.1) }

/-- What an AT_SCORE reads and computes. -/
def atScorePath (hw : Hw) : Datapath := { op := 0x41, extra := State.walkRows, data := atScoreData hw }

/-- AT_VALUE's datapath. -/
def atValueData (hw : Hw) (s : State) (c : Cmd) : Result :=
  let d := c.desc
  let o := fun k => c.ops.getD k {}
  let k := (s.atModel d).cache
  match (s.walkAll c k.tokensPerPage).2 with
  | some f => { flags := oneFlag f, logs := true }
  | none =>
    let q := d.param 13 10
    let first := d.param 27 20
    let row := fun (m : Nat) (mem : Nat × Nat) (i h : Nat) =>
      let idx := (m * q + i) * k.heads + h
      let t := (s.walkTable c mem.1).getD {}
      let wf := (o 0).format
      let ps := (walkPositions d mem.2).filter fun pos => decide (pos ≤ mem.2 + i)
      let ws := ps.map fun pos =>
        let e := pos - first
        vxLoad wf (wf.elemAt (s.opRow (o 0) ((o 0).off + idx * (o 0).stride + e / wf.perRow)) (e % wf.perRow))
      let ls := ps.map fun pos => s.latent k t (d.param 0 4) pos
      let g := (List.range k.latW).map fun j => tree32 ((ws.zip ls).map fun p => fpMul p.1 (nthD p.2 j))
      let out := (List.range k.headDim).map fun dd =>
        tree32 ((List.range k.latW).map fun j => fpMul (s.expWord (o 1) k h dd j) (((g[j]?).map (·.1)).getD 0))
      (idx, out, Nat.lor (fpOr g) (fpOr out))
    let ms := c.atMembers
    let all := (List.range ms.length).flatMap fun m => (List.range q).flatMap fun i => (List.range k.heads).map fun h =>
      row m (ms.getD m (0, 0)) i h
    { flags := flagIf hw.residue.isSome flAtResidue ((all.map (·.2.2)).foldl Nat.lor 0)
      rows := all.flatMap fun r => (List.range ((k.headDim + 127) / 128)).map fun b =>
        (2, (o 2).off + r.1 * (o 2).stride + b, ((r.2.1.drop (128 * b)).take 128).flatMap fun w => leBytes 4 w.1) }

/-- What an AT_VALUE reads and computes. -/
def atValuePath (hw : Hw) : Datapath := { op := 0x42, extra := State.walkRows, data := atValueData hw }

/-! ### AT_APPEND (R280, R289, R300) -/

/-- The flag that writing one position raises, with the table after it takes a page that it needs (R289, R303). AT writes only
on-chip frames (R270): an entry that names a spill frame must not be written either, and ends the command in the same way (DESIGN
CHOICE, log 48: no rule names a flag for it). -/
def appendPos (tp pos : Nat) (t : PageTable) : Except Nat PageTable :=
  let i := pos / tp
  let e := t.entries.getD i {}
  if e.valid then (if e.shared || isSpill e.page then .error flPtShared else .ok t)
  else
    match t.headroom with
    | none => .error flPtNoHeadroom
    | some p =>
      let es := t.entries ++ List.replicate (i + 1 - t.entries.length) {}
      .ok { t with entries := es.set i ⟨p, true, false⟩, headroom := none }

/-- The positions of a member in ascending order. -/
def appendPages (tp : Nat) : List Nat → PageTable → Except Nat PageTable
  | [], t => .ok t
  | p :: ps, t => match appendPos tp p t with
    | .ok u => appendPages tp ps u
    | .error f => .error f

/-- Whether the position rules of R300 hold for a member. Above layer 0, a REBUILD append repeats the positions of the rebuild step
that layer 0 began, which raised REBUILT_LEN past them and may have cleared the marking, or it stands at REBUILT_LEN itself
(DEDUCED, log 49). -/
def appendRange (rebuild layer0 : Bool) (q : Nat) (x : Sequence) (t : PageTable) (p0 : Nat) : Bool :=
  if rebuild then
    (x.rebuild && p0 == t.rebuiltLen && (layer0 || decide (p0 + q ≤ t.workLen)))
      || (!layer0 && x.rebuildAt == some p0 && decide (p0 + q ≤ t.rebuiltLen))
  else decide (t.committedLen ≤ p0) && (if layer0 then decide (p0 ≤ t.workLen) else decide (p0 + q ≤ t.workLen))

/-- The table of a member after an append: pages taken, lengths raised by layer 0 (R280, R300). -/
def State.appendMember (s : State) (c : Cmd) (tp : Nat) (m : Nat × Nat) : Except Nat PageTable :=
  let d := c.desc
  let q := d.param 13 10
  let layer0 := d.param 0 4 == 0
  let rebuild := d.param 61 1 == 1
  match s.walkTable c m.1, Tbl.get? s.pg.seqs m.1 with
  | some t, some x =>
    if !appendRange rebuild layer0 q x t m.2 then .error flPtRange
    else
      match appendPages tp ((List.range q).map (m.2 + ·)) t with
      | .error f => .error f
      | .ok u =>
        .ok (if !layer0 then u
             else if rebuild then { u with rebuiltLen := u.rebuiltLen + q }
             else { u with workLen := Nat.max u.workLen (m.2 + q) })
  | _, _ => .error flPtRange

/-- The tables of every member after an append, or the first flag. -/
def State.appendAll (s : State) (c : Cmd) (tp : Nat) : List (Nat × Nat) → Except Nat (List (Nat × PageTable))
  | [] => .ok []
  | m :: ms =>
    match s.appendMember c tp m with
    | .error f => .error f
    | .ok t =>
      match State.appendAll s c tp ms with
      | .error f => .error f
      | .ok ts => .ok ((m.1, t) :: ts)

/-- Lays bytes over rows: `rows` holds the rows changed so far. -/
def overlay (read : Nat → List Byte) (rows : Tbl (List Byte)) (addr : Nat) (bs : List Byte) : Tbl (List Byte) :=
  (List.range ((addr % 512 + bs.length + 511) / 512)).foldl (fun t i =>
    let r := addr / 512 + i
    let old := (Tbl.get? t r).getD (read r)
    let lo := if i = 0 then addr % 512 else 0
    let part := if i = 0 then bs.take (512 - lo) else (bs.drop (512 * i - addr % 512)).take 512
    Tbl.put t r (spliceBytes old lo part)) rows

/-- The page rows that an append writes: the latents of every member over the rows that hold them; a page just taken is 0
elsewhere (R266). -/
def State.appendRows (s : State) (c : Cmd) (k : CacheDesc) (ts : List (Nat × PageTable)) : List (Nat × List Byte) :=
  let o := c.ops.getD 0 {}
  let q := c.desc.param 13 10
  let ms := c.atMembers
  let taken := (List.range ms.length).flatMap fun m =>
    let old := ((s.walkTable c (ms.getD m (0, 0)).1).getD {}).headroom
    let new := ((ts.getD m (0, {})).2).headroom
    if new = none then old.toList else []
  let blank := taken.flatMap fun p => (List.range 64).map fun i => s.frameRow (pageFrame p) + i
  let read := fun r => if blank.contains r then List.replicate 512 0 else s.readRow r
  let rows0 : Tbl (List Byte) := blank.foldl (fun t r => Tbl.put t r (List.replicate 512 0)) []
  (List.range ms.length).foldl (fun rows m =>
    let e := ms.getD m (0, 0)
    let t := (ts.getD m (0, {})).2
    let src := s.opRows o (o.off + m * o.stride) (rowsForBits (q * k.latBytes * 8))
    (List.range q).foldl (fun rs i =>
      let pos := e.2 + i
      let page := (t.entries.getD (pos / k.tokensPerPage) {}).page
      overlay read rs (s.frameRow (pageFrame page) * 512 + k.latOff (c.desc.param 0 4) pos) (slice src (i * k.latBytes) k.latBytes))
      rows) rows0

/-- AT_APPEND's datapath. -/
def atAppendData (hw : Hw) (s : State) (c : Cmd) : Result :=
  let k := (s.atModel c.desc).cache
  match s.appendAll c k.tokensPerPage c.atMembers with
  | .error f => { flags := oneFlag f, logs := true }
  | .ok ts => { flags := flagIf hw.residue.isSome flAtResidue 0, pages := s.appendRows c k ts }

/-- Rows of pages that an append writes only in part, so it reads them first: none when it ends with a PT flag, before its first
write. -/
def State.appendReads (s : State) (c : Cmd) : List Nat :=
  let k := (s.atModel c.desc).cache
  let q := c.desc.param 13 10
  match s.appendAll c k.tokensPerPage c.atMembers with
  | .error _ => []
  | .ok _ =>
    if k.latBytes % 512 = 0 then []
    else
      dedup (c.atMembers.flatMap fun m =>
        let t := (s.walkTable c m.1).getD {}
        (List.range q).flatMap fun i =>
          let e := t.entries.getD ((m.2 + i) / k.tokensPerPage) {}
          if e.valid then [s.frameRow (pageFrame e.page) + k.latOff (c.desc.param 0 4) (m.2 + i) / 512] else [])

/-- The edits that an append makes to the copy it walks (R280); a rebuild that reaches COMMITTED_LEN clears the marking
(R294). -/
def State.appendTables (s : State) (c : Cmd) (ts : List (Nat × PageTable)) : State :=
  let rebuild := c.desc.param 61 1 == 1
  let layer0 := c.desc.param 0 4 == 0
  ts.foldl (fun t m =>
    match Tbl.get? t.pg.seqs m.1, c.walks.find? (·.1 == m.1) with
    | some x, some w =>
      let y := if w.2 then { x with copyB := m.2 } else { x with copyA := m.2 }
      let at0 := (c.atMembers.find? (·.1 == m.1)).map (·.2)
      t.putSeq m.1 { y with rebuild := y.rebuild && y.table.rebuilding
                            rebuildAt := if !layer0 then y.rebuildAt else if rebuild then at0 else none }
    | _, _ => t) s

/-- The table edits of an append that ends well, over what it saw. -/
def appendAfter (v : State) (c : Cmd) (t : State) : State :=
  match v.appendAll c (v.atModel c.desc).cache.tokensPerPage c.atMembers with
  | .ok ts => t.appendTables c ts
  | .error _ => t

/-- What an AT_APPEND reads and computes. -/
def atAppendPath (hw : Hw) : Datapath := { op := 0x40, extra := State.appendReads, data := atAppendData hw, after := appendAfter }

/-- AT_APPEND (R300). -/
def execAtAppend (eng : Eng) (hw : Hw) (s : State) : Out := .next (s.runPath eng.toNat hw (atAppendPath hw))

/-! ### AT_MERGE (R299, R302) -/

/-- A status record as read: M, SUM, ROW_EMPTY, ROW_NAN (R235). -/
structure PartStatus where
  m : Nat
  sum : Nat
  empty : Bool
  nan : Bool
  deriving DecidableEq, Repr

/-- R299 over the parts of one member, query and head: the output lanes, with which of NaN (2), infinity (3) and empty (1)
the row is. -/
def mergeParts (scale lanes : Nat) (ps : List (PartStatus × List Nat)) : List Fp × Nat :=
  let isInf := fun (w : Nat) => f32 w == .inf false
  let div := fun (a b : Fp) =>
    let v := FVal.div (f32 a.1) (f32 b.1)
    (toF32 v, Nat.lor (Nat.lor a.2 b.2) (fpFlags ((f32 a.1).isNaN || (f32 b.1).isNaN) v))
  if ps.any fun p => p.1.nan then ((List.range lanes).map fun _ => (toF32 .nan, 0), 2)
  else if ps.any fun p => isInf p.1.m then
    let hit := ps.filter fun p => isInf p.1.m
    let den := hit.foldl (fun (a : Fp) p => Fp.add a (p.1.sum, 0)) (0, 0)
    ((List.range lanes).map fun l => div (hit.foldl (fun (a : Fp) p => Fp.add a (nthD p.2 l, 0)) (0, 0)) den, 3)
  else if ps.all fun p => p.1.empty then ((List.range lanes).map fun _ => (0, 0), 1)
  else
    let live := ps.filter fun p => !p.1.empty
    let mx := live.foldl (fun (a : Option Nat) p => match a with
      | none => some p.1.m
      | some b => if fpBelow b p.1.m then some p.1.m else some b) none
    let fs := live.map fun p =>
      let d := vxFloat 0x02 p.1.m (mx.getD 0) 0
      let t := vxFloat 0x03 d.1 scale 0
      let f := vxFloat 0x20 t.1 0 0
      (f.1, Nat.land (Nat.lor d.2 (Nat.lor t.2 f.2)) (oneFlag flFpInvalid + oneFlag flFpOverflow))
    let term := fun (f : Fp) (w : Nat) =>
      let r := fpMul f.1 w
      (r.1, Nat.lor f.2 r.2)
    let den := (fs.zip live).foldl (fun (a : Fp) p => Fp.add a (term p.1 p.2.1.sum)) (0, 0)
    ((List.range lanes).map fun l =>
      div ((fs.zip live).foldl (fun (a : Fp) p => Fp.add a (term p.1 (nthD p.2.2 l))) (0, 0)) den, 0)

/-- AT_MERGE's datapath. -/
def atMergeData (hw : Hw) (s : State) (c : Cmd) : Result :=
  let d := c.desc
  let o := fun k => c.ops.getD k {}
  let k := (s.atModel d).cache
  let n := d.param 4 9 * d.param 13 10 * k.heads
  let parts := d.param 23 7
  let wide := (k.headDim + 127) / 128
  let f := (o 2).format
  let rows := (List.range n).map fun i =>
    let ps := (List.range parts).map fun p =>
      let r := s.vecRec (o 0) 16 (p * n + i)
      let os := (s.opRows (o 1) ((o 1).off + (p * n + i) * (o 1).stride) wide)
      (PartStatus.mk (leAt r 0 4) (leAt r 4 4) (bitAt (leAt r 8 1) 0) (bitAt (leAt r 8 1) 1),
       (List.range k.headDim).map fun l => leAt os (4 * l) 4)
    let r := mergeParts (d.param 32 32) k.headDim ps
    let st := r.1.map fun v =>
      let t := vxStore f v.1
      (t.1, Nat.lor v.2 t.2.1)
    (i, st.map (·.1), Nat.lor (fpOr st)
      (if r.2 = 1 then oneFlag flRowEmpty else if r.2 = 2 then oneFlag flRowNan else if r.2 = 3 then oneFlag flRowInf else 0))
  { flags := flagIf hw.residue.isSome flAtResidue ((rows.map (·.2.2)).foldl Nat.lor 0)
    rows := rows.flatMap fun r => (List.range (rowsForBits (k.headDim * f.width))).map fun b =>
      (2, (o 2).off + r.1 * (o 2).stride + b, f.pack ((r.2.1.drop (b * f.perRow)).take f.perRow)) }

/-- What an AT_MERGE reads and computes. -/
def atMergePath (hw : Hw) : Datapath := { op := 0x43, data := atMergeData hw }

/-- AT_MERGE (R299). -/
def execAtMerge (eng : Eng) (hw : Hw) (s : State) : Out := .next (s.runPath eng.toNat hw (atMergePath hw))

end Sys2Proof.Machine
end

