-- ==== Sys2Proof/Machine/Blob.lean ====
section
/-! DEFINITION. State blobs and the freeze of a migration (R63 to R67, R468). -/

namespace Sys2Proof.Machine

/-! ### The committed planes -/

/-- A row of a stream's committed state planes: in Sc when the stream is resident, else in Mc (R45). -/
def State.committedRow (s : State) (sid : Nat) (st : Stream) (r : Nat) : List Byte :=
  if st.slot.isSome then s.readRow (s.bufRow st st.cr.cur + r)
  else Mem.readBytes s.str.mirror (mirrorAddr sid st.cr.cur + r * 512) 512

/-- The model that the stream ran at its last committed chunk, its own before the first (R66, R418). -/
def Stream.lastModel (st : Stream) : Nat := if st.cr.committed then st.cr.model else st.cfg.model

/-- Repairs the committed copies that a capture reads (R432, R433). -/
def State.repairCommitted (s : State) (sid : Nat) : State := (s.restoreS sid 2).restoreM sid 3

/-! ### The blob (R65, R66) -/

/-- The bytes of a page with those of positions at or beyond `n` of the page set to 0. -/
def State.exportPage (s : State) (k : CacheDesc) (page n : Nat) : List Byte :=
  let bs := s.pageBytes page
  let sec := k.tokensPerPage * k.latBytes
  (List.range (32768 / sec)).flatMap fun y =>
    (bs.drop (y * sec)).take (n * k.latBytes) ++ List.replicate (sec - n * k.latBytes) 0

/-- The committed pages of a stream's sequence, in table order. -/
def State.exportPages (s : State) (m : ModelSlot) (t : PageTable) : List (List Byte) :=
  let tp := m.cache.tokensPerPage
  (List.range (pagesFor tp t.committedLen)).map fun i =>
    s.exportPage m.cache ((t.entries.getD i {}).page) (Nat.min tp (t.committedLen - i * tp))

/-- The committed table of a stream: that of beam 0. -/
def State.streamTable (s : State) (sid : Nat) : PageTable := ((s.seq? (sid * 8)).map (·.table)).getD {}

/-- The blob of a stream. DESIGN CHOICE: after the commit of chunk 2^32 - 1 the count of chunks is 2^32, of which STEP_COUNT, whose
bits [63:32] are 0, holds the low 32 bits; EXPORT_DONE reports the count itself. -/
def State.blobOf (s : State) (sid : Nat) (st : Stream) : List Byte :=
  let m := s.model st.lastModel
  let t := s.streamTable sid
  let pages := if m.usesAt then s.exportPages m t else []
  let rows := m.stateRows + m.residualRows
  let body := leBytes 4 0x4254535A ++ leBytes 2 0x0100
    ++ leBytes 2 (b2n (decide (0 < m.residualRows)) + 2 * b2n st.cfg.carried)
    ++ slice m.pkg 0x08 32 ++ slice m.pkg 0x28 16 ++ leBytes 8 (st.nextSeq % 2 ^ 32) ++ leBytes 8 st.samplePos
    ++ leBytes 4 m.stateRows ++ leBytes 4 m.residualRows ++ leBytes 4 pages.length
    ++ leBytes 4 (if m.usesAt then t.committedLen else 0) ++ leBytes 2 (st.cfg.chunkMs / 10) ++ leBytes 2 (st.cfg.lookMs / 10)
    ++ List.replicate 36 0 ++ (List.range rows).flatMap (s.committedRow sid st) ++ pages.flatMap id
  body ++ leBytes 4 (crc32c body)

/-- Whether a stream's sequence must be rebuilt before a capture (R294). -/
def State.mustRebuild (s : State) (sid : Nat) : Bool := ((s.seq? (sid * 8)).map (·.rebuild)).getD false

/-- Whether the capture of the oldest export of a stream may be taken: every chunk of its boundary has committed, no commit
is in progress, and no page is to be rebuilt (R63, R294). -/
def State.captureReady (s : State) (sid : Nat) (st : Stream) : Bool :=
  match st.exports with
  | e :: _ => !e.captured && decide (e.boundary ≤ st.nextSeq) && st.cr.step == 0 && !s.mustRebuild sid
  | [] => false

/-! ### The freeze of a migration (R24, R69, R468) -/

/-- A MIG frame. -/
def migFrame (vc txn subtype : Nat) (body : List Byte) : Frame :=
  { vc := vc, type := 0xD, txn := txn, payload := leBytes 1 subtype ++ body }

/-- The payload of OFFER after its subtype: source stream, STEP_COUNT, blob length. -/
def offerBody (sid steps len : Nat) : List Byte := leBytes 2 sid ++ leBytes 8 steps ++ leBytes 4 len

/-- Sends OFFER for a migration of this device. -/
def State.sendOffer (s : State) (m : Migration) : State :=
  let steps := ((s.stream? m.sid).map (·.nextSeq)).getD 0
  s.send m.port (migFrame 0 m.txn 0x01 (offerBody m.sid steps m.blob.length))

/-- A stream reaches the boundary of a MIGRATE_OUT: it becomes MIGRATING with its blob staged, later exports are refused,
and OFFER is sent (R63, R64, R69, R468). -/
def State.freezeStream (s : State) (sid : Nat) (e : ExportReq) : State :=
  let s1 := s.repairCommitted sid
  match s1.stream? sid with
  | none => s1
  | some st =>
    if st.state = .lost then s1
    else
      let s2 := s1.refuseExports sid (st.exports.drop 1)
      let blob := s2.blobOf sid st
      let s3 := s2.modStream sid fun x => { x with state := .migrating, exports := [{ e with captured := true, blob := blob }] }
      match s3.portTo e.dest with
      | none =>
        let m : Migration := { sid := sid, source := true, port := 7, firstOffer := s3.now, blob := blob, blobLen := blob.length }
        { s3 with xr := { s3.xr with migs := s3.xr.migs ++ [m] } }
      | some p =>
        let x := s3.port p
        let m : Migration := { sid := sid, source := true, port := p, txn := x.nextTxn, firstOffer := s3.now
                               blob := blob, blobLen := blob.length }
        let s4 := s3.setPort p { x with nextTxn := (x.nextTxn + 1) % 1024 }
        ({ s4 with xr := { s4.xr with migs := s4.xr.migs ++ [m] } }).sendOffer m

/-- Freezes a stream whose oldest export is a MIGRATE_OUT at its boundary. -/
def State.settleMigrate (s : State) (sid : Nat) : State :=
  match s.stream? sid with
  | none => s
  | some st =>
    match st.exports with
    | e :: _ =>
      if e.opcode = 0x22 ∧ s.captureReady sid st ∧ (st.state = .active ∨ st.state = .idle ∨ st.state = .parked) then
        s.freezeStream sid e
      else s
    | [] => s

end Sys2Proof.Machine
end

