-- ==== Sys2Proof/Machine/Token.lean ====
section
/-! DEFINITION. The token units: TK_SELECT, TK_TOPK, TK_VERIFY, TK_PREFIX, TK_DETOK (chapter "Token stage, provisional output
and egress", R305 to R317, and R350). -/

namespace Sys2Proof.Machine

/-! ### The chunks of a command -/

/-- The chunks of a command's members, with their streams (R341). -/
def State.cmdChunks (s : State) (d : Desc) : List (Nat × Chunk) :=
  (s.members d).filterMap fun m => (s.chunkByWord? m.1 m.2).map fun c => (m.1, c)

/-- The first chunk of a command. -/
def State.cmdChunk (s : State) (d : Desc) : Option (Nat × Chunk) := (s.cmdChunks d).head?

/-- Changes the chunk of every member of a command, by the token descriptor of the model that the chunk runs. -/
def State.eachChunk (s : State) (d : Desc) (f : TokenDesc → Chunk → Chunk) : State :=
  (s.cmdChunks d).foldl (fun t m =>
    let slot := m.2.model.getD (((s.stream? m.1).map (·.cfg.model)).getD 0)
    t.modChunk m.1 m.2.no (f (s.model slot).table.token)) s

/-! ### Selection (R307, R308) -/

/-- Logit row `r` as binary32 words (R307). -/
def State.logits (s : State) (o : Operand) (vocab r : Nat) : List Nat :=
  let f := o.format
  let per := rowsForBits (vocab * f.width)
  let stride := if o.stride = 0 then per else o.stride
  ((f.unpack (s.opRows o (o.off + r * stride) per)).take vocab).map (vxLoad f)

/-- Whether an entry can be selected: it exceeds -∞, a NaN counting as -∞. -/
def selectable (w : Nat) : Bool := !(f32 w).isNaN && f32 w != .inf true

/-- The largest entry, the lowest index among equals; none when no entry exceeds -∞ (R307). -/
def selectMax (l : List Nat) : Option Nat :=
  ((List.range l.length).zip l).foldl (fun (b : Option (Nat × Nat)) p =>
    if !selectable p.2 then b
    else
      match b with
      | none => some p
      | some q => if flt q.2 p.2 then some p else b) none |>.map (·.1)

/-- The flags of selections over rows (R307). -/
def selectFlags (rows : List (List Nat)) (empty : Bool) : Nat :=
  flagIf (rows.any fun l => l.any fun w => (f32 w).isNaN) flLogitNan (flagIf empty flRowEmpty 0)

/-- The labels that CTC collapse emits, and the last label (R309). -/
def ctcCollapse (blank : Nat) : Nat → List Nat → List Nat × Nat
  | prev, [] => ([], prev)
  | prev, l :: ls =>
    let r := ctcCollapse blank l ls
    (if l ≠ blank ∧ l ≠ prev then l :: r.1 else r.1, r.2)

/-- The rows that a TK_SELECT reads. -/
def State.selectRows (s : State) (c : Cmd) : List (List Nat) :=
  (List.range (c.desc.param 17 13)).map fun r => s.logits (c.ops.getD 0 {}) (c.desc.param 0 17) r

/-- What a TK_SELECT selects, row by row: BLANK_ID for an empty row. -/
def State.selectLabels (s : State) (c : Cmd) : List Nat := (s.selectRows c).map fun r => (selectMax r).getD (c.desc.param 48 16)

/-- The labels that a collapsing TK_SELECT emits, and the last frame's label. -/
def collapseOf (d : Desc) (labels : List Nat) : List Nat × Nat :=
  ctcCollapse (d.param 48 16) (if d.param 31 1 = 1 then d.param 32 16 else d.param 48 16) labels

/-- TK_SELECT's datapath (R307, R309, R350). -/
def tkSelectData (s : State) (c : Cmd) : Result :=
  let d := c.desc
  let o := fun k => c.ops.getD k {}
  let rows := s.selectRows c
  let labels := s.selectLabels c
  let out :=
    if d.param 30 1 = 1 then
      let r := collapseOf d labels
      leBytes 4 r.1.length ++ leBytes 2 r.2 ++ leBytes 2 0 ++ r.1.flatMap (leBytes 2)
    else labels.flatMap (leBytes 2)
  { flags := selectFlags rows (rows.any fun r => (selectMax r).isNone), narrow := [(1, (o 1).off, 0, out)] }

/-- One selection of a transducer: BLANK_ID ends the frame, and so does the SYM_MAX-th symbol, which is counted (R309). -/
def Decoding.symbol (t : TokenDesc) (x : Decoding) (l : Nat) : Decoding :=
  if l = t.blankId then { x with frameSyms := 0 }
  else if t.symMax ≤ x.frameSyms + 1 then { x with tokens := x.tokens ++ [l], frameSyms := 0, symLimits := x.symLimits + 1 }
  else { x with tokens := x.tokens ++ [l], frameSyms := x.frameSyms + 1 }

/-- One step of an attention decoder: END_ID ends the chunk and is not emitted, and the STEP_MAX-th token ends it (R309). -/
def Decoding.attend (t : TokenDesc) (x : Decoding) (l : Nat) : Decoding :=
  if x.done then x
  else if l = t.endId then { x with done := true }
  else { x with tokens := x.tokens ++ [l], done := decide (t.stepMax ≤ x.tokens.length + 1) }

/-- What a TK_SELECT adds to a chunk's decoding (R309). -/
def Decoding.select (t : TokenDesc) (d : Desc) (labels : List Nat) (x : Decoding) : Decoding :=
  if d.param 30 1 = 1 then
    let r := collapseOf d labels
    { x with label := some r.2, tokens := if t.select = .ctcGreedy then x.tokens ++ r.1 else x.tokens }
  else
    match t.select with
    | .ctcGreedy => { x with label := labels.getLast?.or x.label }
    | .rnntGreedy => labels.foldl (Decoding.symbol t) x
    | .attnGreedy => labels.foldl (Decoding.attend t) x
    | _ => x

/-- The drafts that a chunk may have: at most DRAFT_MAX as it began formation and STEP_MAX, ended before END_ID (R316, R318). -/
def Chunk.limitDrafts (c : Chunk) (t : TokenDesc) (l : List Nat) : List Nat :=
  (l.takeWhile (· != t.endId)).take (Nat.min c.draftMax t.stepMax)

/-- What a TK_SELECT leaves with its chunks: their decoding, and the drafts that a CTC head gives (R309, R316). -/
def tkSelectAfter (v : State) (c : Cmd) (s : State) : State :=
  let labels := v.selectLabels c
  s.eachChunk c.desc fun t k =>
    { k with dec := k.dec.select t c.desc labels
             drafts := if t.draftHead ∧ c.desc.param 30 1 = 1 then k.limitDrafts t (collapseOf c.desc labels).1 else k.drafts }

/-- What a TK_SELECT reads and computes. -/
def tkSelectPath : Datapath := { op := 0x50, data := tkSelectData, after := tkSelectAfter }

/-- TK_SELECT (R307, R309). -/
def execTkSelect (eng : Eng) (hw : Hw) (s : State) : Out := .next (s.runPath eng.toNat hw tkSelectPath)

/-- Puts a pair in its place: descending value, ties to the lower index, which came first (R308). -/
def insertPair (p : Nat × Nat) : List (Nat × Nat) → List (Nat × Nat)
  | [] => [p]
  | q :: qs => if flt q.1 p.1 then p :: q :: qs else q :: insertPair p qs

/-- The k best pairs (value, index) of a row (R308). -/
def topPairs (k : Nat) (l : List Nat) : List (Nat × Nat) :=
  let best := ((List.range l.length).zip l).foldl (fun b p =>
    if selectable p.2 then (insertPair (p.2, p.1) b).take k else b) []
  best ++ List.replicate (k - best.length) (toF32 (.inf true), 0xFFFFFFFF)

/-- TK_TOPK's datapath (R308). -/
def tkTopkData (s : State) (c : Cmd) : Result :=
  let d := c.desc
  let o := fun k => c.ops.getD k {}
  let rows := s.selectRows c
  { flags := selectFlags rows false
    narrow := (List.range rows.length).map fun r =>
      (1, (o 1).off + r * Nat.max 1 (o 1).stride, 0,
       (topPairs (d.param 30 7) (rows.getD r [])).flatMap fun p => leBytes 4 p.1 ++ leBytes 4 p.2) }

/-- A candidate of an expansion: its score, the beam it extends, its token; a finished hypothesis stands for itself under END_ID
(DEDUCED, log 50). -/
abbrev Candidate := Nat × Hypothesis × Nat

/-- The candidates of one hypothesis by rising token index: `pairs` are its K best. -/
def candidatesOf (endId : Nat) (h : Hypothesis) (pairs : List (Nat × Nat)) : List Candidate :=
  if h.finished then [(h.score, h, endId)]
  else
    let byToken := pairs.foldl (fun (l : List (Nat × Nat)) p => (l.takeWhile (·.2 < p.2)) ++ p :: l.dropWhile (·.2 < p.2)) []
    (byToken.filter (·.2 != 0xFFFFFFFF)).map fun p => (fadd h.score p.1, h, p.2)

/-- Puts a candidate behind those that score at least as much. -/
def insertCandidate (p : Candidate) : List Candidate → List Candidate
  | [] => [p]
  | q :: qs => if flt q.1 p.1 then p :: q :: qs else q :: insertCandidate p qs

/-- Deals the pairs of the rows out to the hypotheses that are not finished, in beam order. -/
def dealRows : List Hypothesis → List (List (Nat × Nat)) → List (Hypothesis × List (Nat × Nat))
  | [], _ => []
  | h :: hs, rows => if h.finished then (h, []) :: dealRows hs rows else (h, rows.headD []) :: dealRows hs rows.tail

/-- One expansion of a beam search (R310). -/
def Decoding.expand (t : TokenDesc) (rows : List (List (Nat × Nat))) (x : Decoding) : Decoding :=
  if x.done then x
  else
    let all := (dealRows x.beams rows).flatMap fun b => candidatesOf t.endId b.1 b.2
    let beams := ((all.foldl (fun l p => insertCandidate p l) []).take t.beams).map fun (p : Candidate) =>
      if p.2.1.finished then p.2.1
      else if p.2.2 = t.endId then { p.2.1 with score := p.1, finished := true }
      else { score := p.1, ids := p.2.1.ids ++ [p.2.2] }
    { x with beams := beams, steps := x.steps + 1
             done := decide (t.stepMax ≤ x.steps + 1) || ((beams.head?).map (·.finished)).getD true }

/-- The beam of the highest-scoring hypothesis, the lower number among equals (R310). -/
def Decoding.winner (x : Decoding) : Nat :=
  (((List.range x.beams.length).zip x.beams).foldl (fun (b : Option (Nat × Nat)) p => match b with
    | none => some (p.1, p.2.score)
    | some q => if flt q.2 p.2.score then some (p.1, p.2.score) else b) none).elim 0 (·.1)

/-- What a TK_TOPK leaves with its chunks: an expansion of a beam search (R310). -/
def tkTopkAfter (v : State) (c : Cmd) (s : State) : State :=
  let rows := (v.selectRows c).map (topPairs (c.desc.param 30 7))
  s.eachChunk c.desc fun t k =>
    if t.select = .attnBeam ∧ c.desc.param 30 7 = t.beams then { k with dec := k.dec.expand t rows } else k

/-- What a TK_TOPK reads and computes. -/
def tkTopkPath : Datapath := { op := 0x51, data := tkTopkData, after := tkTopkAfter }

/-- TK_TOPK (R308, R310). -/
def execTkTopk (eng : Eng) (hw : Hw) (s : State) : Out := .next (s.runPath eng.toNat hw tkTopkPath)

/-! ### Verification (R316) -/

/-- Token IDs packed from byte 0 of an operand. -/
def State.tokens16 (s : State) (o : Operand) (n : Nat) : List Nat :=
  (List.range n).map fun i => leAt (s.opRow o (o.off + i / 256)) (2 * (i % 256)) 2

/-- The number of leading drafts that the selections confirm. -/
def acceptedCount : List Nat → List Nat → Nat
  | c :: cs, d :: ds => if c = d then acceptedCount cs ds + 1 else 0
  | _, _ => 0

/-- The selections of a verify pass. -/
def State.verifyRows (s : State) (c : Cmd) : List (List Nat) × List (Option Nat) :=
  let rows := (List.range (c.desc.param 17 5)).map fun r => s.logits (c.ops.getD 0 {}) (c.desc.param 0 17) r
  (rows, rows.map selectMax)

/-- TK_VERIFY's datapath (R316, R350). -/
def tkVerifyData (s : State) (c : Cmd) : Result :=
  let d := c.desc
  let o := fun k => c.ops.getD k {}
  let n := d.param 17 5
  let endId := d.param 22 16
  let v := s.verifyRows c
  let cs := v.2.map fun x => x.getD endId
  let a := acceptedCount cs (s.tokens16 (o 1) n)
  let valid := decide (a < n) && nthD cs a != endId
  { flags := selectFlags v.1 (v.2.any (·.isNone))
    narrow := [(2, (o 2).off, 0,
      leBytes 2 a ++ leBytes 2 (if valid then nthD cs a else 0) ++ leBytes 4 (b2n valid) ++ cs.flatMap (leBytes 2))] }

/-- What a verify pass makes of a chunk's decoding: the accepted drafts, then the correction; END_ID in its place ends the chunk
(R316). -/
def Decoding.verify (t : TokenDesc) (drafts cs : List Nat) (x : Decoding) : Decoding :=
  let a := acceptedCount cs drafts
  let kept := { x with tokens := drafts.take a, done := decide (t.stepMax ≤ a) }
  if a < drafts.length then kept.attend t (nthD cs a) else kept

/-- What a TK_VERIFY leaves with its chunks: their drafts, how many were accepted, and the decoding (R316). -/
def tkVerifyAfter (v : State) (c : Cmd) (s : State) : State :=
  let ds := v.tokens16 (c.ops.getD 1 {}) (c.desc.param 17 5)
  let cs := (v.verifyRows c).2.map fun y => y.getD (c.desc.param 22 16)
  s.eachChunk c.desc fun t k =>
    { k with drafts := k.limitDrafts t ds, accepted := acceptedCount cs (k.limitDrafts t ds), dec := k.dec.verify t (k.limitDrafts t ds) cs }

/-- What a TK_VERIFY reads and computes. -/
def tkVerifyPath : Datapath := { op := 0x52, data := tkVerifyData, after := tkVerifyAfter }

/-- TK_VERIFY (R316): the chunk keeps its drafts and how many of them were accepted, for the commit. -/
def execTkVerify (eng : Eng) (hw : Hw) (s : State) : Out := .next (s.runPath eng.toNat hw tkVerifyPath)

/-! ### Prefix search (R311) -/

/-- A prefix of the search: scores, length, last label, token IDs. -/
structure CtcPrefix where
  b : Nat
  nb : Nat
  last : Nat
  ids : List Nat
  deriving DecidableEq, Repr

/-- -∞ as a binary32 word. -/
def negInf : Nat := 0xFF800000

/-- ladd of R311. -/
def ladd (x y : Nat) : Nat :=
  if x = negInf ∧ y = negInf then negInf
  else
    let mx := fmax x y
    let mn := if mx = x then y else x
    let e := toF32 (exp2Val (f32 (fsub mn mx)))
    fadd mx (toF32 (log2Val (f32 (fadd f32One e))))

/-- Adds a contribution to the prefix with some token IDs, which is created when it is new. -/
def addScore (ids : List Nat) (last : Nat) (blank : Bool) (v : Nat) : List CtcPrefix → List CtcPrefix
  | [] => [if blank then ⟨v, negInf, last, ids⟩ else ⟨negInf, v, last, ids⟩]
  | p :: ps =>
    if p.ids = ids then (if blank then { p with b := ladd p.b v } else { p with nb := ladd p.nb v }) :: ps
    else p :: addScore ids last blank v ps

/-- Sorts by descending score; an earlier prefix stays before an equal one. -/
def insertPrefix (p : CtcPrefix) : List CtcPrefix → List CtcPrefix
  | [] => [p]
  | q :: qs => if flt (ladd q.b q.nb) (ladd p.b p.nb) then p :: q :: qs else q :: insertPrefix p qs

/-- One frame: `score` is row p, `labels` the labels in pair order. The answer tells whether a prefix was too long to
extend. -/
def prefixFrame (blank beams : Nat) (score : Nat → Nat) (labels : List Nat) (ps : List CtcPrefix) : List CtcPrefix × Bool :=
  let step0 := ps.foldl (fun acc p => addScore p.ids p.last true (fadd (ladd p.b p.nb) (score blank)) acc) []
  let step := (labels.filter (· != blank)).foldl (fun acc c => ps.foldl (fun acc p =>
    let grow := fun (v : Nat) acc =>
      if p.ids.length < 250 then addScore (p.ids ++ [c]) c false (fadd v (score c)) acc else acc
    if c = p.last then grow p.b (addScore p.ids p.last false (fadd p.nb (score c)) acc)
    else grow (ladd p.b p.nb) acc) acc) step0
  let long := ps.any fun p => decide (250 ≤ p.ids.length)
  ((step.foldl (fun acc p => insertPrefix p acc) []).take beams, long && labels.any (· != blank))

/-- Reads a prefix row (R350). -/
def CtcPrefix.of (row : List Byte) : CtcPrefix :=
  { b := leAt row 0 4, nb := leAt row 4 4, last := leAt row 10 2
    ids := (List.range (Nat.min 250 (leAt row 8 2))).map fun i => leAt row (12 + 2 * i) 2 }

/-- Writes a prefix row. -/
def CtcPrefix.toBytes (p : CtcPrefix) : List Byte :=
  leBytes 4 p.b ++ leBytes 4 p.nb ++ leBytes 2 p.ids.length ++ leBytes 2 p.last ++ p.ids.flatMap (leBytes 2)

/-- The prefixes that PIN holds. A row behind the first with both scores -∞ and no token holds none, and POUT shows places without
a prefix so (DESIGN CHOICE, log 51). -/
def State.prefixesIn (s : State) (c : Cmd) : List CtcPrefix :=
  let o := c.ops.getD 2 {}
  ((List.range (c.desc.param 17 4)).map fun i => (i, CtcPrefix.of (s.opRow o (o.off + i)))).filterMap fun p =>
    if 0 < p.1 ∧ p.2.b = negInf ∧ p.2.nb = negInf ∧ p.2.ids = [] then none else some p.2

/-- The prefixes after a frame, and whether one was too long to extend. -/
def State.prefixesOut (s : State) (c : Cmd) : List CtcPrefix × Bool :=
  let d := c.desc
  let o := fun k => c.ops.getD k {}
  let logits := s.logits (o 0) (d.param 0 17) 0
  let score := fun i =>
    let w := logits.getD i negInf
    if (f32 w).isNaN then negInf else w
  let pairs := (List.range (d.param 17 4)).map fun i => leAt (s.opRow (o 1) (o 1).off) (8 * i + 4) 4
  prefixFrame (d.param 21 16) (d.param 17 4) score (pairs.filter fun i => decide (i < d.param 0 17)) (s.prefixesIn c)

/-- TK_PREFIX's datapath (R311, R350): the prefixes are written also where one was too long to extend. -/
def tkPrefixData (s : State) (c : Cmd) : Result :=
  let d := c.desc
  let o := fun k => c.ops.getD k {}
  let logits := s.logits (o 0) (d.param 0 17) 0
  let r := s.prefixesOut c
  { flags := flagIf r.2 flDescCheck (flagIf (logits.any fun w => (f32 w).isNaN) flLogitNan 0)
    narrow := (List.range (d.param 17 4)).map fun i =>
      (3, (o 3).off + i, 0, (r.1.getD i ⟨negInf, negInf, 0, []⟩).toBytes) }

/-- What a TK_PREFIX leaves with its chunks: the best prefix, and the last frame's label, which is blank unless that prefix ends
in a label more likely than in a blank (DEDUCED, log 52). -/
def tkPrefixAfter (v : State) (c : Cmd) (s : State) : State :=
  match (v.prefixesOut c).1 with
  | [] => s
  | p :: _ => s.eachChunk c.desc fun t k =>
    if t.select = .ctcPrefix then { k with dec := { k.dec with tokens := p.ids, label := some (if flt p.b p.nb then p.last else t.blankId) } }
    else k

/-- What a TK_PREFIX reads and computes. -/
def tkPrefixPath : Datapath := { op := 0x53, data := tkPrefixData, after := tkPrefixAfter }

/-- TK_PREFIX (R311). -/
def execTkPrefix (eng : Eng) (hw : Hw) (s : State) : Out := .next (s.runPath eng.toNat hw tkPrefixPath)

/-! ### Text (R313, R314) -/

/-- The lead byte of a multi-byte sequence: continuation bytes and the bounds of the first. -/
def utf8Lead (b : Nat) : Option (Nat × Nat × Nat) :=
  if 0xC2 ≤ b ∧ b ≤ 0xDF then some (1, 0x80, 0xBF)
  else if b = 0xE0 then some (2, 0xA0, 0xBF)
  else if b = 0xED then some (2, 0x80, 0x9F)
  else if 0xE1 ≤ b ∧ b ≤ 0xEF then some (2, 0x80, 0xBF)
  else if b = 0xF0 then some (3, 0x90, 0xBF)
  else if 0xF1 ≤ b ∧ b ≤ 0xF3 then some (3, 0x80, 0xBF)
  else if b = 0xF4 then some (3, 0x80, 0x8F)
  else none

/-- The continuation bytes that fit, at most `n`. -/
def utf8Cont : Nat → Nat → Nat → List Byte → List Byte
  | 0, _, _, _ => []
  | _, _, _, [] => []
  | n + 1, lo, hi, b :: bs => if lo ≤ b.toNat ∧ b.toNat ≤ hi then b :: utf8Cont n 0x80 0xBF bs else []

/-- U+FFFD. -/
def replacement : List Byte := [0xEF, 0xBF, 0xBD]

/-- Text split into characters: each maximal ill-formed subpart is U+FFFD and is counted, a final incomplete run is held
back (R314). -/
def utf8Split : Nat → List Byte → List (List Byte) × List Byte × Nat
  | 0, _ => ([], [], 0)
  | _, [] => ([], [], 0)
  | n + 1, b :: bs =>
    if b.toNat < 0x80 then
      let r := utf8Split n bs
      ([b] :: r.1, r.2)
    else
      match utf8Lead b.toNat with
      | none =>
        let r := utf8Split n bs
        (replacement :: r.1, r.2.1, r.2.2 + 1)
      | some (need, lo, hi) =>
        let got := utf8Cont need lo hi bs
        if got.length = need then
          let r := utf8Split n (bs.drop need)
          ((b :: got) :: r.1, r.2)
        else if bs.length = got.length then ([], b :: bs, 0)
        else
          let r := utf8Split n (bs.drop got.length)
          (replacement :: r.1, r.2.1, r.2.2 + 1)

/-- The text of a token: a SPECIAL one contributes none (R313, R314). -/
def ModelSlot.tokenText (m : ModelSlot) (id : Nat) : List Byte :=
  let t := m.table.token
  let len := m.field (t.detokOffset + id) 1
  let text := (t.vocab + 63) / 64 * 64
  if bitAt len 6 then [] else slice m.pkg (t.detokOffset + text + 32 * id) (bits len 0 6)

/-- Whole characters that fit into 16 bytes. -/
def fitText : Nat → List (List Byte) → List (List Byte)
  | _, [] => []
  | room, ch :: cs => if ch.length ≤ room then ch :: fitText (room - ch.length) cs else []

/-- Records of tokens and text: each takes up to 8 tokens and the whole characters that fit (R325). -/
def tokenRecs (type sid chunk tag : Nat) : Nat → Nat → List Nat → List (List Byte) → List Rec
  | 0, _, _, _ => []
  | n + 1, pos, toks, chars =>
    if toks = [] ∧ chars = [] then []
    else
      let t := toks.take 8
      let cs := fitText 16 chars
      tokensRec type sid chunk tag pos t (cs.flatMap id)
        :: tokenRecs type sid chunk tag n ((pos + t.length) % 2 ^ 32) (toks.drop 8) (chars.drop cs.length)

/-- Every record of a run of tokens and text. -/
def tokenRun (type sid chunk tag pos : Nat) (toks : List Nat) (chars : List (List Byte)) : List Rec :=
  tokenRecs type sid chunk tag (toks.length + chars.length) pos toks chars

/-! ### Token context (R312) -/

/-- The fields of a token context. -/
structure TokenCtx where
  nextPos : Nat := 0
  lastLabel : Nat := 0
  lastToken : Nat := 0
  flags : Nat := 0
  hold : List Byte := []
  outPos : Nat := 0
  deriving DecidableEq, Repr

/-- Reads a context row. -/
def TokenCtx.of (row : List Byte) : TokenCtx :=
  { nextPos := leAt row 0 4, lastLabel := leAt row 4 2, lastToken := leAt row 6 2, flags := leAt row 8 1 % 4
    hold := slice row 0xA (Nat.min 3 (leAt row 9 1)), outPos := leAt row 0x10 8 }

/-- Writes a context row. -/
def TokenCtx.toBytes (c : TokenCtx) : List Byte :=
  leBytes 4 c.nextPos ++ leBytes 2 c.lastLabel ++ leBytes 2 c.lastToken ++ leBytes 1 c.flags ++ leBytes 1 c.hold.length
    ++ slice c.hold 0 3 ++ leBytes 3 0 ++ leBytes 8 c.outPos ++ List.replicate 488 0

/-- What TK_DETOK forms: records, new context, substitutions (R314, R315). -/
structure Detok where
  recs : List Rec
  ctx : TokenCtx
  replaced : Nat
  deriving DecidableEq, Repr

/-- The commit text of tokens over a context. FLUSH turns what is held into one U+FFFD without tokens (R315). -/
def detok (m : ModelSlot) (sid chunk : Nat) (toks : List Nat) (flush : Bool) (c : TokenCtx) : Detok :=
  let bytes := c.hold ++ toks.flatMap m.tokenText
  let r := utf8Split bytes.length bytes
  let pos := (c.nextPos + toks.length) % 2 ^ 32
  let flushed := flush && !r.2.1.isEmpty
  let c1 := { c with nextPos := pos, hold := if flushed then [] else r.2.1 }
  let c2 := match toks.getLast? with
    | some t => { c1 with lastToken := t, flags := c1.flags % 2 + 2 }
    | none => c1
  { recs := tokenRun 0x01 sid chunk 0 c.nextPos toks r.1
      ++ (if flushed then [tokensRec 0x01 sid chunk 0 pos [] replacement] else [])
    ctx := c2, replaced := r.2.2 + b2n flushed }

/-- A context with the label of a chunk's last CTC frame (R312). -/
def TokenCtx.withLabel (x : TokenCtx) (l : Option Nat) : TokenCtx :=
  match l with
  | some l => { x with lastLabel := l, flags := x.flags / 2 * 2 + 1 }
  | none => x

/-- The token IDs that a TK_DETOK commits. -/
def State.detokTokens (s : State) (c : Cmd) : List Nat := s.tokens16 (c.ops.getD 0 {}) (c.desc.param 0 13)

/-- What a TK_DETOK forms for a chunk of a stream. -/
def State.detokOf (s : State) (c : Cmd) (m : Nat × Chunk) : Detok :=
  detok (s.model (c.desc.param 14 6)) m.1 m.2.no (s.detokTokens c) (c.desc.param 13 1 == 1)
    ((TokenCtx.of (s.opRow (c.ops.getD 1 {}) (c.ops.getD 1 {}).off)).withLabel m.2.dec.label)

/-- The chunks for which a TK_DETOK forms records; one of its descriptor's words where none is alive. -/
def State.detokChunks (s : State) (c : Cmd) : List (Nat × Chunk) :=
  match s.cmdChunks c.desc with
  | [] => [(c.desc.stream, { sid := c.desc.stream, no := c.desc.chunk })]
  | l => l

/-- TK_DETOK's datapath: the new context and the staged records, 8 to a row, a batch's member by member (R312, R314, R350). -/
def tkDetokData (s : State) (c : Cmd) : Result :=
  let o := fun k => c.ops.getD k {}
  let rs := (s.detokChunks c).map (s.detokOf c)
  let recs := rs.flatMap (·.recs)
  if (o 3).bound < (o 3).off + (recs.length + 7) / 8 then { flags := oneFlag flHandleBound }
  else { narrow := [(2, (o 2).off, 0, ((rs.map fun (r : Detok) => r.ctx).headD {}).toBytes), (3, (o 3).off, 0, recs.flatMap Rec.toBytes)] }

/-- What a TK_DETOK leaves with its chunks: their committed tokens and their staged records. -/
def tkDetokAfter (v : State) (c : Cmd) (s : State) : State :=
  (v.cmdChunks c.desc).foldl (fun t m => t.modChunk m.1 m.2.no fun k =>
    { k with committedTokens := v.detokTokens c, staged := (v.detokOf c m).recs, replaced := (v.detokOf c m).replaced }) s

/-- What a TK_DETOK reads and computes. -/
def tkDetokPath : Datapath := { op := 0x54, data := tkDetokData, after := tkDetokAfter }

/-- TK_DETOK (R314): the chunk keeps its committed tokens and its staged records. -/
def execTkDetok (eng : Eng) (hw : Hw) (s : State) : Out := .next (s.runPath eng.toNat hw tkDetokPath)

end Sys2Proof.Machine
end

