-- ==== Sys2Proof/Machine/Commit.lean ====
section
/-! DEFINITION. The chunk commit and its six steps, abort and replay (R153, R315, R327, R332, R389, R390, R418 to
R429). -/

namespace Sys2Proof.Machine

/-! ### Records of a commit (R327) -/

/-- The token context of a stream's committed state, and the context row of a buffer. -/
def State.committedCtx (s : State) (sid : Nat) (st : Stream) : TokenCtx :=
  TokenCtx.of (s.committedRow sid st (s.model st.cfg.model).table.token.tokctxRow)

/-- Encodes samples in an output format: the bytes and how many were clipped (R330). -/
def encodeRun (format : Nat) (ws : List Nat) : List Byte × Nat :=
  ws.foldl (fun acc w =>
    let e := encodeSample format w
    (acc.1 ++ e.1, acc.2 + b2n e.2)) ([], 0)

/-- The records that a drain publishes between the last commit's output and CLOSED: held UTF-8 bytes become one U+FFFD
(R315), a synthesis stream's tail one AUDIO_OUT (R332). -/
def State.drainRecs (s : State) (sid : Nat) (st : Stream) : List (Rec × List Byte) :=
  let m := s.model st.cfg.model
  let ctx := s.committedCtx sid st
  if m.kind = 2 then
    let t := m.table.token
    let n := t.olaFrame - t.olaHop
    let bs := (List.range (rowsForBits (n * 32))).flatMap fun i => s.committedRow sid st (t.olaRow + i)
    let run := encodeRun st.cfg.outFormat ((List.range n).map fun i => leAt bs (4 * i) 4)
    [(audioRec sid st.lastChunk run.1.length ctx.outPos st.cfg.outFormat true run.2, run.1)]
  else if ctx.hold = [] then []
  else [(tokensRec 0x01 sid st.lastChunk 0 ctx.nextPos [] replacement, [])]

/-- Counts the U+FFFD of a drain (R315). -/
def State.countDrain (s : State) (sid : Nat) (rs : List (Rec × List Byte)) : State :=
  if rs.any fun r => r.1.type == 0x01 then
    (s.incObj 0x2C00 7).modStream sid fun x => { x with utf8Replaced := (x.utf8Replaced + 1) % 2 ^ 32 }
  else s

/-- The drafts of a range that a commit keeps: those accepted, none when the chunk's drafts are not the range's
(R321, R322). -/
def Ledger.kept (l : Ledger) (c : Chunk) : Nat := if l.drafts = c.drafts then c.accepted else 0

/-- Events of a commit, as item 6 of R327. -/
def closeRecs (sid : Nat) (st : Stream) (c : Chunk) : List (Rec × List Byte) :=
  if c.closeKind = 1 then [(eventRec sid c.no 0x04 0 0 0 0, [])]
  else if st.exports ≠ [] ∧ c.closeKind ≠ 0 then []
  else if c.closeKind = 2 ∨ c.closeKind = 4 then [(eventRec sid c.no 0x03 0 0x11 (st.closing.getD 0) 0, [])]
  else if c.closeKind = 3 then [(eventRec sid c.no 0x11 0 0 0 0, []), (eventRec sid c.no 0x03 0 0 0 0, [])]
  else []

/-- The GAP records of a chunk: its gaps in order, then that of a lost input (R80, R443). -/
def gapRecs (st : Stream) (c : Chunk) : List GapRec :=
  c.gaps ++ (if c.zeroed then [⟨st.cfg.chunkMs * 1000000, c.owned, c.start⟩] else [])

/-- The records of a stream's commit in progress, in the order of R327. -/
def State.commitRecs (s : State) (sid : Nat) (st : Stream) (c : Chunk) : List (Rec × List Byte) :=
  let m := s.model st.cr.model
  let resolve := match st.eg.ledger with
    | some l => [(l.record sid (l.kept c), [])]
    | none => []
  let fb := match c.fallback with
    | some f => [(fallbackRec sid c.no f.1 f.2.1 f.2.2.1 f.2.2.2, [])]
    | none => []
  let out := if m.kind = 2 then
      [(audioRec sid c.no c.audio.length c.outPos st.cfg.outFormat false c.audioClipped, c.audio)]
    else (if c.staged = [] then c.stagedCopy else c.staged).map fun r => (r, [])
  let late := if c.deadline < st.lastCommitTime then [(lateRec sid c.no st.lastCommitTime c.deadline, [])] else []
  (resolve ++ fb ++ (gapRecs st c).map (fun g => (gapRec sid c.no g, [])) ++ out
    ++ (if c.closeKind = 2 then s.drainRecs sid st else []) ++ late ++ closeRecs sid st c).map
      fun (r : Rec × List Byte) => ({ r.1 with w1 := st.lastCommitTime }, r.2)

/-! ### Steps 5 and 6 (R153, R389, R390, R399, R425) -/

/-- Batches of which no member is alive end, and their reservations with them, the receive descriptors among them (R399). -/
def State.endBatches (s : State) : State :=
  let alive := fun (b : Nat × Batch) => b.2.members.any fun m => (s.chunk? m.1 m.2).isSome
  let ended := (s.str.batches.filter fun b => !alive b).map (·.1)
  State.cancelRx { s with str := { s.str with batches := s.str.batches.filter alive } } fun d => d.home && d.batch && ended.contains d.stream

/-- The fallback decision that a commit makes (R389, R390): thresholds were judged as the batch closed. The fallback model is the
one that was in force as the chunk began formation (R58), while the stream still has one. -/
def Stream.judge (st : Stream) (c : Chunk) (hyst : Nat) : Stream :=
  match c.slack with
  | none => st
  | some (ns, ok) =>
    let us := Int.tdiv ns 1000
    if st.onFallback then
      (if !ok then { st with hyst := 0 }
       else if st.hyst + 1 < hyst then { st with hyst := st.hyst + 1 }
       else { st with onFallback := false, hyst := 0, switch := some (st.running, st.cfg.model, true, us) })
    else
      match c.fallbackSlot, st.cfg.fallback with
      | some f, some _ => if ok then st else { st with onFallback := true, hyst := 0, switch := some (st.cfg.model, f, false, us) }
      | _, _ => st

/-- Swaps a stream's state out: both mirror buffers hold it and the slot is free (R48). -/
def State.swapOutState (s : State) (sid : Nat) : State :=
  let s1 := s.restoreS sid 2
  match s1.stream? sid with
  | some st =>
    if st.slot.isSome ∧ st.state ≠ .lost then
      let s2 := s1.copyToMirror sid st st.cr.cur (!st.cr.cur)
      let free := fun (t : State) (n : Bool) => t.setTag (t.bufRow st n / 4) ((t.tag (t.bufRow st n / 4)).set .empty 0)
      (free (free s2 false) true).modStream sid fun x => { x with slot := none }
    else s1
  | none => s1

/-- Appends a commit-log entry; the ring holds 2^20 (R425). -/
def State.logCommit (s : State) (e : LogEntry) : State :=
  { s with str := { s.str with log := pushRing (2 ^ 20) s.str.log e } }

/-- Sets the tag of a stream's current buffer FULL and sticky (R153). -/
def State.openBuffer (s : State) (st : Stream) : State :=
  if st.slot.isSome then
    let t := s.bufRow st st.cr.cur / 4
    s.setTag t ((s.tag t).set .full 0)
  else s

/-- A stream without chunks ends what waited for its last one: a drain closes it, the idle timer makes it IDLE (R24, R25,
R82). An export holds the CLOSED back (R67). -/
def State.settleStream (s : State) (sid : Nat) : State :=
  match s.stream? sid with
  | none => s
  | some st =>
    if s.str.chunks.any fun c => c.sid == sid then s
    else if st.state = .draining then
      let rs := s.drainRecs sid st
      let s1 := (s.countDrain sid rs).modStream sid fun x => { x with state := .closed, slot := none }
      let closed := if st.exports = [] then [(eventRec sid st.lastChunk 0x03 0 0x11 (st.closing.getD 0) 0, [])] else []
      s1.publish st.cfg.part st.cfg.outRing (rs ++ closed)
    else if st.ing.idlePending ∧ st.state = .active then
      ((s.modStream sid fun x => { x with state := .idle, ing := { x.ing with idlePending := false } }).swapOutState
        sid).streamEvent sid 0x04 0 0 0 0
    else s

/-- Steps 5 and 6 of a commit whose records are published: input released, the log entry, STEP 0, the new buffer FULL;
then the next chunk may be placed. -/
def State.finishCommit (s : State) (sid : Nat) (st : Stream) (c : Chunk) (cacheLen n : Nat) : State :=
  let s1 := (s.dropChunk sid c.no).endBatches
  let s2 := s1.logCommit { sid := sid, chunk := c.no, cur := st.cr.cur, cacheLen := cacheLen, recFirst := st.eg.pubNext
                           recCount := n, model := st.cr.model, time := st.lastCommitTime }
  match s2.stream? sid with
  | none => s2
  | some x =>
    let y := x.judge c (s2.inForce 0x2500 3)
    let z := { y with cr := { y.cr with step := 0 }, nextSeq := c.no + 1, samplePos := c.start + c.owned }
    let s3 := (s2.modStream sid fun _ => z).openBuffer y
    let s4 := if x.state = .idle then s3.swapOutState sid else s3.settleStream sid
    s4.settleMigrate sid

/-! ### Step 4 (R321, R327, R328, R424) -/

/-- What step 4 counts (R318, R391, R394). -/
def State.countCommit (s : State) (sid : Nat) (st : Stream) (c : Chunk) : State :=
  let s1 := match st.eg.ledger with
    | some l => s.incObj 0x2C00 (if l.kept c = l.drafts.length then 4 else 5)
    | none => s
  let s2 := if c.fallback.isSome then s1.incObj (0x3000 + st.cfg.part) 4 else s1
  if c.closeKind = 2 then s2.countDrain sid (s2.drainRecs sid st) else s2

/-- Step 4 for a commit that has published nothing yet, none while its records do not fit (R328, R331). A commit already
published goes on (R424). `mark` is that of its records. -/
def State.publishCommit (s : State) (mark sid : Nat) : Option State :=
  match s.stream? sid with
  | none => some s
  | some st =>
    match s.chunk? sid st.cr.commitSeq with
    | none => some s
    | some c =>
      let len := (s.streamTable sid).committedLen
      if st.eg.lastCommit = some c.no then some (s.finishCommit sid st c len 0)
      else
        let rs := s.commitRecs sid st c
        if rs = [] ∨ s.roomFor st.cfg.part st.cfg.outRing rs then
          let s1 := (s.countCommit sid st c).modStream sid fun x =>
            { x with eg := { x.eg with ledger := none, lastCommit := some c.no }, cr := { x.cr with step := 4 } }
          some ((s1.placeAll st.cfg.part st.cfg.outRing mark true rs).finishCommit sid st c len rs.length)
        else none

/-- Places the publications that wait at a ring, strictly in order, as far as room goes (R328). -/
def State.placeWaiting (p ring : Nat) : Nat → State → State
  | 0, s => s
  | n + 1, s =>
    match s.str.waiting.find? fun w => w.part == p && w.ring == ring with
    | none => s
    | some w =>
      let rest := fun (t : State) => { t with str := { t.str with waiting := t.str.waiting.erase w } }
      match w.commit with
      | some sid =>
        match (rest s).publishCommit w.mark sid with
        | some t => State.placeWaiting p ring n t
        | none => s
      | none =>
        if s.roomFor p ring w.recs then State.placeWaiting p ring n ((rest s).placeOwn w) else s

/-- Places what may be placed at a ring. -/
def State.pumpRing (s : State) (p ring : Nat) : State := State.placeWaiting p ring s.str.waiting.length s

/-- A fence that waits for the commit of a stream at its ring waits for the first of its marks. -/
def State.markWaiting (s : State) (sid mark : Nat) : State :=
  let early := fun (x : Waiting) => if x.commit = some sid then { x with mark := Nat.min x.mark mark } else x
  { s with str := { s.str with waiting := s.str.waiting.map early } }

/-- Step 4 of a commit that has done step 3: at once, or in turn at its ring (R328). -/
def State.stepFour (s : State) (mark sid : Nat) : State :=
  match s.stream? sid with
  | none => s
  | some st =>
    let w : Waiting := { part := st.cfg.part, ring := st.cfg.outRing, commit := some sid, mark := mark }
    if s.str.waiting.any fun w => w.commit == some sid then
      State.pumpRing (s.markWaiting sid mark) st.cfg.part st.cfg.outRing
    else if s.ringWaits st.cfg.part st.cfg.outRing then { s with str := { s.str with waiting := s.str.waiting ++ [w] } }
    else (s.publishCommit mark sid).getD { s with str := { s.str with waiting := s.str.waiting ++ [w] } }

/-! ### Step 3 (R282, R285, R310) -/

/-- Token IDs of the positions from `pos` on, of a stream's committed token history (R267). -/
def State.history (s : State) (sid : Nat) (st : Stream) (m : ModelSlot) (pos n : Nat) : List Nat :=
  (List.range n).map fun i => leAt (s.committedRow sid st (m.cache.histRow + (pos + i) / 256)) (2 * ((pos + i) % 256)) 2

/-- Inserts page `i` of a committed table into the prefix tree, and marks its entry SHARED, where R285 allows. -/
def State.insertPage (s : State) (sid : Nat) (st : Stream) (m : ModelSlot) (a : State × PageTable) (i : Nat) :
    State × PageTable :=
  let t := a.2
  let tp := m.cache.tokensPerPage
  let fill := Nat.min tp (t.prefixEnd - i * tp)
  let e := t.entries.getD i {}
  let nodeOf := fun (k : Nat) => (a.1.pg.nodes.find? fun n => n.2.page == (t.entries.getD k {}).page && n.2.slot == t.model).map (·.1)
  let parent := if i = 0 then some 0xFFFFFFFF else nodeOf (i - 1)
  match parent with
  | none => a
  | some par =>
    if t.prefixEnd ≤ i * tp ∨ t.committedLen < i * tp + fill ∨ !e.valid ∨ e.shared then a
    else
      let node : TreeNode := { slot := t.model, part := a.1.treePart t.part, parent := par, page := e.page
                               tokens := s.history sid st m (i * tp) fill, lastUse := a.1.str.useClock }
      if a.1.pg.nodes.any fun n => n.2.key == node.key then a
      else
        let room := if a.1.pg.nodes.length < a.1.obj 0x2A00 1 then some a.1
          else if a.1.obj 0x2A00 1 = 0 then none else a.1.evictNode fun _ => true
        match room with
        | none => a
        | some u =>
          ({ u with pg := { u.pg with nodes := Tbl.put u.pg.nodes u.pg.nextNode node, nextNode := u.pg.nextNode + 1 } },
           { t with entries := t.entries.set i { e with shared := true } })

/-- Step 3: the committed length advances in a new copy of beam 0's table, which takes the winner's entries; the other
beams leave. None while R279 holds the edit back. -/
def State.stepThree (s : State) (sid beam : Nat) (c : Chunk) : Option State :=
  match s.stream? sid, s.seq? (sid * 8) with
  | some st, some q =>
    if !s.mayEdit (sid * 8) then none
    else
      let m := s.model q.table.model
      let tp := m.cache.tokensPerPage
      let w := ((s.seq? (sid * 8 + beam)).getD q).table
      let len := Nat.min w.workLen (q.table.committedLen + c.committedTokens.length)
      let t0 := ({ q.table with entries := w.entries, workLen := w.workLen }).commit q.rebuild tp len (c.no + 1)
      let r := (List.range (pagesFor tp len)).foldl (s.insertPage sid st m) (s, t0)
      let s1 := (r.1.putSeq (sid * 8) { q.publish r.2 with rebuildAt := none }).reclaim (sid * 8) q.cur
      some ((List.range 7).foldl (fun t b => t.endSeq (sid * 8 + b + 1)) s1)
  | _, _ => some s

/-- Steps 3 to 6, as far as they go now. -/
def State.carryCommit (s : State) (sid : Nat) : State :=
  match s.stream? sid with
  | none => s
  | some st =>
    if st.cr.step = 2 then
      match s.chunk? sid st.cr.commitSeq with
      | none => s
      | some c =>
        match s.stepThree sid st.cr.beam c with
        | some t => (t.modStream sid fun x => { x with cr := { x.cr with step := 3 } }).stepFour s.rb.nextSeq sid
        | none => s
    else if st.cr.step = 3 then s.stepFour s.rb.nextSeq sid
    else s

/-! ### Steps 1 and 2 (R46, R390, R391, R419, R422) -/

/-- Whether a chunk of a stream may reach its commit point: it is the next one, it is placed and its state resident, no
export or migration is before it, and none of its commands that write is left (R14, R63, R153). -/
def State.mayCommit (s : State) (st : Stream) (c : Chunk) : Bool :=
  c.phase == .placed && c.no == st.nextSeq && st.cr.step == 0 && st.slot.isSome
    && !(st.exports.any fun e => decide (e.boundary ≤ c.no))
    && (st.state == .active || st.state == .draining)
    && !(s.rb.cmds.any fun x => x.desc.opcode != 0x5A && x.desc.opcode != 0x60 && s.lists x.desc c.sid c.no)

/-- What a chunk's commit makes of its stream. -/
def State.closeKindOf (s : State) (sid : Nat) (st : Stream) (c : Chunk) : Nat :=
  if c.no = 2 ^ 32 - 1 then 3
  else if s.str.chunks.any fun x => x.sid == sid && x.no != c.no then 0
  else if st.state = .draining then 2
  else if st.ing.idlePending then 1
  else 0

/-- What the commit point counts: the commit, a missed deadline, drafts and substitutions (R318, R391, R392, R394). -/
def State.countPoint (s : State) (st : Stream) (c : Chunk) : State :=
  let p := 0x3000 + st.cfg.part
  let s1 := ((((s.addObj64 p 2 1).addObj 0x2C00 2 c.drafts.length).addObj 0x2C00 3 c.accepted).addObj 0x2C00 7 c.replaced)
  if c.deadline < s.now then
    let s2 := s1.incObj p 3
    { s2 with str := { s2.str with missSecond := s2.str.missSecond + 1 } }
  else s1

/-- The commit point: CUR flips, the commit record is written, the stream takes the state that the commit gives it. -/
def State.commitPoint (s : State) (sid beam : Nat) (st : Stream) (c : Chunk) : State :=
  let kind := s.closeKindOf sid st c
  let row := s.bufRow st st.cr.cur + (s.model st.cfg.model).table.token.tokctxRow
  let outPos := (TokenCtx.of (s.readRow row)).outPos
  let s1 := (s.countPoint st c).modChunk sid c.no fun x =>
    { x with phase := .committing, stagedCopy := x.staged, outPos := outPos, closeKind := kind }
  let s2 := if kind = 3 then
      { s1 with str := { s1.str with chunks := s1.str.chunks.filter fun x => x.sid != sid || x.no == c.no } }
    else s1
  s2.modStream sid fun x =>
    { x with cr := { cur := !st.cr.cur, step := 2, committed := true, commitSeq := c.no, model := c.model.getD st.cfg.model
                     staged := c.staged.length, beam := beam }
             lastCommitTime := s.now
             deadlineMisses := if c.deadline < s.now then (x.deadlineMisses + 1) % 2 ^ 32 else x.deadlineMisses
             symLimit := (x.symLimit + c.dec.symLimits) % 2 ^ 32
             utf8Replaced := (x.utf8Replaced + c.replaced) % 2 ^ 32, audioTrunc := (x.audioTrunc + c.trunc) % 2 ^ 32
             ing := { x.ing with idlePending := x.ing.idlePending && kind != 1, buf := if kind = 3 then [] else x.ing.buf }
             state := if kind = 1 then .idle else if 2 ≤ kind then .closed else x.state }

/-- A poisoned row of S(1-c) that the mirror copy meets: the chunk is aborted and replayed (R432). -/
def State.commitFault (s : State) (sid : Nat) (st : Stream) (c : Chunk) : State :=
  let row := s.bufRow st (!st.cr.cur)
    + ((List.range (s.stateRowsOf st)).find? fun i => s.rowPoisoned (s.bufRow st (!st.cr.cur) + i)).getD 0
  let lane := 0x48 + row / 65536
  let s1 := (s.spUncorrected row lane).logFault
    { cls := 2, source := lane, action := 1, stream := sid, chunk := c.no, addr := row }
  ((s1.abortChunk sid c.no 2 false none).incObj 0x4010 8).emcyEvent 0xFF20 [2, lane, 1, 0]

/-- Steps 1 and 2, then what follows: the mirror copy is ordered after every write of the chunk, so what gather ports still hold
of it lands first (R137, R153). -/
def State.beginCommit (s0 : State) (sid beam : Nat) (st : Stream) (c : Chunk) : State :=
  let s := s0.flushOwn sid ((s0.bufRows st (!st.cr.cur)).contains ·)
  if s.bufBad st (!st.cr.cur) then s.commitFault sid st c
  else ((s.copyToMirror sid st (!st.cr.cur) (!st.cr.cur)).commitPoint sid beam st c).carryCommit sid

/-- The beam whose table a chunk's commit takes: the winner of a beam search, beam 0 otherwise (R310). -/
def State.winnerOf (s : State) (st : Stream) (c : Chunk) : Nat :=
  if (s.model (c.model.getD st.cfg.model)).table.token.select = .attnBeam then c.dec.winner else 0

/-- CHUNK_COMMIT: the stream's next chunk commits (R153), or the commit in progress goes on. `beam` must be the beam that the
chunk's search has found (R310). -/
def execChunkCommit (sid : Sid) (beam : BeamNo) (s : State) : Out :=
  match s.stream? sid.val with
  | none => .next s
  | some st =>
    if st.cr.step ≠ 0 then .next (s.carryCommit sid.val)
    else
      match s.chunk? sid.val st.nextSeq with
      | some c => if s.mayCommit st c && beam.val == s.winnerOf st c then .next (s.beginCommit sid.val beam.val st c) else .next s
      | none => .next s

/-! ### Abort and replay (R426 to R429) -/

/-- CHUNK_ABORT: a chunk before its commit point is taken through R427; a replay follows. -/
def execChunkAbort (sid : Sid) (no : Nat) (s : State) : Out := .next (s.abortChunk sid.val no 0 false none)

/-- The input of a chunk whose slot cannot be read is rewritten from the extent; with both copies unreadable it is zeroed
(R432, R443). -/
def State.restoreInput (s : State) (sid no : Nat) : State :=
  match s.chunk? sid no with
  | none => s
  | some c =>
    if !s.slotBad c then s
    else if c.extentBad then
      let s1 := s.writeRows (c.base + 1) (List.replicate (c.rows - 1) (List.replicate 512 0))
      let s2 := s1.writeRow c.base (s.slotHeader c)
      (s2.logFault { cls := 2, action := 6, stream := sid, chunk := no }).modChunk sid no fun x =>
        { x with zeroed := true, extentBad := false
                 extent := s.slotHeader c ++ List.replicate (x.extent.length - 512) 0 }
    else s.writeRows c.base (chunksOf c.rows 512 c.extent)

/-- The Square of a replay: the lowest Square in service other than the one blamed, wherever there is one (R429). -/
def State.replaySquare (s : State) (c : Chunk) : Nat :=
  let ok := fun q => s.inService q && decide (c.blamed ≠ some q)
  if s.inService c.square ∧ c.blamed ≠ some c.square then c.square
  else (firstIndex 8 ok).getD c.square

/-- CHUNK_REPLAY: an aborted chunk with its recorded model is placed again; at its REPLAY_LIMIT-th abort in a row and
after each further one it first waits REPLAY_BACKOFF (R428, R429). -/
def execChunkReplay (sid : Sid) (no : Nat) (s : State) : Out :=
  match s.chunk? sid.val no with
  | none => .next s
  | some c =>
    if c.phase = .ready ∧ 0 < c.aborts ∧ c.model.isSome then
      (if s.obj 0x4010 1 ≤ c.aborts ∧ c.backoffUntil = 0 then
         .next (s.modChunk sid.val no fun x =>
           { x with phase := .backoff, backoffUntil := s.now + s.obj 0x4010 2 * 1000000 })
       else
         let s1 := s.restoreInput sid.val no
         .next (s1.modChunk sid.val no fun x => { x with phase := .placed, placedAt := s.now, square := s.replaySquare c, backoffUntil := 0 }))
    else .next s

/-- REPLAY_BACKOFF_EXPIRY: the replay may be placed (R429). -/
def execReplayBackoffExpiry (sid : Sid) (no : Nat) (s : State) : Out :=
  .next (s.modChunk sid.val no fun x => if x.phase = .backoff then { x with phase := .ready } else x)

end Sys2Proof.Machine
end

