-- ==== Sys2Proof/Machine/Sha.lean ====
section
/-! DEFINITION. SHA-256 (FIPS 180-4), which packages and boot images are checked with (R38, R40, R511). -/

namespace Sys2Proof.Machine

/-- The 64 round constants. -/
def shaK : List (BitVec 32) :=
  [0x428A2F98, 0x71374491, 0xB5C0FBCF, 0xE9B5DBA5, 0x3956C25B, 0x59F111F1, 0x923F82A4, 0xAB1C5ED5]
    ++ [0xD807AA98, 0x12835B01, 0x243185BE, 0x550C7DC3, 0x72BE5D74, 0x80DEB1FE, 0x9BDC06A7, 0xC19BF174]
    ++ [0xE49B69C1, 0xEFBE4786, 0x0FC19DC6, 0x240CA1CC, 0x2DE92C6F, 0x4A7484AA, 0x5CB0A9DC, 0x76F988DA]
    ++ [0x983E5152, 0xA831C66D, 0xB00327C8, 0xBF597FC7, 0xC6E00BF3, 0xD5A79147, 0x06CA6351, 0x14292967]
    ++ [0x27B70A85, 0x2E1B2138, 0x4D2C6DFC, 0x53380D13, 0x650A7354, 0x766A0ABB, 0x81C2C92E, 0x92722C85]
    ++ [0xA2BFE8A1, 0xA81A664B, 0xC24B8B70, 0xC76C51A3, 0xD192E819, 0xD6990624, 0xF40E3585, 0x106AA070]
    ++ [0x19A4C116, 0x1E376C08, 0x2748774C, 0x34B0BCB5, 0x391C0CB3, 0x4ED8AA4A, 0x5B9CCA4F, 0x682E6FF3]
    ++ [0x748F82EE, 0x78A5636F, 0x84C87814, 0x8CC70208, 0x90BEFFFA, 0xA4506CEB, 0xBEF9A3F7, 0xC67178F2]

/-- The initial hash value. -/
def shaInit : List (BitVec 32) :=
  [0x6A09E667, 0xBB67AE85, 0x3C6EF372, 0xA54FF53A, 0x510E527F, 0x9B05688C, 0x1F83D9AB, 0x5BE0CD19]

/-- Word `i` of a list, 0 past its end. -/
def shaAt (l : List (BitVec 32)) (i : Nat) : BitVec 32 := l.getD i 0

/-- The big-endian 32-bit words of bytes. -/
def shaWords (bs : List Byte) : List (BitVec 32) :=
  (List.range 16).map fun i => BitVec.ofNat 32 (leNat (slice bs (4 * i) 4).reverse)

/-- The message schedule: 64 words from the 16 of a block, newest last. -/
def shaSchedule (w : List (BitVec 32)) : List (BitVec 32) :=
  (List.range 48).foldl (fun acc t =>
    let a := shaAt acc (t + 14)
    let b := shaAt acc (t + 1)
    let s1 := a.rotateRight 17 ^^^ a.rotateRight 19 ^^^ (a >>> 10)
    let s0 := b.rotateRight 7 ^^^ b.rotateRight 18 ^^^ (b >>> 3)
    acc ++ [s1 + shaAt acc (t + 9) + s0 + shaAt acc t]) w

/-- One round on the working variables a to h. -/
def shaRound (v : List (BitVec 32)) (kw : BitVec 32) : List (BitVec 32) :=
  let a := shaAt v 0
  let b := shaAt v 1
  let c := shaAt v 2
  let e := shaAt v 4
  let big1 := e.rotateRight 6 ^^^ e.rotateRight 11 ^^^ e.rotateRight 25
  let ch := (e &&& shaAt v 5) ^^^ (~~~e &&& shaAt v 6)
  let t1 := shaAt v 7 + big1 + ch + kw
  let big0 := a.rotateRight 2 ^^^ a.rotateRight 13 ^^^ a.rotateRight 22
  let maj := (a &&& b) ^^^ (a &&& c) ^^^ (b &&& c)
  [t1 + (big0 + maj), a, b, c, shaAt v 3 + t1, e, shaAt v 5, shaAt v 6]

/-- One block of 64 bytes onto a hash value. -/
def shaBlock (h : List (BitVec 32)) (block : List Byte) : List (BitVec 32) :=
  let w := shaSchedule (shaWords block)
  let v := (List.range 64).foldl (fun v t => shaRound v (shaAt shaK t + shaAt w t)) h
  (List.range 8).map fun i => shaAt h i + shaAt v i

/-- The padded message: a one bit, zeros, and the length in bits as 64 big-endian bits. -/
def shaPad (bs : List Byte) : List Byte :=
  let n := bs.length
  bs ++ [0x80] ++ List.replicate ((119 - n % 64) % 64) 0 ++ (leBytes 8 (8 * n)).reverse

/-- The 32 bytes of the SHA-256 digest. -/
def sha256 (bs : List Byte) : List Byte :=
  let m := shaPad bs
  let h := (chunksOf (m.length / 64) 64 m).foldl shaBlock shaInit
  h.flatMap fun w => (leBytes 4 w.toNat).reverse

end Sys2Proof.Machine
end

