-- ==== Sys2Proof/Machine/Package.lean ====
section
/-! DEFINITION. Model packages: the checks of R40, the cost table, fallback compatibility and the feature table. -/

namespace Sys2Proof.Machine

/-- The least multiple of 64 that is at least `n`. -/
def align64 (n : Nat) : Nat := (n + 63) / 64 * 64

/-! ### The cost table (R39, R365 to R367) -/

/-- The cost entries of a package, in its order. -/
def ModelSlot.costs (m : ModelSlot) : List CostEntry :=
  (List.range (m.field 0x7C 4)).map fun i =>
    let o := m.field 0x78 4 + 16 * i
    ⟨m.field o 2, m.field (o + 2) 2, m.field (o + 4) 4, m.field (o + 8) 4, m.field (o + 12) 4⟩

/-- The listed length that a prediction for length `l` uses: `l` or the smallest above it, else the largest (R365). -/
def ModelSlot.costLen (m : ModelSlot) (l : Nat) : Nat :=
  let ls := m.costs.map (·.chunkMs)
  match argMin id (ls.filter fun x => decide (l ≤ x)) with
  | some x => x
  | none => ls.foldl Nat.max 0

/-- The entries that a prediction for length `l` uses (R365). -/
def ModelSlot.costRows (m : ModelSlot) (l : Nat) : List CostEntry :=
  m.costs.filter fun e => e.chunkMs == m.costLen l

/-- A time of an entry of length `listed`, scaled to `l` when no listed length reaches it; where the listed length is 0
the scale of R365 has no value and the result is free. -/
def scaleTime (listed l t : Nat) : Nat :=
  if l ≤ listed then t else if listed = 0 then Config.zeroLengthCost l t else (t * l + listed - 1) / listed

/-- Predicted encoder, decoder and token-stage times in ns for a batch size and a length (R39, R365). -/
def ModelSlot.predict (m : ModelSlot) (b l : Nat) : Nat × Nat × Nat :=
  let rows := m.costRows l
  let e := ((argMin (·.batch) (rows.filter fun e => decide (b ≤ e.batch))).or rows.getLast?).getD ⟨1, 0, 0, 0, 0⟩
  let f := scaleTime e.chunkMs l
  (f e.enc, f e.dec, f e.tok)

/-- b_max (R366). -/
def ModelSlot.bMax (m : ModelSlot) (l : Nat) : Nat :=
  Nat.min 256 (((m.costRows l).map (·.batch)).foldl Nat.max 0)

/-- The LC load of a stream in µ-Squares (R367). -/
def ModelSlot.lcLoad (m : ModelSlot) (l : Nat) : Nat :=
  let b := m.bMax l
  let t := m.predict b l
  let d := b * l * 1000000
  (1000000 * (t.1 + t.2.1) + d - 1) / d

/-! ### Fallback compatibility (R43) -/

/-- Whether a model may stand in for another. -/
def fallbackFits (m f : ModelSlot) : Bool :=
  slice m.pkg 0x38 16 == slice f.pkg 0x38 16 && slice m.pkg 0x28 16 == slice f.pkg 0x28 16
    && m.rate == f.rate && slice m.pkg 0x90 32 == slice f.pkg 0x90 32
    && ((!m.usesAt && !f.usesAt) || (m.usesAt == f.usesAt && m.table.cache == f.table.cache))

/-! ### Feature configuration and table (R85, R88) -/

/-- Samples of a frame: W_s. -/
def ModelSlot.winLen (m : ModelSlot) : Nat := m.feat 0 1 * m.rate / 1000

/-- Samples of a hop: H_s. -/
def ModelSlot.hopLen (m : ModelSlot) : Nat := m.feat 1 1 * m.rate / 1000

/-- FFT points: N. -/
def ModelSlot.fftLen (m : ModelSlot) : Nat := 2 ^ m.feat 3 1

/-- MEL_BINS: B. -/
def ModelSlot.mels (m : ModelSlot) : Nat := m.feat 4 1

/-- MODE: 0 features, 1 waveform, 2 none. -/
def ModelSlot.mode (m : ModelSlot) : Nat := m.feat 5 1

/-- FEAT_TABLE_OFFSET. -/
def ModelSlot.featOff (m : ModelSlot) : Nat := m.feat 0x0C 4

/-- FEAT_TABLE_BYTES. -/
def ModelSlot.featBytes (m : ModelSlot) : Nat := m.feat 0x10 4

/-- A little-endian field of the feature table. -/
def ModelSlot.ft (m : ModelSlot) (off n : Nat) : Nat := m.field (m.featOff + off) n

/-- Where the mel section begins. -/
def ModelSlot.melOff (m : ModelSlot) : Nat := align64 (4 * m.winLen)

/-- START and COUNT of a bin. -/
def ModelSlot.melBin (m : ModelSlot) (b : Nat) : Nat × Nat := (m.ft (m.melOff + 4 * b) 2, m.ft (m.melOff + 4 * b + 2) 2)

/-- Weights before bin `b`. -/
def ModelSlot.melBefore (m : ModelSlot) (b : Nat) : Nat := ((List.range b).map fun i => (m.melBin i).2).sum

/-- Where the resampler section begins. -/
def ModelSlot.resOff (m : ModelSlot) : Nat := align64 (m.melOff + 4 * m.mels + 4 * m.melBefore m.mels)

/-- Input rates in Hz by IN_RATE code (R56). -/
def inHz (code : Nat) : Nat := nthD [8000, 16000, 22050, 24000, 32000, 44100, 48000] code

/-- The reduced ratio Lr/Mr of an IN_RATE code (R83). -/
def ModelSlot.ratio (m : ModelSlot) (code : Nat) : Nat × Nat :=
  let g := Nat.gcd m.rate (inHz code)
  (m.rate / g, inHz code / g)

/-- Coefficient h[p][j] of an IN_RATE code (R83, R88). OFFSET of its record counts from the start of the feature table (DESIGN
CHOICE, log 61: R88 does not say from where). -/
def ModelSlot.resCoef (m : ModelSlot) (code p j : Nat) : Nat :=
  m.ft (m.ft (m.resOff + 16 * code + 4) 4 + 4 * (48 * p + j)) 4

/-- Whether a resampler record holds what R88 asks. Its zero bytes and a bypass OFFSET must be 0 (DEDUCED, log 62: the table gives
those values, the list of refusals does not name them). -/
def ModelSlot.resRecOk (m : ModelSlot) (code : Nat) : Bool :=
  let o := m.resOff + 16 * code
  let r := m.ratio code
  m.ft o 2 == r.1 && m.ft (o + 2) 2 == r.2 && m.ft (o + 8) 8 == 0
    && (if r = (1, 1) then m.ft (o + 4) 4 == 0 else decide (m.ft (o + 4) 4 + 192 * r.1 ≤ m.featBytes))

/-- The checks of R88 on the feature table of MODE 0 and 1. START + COUNT of a mel bin is within the spectrum (DEDUCED, log 62). -/
def ModelSlot.featTableOk (m : ModelSlot) : Bool :=
  decide (m.featOff + m.featBytes ≤ m.pkg.length) && decide (m.melOff + 4 * m.mels ≤ m.featBytes)
    && (List.range m.mels).all (fun b => decide ((m.melBin b).1 + (m.melBin b).2 ≤ m.fftLen / 2 + 1))
    && decide (m.resOff + 112 ≤ m.featBytes) && (List.range 7).all m.resRecOk

/-- The checks of R85 on FEATURE_CONFIG. -/
def ModelSlot.featOk (m : ModelSlot) : Bool :=
  within 10 64 (m.feat 0 1) && decide (m.winLen ≤ m.fftLen) && (m.feat 1 1 == 5 || m.feat 1 1 == 10)
    && decide (m.feat 1 1 ≤ m.feat 0 1) && decide (m.feat 2 1 ≤ 2) && within 8 10 (m.feat 3 1) && decide (m.mode ≤ 2)
    && ((m.mode == 2) == (m.kind == 2)) && (if m.mode = 0 then within 40 128 m.mels else m.mels == 0)
    && decide (m.feat 6 1 ≤ 3) && (m.feat 6 1 != 3 || m.mode == 1) && decide (m.feat 7 1 ≤ 2) && within 4 16 (m.feat 8 1)
    && decide (-64 ≤ signedOf 8 (m.feat 9 1) ∧ signedOf 8 (m.feat 9 1) ≤ 0) && m.feat 0x0A 2 == 0 && m.feat 0x14 12 == 0 && m.featOff % 64 == 0
    && (m.mode == 2 || m.featTableOk)

/-! ### Checks of a package (R40) -/

/-- Whether every byte of a range is 0. -/
def ModelSlot.zeroFrom (m : ModelSlot) (o e : Nat) : Bool := ((m.pkg.drop o).take (e - o)).all (· == 0)

/-- Step 1 of R40. -/
def ModelSlot.headOk (m : ModelSlot) : Bool :=
  let h := m.field 6 2
  decide (0xB0 ≤ m.pkg.length) && m.field 0 4 == 0x4B504B5A && m.field 5 1 == 1 && decide (m.field 4 1 ≤ 3)
    && within 256 4096 h && h % 64 == 0 && decide (h ≤ m.pkg.length) && m.zeroFrom 0xB0 h && decide (m.field 0x8E 2 < 4)

/-- WEIGHTS_BYTES. -/
def ModelSlot.weightBytes (m : ModelSlot) : Nat := m.field 0x68 8

/-- Where the weight image begins. -/
def ModelSlot.weightOff (m : ModelSlot) : Nat := m.pkg.length - m.weightBytes

/-- Step 2 of R40, with R85, R88 and R93. -/
def ModelSlot.rangesOk (m : ModelSlot) : Bool :=
  let w := m.weightOff
  let fits := fun (o n : Nat) => o % 64 == 0 && decide (o + n ≤ w)
  decide (m.weightBytes ≤ m.pkg.length) && m.weightBytes % 64 == 0 && w % 64 == 0 && decide (m.field 6 2 ≤ w)
    && within 1 1024 (m.field 0x74 4) && within 1 256 (m.field 0x7C 4) && within 1 256 m.stateRows
    && decide (m.residualRows ≤ 128) && decide (m.field 0x88 4 ≤ 1025) && decide (m.field 0x8C 1 ≤ 2) && decide (m.kind ≤ 2)
    && (m.kind == 2 || decide (11 ≤ m.stateRows)) && fits (m.field 0x70 4) m.table.bytes
    && fits (m.field 0x78 4) (16 * m.field 0x7C 4) && fits m.featOff m.featBytes
    && fits (m.table.token.detokOffset / 64 * 64) (m.table.token.detokOffset % 64 + m.table.token.detokBytes) && m.featOk

/-- Rows of the token history (R267). -/
def CacheDesc.histRows (c : CacheDesc) : Nat := (c.maxTokens + 255) / 256

/-- The checks of R264 on the cache descriptor. -/
def ModelSlot.cacheOk (m : ModelSlot) : Bool :=
  match m.usesAt, m.table.cache with
  | false, _ => true
  | true, none => false
  | true, some c =>
    let tp := c.tokensPerPage
    within 1 16 c.layers && [64, 128, 256, 512].contains c.latW && [5, 6, 8].contains c.latFmt && within 1 16 c.heads
      && within 32 256 c.headDim && c.headDim % 32 == 0 && c.maxTokens % tp == 0 && decide (c.maxTokens ≤ 1024 * tp)
      && decide (c.maxTokens ≤ 64 * c.splitTokens) && c.splitTokens % tp == 0 && within 64 8192 c.splitTokens
      && within 11 (m.stateRows - 1) c.histRow && decide (c.histRow + c.histRows ≤ m.stateRows)
      && m.field 0x88 4 == c.maxTokens / tp + 1

/-- Whether two ranges of rows share none. -/
def rowsApart (a n b k : Nat) : Bool := decide (n = 0 ∨ k = 0 ∨ a + n ≤ b ∨ b + k ≤ a)

/-- State-plane rows of the overlap-add tail. -/
def TokenDesc.olaRows (t : TokenDesc) : Nat := rowsForBits ((t.olaFrame - t.olaHop) * 32)

/-- The detokenisation table (R313). -/
def ModelSlot.detokOk (m : ModelSlot) : Bool :=
  let t := m.table.token
  let text := align64 t.vocab
  t.detokOffset % 64 == 0 && t.detokBytes % 64 == 0 && decide (text + 32 * t.vocab ≤ t.detokBytes)
    && (List.range t.vocab).all fun i =>
      let len := m.field (t.detokOffset + i) 1
      let o := t.detokOffset + text + 32 * i
      decide (len < 128) && decide (bits len 0 6 ≤ 32) && m.zeroFrom (o + bits len 0 6) (o + 32)

/-- The checks of R306 on the token descriptor. -/
def ModelSlot.tokenOk (m : ModelSlot) : Bool :=
  let t := m.table.token
  let beams := t.select == .ctcPrefix || t.select == .attnBeam
  let hist : Nat × Nat := match m.usesAt, m.table.cache with
    | true, some c => (c.histRow, c.histRows)
    | _, _ => (0, 0)
  within 2 65536 t.vocab && (t.select != .none || m.kind == 2) && decide (t.blankId < t.vocab) && decide (t.endId < t.vocab)
    && within 1 8 t.beams && (beams || t.beams == 1) && within 1 8 t.symMax && within 1 64 t.stepMax
    && (!t.draftHead || (t.select == .attnGreedy && bitAt (m.field 0x8E 2) 0)) && within 11 (m.stateRows - 1) t.tokctxRow
    && rowsApart t.tokctxRow 1 hist.1 hist.2
    && (m.kind != 2 || (within 64 2048 t.olaFrame && within 16 t.olaFrame t.olaHop && t.olaHop % 16 == 0
         && decide (t.olaRow + t.olaRows ≤ m.stateRows) && rowsApart t.olaRow t.olaRows t.tokctxRow 1
         && rowsApart t.olaRow t.olaRows hist.1 hist.2))
    && m.detokOk

/-- Whether a cost table is ordered as R39 asks, with batch sizes in range. -/
def costsOrdered : List CostEntry → Bool
  | [] => true
  | e :: es => within 1 256 e.batch && es.all (fun x => x.chunkMs != e.chunkMs || decide (e.batch < x.batch)) && costsOrdered es

/-- The reason that steps 1 to 7 of R40 give, none when all pass. The slot holds the package's bytes and table. -/
def ModelSlot.packageFault (m : ModelSlot) : Option Nat :=
  if !m.headOk || !m.rangesOk then some 0x10
  else if sha256 (m.pkg.drop m.weightOff) ≠ slice m.pkg 0x48 32 then some 0x11
  else if sha256 ((m.pkg.drop (m.field 0x70 4)).take m.table.bytes ++ slice m.pkg 0x48 32) ≠ slice m.pkg 0x08 32 then
    some 0x12
  else if !m.table.supported || !m.cacheOk || !m.tokenOk || !costsOrdered m.costs then some 0x13
  else if !m.table.seLayers.all seLayerOk then some 0x14
  else none

end Sys2Proof.Machine
end

