-- ==== Sys2Proof/Machine/Ingest.lean ====
section
/-! DEFINITION. IN: conversion, gaps, resampling, the DC blocker, and the chunks that the samples form (R25, R33 to R36, R73
to R84). -/

namespace Sys2Proof.Machine

/-! ### Conversion and sample checks (R76) -/

/-- A converted sample with what it counts: NONFINITE, CLAMPED, CLIPPED, FORMAT_VIOLATION. -/
structure Conv where
  x : Nat
  nonfinite : Bool := false
  clamped : Bool := false
  clipped : Bool := false
  violation : Bool := false
  deriving DecidableEq, Repr

/-- The binary32 value of a whole number over `2^k`. -/
def f32Scaled (i : Int) (k : Nat) : Nat := toF32 (FVal.ofFrac i (2 ^ k))

/-- Whether a magnitude is above, or at least, 1.0. -/
def magAbove (w : Nat) : Bool := flt f32One (w % 2 ^ 31)

/-- Conversion of one sample of IN_FORMAT from its container (R76). -/
def convSample (format : Nat) (raw : Nat) : Conv :=
  match format with
  | 0 =>
    let i := signedOf 16 raw
    { x := f32Scaled i 15, clipped := i == -32768 || i == 32767 }
  | 1 =>
    let i := signedOf 24 raw
    { x := f32Scaled i 23, clipped := i == -8388608 || i == 8388607
      violation := bits raw 24 8 != (if bitAt raw 23 then 255 else 0) }
  | 2 =>
    if !(f32 raw).isFinite then { x := 0, nonfinite := true }
    else if magAbove raw then { x := raw / 2 ^ 31 * 2 ^ 31 + f32One, clamped := true, clipped := true }
    else { x := raw, clipped := raw % 2 ^ 31 == f32One }
  | 3 => { x := f32Scaled (muDecode raw) 15, clipped := raw == 0x00 || raw == 0x80 }
  | _ => { x := f32Scaled (aDecode raw) 15, clipped := raw == 0x2A || raw == 0xAA }

/-- Bytes of a sample container by IN_FORMAT (R56). -/
def container (format : Nat) : Nat := nthD [2, 4, 4, 1, 1] format

/-- The samples of an AUDIO buffer. -/
def convBuffer (format : Nat) (buf : List Byte) : List Conv :=
  let n := container format
  (chunksOf (buf.length / n) n buf).map fun b => convSample format (leNat b)

/-- Adds to a counter of R77. -/
def add32 (a n : Nat) : Nat := (a + n) % 2 ^ 32

/-- Counts what the checks found (R77). -/
def Ingest.count (g : Ingest) (cs : List Conv) : Ingest :=
  let n := fun (p : Conv → Bool) => (cs.filter p).length
  { g with samplesIn := add32 g.samplesIn cs.length, nonfinite := add32 g.nonfinite (n (·.nonfinite))
           clamped := add32 g.clamped (n (·.clamped)), clipped := add32 g.clipped (n (·.clipped))
           formatViolation := add32 g.formatViolation (n (·.violation)) }

/-! ### Resampler and DC blocker (R83, R84) -/

/-- 1 - 2^-9 in binary32. -/
def dcPole : Nat := 0x3F7F8000

/-- Position of the next model-rate sample. -/
def Ingest.pos (g : Ingest) : Nat := g.bufPos + g.buf.length

/-- Delivers a model-rate sample, through the DC blocker when it is on. -/
def Ingest.emit (g : Ingest) (dc : Bool) (y ts : Nat) (z : Bool) : Ingest :=
  if dc then
    let v := fadd (fsub y g.dcIn) (fmul dcPole g.dcOut)
    { g with outCount := g.outCount + 1, dcIn := y, dcOut := v, buf := g.buf ++ [⟨v, y, ts, z⟩] }
  else { g with outCount := g.outCount + 1, buf := g.buf ++ [⟨y, y, ts, z⟩] }

/-- The sum of R83 for phase `p`. -/
def resample (m : ModelSlot) (code p : Nat) (delay : List Nat) : Nat :=
  (List.range 48).foldl (fun acc j => fadd acc (fmul (m.resCoef code p j) (nthD delay j))) 0

/-- Takes one input sample, and delivers the model-rate samples that it completes: at most three (R83). -/
def Ingest.input (m : ModelSlot) (cfg : StreamCfg) (g : Ingest) (x ts : Nat) (z : Bool) : Ingest :=
  let r := m.ratio cfg.inRate
  let n := g.inCount
  let g1 := { g with inCount := n + 1, delay := (x :: g.delay).take 48 }
  if r = (1, 1) then g1.emit cfg.dcBlock x ts z
  else
    (List.range 3).foldl (fun h _ =>
      if h.outCount * r.2 / r.1 = n then
        h.emit cfg.dcBlock (resample m cfg.inRate (h.outCount * r.2 % r.1) h.delay) ts z
      else h) g1

/-- Takes input samples of one entry. -/
def Ingest.inputs (m : ModelSlot) (cfg : StreamCfg) (ts : Nat) (z : Bool) (g : Ingest) (xs : List Nat) : Ingest :=
  xs.foldl (fun h x => h.input m cfg x ts z) g

/-- The restart of R82: delay line, phase origin and DC blocker state are zero. -/
def Ingest.restart (g : Ingest) : Ingest := { g with inCount := 0, outCount := 0, delay := [], dcIn := 0, dcOut := 0 }

/-! ### Chunks (R33 to R35, R58, R80) -/

/-- Model-rate samples of a time in ms. -/
def ModelSlot.samples (m : ModelSlot) (ms : Nat) : Nat := ms * m.rate / 1000

/-- The compute budget of a chunk in ns (R29). -/
def Chunk.computeNs (c : Chunk) (cfg : StreamCfg) : Nat := (c.budgetMs - cfg.chunkMs - cfg.lookMs) * 1000000

/-- A chunk as it begins formation, with the settings in force (R58, R207, R318). -/
def State.newChunk (s : State) (sid : Nat) (st : Stream) : Chunk :=
  { sid := sid, no := st.ing.chunkNo, start := st.ing.chunkStart, budgetMs := st.cfg.budgetMs
    provisional := st.cfg.provisional, fallbackSlot := st.cfg.fallback, draftMax := s.obj 0x2C00 1
    satThreshold := s.obj 0x2B00 1, widenK := s.obj 0x2B00 2 }

/-- Begins the chunk in progress once it has a sample; no chunk follows chunk 2^32 - 1 (R26). -/
def State.beginChunk (s : State) (sid : Nat) : State :=
  match s.stream? sid with
  | none => s
  | some st =>
    if st.ing.chunkStart < st.ing.pos ∧ st.ing.chunkNo < 2 ^ 32 ∧ s.chunk? sid st.ing.chunkNo = none then
      { s with str := { s.str with chunks := s.str.chunks ++ [s.newChunk sid st] } }
    else s

/-- The sample at a position, while IN still holds it. -/
def Ingest.sample (g : Ingest) (p : Nat) : Sample := g.buf.getD (p - g.bufPos) { v := 0 }

/-- Ends the chunk in progress with `owned` samples: its GAP records fall to it, and the next chunk starts after it. -/
def State.endChunk (s : State) (sid owned : Nat) (ended : Bool) (dc : Nat × Nat) : State :=
  match s.stream? sid with
  | none => s
  | some st =>
    (s.modChunk sid st.ing.chunkNo fun c =>
      { c with owned := owned, ended := ended, gaps := st.ing.gaps, dcIn := dc.1, dcOut := dc.2 }).modStream sid fun x =>
        { x with ing := { x.ing with chunkNo := x.ing.chunkNo + 1, chunkStart := x.ing.chunkStart + owned, gaps := [] } }

/-- Ends chunks whose last owned sample has arrived, `n` of them at most. The DC-blocker pair of a chunk is that of its last owned
sample, also where a long gap then restarts IN (DESIGN CHOICE, log 59: R92 does not say which pair its snapshot holds then). -/
def State.fillChunks (sid : Nat) : Nat → State → State
  | 0, s => s
  | n + 1, s =>
    let s1 := s.beginChunk sid
    match s1.stream? sid with
    | none => s1
    | some st =>
      let g := st.ing
      let len := (s1.model st.cfg.model).samples st.cfg.chunkMs
      if g.chunkStart + len ≤ g.pos ∧ (s1.chunk? sid g.chunkNo).isSome ∧ 0 < len then
        let last := g.sample (g.chunkStart + len - 1)
        State.fillChunks sid n (s1.endChunk sid len false (if st.cfg.dcBlock then (last.y, last.v) else (0, 0)))
      else s1

/-- Completes a chunk: its deadline runs from the ingest timestamp of the last sample it needs (R35). -/
def Chunk.finish (c : Chunk) (cfg : StreamCfg) (ts : Nat) (zeros : Bool) : Chunk :=
  { c with complete := true, deadline := ts + c.computeNs cfg, zeros := zeros }

/-- Whether a chunk's owned samples are all there and its look-ahead is still awaited. -/
def Chunk.awaits (c : Chunk) : Bool := c.phase == .forming && !c.complete && decide (0 < c.owned)

/-- Whether zeros of R79 lie between two positions. -/
def Ingest.zerosIn (g : Ingest) (a b : Nat) : Bool :=
  ((g.buf.drop (a - g.bufPos)).take (b - a)).any (·.z)

/-- A chunk with its look-ahead of `look` samples, once they have arrived (R33). Zeros inserted within the look-ahead count for bit
65 of its header as those within the owned samples do (DESIGN CHOICE, log 60: R91 does not say). -/
def Chunk.withLook (c : Chunk) (cfg : StreamCfg) (g : Ingest) (look : Nat) : Chunk :=
  let e := c.start + c.owned + look
  if c.awaits ∧ e ≤ g.pos then c.finish cfg (g.sample (e - 1)).ts (g.zerosIn c.start e) else c

/-- Completes the chunks of a stream whose look-ahead has arrived. -/
def State.completeChunks (s : State) (sid : Nat) : State :=
  match s.stream? sid with
  | none => s
  | some st =>
    let look := (s.model st.cfg.model).samples st.cfg.lookMs
    { s with str := { s.str with
        chunks := s.str.chunks.map fun c => if c.sid = sid then c.withLook st.cfg st.ing look else c } }

/-- Forms chunks from the samples that IN has delivered. -/
def State.formChunks (s : State) (sid : Nat) : State :=
  let n := ((s.stream? sid).map fun st => st.ing.buf.length).getD 0
  (State.fillChunks sid (n + 1) s).completeChunks sid

/-- Sets a stream's ingest state and forms the chunks that follow. -/
def State.withIngest (s : State) (sid : Nat) (g : Ingest) : State :=
  (s.modStream sid fun x => { x with ing := g }).formChunks sid

/-- A chunk whose input ends before its look-ahead does: the last one has none (or zeros, for a drain), earlier ones get
the samples up to `e` and then zeros (R25, R35). -/
def Chunk.cutAt (c : Chunk) (cfg : StreamCfg) (g : Ingest) (ts : Nat) (drain : Bool) : Chunk :=
  let last := c.no == g.chunkNo - 1 && !drain
  if c.awaits then
    { c.finish cfg ts (g.zerosIn c.start g.pos) with
      ended := c.ended || last, lookKind := if last then 1 else 2, lookEnd := g.pos }
  else c

/-- Ends everything in progress, at an entry with EOU set or at the idle timer (R35, R82, R86), or for a CLOSE in DRAIN mode
(R25). The chunk in progress is padded to the hop, or to its full length; the last chunk has no look-ahead, or zeros; every
earlier chunk gets the samples that follow and then zeros. -/
def State.cutChunks (s : State) (sid ts : Nat) (drain : Bool) : State :=
  match s.stream? sid with
  | none => s
  | some st =>
    let m := s.model st.cfg.model
    let g := st.ing
    let n := g.pos - g.chunkStart
    let s1 :=
      if n = 0 ∨ s.chunk? sid g.chunkNo = none then s
      else
        let owned := if drain then m.samples st.cfg.chunkMs
          else Nat.min (m.samples st.cfg.chunkMs) ((n + m.hopLen - 1) / m.hopLen * m.hopLen)
        let pad := List.replicate (owned - n) ({ v := 0, ts := ts } : Sample)
        (s.modStream sid fun x => { x with ing := { x.ing with buf := x.ing.buf ++ pad } }).endChunk sid owned true
          (if st.cfg.dcBlock then (g.dcIn, g.dcOut) else (0, 0))
    match s1.stream? sid with
    | none => s1
    | some x =>
      { s1 with str := { s1.str with
          chunks := s1.str.chunks.map fun c => if c.sid = sid then c.cutAt x.cfg x.ing ts drain else c } }

/-! ### Gaps (R78 to R81) -/

/-- A gap that is at most the gap limit: zero input samples fill it. -/
def State.shortGap (s : State) (sid gap ts : Nat) : State :=
  match s.stream? sid with
  | none => s
  | some st =>
    let z := divRha (gap * inHz st.cfg.inRate) 1000000000
    let g := { st.ing with gapsFilled := add32 st.ing.gapsFilled 1, zeroInserted := add32 st.ing.zeroInserted z }
    s.withIngest sid (g.inputs (s.model st.cfg.model) st.cfg ts true (List.replicate z 0))

/-- Zero inputs until the resampler's output reaches the end of the chunk in progress. -/
def Ingest.zerosToEnd (m : ModelSlot) (cfg : StreamCfg) (g : Ingest) : Nat :=
  let e := g.chunkStart + m.samples cfg.chunkMs
  let r := m.ratio cfg.inRate
  if g.pos ≤ g.chunkStart then 0
  else (g.outCount + (e - g.pos) - 1) * r.2 / r.1 + 1 - g.inCount

/-- A gap above the gap limit: it ends the chunk in progress, and IN restarts. -/
def State.longGap (s : State) (sid gap ts : Nat) : State :=
  match s.stream? sid with
  | none => s
  | some st =>
    let m := s.model st.cfg.model
    let g := st.ing
    let z := g.zerosToEnd m st.cfg
    let e := if g.pos ≤ g.chunkStart then g.pos else g.chunkStart + m.samples st.cfg.chunkMs
    let g1 := g.inputs m st.cfg ts true (List.replicate z 0)
    let g2 := { g1 with buf := g1.buf.take (e - g1.bufPos), gapEvents := add32 g.gapEvents 1
                        zeroInserted := add32 g.zeroInserted z, gaps := g.gaps ++ [⟨gap, e - g.pos, g.pos⟩] }
    (s.withIngest sid g2).modStream sid fun x => { x with ing := x.ing.restart }

/-- What the PTS of an entry reveals, handled by its size (R79). -/
def State.takePts (s : State) (sid pts ts : Nat) : State :=
  match s.stream? sid with
  | none => s
  | some st =>
    match st.ing.expectedPts with
    | none => s
    | some x =>
      let tol := (1000000000 + inHz st.cfg.inRate - 1) / inHz st.cfg.inRate
      if pts + tol < x then
        s.modStream sid fun y => { y with ing := { y.ing with ptsOverlap := add32 y.ing.ptsOverlap 1 } }
      else if pts ≤ x + tol then s
      else if pts - x ≤ st.cfg.gapMs * 1000000 then s.shortGap sid (pts - x) ts
      else s.longGap sid (pts - x) ts

/-- The samples of an AUDIO entry: its PTS is compared, what it reveals inserted, and its own samples follow. `pts` is none
without PTS_VALID. -/
def State.audioIn (s : State) (sid : Nat) (pts : Option Nat) (buf : List Byte) : State :=
  match s.stream? sid with
  | none => s
  | some st =>
    let ts := s.now
    let cs := convBuffer st.cfg.inFormat buf
    let s1 := match pts with
      | some p => s.takePts sid p ts
      | none => s
    match s1.stream? sid with
    | none => s1
    | some x =>
      let base := pts.or x.ing.expectedPts
      let g := { x.ing.count cs with
        expectedPts := base.map fun b => b + cs.length * 1000000000 / inHz st.cfg.inRate }
      s1.withIngest sid (g.inputs (s.model st.cfg.model) st.cfg ts false (cs.map (·.x)))

/-- A TOKENS entry: one chunk of a synthesis stream (R36, R73). -/
def State.tokensIn (s : State) (sid : Nat) (toks : List Nat) : State :=
  match s.stream? sid with
  | none => s
  | some st =>
    if 2 ^ 32 ≤ st.ing.chunkNo then s
    else
      let c := { s.newChunk sid st with owned := toks.length, lookKind := 1, tokens := toks, gaps := st.ing.gaps }
      let s1 := { s with str := { s.str with chunks := s.str.chunks ++ [c.finish st.cfg s.now false] } }
      s1.modStream sid fun x =>
        { x with ing := { x.ing with chunkNo := x.ing.chunkNo + 1, chunkStart := x.ing.chunkStart + toks.length
                                     bufPos := x.ing.bufPos + toks.length, gaps := [] } }

/-! ### The idle timer (R24, R82) -/

/-- An EOU entry that exactly fills the last chunk, which needs no look-ahead, ends it as well: its header shows EOU (R91). -/
def State.endsExactly (s : State) (sid : Nat) : State :=
  match s.stream? sid with
  | none => s
  | some st =>
    let last := fun (c : Chunk) => c.sid == sid && c.no + 1 == st.ing.chunkNo && c.phase == .forming && c.lookKind == 0
      && c.start + c.owned == st.ing.pos && st.ing.chunkStart == st.ing.pos
    { s with str := { s.str with chunks := s.str.chunks.map fun c => if last c then { c with ended := true, lookKind := 1 } else c } }

/-- IDLE_TIMEOUT: the chunk in progress ends as at EOU; the stream becomes IDLE once no chunk is left. The timers pause
outside the NMT state operational and during a freeze (R495). -/
def execIdleTimeout (sid : Sid) (s : State) : Out :=
  match s.stream? sid.val with
  | none => .next s
  | some st =>
    if (st.state = .active ∨ st.state = .parked) ∧ s.ctl.nmt = .operational ∧ !s.frozen then
      .next (((s.cutChunks sid.val st.ing.lastTs false).modStream sid.val fun x =>
        { x with ing := { x.ing with idlePending := true } }).settleStream sid.val)
    else .next s

end Sys2Proof.Machine
end

