-- ==== Sys2Proof/Machine/Features.lean ====
section
/-! DEFINITION. FE: feature frames, CMVN, the input slot and its copy in the recovery extent (R85 to R95, R421). -/

namespace Sys2Proof.Machine

/-! ### Twiddles (R87) -/

/-- The alternating series of atan(1/k), `n` terms from term `i` on, in fixed point. -/
def fxAtanInv (k : Nat) : Nat → Nat → Nat → Int → Int
  | 0, _, _, acc => acc
  | n + 1, i, p, acc =>
    let t : Int := ((p / (2 * i + 1) : Nat) : Int)
    fxAtanInv k n (i + 1) (p / (k * k)) (if i % 2 = 0 then acc + t else acc - t)

/-- Pi in fixed point. -/
def fxPi : Int := 16 * fxAtanInv 5 80 0 (2 ^ fxBits / 5) 0 - 4 * fxAtanInv 239 40 0 (2 ^ fxBits / 239) 0

/-- The series of cos (from term 0) or sin (from term 1) of an angle: `n` terms, each from the one before. -/
def fxTrig (x : Int) : Nat → Nat → Int → Int → Int
  | 0, _, _, acc => acc
  | n + 1, k, t, acc =>
    fxTrig x n (k + 2) (-(t * x / 2 ^ fxBits * x / 2 ^ fxBits / (((k + 1) * (k + 2) : Nat) : Int))) (acc + t)

/-- A fixed-point value that no binary32 tie meets, as binary32. -/
def fxWord (i : Int) : Nat := toF32 (fxSticky (decide (i < 0)) i.natAbs)

/-- The twiddle W_N^q: cos and minus sin of 2 pi q / N, each the nearest binary32 (R87), for q below N / 2. -/
def twiddle (n q : Nat) : Nat × Nat :=
  if q = 0 then (f32One, 0)
  else if 4 * q = n then (0, 0xBF800000)
  else
    let x := 2 * fxPi * (q : Int) / (n : Int)
    (fxWord (fxTrig x 70 0 (2 ^ fxBits) 0), fxWord (-(fxTrig x 70 1 x 0)))

/-! ### The transform (R87) -/

/-- The low `k` bits of a number reversed. -/
def bitReverse : Nat → Nat → Nat
  | 0, _ => 0
  | k + 1, i => (i % 2) * 2 ^ k + bitReverse k (i / 2)

/-- The complex product of R87. -/
def cmul (w b : Nat × Nat) : Nat × Nat :=
  (fsub (fmul w.1 b.1) (fmul w.2 b.2), fadd (fmul w.1 b.2) (fmul w.2 b.1))

/-- A butterfly on the pairs of one block: first halves, then second halves. -/
def butterfly (n m : Nat) (block : List (Nat × Nat)) : List (Nat × Nat) :=
  let h := m / 2
  let ts := (List.range h).map fun j => (block.getD j (0, 0), cmul (twiddle n (j * (n / m))) (block.getD (j + h) (0, 0)))
  ts.map (fun p => (fadd p.1.1 p.2.1, fadd p.1.2 p.2.2)) ++ ts.map (fun p => (fsub p.1.1 p.2.1, fsub p.1.2 p.2.2))

/-- The radix-2 transform of 2^k real values: bit-reversed input, stages of span 2 to 2^k. -/
def fft (k : Nat) (u : List Nat) : List (Nat × Nat) :=
  let n := 2 ^ k
  (List.range k).foldl (fun x i => (chunksOf n (2 ^ (i + 1)) x).flatMap (butterfly n (2 ^ (i + 1))))
    ((List.range n).map fun i => (nthD u (bitReverse k i), 0))

/-! ### One frame (R87, R89) -/

/-- The values v_b of a frame before CMVN: window, transform, power, mel, log. -/
def ModelSlot.melLogs (m : ModelSlot) (samples : List Nat) : List Nat :=
  let u := (List.range m.winLen).map fun i => fmul (m.ft (4 * i) 4) (nthD samples i)
  let x := fft (m.feat 3 1) u
  let p := fun (q : Nat) =>
    let z := x.getD q (0, 0)
    fadd (fmul z.1 z.1) (fmul z.2 z.2)
  let floor := f32Pow2 (signedOf 8 (m.feat 9 1))
  let w0 := m.melOff + 4 * m.mels
  (List.range m.mels).map fun b =>
    let r := m.melBin b
    let e := (List.range r.2).foldl (fun acc i => fadd acc (fmul (m.ft (w0 + 4 * (m.melBefore b + i)) 4) (p (r.1 + i)))) 0
    fmul 0x3F317218 (toF32 (log2Val (f32 (fmax e floor))))

/-- CMVN of one value: the output and the new mean and variance (R89). -/
def cmvnBin (mode alpha v mu var : Nat) : Nat × Nat × Nat :=
  let d := fsub v mu
  let mu' := fadd mu (fmul alpha d)
  let var' := fmul (fsub f32One alpha) (fadd var (fmul (fmul alpha d) d))
  let c := fsub v mu'
  (if mode = 2 then fmul c (toF32 (rsqrtVal (f32 (fadd var' (f32Pow2 (-20)))))) else c, mu', var')

/-- CMVN of a frame: the outputs and the new statistics. Mode 0 passes the values and keeps no statistics. -/
def ModelSlot.cmvn (m : ModelSlot) (st : FeStats) (vs : List Nat) : List Nat × FeStats :=
  let mode := m.feat 7 1 % 4
  let k := m.feat 8 1
  if mode = 0 then (vs, st)
  else
    let alpha := if st.n < 2 ^ k then toF32 (rcpVal (.fin false (st.n + 1) 1)) else f32Pow2 (-(k : Int))
    let rs := vs.mapIdx fun b v => cmvnBin mode alpha v (nthD st.mean b) (nthD st.var b)
    (rs.map (·.1), { mean := rs.map (·.2.1), var := rs.map (·.2.2), n := Nat.min (st.n + 1) (2 ^ k) })

/-- OUT_FMT (R85). -/
def ModelSlot.outFmt (m : ModelSlot) : Fmt :=
  match m.feat 6 1 with
  | 0 => .fp32
  | 1 => .bf16
  | 2 => .fp16
  | _ => .int16

/-- Values in OUT_FMT, packed (R87, R90). -/
def ModelSlot.outBytes (m : ModelSlot) (ws : List Nat) : List Byte :=
  match m.outFmt with
  | .int16 => ws.flatMap fun w => leBytes 2 (unsignedOf 16 (int16Sample w).1)
  | f => f.pack (ws.map fun w => (convert .fp32 f w).1)

/-- A frame of samples as a row of features, with the statistics after it. -/
def ModelSlot.frame (m : ModelSlot) (st : FeStats) (samples : List Nat) : List Byte × FeStats :=
  let r := m.cmvn st (m.melLogs samples)
  (slice (m.outBytes r.1) 0 512, r.2)

/-! ### Samples that FE sees -/

/-- The model-rate sample at a position: from IN's buffer, from the tail before it, 0 before position 0 and from `e` on. -/
def Stream.sampleAt (st : Stream) (e : Nat) (p : Int) : Nat :=
  let g := st.ing
  let back := (g.bufPos : Int) - p
  if (e : Int) ≤ p then 0
  else if back ≤ 0 then (g.sample p.toNat).v
  else if (st.fe.tail.length : Int) < back then 0
  else nthD st.fe.tail (st.fe.tail.length - back.toNat)

/-- The samples from position `a` to before `b`. -/
def Stream.samplesTo (st : Stream) (e n : Nat) (b : Nat) : List Nat :=
  (List.range n).map fun i => st.sampleAt e ((b : Int) - (n : Int) + (i : Int))

/-! ### The input slot (R90, R91, R421) -/

/-- The chunk that FE works on: the lowest in formation, once the chunk two before it has committed (R421). -/
def State.feChunk? (s : State) (sid : Nat) (st : Stream) : Option Chunk :=
  match argMin (·.no) (s.str.chunks.filter fun c => c.sid == sid && c.phase == .forming) with
  | some c => if c.no < st.nextSeq + 2 then some c else none
  | none => none

/-- Gives a chunk its input slot of scratchpad rows. -/
def State.takeSlot (s : State) (c : Chunk) (base : Nat) : State :=
  let c1 := { c with base := base, slotHeld := true }
  (s.modChunk c.sid c.no fun x => { x with base := base, slotHeld := true }).tagSlot c1 .filling

/-- Whether rows can be an input slot: 256 whole rows of a quarter that is ON. -/
def State.slotFits (s : State) (base : Nat) : Bool :=
  base % 4 == 0 && decide (base + 256 ≤ 524288) && s.quarterOn (rowQuarter base) && s.quarterOn (rowQuarter (base + 255))

/-- Writes data rows of a chunk's slot, from row `r` on. -/
def State.writeSlot (s : State) (c : Chunk) (r : Nat) (rows : List (List Byte)) : State :=
  (s.writeRows (c.base + r) rows).modChunk c.sid c.no fun x => { x with rows := Nat.max x.rows (r + rows.length) }

/-- Frame `i` of a chunk in MODE 0, ending at position `p`: its row and the statistics after it, from the frames already
computed or new. A frame that reaches past the end of the input moves no statistics: it is no frame of the stream. -/
def Stream.feFrame (st : Stream) (m : ModelSlot) (c : Chunk) (p : Nat) : List Byte × FeStats × FeContext :=
  match st.fe.ahead.find? fun a => a.1 == p with
  | some a => (a.2.1, a.2.2, { st.fe with ahead := st.fe.ahead.filter fun a => decide (c.start < a.1) })
  | none =>
    let past := c.complete && c.lookKind == 2 && decide (c.lookEnd < p)
    let r := m.frame st.fe.stats (st.samplesTo (if past then c.lookEnd else p) m.winLen p)
    if past then (r.1, st.fe.stats, st.fe)
    else
      let own := decide (c.owned = 0 ∨ p ≤ c.start + c.owned)
      (r.1, r.2, { st.fe with stats := r.2, ahead := if own then st.fe.ahead else st.fe.ahead ++ [(p, r.1, r.2)] })

/-- One frame of MODE 0 into a chunk's slot. -/
def State.doFrame (s : State) (sid : Nat) (st : Stream) (m : ModelSlot) (c : Chunk) : State :=
  let p := c.start + (c.frames + 1) * m.hopLen
  let n := s.slotCounts c
  if c.complete && decide (n.1 + n.2 ≤ c.frames) then s
  else if !c.complete && decide (st.ing.pos < p) then s
  else
    let r := st.feFrame m c p
    let own := decide (c.owned = 0 ∨ p ≤ c.start + c.owned)
    let s1 := (s.writeSlot c (1 + c.frames) [r.1]).modStream sid fun x => { x with fe := r.2.2 }
    s1.modChunk sid c.no fun x => { x with frames := x.frames + 1, snap := if own then r.2.1 else x.snap }

/-- The samples of a chunk in MODE 1 into its slot, packed densely (R90). -/
def State.doSamples (s : State) (sid : Nat) (st : Stream) (m : ModelSlot) (c : Chunk) : State :=
  if c.complete ∧ c.frames = 0 then
    let n := s.slotCounts c
    let b := c.start + n.1 + n.2
    let bs := m.outBytes (st.samplesTo (if c.lookKind = 2 then c.lookEnd else b) (n.1 + n.2) b)
    let rows := (bs.length + 511) / 512
    (s.writeSlot c 1 ((chunksOf rows 512 bs).map fun r => slice r 0 512)).modChunk sid c.no fun x => { x with frames := 1 }
  else s

/-- FEATURE_FRAME: FE computes the next frame of the lowest chunk in formation, or passes its samples through (R87, R90).
`base` is the device row of the input slot when this frame is the chunk's first. -/
def execFeatureFrame (sid : Sid) (base : Nat) (s : State) : Out :=
  match s.stream? sid.val with
  | none => .next s
  | some st =>
    match s.feChunk? sid.val st with
    | none => .next s
    | some c =>
      let m := s.model st.cfg.model
      if m.kind = 2 ∨ (!c.slotHeld && !s.slotFits base) then .next s
      else
        let s1 := if c.slotHeld then s else s.takeSlot c base
        let c1 := if c.slotHeld then c else { c with base := base, slotHeld := true }
        .next (if m.mode = 1 then s1.doSamples sid.val st m c1 else s1.doFrame sid.val st m c1)

/-- The ingest snapshot of a chunk: rows 0 to 10 of R92. -/
def Chunk.snapshot (c : Chunk) (tail : List Nat) : List (List Byte) :=
  let row := fun (ws : List Nat) => slice (ws.flatMap (leBytes 4)) 0 512
  [row c.snap.mean, row c.snap.var, row [c.snap.n, c.dcIn, c.dcOut]]
    ++ (List.range 8).map fun i => row ((tail.drop (128 * i)).take 128)

/-- Whether all data of a chunk's slot is written. -/
def State.slotDone (s : State) (m : ModelSlot) (c : Chunk) : Bool :=
  c.complete && (if m.kind = 2 then true else if m.mode = 1 then c.frames == 1
    else let n := s.slotCounts c
         c.slotHeld && c.frames == n.1 + n.2)

/-- Lets IN's samples of a full chunk go; the tail before the next chunk stays (R92). -/
def Stream.passChunk (st : Stream) (m : ModelSlot) (c : Chunk) : Stream :=
  let n := m.winLen - m.hopLen
  let e := c.start + c.owned
  { st with fe := { st.fe with tail := st.samplesTo e n e }
            ing := { st.ing with buf := st.ing.buf.drop (e - st.ing.bufPos), bufPos := e } }

/-- INPUT_SLOT_FULL: the slot holds its header, its data and the snapshot, and its tag becomes FULL (R91, R421). For a
synthesis chunk IN writes the token IDs now, from device row `base` on: 16 bits each, densely after the header, with no snapshot
(DESIGN CHOICE, log 58: the row layout is given for MODE 0 and 1 alone). -/
def execInputSlotFull (sid : Sid) (base : Nat) (s : State) : Out :=
  match s.stream? sid.val with
  | none => .next s
  | some st =>
    match s.feChunk? sid.val st with
    | none => .next s
    | some c =>
      let m := s.model st.cfg.model
      if !s.slotDone m c || (!c.slotHeld && !s.slotFits base) then .next s
      else if m.kind = 2 then
        let bs := c.tokens.flatMap (leBytes 2)
        let s1 := s.takeSlot c base
        let c1 := { c with base := base, slotHeld := true }
        let s2 := s1.writeSlot c1 0 (s.slotHeader c :: (chunksOf 16 512 bs).map fun r => slice r 0 512)
        .next ((s2.tagSlot c1 .full).modChunk sid.val c.no fun x => { x with phase := .full })
      else
        let n := s.slotCounts c
        let data := if m.mode = 1 then ((n.1 + n.2) * m.outFmt.width / 8 + 511) / 512 else n.1 + n.2
        let st1 := st.passChunk m c
        let s1 := (s.writeSlot c 0 [s.slotHeader c]).writeSlot c (1 + data) (c.snapshot st1.fe.tail)
        let s2 := ((s1.modStream sid.val fun _ => st1).tagSlot c .full).modChunk sid.val c.no fun x => { x with phase := .full }
        .next s2

/-- INPUT_EXTENT_COPY_DONE: the copy of the slot has landed in the extent, and the chunk may be placed (R421). -/
def execInputExtentCopyDone (sid : Sid) (no : Nat) (s : State) : Out :=
  match s.chunk? sid.val no with
  | none => .next s
  | some c =>
    if c.phase = .full then
      .next (s.modChunk sid.val no fun x =>
        { x with phase := .ready, readyAt := s.now, extent := s.slotBytes c, extentHeld := true, extentBad := s.slotBad c })
    else .next s

end Sys2Proof.Machine
end

