-- ==== Sys2Proof/Machine/Lanes.lean ====
section
/-! DEFINITION. Lane commands (R351, R433, R439, R464, R466). -/

namespace Sys2Proof.Machine

/-! ### HBM sources (R413, R433) -/

/-- The uncorrectable lines of a range. -/
def State.badLines (s : State) (a n : Nat) : List Nat :=
  (s.st.hbmErr.filter fun e => decide (a / 64 ≤ e.1 ∧ e.1 ≤ (a + n - 1) / 64) && lineVerdict e.2 == 2).map (·.1)

/-- An uncorrectable weight line whose replica can be read is rewritten from it, as a repair (R433). -/
def State.repairLine (s : State) (e line : Nat) : State :=
  match s.weightAt line with
  | some (_, other) =>
    if s.replicaGood other then
      (((s.hbmUncorrected line e).logFault { cls := 3, source := e, action := 3, addr := line * 64 }).repairWeight line
        other).incObj 0x4010 0x0A
    else s
  | none => s

/-- The bytes of an HBM range for a Lane, and the first line that stays unreadable. -/
def State.laneRead (s : State) (e a n : Nat) : List Byte × State × Option Nat :=
  let s1 := (s.badLines a n).foldl (fun t l => t.repairLine e l) s
  s1.readHbm a n

/-- Ends a command whose HBM line cannot be read. -/
def State.failLine (s : State) (c : Cmd) (line : Nat) : State :=
  (s.hbmUncorrected line c.desc.engine).putCmd
    { c with phase := .ended, flags := withFlag c.flags flEccUncorr, addr := line, inHbm := true }

/-- Gives a Lane command the bytes of an HBM range, or ends it where a line stays unreadable (R413, R433). -/
def State.fromHbm (s : State) (c : Cmd) (a n : Nat) (go : State → List Byte → State) : State :=
  let r := s.laneRead c.desc.engine a n
  match r.2.2 with
  | some line => r.2.1.failLine c line
  | none => go r.2.1 r.1

/-! ### LN_COPY -/

/-- Rows of an operand from bytes, from its OFF up. -/
def rowWrites (k : Nat) (o : Operand) (n : Nat) (bs : List Byte) : List (Nat × Nat × List Byte) :=
  (List.range n).map fun i => (k, o.off + i, slice bs (512 * i) 512)

/-- A Lane transfer into the rows of operand `k`. -/
def rowsInPath (op k n : Nat) (bs : State → Cmd → List Byte) : Datapath :=
  { op := op, data := fun s c => { rows := rowWrites k (c.ops.getD k {}) n (bs s c) } }

/-- A Lane transfer out of `n` rows of operand 0: what it does with their bytes. -/
def rowsOutPath (op n : Nat) (put : State → Cmd → List Byte → State) : Datapath :=
  { op := op, data := fun _ _ => {}
    after := fun v c t => put t c (v.opRows (c.ops.getD 0 {}) (c.ops.getD 0 {}).off n) }

/-- LN_COPY (R351): DIR 0 HBM to scratchpad, 1 scratchpad to HBM, 2 scratchpad to scratchpad. -/
def execLnCopy (eng : Eng) (hw : Hw) (s : State) : Out :=
  .next (s.atCommand eng.toNat 0x70 hw fun t c =>
    let rows := c.desc.param 2 17
    let a := bits (c.desc.word 4) 0 36
    match c.desc.param 0 2 with
    | 0 => t.fromHbm c a (rows * 512) fun u bs => u.runOn (rowsInPath 0x70 0 rows fun _ _ => bs) c
    | 1 => t.runOn (rowsOutPath 0x70 rows fun u _ bs => u.writeHbm a bs) c
    | _ => t.runOn (rowsInPath 0x70 1 rows fun v x => v.opRows (x.ops.getD 0 {}) (x.ops.getD 0 {}).off rows) c)

/-! ### LN_HOST -/

/-- Ends a command whose host read failed: TIMEOUT, with the offset of the failed request (R439); AER shows a completion timeout
(R544). -/
def State.failHost (s : State) (c : Cmd) (f : ReadFault) (off : Nat) : State :=
  (s.hostReadFault (s.tablePart c.desc) f).putCmd
    { c with phase := .ended, flags := withFlag c.flags flTimeout, detail := off, hostRead := true }

/-- LN_HOST (R351, R439, R544). `data` holds what a host read returned, up to the request that failed, when one did. -/
def execLnHost (eng : Eng) (hw : Hw) (fault : Option ReadFault) (data : List Byte) (s : State) : Out :=
  .next (s.atCommand eng.toNat 0x71 hw fun t c =>
    let n := c.desc.param 2 32
    let rows := (n + 511) / 512
    let a := c.desc.word 4
    let h := bits (c.desc.word 5) 0 36
    if !(t.fn (t.tablePart c.desc)).bme then s
    else
      match c.desc.param 0 2, fault with
      | 0, some f => t.failHost c f data.length
      | 2, some f => t.failHost c f data.length
      | 0, none => t.runOn (rowsInPath 0x71 0 rows fun _ _ => slice data 0 n) c
      | 1, _ => t.runOn (rowsOutPath 0x71 rows fun u _ bs => u.hostWrite a (bs.take n)) c
      | 2, none => (t.writeHbm h (slice data 0 n)).endCmd c
      | _, _ => t.fromHbm c h n fun u bs => (u.hostWrite a bs).endCmd c)

/-! ### Remote commands (R464, R466) -/

/-- The grant that covers a range of a peer's handle. -/
def State.grantFor (s : State) (peer part h first rows : Nat) : Option TxGrant :=
  s.xr.grants.find? fun g => g.peer == peer && g.part == part && g.handle == h
    && decide (g.first ≤ first ∧ first + rows ≤ g.first + g.rows)

/-- A command that must wait for a peer that no port reaches completes with PEER_DOWN (R147, R437). -/
def State.failPeer (s : State) (c : Cmd) : State :=
  s.putCmd { c with phase := .ended, flags := withFlag c.flags flPeerDown, wanted := [] }

/-- The WRITE frames of one row (R464). -/
def writeFrames (part txn idx : Nat) (row : List Byte) : List Frame :=
  (List.range 4).map fun q =>
    { vc := 0, type := 0x1, part := part, txn := txn, frame := idx * 4 + q, payload := slice row (128 * q) 128 }

/-- Takes the next transaction number of a port. -/
def State.takeTxn (s : State) (p : Nat) : Nat × State :=
  let x := s.port p
  (x.nextTxn, s.setPort p { x with nextTxn := (x.nextTxn + 1) % 1024 })

/-- Adds an operation that waits for an answer; its command waits with it. -/
def State.addOp (s : State) (o : RemoteOp) : State := { s with xr := { s.xr with ops := s.xr.ops ++ [o] } }

/-- A command whose frames are on their way: it waits for `n` answers of its peer (R402, R407). -/
def State.awaitPeer (s : State) (c : Cmd) (n : Nat) (wrote : Bool) : State :=
  s.putCmd { c with phase := .issued, wrote := c.wrote || wrote, remoteLeft := n, waitSince := s.now, waitReported := false }

/-- Sends the rows of an LN_RWRITE into a grant and its WRITE_END; the command then waits for LANDED (R464). -/
def State.sendRows (s : State) (p : Nat) (g : TxGrant) (c : Cmd) (rows : List (List Byte)) : State :=
  let d := c.desc
  let part := s.tablePart d
  let data := (List.range rows.length).flatMap fun i => writeFrames part g.number (d.param 28 16 - g.first + i) (rows.getD i [])
  let last : Frame := { vc := 0, type := 0x2, part := part, txn := g.number
                        payload := addrBlock (d.param 20 8) (d.param 44 3) (d.param 47 4) (d.param 28 16) rows.length 0 }
  ((s.sendAll p (data ++ [last])).addOp { port := p, txn := g.number, cmd := c.seq, req := last }).awaitPeer c 1 true

/-- LN_RWRITE (R464): WRITE frames and WRITE_END into a granted descriptor; the command then waits for LANDED. -/
def execLnRwrite (eng : Eng) (hw : Hw) (s : State) : Out :=
  .next (s.atCommand eng.toNat 0x72 hw fun t c =>
    let d := c.desc
    let rows := d.param 3 17
    match t.portTo (d.param 0 3), t.grantFor (d.param 0 3) (t.tablePart d) (d.param 20 8) (d.param 28 16) rows with
    | none, _ => t.failPeer c
    | _, none => t.putCmd { c with phase := .ended, flags := withFlag c.flags flHandleAccess }
    | some p, some g =>
      t.runOn (rowsOutPath 0x72 rows fun u x bs => u.sendRows p g x (chunksOf rows 512 bs)) c)

/-- LN_RTAG (R466): a tag operation on a peer's slot; the command waits for LANDED. -/
def execLnRtag (eng : Eng) (hw : Hw) (s : State) : Out :=
  .next (s.atCommand eng.toNat 0x73 hw fun s0 c =>
    let d := c.desc
    match s0.portTo (d.param 0 3) with
    | none => s0.failPeer c
    | some p =>
      let t := s0.takeTxn p
      let f : Frame := { vc := 3, type := 0x4, part := s0.tablePart d, txn := t.1
                         payload := addrBlock (d.param 3 8) 0 (d.param 29 4) (d.param 11 16) 1 (d.param 27 2) }
      ((t.2.send p f).addOp { port := p, txn := t.1, cmd := c.seq, req := f }).awaitPeer c 1 true)

/-- One read request of at most 256 rows (R455, R466): row `i` of the command's. -/
def State.readRequest (s : State) (p : Nat) (c : Cmd) (i n : Nat) : State :=
  let d := c.desc
  let t := s.takeTxn p
  let o := c.ops.getD 0 {}
  let f : Frame := { vc := 0, type := 0x5, part := s.tablePart d, txn := t.1
                     payload := addrBlock (d.param 20 8) 0 0 (d.param 28 16 + i) n 0 }
  (t.2.send p f).addOp { port := p, txn := t.1, cmd := c.seq, req := f, base := o.base + o.off + i, left := 4 * n }

/-- LN_RREAD (R466): requests for the peer's rows; the command waits for their data. -/
def execLnRread (eng : Eng) (hw : Hw) (s : State) : Out :=
  .next (s.atCommand eng.toNat 0x74 hw fun s0 c =>
    let rows := c.desc.param 3 17
    match s0.portTo (c.desc.param 0 3) with
    | none => s0.failPeer c
    | some p =>
      let n := (rows + 255) / 256
      ((List.range n).foldl (fun t k => t.readRequest p c (256 * k) (Nat.min 256 (rows - 256 * k))) s0).awaitPeer c n false)

end Sys2Proof.Machine
end

