-- ==== Sys2Proof/Machine/Link.lean ====
section
/-! DEFINITION. The link layer of the Crossings: acceptance, acknowledgement, retransmission, training, port down (R453 to
R462, R404, R437). -/

namespace Sys2Proof.Machine

/-! ### Frames as bytes (R453, R456) -/

/-- A frame's header word. -/
def headWord (bs : List Byte) : Nat := leAt bs 0 8

/-- The bytes that received blocks carry, idle blocks and alignment markers deleted; none where they are not one frame (R451, R452). -/
def lineBytes (l : List Block) : List Byte :=
  match l.filter (!betweenFrames ·) with
  | .start a :: rest =>
    let mid := rest.dropLast.flatMap fun b => match b with
      | .data d => d
      | _ => []
    match rest.getLast? with
    | some (.terminate z) =>
      let bs := a ++ mid ++ z
      if frameBlocks bs = .start a :: rest then bs else []
    | _ => []
  | _ => []

/-- Whether a received frame's CRC and LEN are good. -/
def frameGood (bs : List Byte) : Bool :=
  decide (12 ≤ bs.length) && decide (bits (headWord bs) 24 8 = bs.length - 12) && decide (bits (headWord bs) 24 8 ≤ 128)
    && leAt bs (bs.length - 4) 4 == crc32c (bs.take (bs.length - 4))

/-- The frame that good bytes carry. -/
def frameOf (bs : List Byte) (at_ : Nat) : Frame :=
  let h := headWord bs
  { vc := bits h 0 2, type := bits h 2 4, seq := bits h 8 8, part := bits h 40 4, txn := bits h 44 10, frame := bits h 54 10
    payload := (bs.drop 8).take (bs.length - 12), at_ := at_ }

/-- Byte 0 of a payload: the subtype of MIG and MGMT_TIME frames. -/
def Frame.sub (f : Frame) : Nat := leAt f.payload 0 1

/-- Whether a command of the block acts on frames of a type and subtype. -/
def Frame.known (f : Frame) : Bool :=
  if f.type = 0xD then decide (1 ≤ f.sub ∧ f.sub ≤ 8)
  else if f.type = 0xE then decide (1 ≤ f.sub ∧ f.sub ≤ 4) || f.sub == 0x10 || f.sub == 0x11
  else decide (1 ≤ f.type ∧ f.type ≤ 0xC)

/-! ### Going back N, port down (R458, R462) -/

/-- Resends every unacknowledged frame, in SEQ order; each go-back counts one retry. -/
def XPort.goBack (x : XPort) : XPort :=
  let y := x.retry.foldl (fun a f => a.emit f) x
  { y with retries := (y.retries + 1) % 2 ^ 32, retryCount := y.retryCount + 1 }

/-- A port that leaves UP: buffers discarded, SEQ, ACK and credits at their training values. -/
def XPort.fall (x : XPort) (dst : PortState) (reason : Nat) : XPort :=
  { x with state := dst, peerDev := 0xFF, downReason := reason, downEvents := (x.downEvents + 1) % 2 ^ 32
           identGood := 0, peerOk := false, txSeq := 0, retry := [], retryCount := 0, txQueue := []
           credit := [48, 48, 8, 16], vc0Passed := 0, rxSeq := 0, unacked := 0, nakDue := false, nakSent := false
           owed := [0, 0, 0, 0], rx := [], open_ := [] }

/-- A command that waits for a peer that is lost completes with PEER_DOWN (R147, R407, R437): a parked one as it issues again, one
that is queued without issuing. -/
def State.endPeerDown (s : State) (c : Cmd) : State :=
  let x := { c with flags := withFlag c.flags flPeerDown, wanted := [], remoteLeft := 0, answered := true }
  match c.phase with
  | .parked => s.putCmd x
  | .queued => (s.putCmd { x with phase := .ended }).completeCmd { x with phase := .ended } 0
  | _ => s.putCmd { x with phase := .ended }

/-- What a port's loss does to the operations of its peer: commands that wait for it, for a slot that it was to fill, or whose
FENCE_X waits for it end, with the parts run for it; its descriptors, walkers and tables go, and what waited for these goes on (R147, R407, R437, R462). -/
def State.losePeer (s : State) (p dev : Nat) : State :=
  let tags := (s.xr.rxDescs.filter fun d => d.2.src == dev).filterMap fun d => d.2.tag
  let hit := s.rb.cmds.filter fun c =>
    (c.phase != .ended && c.wanted.head?.any fun w => !w.isTile && tags.contains w.key)
      || (s.xr.ops.any fun o => o.port == p && o.cmd == c.seq)
      || (s.xr.peerTables.any fun t => t.port == p && t.cmd == c.seq)
      || (c.phase == .queued && c.desc.fenceX && bitAt c.desc.peerMask dev && !s.fenceMet c)
  let s1 := hit.foldl (fun t c => t.endPeerDown c) s
  let s2 := s1.cancelRx fun d => d.src == dev
  let gone := s2.xr.walks.filter fun w => w.port == p
  let s3 := gone.foldl (fun t w => t.endWalk w.seq w.copy) s2
  State.settleAborts { s3 with xr := { s3.xr with
    ops := s3.xr.ops.filter fun o => o.port != p
    grants := s3.xr.grants.filter fun g => g.peer != dev
    walks := s3.xr.walks.filter fun w => w.port != p
    peerTables := s3.xr.peerTables.filter fun t => t.port != p } }

/-- A port leaves UP for a state, with a reason; EMCY 0xFF50 unless it was disabled (R462, R470). -/
def State.leaveUp (s : State) (p : Nat) (dst : PortState) (reason : Nat) (emcy : Bool) : State :=
  let x := s.port p
  if x.state ≠ .up then s
  else
    let s1 := (s.setPort p (x.fall dst reason)).losePeer p x.peerDev
    let s2 := s1.logFault { cls := 7, action := 8, addr := p }
    if emcy then s2.emcyEvent 0xFF50 [7, p, reason] else s2

/-- A port is declared down (R458, R460). -/
def State.portDown (s : State) (p reason : Nat) : State := s.leaveUp p .down reason true

/-- A SYNC goes again: the FOLLOW_UP that tells of it says so, where it is still to go or goes again too (RETX of R478; that a frame
that goes again may say so is DEDUCED, log 64). -/
def XPort.markFollow (x : XPort) : XPort :=
  let mark := fun (f : Frame) =>
    if f.type = 0xE ∧ leAt f.payload 0 1 = 2 ∧ (x.retry.any fun g => g.type == 0xE && leAt g.payload 0 1 == 1 && leAt g.payload 4 2 == leAt f.payload 4 2)
      then { f with payload := f.payload.set 1 1 } else f
  { x with retry := x.retry.map mark, txQueue := x.txQueue.map mark }

/-- Goes back N, or declares the port down at the sixteenth retry (R458); a DELAY_REQ sent again spoils its exchange (R479). -/
def State.goBack (s : State) (p : Nat) : State :=
  let x := s.port p
  if x.state ≠ .up ∨ x.retry = [] then s
  else
    let y := x.markFollow.goBack
    let req := x.retry.any fun f => f.type == 0xE && f.sub == 3
    let s1 := if req then { s with tm := { s.tm with exch := s.tm.exch.map fun e => { e with retx := true } } } else s
    if 16 ≤ y.retryCount then (s1.setPort p y).portDown p 1 else s1.setPort p (XPort.pump 64 y)

/-! ### Receiving (R457, R459) -/

/-- A cumulative acknowledgement: the frames up to it leave the retry buffer. -/
def XPort.acked (x : XPort) (ack : Nat) : XPort :=
  match x.retry.findIdx? fun f => f.seq == ack with
  | some i => { x with retry := x.retry.drop (i + 1), retryCount := 0 }
  | none => x

/-- Takes a good header's acknowledgement and credits; a NAK goes back N. -/
def State.takeHeader (s : State) (p h : Nat) : State :=
  let x := s.port p
  let y := if bitAt h 6 then x.acked (bits h 16 8) else x
  let v := bits h 32 2
  let z := { y with credit := setNth y.credit v (nthD y.credit v + bits h 34 6) }
  let s1 := s.setPort p (XPort.pump 64 z)
  if bitAt h 6 && bitAt h 7 then s1.goBack p else s1

/-- The first discard after an accepted frame is signalled with the next acknowledgement. -/
def XPort.discard (x : XPort) : XPort := if x.nakSent then x else { x with nakDue := true, nakSent := true }

/-- Accepts a frame: it waits to be acted on; at 16 unacknowledged frames an acknowledgement goes at once. A frame that no
unit acts on frees its buffer. -/
def XPort.accept (x : XPort) (f : Frame) : XPort :=
  let y := { x with rxSeq := (x.rxSeq + 1) % 256, unacked := x.unacked + 1, nakSent := false
                    framesRx := (x.framesRx + 1) % 2 ^ 32 }
  let z := if f.known then { y with rx := y.rx ++ [f] } else { y with owed := setNth y.owed f.vc (nthD y.owed f.vc + 1) }
  if 16 ≤ z.unacked then z.emitNull else z

/-- LINK_FRAME_RX: a port that is UP receives the blocks of a frame; one of VC0 or VC1 wakes the device (R452, R456, R457, R565). -/
def execLinkFrameRx (port : PortNo) (blocks : List Block) (s : State) : Out :=
  let p := port.val
  let bytes := lineBytes blocks
  let x := s.port p
  if x.state ≠ .up then .next s
  else if !frameGood bytes then
    .next (s.setPort p { x.discard with crcErrors := (x.crcErrors + 1) % 2 ^ 32 })
  else
    let f := frameOf bytes s.tm.t
    let s1 := s.takeHeader p (headWord bytes)
    let y := s1.port p
    if f.type = 0 ∨ f.type = 0xF ∨ y.state ≠ .up then .next s1
    else if f.seq = y.rxSeq then
      let s2 := s1.setPort p (y.accept f)
      .next (if f.vc ≤ 1 then s2.wakeTrigger else s2)
    else .next (s1.setPort p y.discard)

/-- NULL: a frame that carries acknowledgement and credits only (R454, R457). -/
def execNull (port : PortNo) (blocks : List Block) (s : State) : Out :=
  let bytes := lineBytes blocks
  if (s.port port.val).state = .up ∧ frameGood bytes ∧ bits (headWord bytes) 2 4 = 0 then
    .next (s.takeHeader port.val (headWord bytes))
  else .next s

/-- ACK_TIMER: an acknowledgement, or a credit, goes in a NULL frame (R457, R459). -/
def execAckTimer (port : PortNo) (s : State) : Out :=
  let x := s.port port.val
  if x.state = .up ∧ (0 < x.unacked ∨ x.nakDue ∨ x.owed.any (0 < ·)) then .next (s.setPort port.val x.emitNull) else .next s

/-- RETRY_TIMEOUT: the oldest unacknowledged frame has waited 2 µs (R458). -/
def execRetryTimeout (port : PortNo) (s : State) : Out := .next (s.goBack port.val)

/-- PORT_DOWN_TIMEOUT: frames outstanding for 50 µs without progress (R458). -/
def execPortDownTimeout (port : PortNo) (s : State) : Out :=
  if (s.port port.val).retry = [] then .next s else .next (s.portDown port.val 2)

/-- ESCAPE_TIMEOUT: the oldest waiting frame of VC0 or VC1 without a credit goes on VC3, when that has one (R404, R459). -/
def execEscapeTimeout (port : PortNo) (vc1 : Bool) (s : State) : Out :=
  let p := port.val
  let x := s.port p
  let v := b2n vc1
  if x.state ≠ .up ∨ 0 < nthD x.credit v ∨ nthD x.credit 3 = 0 ∨ 64 ≤ x.retry.length then .next s
  else
    match x.txQueue.find? (·.vc == v) with
    | none => .next s
    | some f =>
      let g := { f with vc := 3 }
      let y := ({ x with txQueue := g :: dropFirst f x.txQueue }).sendOne g
      .next ((s.setPort p y).incObj 0x4018 6)

/-! ### Training (R449, R460, R461) -/

/-- The IDENT frame that a port sends now. -/
def State.identFrame (s : State) (p : Nat) : Frame :=
  let x := s.port p
  { vc := 0, type := 0xF
    payload := Config.identBytes { dev := s.xr.devId, port := p, version := 1, credits := [48, 48, 8, 16]
                                   squares := ((List.range 8).filter fun q => Tbl.getD s.rb.sqOut 0 q == 0).foldl (fun m q => m + 2 ^ q) 0
                                   peerOk := decide (3 ≤ x.identGood) } }

/-- Moves a port on in its training. -/
def State.train (s : State) (p : Nat) (src dst : PortState) : State :=
  let x := s.port p
  if x.state = src then s.setPort p { x with state := dst, identGood := 0, peerOk := false } else s

/-- DOWN_WAIT_EXPIRY. -/
def execDownWaitExpiry (port : PortNo) (s : State) : Out := .next (s.train port.val .down .detect)

/-- SIGNAL_DETECT. -/
def execSignalDetect (port : PortNo) (s : State) : Out := .next (s.train port.val .detect .lock)

/-- LANES_LOCKED. -/
def execLanesLocked (port : PortNo) (s : State) : Out := .next (s.train port.val .lock .deskew)

/-- LANES_DESKEWED: IDENT frames are exchanged from now on. -/
def execLanesDeskewed (port : PortNo) (s : State) : Out :=
  let p := port.val
  if (s.port p).state = .deskew then
    let s1 := s.train p .deskew .ident
    .next (s1.setPort p ((s1.port p).emit (s1.identFrame p)))
  else .next s

/-- TRAINING_TIMEOUT: a limit of R460; that of DETECT counts an attempt. -/
def execTrainingTimeout (port : PortNo) (s : State) : Out :=
  let p := port.val
  let x := s.port p
  match x.state with
  | .detect => .next (s.setPort p { x with state := .down, downReason := 8, attempts := (x.attempts + 1) % 2 ^ 32 })
  | .lock | .deskew | .ident => .next (s.setPort p { x with state := .down, downReason := 8, identGood := 0, peerOk := false })
  | _ => .next s

/-- BLOCK_LOCK_LOST (R460). -/
def execBlockLockLost (port : PortNo) (s : State) : Out := .next (s.portDown port.val 3)

/-- Why a peer that an IDENT frame shows may not come UP (R461). -/
def State.identFault (s : State) (p : Nat) (m : IdentMsg) : Option Nat :=
  let d := s.xr.devId
  if m.dev = d then some 5
  else if m.dev ≠ (d + p + 1) % 8 ∨ m.port ≠ 6 - p then some 4
  else if m.version ≠ 1 then some 6
  else none

/-- IDENT: the port counts good frames, is HELD with a peer that R461 excludes, and is UP after three good frames in a row
and one with PEER_OK. `blocks` are those of the frame. -/
def execIdent (port : PortNo) (blocks : List Block) (s : State) : Out :=
  let p := port.val
  let bytes := lineBytes blocks
  let x := s.port p
  if x.state ≠ .ident then .next s
  else if !frameGood bytes || bits (headWord bytes) 2 4 != 0xF then .next (s.setPort p { x with identGood := 0 })
  else
    let m := Config.identOf (frameOf bytes s.tm.t).payload
    match s.identFault p m with
    | some reason =>
      .next ((s.setPort p { x with state := .held, downReason := reason, identGood := 0, peerOk := false }).emcyEvent
        0xFF50 [7, p, reason])
    | none =>
      let y := { x with identGood := x.identGood + 1, peerOk := x.peerOk || m.peerOk }
      let s1 := s.setPort p y
      let s2 := s1.setPort p ((s1.port p).emit (s1.identFrame p))
      if 3 ≤ y.identGood ∧ y.peerOk then
        .next (s2.setPort p { (s2.port p) with state := .up, peerDev := m.dev, credit := m.credits })
      else .next s2

end Sys2Proof.Machine
end

