-- ==== Sys2Proof/Machine/PageRows.lean ====
section
/-! DEFINITION. Step boundaries, shortage of page frames, edits of page tables, prefix lookups (R263, R274, R279, R284,
R286 to R294, R412). -/

namespace Sys2Proof.Machine

/-! ### Who holds pages -/

/-- Whether a sequence belongs to an LC stream. -/
def State.seqLc (s : State) (q : Nat) : Bool := ((s.stream? (q / 8)).map fun st => st.cfg.cls == 0).getD false

/-- The chunk of a stream that has been admitted to a batch. -/
def State.placedChunk (s : State) (sid : Nat) : Option Chunk :=
  s.str.chunks.find? fun c => c.sid == sid && (c.phase == .placed || c.phase == .backoff || c.phase == .committing)

/-- Admission time of a sequence: when it last joined a batch, or, where it is to join now, when its chunk was placed (R290,
R292). -/
def State.admitted (s : State) (q : Nat) : Nat :=
  match s.seq? q with
  | none => 0
  | some x => if x.joined.isSome then x.admittedAt else ((s.placedChunk (q / 8)).map (·.placedAt)).getD x.admittedAt

/-- Deadline by which an LC sequence is served (R290). -/
def State.seqDeadline (s : State) (q : Nat) : Nat := ((s.placedChunk (q / 8)).map (·.deadline)).getD 0

/-- Inserts a number before the first one with a greater key. -/
def insertBy (key : Nat → Nat) (x : Nat) : List Nat → List Nat
  | [] => [x]
  | y :: ys => if key x < key y then x :: y :: ys else y :: insertBy key x ys

/-- Sorts by key, equal keys in their order. -/
def sortBy (key : Nat → Nat) (l : List Nat) : List Nat := l.foldl (fun acc x => insertBy key x acc) []

/-- The order of service: LC by deadline, then BE by admission time (R290). -/
def State.serviceOrder (s : State) (qs : List Nat) : List Nat :=
  sortBy s.seqDeadline (qs.filter s.seqLc) ++ sortBy s.admitted (qs.filter fun q => !s.seqLc q)

/-- IDs of the sequences that exist. -/
def State.seqIds (s : State) : List Nat := Tbl.keysWhere s.pg.seqs fun _ q => q.valid

/-! ### Shortage (R274, R287, R292, R293) -/

/-- Whether a sequence may take `n` on-chip frames now (R273, R291, R412). -/
def State.mayTake (s : State) (q n : Nat) : Bool :=
  let sid := q / 8
  let own := ((s.stream? sid).map fun st => st.cfg.cls == 0 && decide ((s.heldPages sid).length + n ≤ st.lcPages)).getD false
  decide (n ≤ s.onchipFor (s.seqLc q)) && (own || decide (s.lcUnused + n ≤ s.freeOnchip + s.freeSpill))

/-- Whether a stream has a step issued or queued, so that its sequences are not idle (R274). -/
def State.stepping (s : State) (sid : Nat) : Bool := s.hasCommand sid fun _ => true

/-- Whether a sequence is idle and its table may be edited (R274, R279). -/
def State.idleSeq (s : State) (q : Nat) : Bool := s.mayEdit q && !s.stepping (q / 8)

/-- The sequences whose tables name a page. -/
def State.seqsNaming (s : State) (page : Nat) : List Nat := s.seqIds.filter fun q => ((s.seq? q).map fun x => x.table.pages.contains page).getD false

/-- Whole committed pages that are present: those below the tail page, and below the pages that a rebuild still writes (R274,
R294, R300). -/
def State.wholePages (s : State) (x : Sequence) : Nat :=
  Nat.min (Nat.min x.table.committedLen x.table.rebuiltLen) (x.rebuildAt.getD x.table.committedLen) / s.seqTp x

/-- The place of the lowest page of a sequence that may be demoted: a whole committed page on chip, not the tail, that only idle
sequences name (R274). -/
def State.demotable (s : State) (q : Nat) : Option Nat :=
  match s.seq? q with
  | none => none
  | some x =>
    firstIndex (Nat.min x.table.entries.length (s.wholePages x)) fun i =>
      let e := x.table.entries.getD i {}
      e.valid && !isSpill e.page && (s.seqsNaming e.page).all s.idleSeq

/-- Idle sequences with a page to demote, the one walked least recently first (R274). -/
def State.demoteOrder (s : State) : List Nat :=
  sortBy (fun q => ((s.seq? q).map (·.lastWalk)).getD 0)
    (s.seqIds.filter fun q => s.idleSeq q && (s.demotable q).isSome)

/-- A Lane reads a page to copy it: corrections are counted; one that cannot be read is reported, leaves the tree, and its
sequences are marked (R123, R124, R287, R294, R432, R433). None then. Which line of a spill frame is unreadable is free. -/
def State.lanePage (s : State) (page : Nat) : State × Option (List Byte) :=
  if isSpill page then
    (if s.pageBad page then
       let d := s.draw
       let a := spillAddr (pageFrame page) + d.1.toNat % 512 * 64
       let lane := 0x48 + 2 * spillStackOf (pageFrame page)
       (((((d.2.hbmUncorrected (a / 64) lane).logFault { cls := 3, source := lane, action := 8, addr := a }).incObj 0x4010 0x0A).pageLost page),
        none)
     else (s, some (s.pageBytes page)))
  else
    let rd := s.countReads ((List.range 64).map (s.frameRow (pageFrame page) + ·))
    match rd.2 with
    | some row =>
      let lane := 0x48 + row / 65536
      ((((rd.1.spUncorrected row lane).logFault { cls := 2, source := lane, action := 8, addr := row }).incObj 0x4010 0x0A).pageLost page, none)
    | none => (rd.1, some (s.pageBytes page))

/-- A table that names one page in place of another. -/
def PageTable.renamePage (t : PageTable) (old new : Nat) : PageTable :=
  { t with entries := t.entries.map fun e => if e.valid ∧ e.page = old then { e with page := new } else e }

/-- Moves a sequence's lowest demotable page into a spill frame: the copy lands, then the entries that name it are edited, and
its tree node with them (R271, R274). -/
def State.demote (s : State) (q : Nat) : Option State :=
  match s.demotable q, s.seq? q, s.nextSpill with
  | some i, some x, some fr =>
    let f := spillPage fr
    let page := (x.table.entries.getD i {}).page
    match s.lanePage page with
    | (t, none) => some t
    | (t, some bs) =>
      let s1 := (t.claimSpill fr).writePage f bs
      let s2 := { s1 with pg := { s1.pg with nodes := s1.pg.nodes.map fun n => (n.1, if n.2.page = page then { n.2 with page := f } else n.2) } }
      some ((s.seqsNaming page).foldl (fun u k => u.editSeq k (·.renamePage page f)) s2)
  | _, _, _ => none

/-- Steps 1 and 2 of R292, once: an unreferenced node goes, on-chip pages first; else a page of an idle sequence is
spilled while BE may take a spill frame. -/
def State.relieve (s : State) : Option State :=
  match s.evictNode fun n => !isSpill n.page with
  | some t => some t
  | none =>
    match s.evictNode fun _ => true with
    | some t => some t
    | none =>
      if s.lcUnused < s.freeOnchip + s.freeSpill then s.demoteOrder.head?.bind fun q => s.demote q else none

/-- Relieves a shortage until a sequence may take `n` frames, or nothing more can be done. -/
def State.relieveFor (q n : Nat) : Nat → State → State
  | 0, s => s
  | k + 1, s =>
    if s.mayTake q n then s
    else
      match s.relieve with
      | some t => State.relieveFor q n k t
      | none => s

/-- Frames that relief can free at most, with a margin. -/
def State.reliefBound (s : State) : Nat :=
  s.pg.nodes.length + (s.pg.seqs.map fun q => q.2.table.entries.length).sum + 1

/-- Pre-empts a sequence (R293): its stream's uncommitted chunk is aborted, and its table is emptied and its root marked REBUILD
as soon as the copy to be written has no walkers (R279). -/
def State.preempt (s : State) (q : Nat) : State :=
  let s1 := match s.str.chunks.find? fun c => c.sid == q / 8 && (c.phase == .placed || c.phase == .backoff) with
    | some c => s.abortChunk c.sid c.no 0 false none
    | none => s
  ((s1.modSeq q fun x => { x with pageWait := false, joined := none }).editWhenFree q .drop).incObj 0x2900 0x0A

/-- The youngest BE sequence that holds frames, other than `not` (R292, R406). -/
def State.youngestBe (s : State) (not : Option Nat) : Option Nat :=
  let qs := s.seqIds.filter fun q => !s.seqLc q && decide (not ≠ some q)
    && ((s.seq? q).map fun x => !x.table.pages.isEmpty && !x.due.contains .drop).getD false
  (sortBy s.admitted qs).getLast?

/-- Step 4 of R292. -/
def State.preemptYoungest (s : State) (not : Option Nat) : State :=
  match s.youngestBe not with
  | some q => s.preempt q
  | none => s

/-! ### Step boundaries (R290, R291, R412) -/

/-- Leaves: a member whose chunk is no longer admitted to a batch returns its headroom frame, also where its stream's next chunk
is admitted already: the leave is taken first (R290). -/
def State.leaveAll (s : State) : State :=
  (s.seqIds.filter fun q => ((s.seq? q).map fun x => x.joined.isSome && x.joined != (s.placedChunk (q / 8)).map (·.no)).getD false
      && s.mayEdit q).foldl
    (fun t q => (t.modSeq q fun x => { x with joined := none, pageWait := false }).editSeq q fun p => { p with headroom := none }) s

/-- Gives a member a headroom frame, where it may take one. -/
def State.giveHeadroom (s : State) (q : Nat) : Option State :=
  if s.mayTake q 1 && s.mayEdit q then
    let f := lowestFree s.usedOnchip
    some (((s.claimFrames [f] (s.seqLc q)).modSeq q fun x => { x with pageWait := false }).editSeq q fun t => { t with headroom := some f })
  else none

/-- Refills the headroom of a member, or holds a BE member in PAGE_WAIT; for an LC member a BE sequence is pre-empted at once, and
the refill is served from what that frees (R291, R292). -/
def State.refillSeq (s : State) (q : Nat) : State :=
  if !s.mayEdit q then s
  else
    let s1 := State.relieveFor q 1 s.reliefBound s
    match s1.giveHeadroom q with
    | some t => t
    | none =>
      if s1.seqLc q then ((s1.preemptYoungest none).giveHeadroom q).getD (s1.preemptYoungest none)
      else if ((s1.seq? q).map (·.pageWait)).getD true then s1
      else (s1.modSeq q fun x => { x with pageWait := true, waitSince := s.now }).incObj 0x2900 9

/-- Members whose headroom slot is empty. -/
def State.refillAll (s : State) : State :=
  (s.serviceOrder (s.seqIds.filter fun q =>
    ((s.seq? q).map fun x => x.joined.isSome && x.table.headroom.isNone).getD false)).foldl (fun t q => t.refillSeq q) s

/-- The places that a join must have on chip and unshared, and has not: the tail entry, and for a fork each later entry that
its uncommitted positions reach (R286, R290). -/
def State.tailsToCopy (s : State) (x : Sequence) : List Nat :=
  let t := x.table
  let tp := s.seqTp x
  (List.range (t.workLen / tp + 1)).filter fun i =>
    let e := t.entries.getD i {}
    decide (t.committedLen / tp ≤ i) && e.valid && (isSpill e.page || e.shared)

/-- A sequence is a member of a batch with its stream's admitted chunk. -/
def State.joined (s : State) (q : Nat) : State :=
  s.modSeq q fun y => { y with joined := some (((s.placedChunk (q / 8)).map (·.no)).getD 0), admittedAt := s.now }

/-- The pages of some places of a sequence as a Lane reads them; none once one cannot be read. -/
def State.laneTails (q : Nat) : List Nat → State → State × Option (List (Nat × List Byte))
  | [], s => (s, some [])
  | i :: is, s =>
    match s.lanePage (match s.seq? q with | some y => (y.table.entries.getD i {}).page | none => 0) with
    | (t, none) => (t, none)
    | (t, some bs) =>
      match State.laneTails q is t with
      | (u, some rest) => (u, some ((i, bs) :: rest))
      | (u, none) => (u, none)

/-- A join: every frame it needs, or none; it is refused while they cannot be had, and an LC join then pre-empts. -/
def State.joinSeq (s : State) (q : Nat) : State :=
  match s.seq? q with
  | none => s
  | some x =>
    if x.joined.isSome ∨ !s.mayEdit q then s
    else
      let tails := s.tailsToCopy x
      let need := tails.length + (if x.table.headroom.isNone then 1 else 0)
      let s1 := if need = 0 then s else State.relieveFor q need s.reliefBound s
      if need = 0 then s.joined q
      else if s1.mayTake q need then
        match State.laneTails q tails s1 with
        | (t, none) => t
        | (t, some pages) =>
          let fs := lowestFrees t.usedOnchip need
          let copies := pages.zip fs
          let s2 := t.claimFrames fs (t.seqLc q)
          let s3 := copies.foldl (fun u k => u.writePage k.2 k.1.2) s2
          (s3.joined q).editSeq q fun p =>
            { p with headroom := p.headroom.or fs.getLast?
                     entries := copies.foldl (fun es k => es.set k.1.1 { page := k.2, valid := true }) p.entries }
      else if s1.seqLc q then s1.preemptYoungest none
      else s1

/-- Joins of a set of sequences, in the order of service. -/
def State.joinAll (s : State) (qs : List Nat) : State := (s.serviceOrder qs).foldl (fun t q => t.joinSeq q) s

/-- A step boundary: leaves, headroom refills, then joins of the sequences of admitted chunks (R290). -/
def State.atBoundary (s : State) : State :=
  let s1 := s.leaveAll.refillAll
  s1.joinAll (s1.seqIds.filter fun q => ((s1.placedChunk (q / 8)).map fun c => c.phase == .placed).getD false)

/-- STEP_BOUNDARY. -/
def execStepBoundary (s : State) : Out := .next s.atBoundary

/-- PAGE_DEMOTE: with free on-chip frames below LOW_WATERMARK, a page of the idle sequence walked least recently moves to
the spill pool (R274). -/
def execPageDemote (sid : Sid) (s : State) : Out :=
  match s.demoteOrder with
  | [] => .next s
  | q :: _ =>
    if s.freeOnchip < s.obj 0x2900 4 ∧ q / 8 = sid.val then .next ((s.demote q).getD s) else .next s

/-- PAGE_WAIT_LIMIT: the sequence longest in PAGE_WAIT has waited WAIT_LIMIT; the youngest other BE sequence is pre-empted
(step 4 of R292). -/
def execPageWaitLimit (s : State) : Out :=
  let since := fun (q : Nat) => ((s.seq? q).map (·.waitSince)).getD 0
  match sortBy since (s.seqIds.filter fun q => ((s.seq? q).map (·.pageWait)).getD false) with
  | [] => .next s
  | q :: _ => if since q + s.obj 0x2900 5 * 1000000 ≤ s.now then .next (s.preemptYoungest (some q)) else .next s

/-! ### Table edits (R279, R286) -/

/-- A beam of a stream takes a copy of another beam's table with every entry SHARED (R263, R286). -/
def State.fork (s : State) (q parent : Nat) : State :=
  match s.seq? parent with
  | none => s
  | some x =>
    let t := { x.table with headroom := none, entries := x.table.entries.map fun e => { e with shared := true } }
    if s.atBusy (q / 8) then s
    else
      match s.seq? q with
      | none => s.beginTable q x.rebuild t
      | some y => if y.editable then (s.putSeq q { y with rebuild := x.rebuild, rebuildAt := none }).editSeq q fun _ => t else s

/-- TABLE_EDIT: Brusk edits a table outside boundaries and commits: a fork, or a reset that returns every frame. -/
def execTableEdit (seq : SeqNo) (edit : TableEdit) (s : State) : Out :=
  match edit with
  | .fork parent =>
    let par := seq.val / 8 * 8 + parent.val
    if seq.val % 8 = 0 ∨ par = seq.val then .next s else .next (s.fork seq.val par)
  | .reset =>
    if s.mayEdit seq.val then
      .next ((s.modSeq seq.val fun x => { x with rebuild := false, pageWait := false, joined := none, rebuildAt := none }).editSeq seq.val fun t =>
        { model := t.model, part := t.part, workChunk := t.workChunk })
    else .next s

/-- RECLAIM_FREE: the list of a copy without walkers is freed, and an edit that waited for it is made (R279). -/
def execReclaimFree (seq : SeqNo) (copyB : Bool) (s : State) : Out := .next ((s.reclaim seq.val copyB).settleSeq seq.val 8)

/-! ### Prefix lookup (R284) -/

/-- Looks up pages from page `i` on: each hit enters its page, the first miss ends the lookup. -/
def State.lookupPages (q tp : Nat) : Nat → Nat → Nat → List Nat → State × PageTable → State × PageTable
  | 0, _, _, _, a => a
  | n + 1, i, parent, toks, (s, t) =>
    let part := toks.take tp
    if part = [] then (s, t)
    else
      let sought : TreeNode := { slot := t.model, part := s.treePart t.part, parent := parent, tokens := part, page := 0 }
      let hit := s.pg.nodes.find? fun e => { e.2 with page := 0, lastUse := 0 } == sought
      match hit with
      | some (id, node) =>
        let s1 := { s with pg := { s.pg with nodes := Tbl.put s.pg.nodes id { node with lastUse := s.str.useClock } } }
        State.lookupPages q tp n (i + 1) id (toks.drop tp)
          (s1.incObj 0x2A00 3, { t with entries := t.entries ++ [{ page := node.page, valid := true, shared := true }] })
      | none =>
        let s1 := if s.pg.nodes.any fun e => e.2.key == sought.key then s.incObj 0x2A00 5 else s
        (s1.incObj 0x2A00 4, t)

/-- PREFIX_LOOKUP: at the start of a sequence or after a reset, the pages of its prefix, whose tokens are `toks`, are looked
up from page 0; PREFIX_END is their number. -/
def execPrefixLookup (seq : SeqNo) (toks : List Nat) (s : State) : Out :=
  match s.seq? seq.val with
  | none => .next s
  | some x =>
    if x.table.entries ≠ [] ∨ x.table.committedLen ≠ 0 ∨ !s.mayEdit seq.val then .next s
    else
      let tp := s.seqTp x
      let s0 := { s with str := { s.str with useClock := s.str.useClock + 1 } }
      let r := if s.obj 0x2A00 1 = 0 then (s0, x.table)
        else State.lookupPages seq.val tp (pagesFor tp toks.length) 0 0xFFFFFFFF toks (s0, x.table)
      .next (r.1.editSeq seq.val fun _ => { r.2 with prefixEnd := toks.length })

/-- REBUILD_MARK: the first committed page of a sequence that cannot be read, and the pages after it, leave its table, and its
root is marked (R294). -/
def execRebuildMark (seq : SeqNo) (s : State) : Out :=
  match s.seq? seq.val with
  | none => .next s
  | some x =>
    match x.table.entries.find? fun e => e.valid && s.pageBad e.page with
    | some e => .next (s.editWhenFree seq.val (.lost e.page))
    | none => .next s

end Sys2Proof.Machine
end

