-- ==== Sys2Proof/Machine/Remote.lean ====
section
/-! DEFINITION. Remote operations that a Crossing port serves or completes: remote writes, tag operations, reads, walks,
cancellation, registration (R403, R463 to R467). -/

namespace Sys2Proof.Machine

/-! ### Frames that wait to be acted on -/

/-- The oldest waiting frame of a type that no earlier frame of its channel precedes. -/
def headFrame (p : Frame → Bool) : List Frame → List Nat → Option Frame
  | [], _ => none
  | f :: fs, seen => if p f && !seen.contains f.vc then some f else headFrame p fs (f.vc :: seen)

/-- Takes a frame of a type off a port that is UP; its buffer is free, and its credit is owed (R459). -/
def State.takeFrame (s : State) (p : Nat) (sel : Frame → Bool) : Option (Frame × State) :=
  let x := s.port p
  if x.state ≠ .up then none
  else (headFrame sel x.rx []).map fun f =>
    (f, s.setPort p { x with rx := dropFirst f x.rx, owed := setNth x.owed f.vc (nthD x.owed f.vc + 1) })

/-- Acts on the next frame of a type. -/
def State.onFrame (s : State) (p : Nat) (sel : Frame → Bool) (act : Frame → State → State) : State :=
  match s.takeFrame p sel with
  | some (f, t) => act f t
  | none => s

/-- Selects a type. -/
def ofType (n : Nat) (f : Frame) : Bool := f.type == n

/-- Selects a subtype of MIG or MGMT_TIME frames. -/
def ofSub (n sub : Nat) (f : Frame) : Bool := f.type == n && f.sub == sub

/-- A LANDED frame: STATUS, and the flag of a failed check (R454). -/
def landedFrame (f : Frame) (status flag : Nat) : Frame :=
  { vc := 1, type := 0x3, part := f.part, txn := f.txn, payload := leBytes 1 status ++ leBytes 1 flag }

/-- Fields of an address block (R455). -/
structure Addr where
  handle : Nat
  mode : Nat
  readers : Nat
  paged : Bool
  off : Nat
  rows : Nat
  tstate : Nat
  page : Nat
  seq : Nat
  deriving DecidableEq, Repr

/-- Reads an address block. -/
def Addr.of (b : List Byte) : Addr :=
  let m := leAt b 1 1
  { handle := leAt b 0 1, mode := bits m 0 3, readers := bits m 3 4, paged := bitAt m 7, off := leAt b 2 2, rows := leAt b 4 2
    tstate := leAt b 6 1, page := bits (leAt b 8 4) 0 20, seq := leAt b 0xC 2 }

/-- Resolves rows of a handle for a Crossing port, a global unit; the first error of R104. -/
def State.resolveRemote (s : State) (part h off rows : Nat) (rd wr : Bool) : Except Nat Operand :=
  let e := HandleEntry.of (s.handle part h)
  if !e.valid then .error flHandleInvalid
  else if (rd && !e.rd) || (wr && !e.wr) then .error flHandleAccess
  else if e.isLocal then .error flHandleSquare
  else if e.bound < off + rows then .error flHandleBound
  else if (List.range rows).any fun i => !s.quarterOn (rowQuarter (e.base + off + i)) then .error flHandleOff
  else .ok { used := true, handle := h, off := off, base := e.base, bound := e.bound, slotRows := e.slotRows }

/-! ### Remote writes (R463, R464) -/

/-- Lands 128 bytes in a quarter of a row, by a masked merge (R116, R464). A poisoned row is not written. -/
def State.landQuarter (s : State) (row q : Nat) (bs : List Byte) : State :=
  if s.rowPoisoned row then
    (s.spUncorrected row 0xFF).logFault { cls := 2, action := 8, addr := row }
  else (s.countReads [row]).1.writeRow row (spliceBytes (s.readRow row) (128 * q) (slice bs 0 128))

/-- The quarter rows of a range. -/
def quarterKeys (first rows : Nat) : List Nat := (List.range (4 * rows)).map fun i => 4 * first + i

/-- Whether all rows of a write have landed. -/
def RxDesc.done (d : RxDesc) (e : Nat × Nat × Nat × Nat) : Bool := (quarterKeys e.1 e.2.1).all fun k => d.landed.contains k

/-- Completes the writes of a descriptor whose rows have all landed: LANDED goes back, and a FILL or CLOSE makes the slot
FULL and ends the descriptor (R464). -/
def State.settleDesc (s : State) (p n : Nat) (f : Frame) : State :=
  match Tbl.get? s.xr.rxDescs n with
  | none => s
  | some d =>
    let ready := d.ends.filter d.done
    if ready = [] then s
    else
      let rest := { d with ends := d.ends.filter fun e => !d.done e
                           landed := d.landed.filter fun k => !(ready.any fun e => (quarterKeys e.1 e.2.1).contains k) }
      let fin := ready.find? fun e => e.2.2.1 == 1 || e.2.2.1 == 4
      let descs := match fin with
        | some _ => Tbl.erase s.xr.rxDescs n
        | none => Tbl.put s.xr.rxDescs n rest
      let s1 := { s with xr := { s.xr with rxDescs := descs } }
      let s2 := match fin, d.tag with
        | some e, some k => s1.setTag k ((s1.tag k).fill e.2.2.2)
        | _, _ => s1
      ready.foldl (fun t _ => t.send p (landedFrame f 0 0)) s2

/-- A frame of an unknown or cancelled descriptor is discarded and answered (R465). -/
def State.discardRx (s : State) (p : Nat) (f : Frame) : State :=
  let x := s.port p
  (s.setPort p { x with rxDiscarded := (x.rxDiscarded + 1) % 2 ^ 32 }).send p (landedFrame f 1 0)

/-- Sets a receive descriptor. -/
def State.putDesc (s : State) (n : Nat) (d : RxDesc) : State :=
  { s with xr := { s.xr with rxDescs := Tbl.put s.xr.rxDescs n d } }

/-- The descriptor that a frame names, when it belongs to the port's peer. -/
def State.descOf (s : State) (p : Nat) (f : Frame) : Option RxDesc :=
  (Tbl.get? s.xr.rxDescs f.txn).filter fun d => d.src == (s.port p).peerDev

/-- Lands a WRITE frame of a descriptor: at once as a masked merge; the fourth of four frames of one row that arrived in a row
writes it whole (R464). -/
def State.landWrite (s : State) (n : Nat) (d : RxDesc) (f : Frame) : State :=
  let row := f.frame / 4
  let run := (d.run.filter fun x => x.1 / 4 == row && x.1 != f.frame) ++ [(f.frame, slice f.payload 0 128)]
  let whole := (List.range 4).filterMap fun q => (run.find? fun x => x.1 % 4 == q).map (·.2)
  let s1 := if whole.length = 4 then s.writeRow (d.base + row) (whole.flatMap id) else s.landQuarter (d.base + row) (f.frame % 4) f.payload
  s1.putDesc n { d with landed := dedup (d.landed ++ [f.frame]), run := if whole.length = 4 then [] else run }

/-- WRITE: 128 bytes land in their quarter row of the descriptor. -/
def execWrite (port : PortNo) (s : State) : Out :=
  .next (s.onFrame port.val (ofType 0x1) fun f t =>
    match t.descOf port.val f with
    | some d =>
      if f.frame / 4 < d.rows then (t.landWrite f.txn d f).settleDesc port.val f.txn f
      else t.discardRx port.val f
    | none => t.discardRx port.val f)

/-- WRITE_END: the write ends once all its rows have landed. -/
def execWriteEnd (port : PortNo) (s : State) : Out :=
  .next (s.onFrame port.val (ofType 0x2) fun f t =>
    match t.descOf port.val f with
    | some d =>
      let a := Addr.of f.payload
      (t.putDesc f.txn { d with run := [], ends := d.ends ++ [(a.off - d.first, a.rows, a.mode, a.readers)] }).settleDesc port.val f.txn f
    | none => t.discardRx port.val f)

/-- A request of a part run for a peer: the part goes on with what it asked for (R467). -/
def RemoteOp.forPart (o : RemoteOp) : Bool := o.req.type == 0x8 || (o.req.type == 0x5 && (Addr.of o.req.payload).paged)

/-- One answer of a remote operation: the operation goes, and its command ends when it was the last, or, a part run for a peer,
goes on unless a flag ended it (R464, R466, R467). A PT flag is logged without EMCY (R303). -/
def State.endOp (s : State) (o : RemoteOp) (flag : Option Nat) : State :=
  let s1 := { s with xr := { s.xr with ops := s.xr.ops.erase o } }
  match s1.rb.cmds.find? fun c => c.seq == o.cmd with
  | none => s1
  | some c =>
    let c1 := { c with remoteLeft := c.remoteLeft - 1
                       flags := match flag with
                         | some b => withFlag c.flags b
                         | none => c.flags }
    let stop := c1.remoteLeft = 0 ∧ (!o.forPart ∨ c1.flags ≠ 0)
    let s2 := s1.putCmd (if !stop then c1 else if c1.phase = .parked then { c1 with answered := true } else { c1 with phase := .ended })
    if stop ∧ hasPtFlag c1.flags then
      s2.logFault { cls := 0, source := c.desc.engine, action := 8, stream := bits c.desc.w0.toNat 21 13, batch := c.desc.batch
                    chunk := c.desc.chunk, payload := [0, c1.flags, 0, 0] }
    else s2

/-- The oldest operation of a port with a transaction number. -/
def State.opOf (s : State) (p txn : Nat) (types : List Nat) : Option RemoteOp :=
  s.xr.ops.find? fun o => o.port == p && o.txn == txn && types.contains o.req.type

/-- LANDED: the local command's write, tag operation or refused read is complete; a grant that a FILL or CLOSE used up goes
(R464, R466, R467). -/
def execLanded (port : PortNo) (s : State) : Out :=
  .next (s.onFrame port.val (ofType 0x3) fun f t =>
    match t.opOf port.val f.txn [0x2, 0x4, 0x5, 0x8] with
    | none => t
    | some o =>
      let mode := (Addr.of o.req.payload).mode
      let t1 := if o.req.type = 0x2 ∧ (mode = 1 ∨ mode = 4) then
          { t with xr := { t.xr with grants := t.xr.grants.filter fun g => !(g.peer == (t.port port.val).peerDev && g.number == f.txn) } }
        else t
      t1.endOp o (if leAt f.payload 0 1 = 2 then some (leAt f.payload 1 1) else none))

/-- RTAG: a tag set on a local slot, answered with LANDED; it never waits (R111, R466). -/
def execRtag (port : PortNo) (s : State) : Out :=
  .next (s.onFrame port.val (ofType 0x4) fun f t =>
    let a := Addr.of f.payload
    match t.resolveRemote f.part a.handle a.off 1 false false with
    | .error b => t.send port.val (landedFrame f 2 b)
    | .ok o =>
      let t1 := if o.slotRows = 0 then t
        else t.setTag (slotTag o a.off) ((t.tag (slotTag o a.off)).set (TagState.ofCode (a.tstate % 4)) a.readers)
      t1.send port.val (landedFrame f 0 0))

/-! ### Remote reads (R466, R467) -/

/-- The data frames of rows. -/
def readFrames (f : Frame) (rows : List (List Byte)) : List Frame :=
  (List.range rows.length).flatMap fun i => (List.range 4).map fun q =>
    { vc := 1, type := 0x6, part := f.part, txn := f.txn, frame := 4 * i + q
      payload := slice (rows.getD i []) (128 * q) 128 }

/-- Whether a granted walk lets a peer read a page, and the flag that refuses it (R281, R467). -/
def State.pageGrant (s : State) (p : Nat) (a : Addr) : Option Nat :=
  match s.xr.walks.find? fun w => w.port == p && w.seq == a.seq with
  | none => some flPtMissing
  | some w =>
    match Tbl.get? s.pg.seqs w.seq with
    | none => some flPtMissing
    | some x =>
      let t := if w.copy then x.copyB else x.copyA
      match t.entries.findIdx? fun e => e.valid && e.page == a.page with
      | none => some flPtMissing
      | some i =>
        let pos := i * s.seqTp x
        if pos < t.committedLen ∨ (pos < t.workLen ∧ t.workChunk = w.chunk) then none else some flPtRange

/-- Serves a read of rows of a page. -/
def State.servePage (s : State) (p : Nat) (f : Frame) (a : Addr) : State :=
  match s.pageGrant p a with
  | some b => s.send p (landedFrame f 2 b)
  | none =>
    let bs := s.pageBytes a.page
    s.sendAll p (readFrames f ((List.range a.rows).map fun i => slice bs (512 * (a.off + i)) 512))

/-- Serves a read of rows of a slot: untagged rows at once; a FULL slot under a read claim that ends with the last frame;
another slot, or one that holds fifteen claims, is answered RETRY_RSP. An uncorrectable row is reported and answered as a check that
failed with ECC_UNCORR: its bytes do not go out (R124; the answer is DEDUCED, log 55). -/
def State.serveSlot (s : State) (p : Nat) (f : Frame) (a : Addr) : State :=
  match s.resolveRemote f.part a.handle a.off a.rows true false with
  | .error b => s.send p (landedFrame f 2 b)
  | .ok o =>
    let tags := if o.slotRows = 0 then [] else dedup ((List.range a.rows).map fun i => slotTag o (a.off + i))
    let idx := (List.range a.rows).map fun i => o.base + a.off + i
    let rd := s.countReads idx
    if tags.any fun t => ((s.tag t).claim 0).isNone then s.send p { vc := 1, type := 0x7, part := f.part, txn := f.txn }
    else
      match rd.2 with
      | some row =>
        (((rd.1.spUncorrected row 0xFF).logFault { cls := 2, action := 8, addr := row }).repairRow row).send p
          (landedFrame f 2 flEccUncorr)
      | none =>
      let s1 := rd.1
      let s2 := tags.foldl (fun t k => match (t.tag k).claim 0 with
        | some g => t.setTag k g.release
        | none => t) s1
      s2.sendAll p (readFrames f (idx.map s.readRow))

/-- RREAD_REQ. -/
def execRreadReq (port : PortNo) (s : State) : Out :=
  .next (s.onFrame port.val (ofType 0x5) fun f t =>
    let a := Addr.of f.payload
    if a.paged then t.servePage port.val f a else t.serveSlot port.val f a)

/-- Keeps 128 bytes of a page that a part run for a peer reads (R467). -/
def State.landPage (s : State) (o : RemoteOp) (f : Frame) : State :=
  let a := Addr.of o.req.payload
  let mine := fun (x : PeerPage) => x.cmd == o.cmd && x.page == a.page
  let old := match s.xr.peerPages.find? mine with
    | some x => x.bytes
    | none => List.replicate 32768 0
  let new : PeerPage := { cmd := o.cmd, page := a.page, bytes := spliceBytes old (512 * a.off + 128 * f.frame) (slice f.payload 0 128) }
  { s with xr := { s.xr with peerPages := (s.xr.peerPages.filter fun x => !mine x) ++ [new] } }

/-- RREAD_DATA: 128 bytes land for the requesting command, which ends with the last of its data. -/
def execRreadData (port : PortNo) (s : State) : Out :=
  .next (s.onFrame port.val (ofType 0x6) fun f t =>
    match t.opOf port.val f.txn [0x5] with
    | none => t
    | some o =>
      let t1 := if o.forPart then t.landPage o f else t.landQuarter (o.base + f.frame / 4) (f.frame % 4) f.payload
      let left := o.left - 1
      let t2 := { t1 with xr := { t1.xr with ops := t1.xr.ops.map fun x => if x = o then { x with left := left } else x } }
      let t3 := match t2.rb.cmds.find? fun c => c.seq == o.cmd && !o.forPart with
        | some c => t2.putCmd { c with wrote := true }
        | none => t2
      if left = 0 then t3.endOp { o with left := left } none else t3)

/-- RETRY_RSP: the request is sent again 1 µs later (R403, R466). -/
def execRetryRsp (port : PortNo) (s : State) : Out :=
  .next (s.onFrame port.val (ofType 0x7) fun f t =>
    { t with xr := { t.xr with ops := t.xr.ops.map fun o =>
      if o.port = port.val ∧ o.txn = f.txn ∧ (o.req.type = 0x5 ∨ o.req.type = 0x8) then { o with retrying := true } else o } })

/-- RREAD_RETRY_TIMER: the request goes again. -/
def execRreadRetryTimer (port : PortNo) (txn : Nat) (s : State) : Out :=
  match s.xr.ops.find? fun o => o.port == port.val && o.txn == txn && o.retrying with
  | none => .next s
  | some o =>
    let s1 := { s with xr := { s.xr with ops := s.xr.ops.map fun x => if x = o then { x with retrying := false } else x } }
    .next (s1.send port.val o.req)

/-! ### Walks of peers (R277, R278, R467) -/

/-- A page entry as 4 bytes (R276). -/
def PageEntry.bytes (e : PageEntry) : List Byte :=
  leBytes 4 (e.page % 2 ^ 20 + b2n e.valid * 2 ^ 20 + b2n e.shared * 2 ^ 21)

/-- A table copy: header and entries (R276). -/
def PageTable.bytes (t : PageTable) : List Byte :=
  leBytes 4 t.committedLen ++ leBytes 4 t.workLen ++ leBytes 4 t.rebuiltLen ++ leBytes 4 t.prefixEnd
    ++ leBytes 2 t.entries.length ++ leBytes 2 t.workChunk
    ++ leBytes 4 (match t.headroom with
      | some h => h % 2 ^ 20 + 2 ^ 20
      | none => 0)
    ++ leBytes 1 t.model ++ leBytes 1 t.part ++ leBytes 2 t.gen ++ List.replicate 36 0
    ++ t.entries.flatMap PageEntry.bytes

/-- WALK_REQ: a walker is added to the current copy, which goes back in WALK_DATA frames; a full count is answered
RETRY_RSP, a sequence that does not exist LANDED with PT_MISSING. -/
def execWalkReq (port : PortNo) (s : State) : Out :=
  .next (s.onFrame port.val (ofType 0x8) fun f t =>
    let q := leAt f.payload 0 2
    match t.seq? q with
    | none => t.send port.val (landedFrame f 2 flPtMissing)
    | some x =>
      if 255 ≤ (if x.cur then x.walkersB else x.walkersA) then
        t.send port.val { vc := 1, type := 0x7, part := f.part, txn := f.txn }
      else
        let t1 := t.walk q x.cur 1
        let w : Walk := { port := port.val, seq := q, copy := x.cur, chunk := leAt f.payload 2 2 }
        let t2 := { t1 with xr := { t1.xr with walks := t1.xr.walks ++ [w] } }
        let bs := x.table.bytes
        t2.sendAll port.val ((chunksOf ((bs.length + 127) / 128) 128 bs).map fun b =>
          ({ vc := 1, type := 0x9, part := f.part, txn := f.txn, payload := b } : Frame)))

/-- Whether all frames of an owner's table have come: the header and ENTRY_COUNT entries (R276, R467). -/
def PeerTable.complete (t : PeerTable) : Bool := decide (64 ≤ t.bytes.length ∧ 64 + 4 * leAt t.bytes 0x10 2 ≤ t.bytes.length)

/-- WALK_DATA: part of an owner's table copy, for the part that asked for it; with the last frame its request is answered. -/
def execWalkData (port : PortNo) (s : State) : Out :=
  .next (s.onFrame port.val (ofType 0x9) fun f t =>
    match t.opOf port.val f.txn [0x8] with
    | none => t
    | some o =>
      let q := leAt o.req.payload 0 2
      let mine := fun (x : PeerTable) => x.cmd == o.cmd && x.seq == q
      let new : PeerTable := { port := port.val, cmd := o.cmd, seq := q
                               bytes := ((t.xr.peerTables.filter mine).flatMap (·.bytes)) ++ f.payload }
      let t1 := { t with xr := { t.xr with peerTables := (t.xr.peerTables.filter fun x => !mine x) ++ [new] } }
      if new.complete then t1.endOp o none else t1)

/-- WALK_END: a peer's walker goes, and what waited for it is freed. -/
def execWalkEnd (port : PortNo) (s : State) : Out :=
  .next (s.onFrame port.val (ofType 0xA) fun f t =>
    let q := leAt f.payload 0 2
    let copy := bitAt (leAt f.payload 2 1) 0
    match t.xr.walks.find? fun w => w.port == port.val && w.seq == q && w.copy == copy with
    | none => t
    | some w => ({ t with xr := { t.xr with walks := t.xr.walks.erase w } }).endWalk q copy |>.settleAborts)

/-! ### Cancellation and registration (R463, R465) -/

/-- CANCEL: descriptors of the chunk and its queued commands go; the results of its issued ones are discarded when these have
completed. -/
def execCancel (port : PortNo) (s : State) : Out :=
  .next (s.onFrame port.val (ofType 0xB) fun f t =>
    let w := leAt f.payload 0 4
    let stream := bits w 0 13
    let chunk := bits w 13 16
    let batch := bitAt w 29
    let dev := (t.port port.val).peerDev
    let t1 := t.cancelRx fun d => !d.home && d.src == dev && d.batch == batch && d.stream == stream && d.chunk == chunk
    let t2 := (t1.rb.cmds.filter fun c => (c.phase == .queued || c.phase == .parked) && c.desc.isPart stream chunk batch).foldl
      (fun u c => u.cancelCmd c) t1
    State.settleGone { t2 with rb := { t2.rb with cancelled := t2.rb.cancelled ++ [(stream, chunk, batch)] } })

/-- Registers a descriptor: the handle resolves and the claim is made at once, or nothing is (R463). -/
def State.register (s : State) (dev part handle first rows stream : Nat) (batch : Bool) (chunk mode : Nat) :
    Option (Nat × State) :=
  match s.resolveRemote part handle first rows false true, firstIndex 1024 fun n => (Tbl.get? s.xr.rxDescs n).isNone with
  | .ok o, some n =>
    if !(mode = 1 ∨ mode = 2) ∨ rows < 4 ∨ 256 < rows then none
    else
      let t := slotTag o first
      let claimed := if o.slotRows = 0 then some s else ((s.tag t).claim mode).map fun g => s.setTag t g
      claimed.map fun u =>
        (n, u.putDesc n { src := dev, part := part, handle := handle, first := first, rows := rows, base := o.base + first
                          tag := if o.slotRows = 0 then none else some t
                          stream := stream, batch := batch, chunk := chunk, mode := mode })
  | _, _ => none

/-- RX_REG: a request is granted or denied; a grant is kept for later remote writes. -/
def execRxReg (port : PortNo) (s : State) : Out :=
  .next (s.onFrame port.val (ofType 0xC) fun f t =>
    let dev := (t.port port.val).peerDev
    let answer := fun (m : RxMsg) (u : State) =>
      u.send port.val { vc := 2, type := 0xC, part := f.part, txn := f.txn, payload := Config.rxMsgBytes m }
    match Config.rxMsgOf f.payload with
    | .request handle first rows stream batch chunk mode =>
      (match t.register dev f.part handle first rows stream batch chunk mode with
       | some (n, u) => answer (.grant handle first rows n) u
       | none => answer .denial t)
    | .grant handle first rows number =>
      let g : TxGrant := { peer := dev, part := f.part, handle := handle, first := first, rows := rows, number := number }
      { t with xr := { t.xr with grants := t.xr.grants ++ [g] } }
    | .denial => t)

end Sys2Proof.Machine
end

