-- ==== Sys2Proof/Machine/Batches.lean ====
section
/-! DEFINITION. Batches: closing, placement and reservation; weight residency; swap-out and swap-in (R48, R49, R380 to R399,
R410, R411). -/

namespace Sys2Proof.Machine

/-! ### Weight residency (R384 to R386) -/

/-- MODEL_PLACE of a slot (0x2700): bit 0 PINNED, bits 2:1 NONE, HOT, FIXED. -/
def State.modelPlace (s : State) (m : Nat) : Nat := s.obj 0x2700 (m + 1)

/-- Residency of a slot: 0 NONE, 1 HOT, 2 FIXED. -/
def State.residency (s : State) (m : Nat) : Nat := bits (s.modelPlace m) 1 2

/-- RES_USED: rows that hold resident blocks. -/
def State.resUsed (s : State) : Nat := (s.str.models.map fun m => (m.2.resident.map (·.2.1)).sum).sum

/-- Whether a block of a slot is resident. -/
def ModelSlot.isResident (m : ModelSlot) (block : Nat) : Bool := m.resident.any fun r => r.1 == block

/-- Bytes of a slot's blocks that are not resident (R387). -/
def ModelSlot.nonresident (m : ModelSlot) : Nat :=
  ((List.range m.table.blocks.length).map fun i => if m.isResident i then 0 else nthD m.table.blocks i).sum

/-- Whether a command that is queued or issued may name blocks of a slot: one of a chunk that runs the model (R385). -/
def State.modelBusy (s : State) (m : Nat) : Bool :=
  s.rb.cmds.any fun c => (s.members c.desc).any fun x =>
    ((s.chunkByWord? x.1 x.2).map fun k => k.model == some m).getD false

/-- The HOT block used least recently among those that no command names: slot and block (R385). -/
def State.coldest (s : State) : Option (Nat × Nat) :=
  let all := s.str.models.flatMap fun m =>
    if s.residency m.1 = 1 ∧ !s.modelBusy m.1 then m.2.resident.map fun r => (m.1, r.1, r.2.2) else []
  (argMin (fun r : Nat × Nat × Nat => r.2.2) all).map fun r => (r.1, r.2.1)

/-- Takes a block out of residency. -/
def State.evictBlock (s : State) (m block : Nat) : State :=
  let x := s.model m
  if x.isResident block then s.setModel m { x with resident := x.resident.filter fun r => r.1 != block } else s

/-- Makes room for rows of a block, evicting cold HOT blocks. -/
def State.makeRoom (rows : Nat) : Nat → State → State
  | 0, s => s
  | n + 1, s =>
    if s.resUsed + rows ≤ s.obj 0x2700 0x41 then s
    else
      match s.coldest with
      | some b => State.makeRoom rows n (s.evictBlock b.1 b.2)
      | none => s

/-- Loads a block that is not resident, when the region has room for it. -/
def State.loadBlock (s : State) (m block : Nat) : State :=
  let x := s.model m
  let rows := (nthD x.table.blocks block + 511) / 512
  if x.isResident block then
    s.setModel m { x with resident := x.resident.map fun r => if r.1 = block then (block, rows, s.str.useClock) else r }
  else if s.resUsed + rows ≤ s.obj 0x2700 0x41 then
    s.setModel m { x with resident := x.resident ++ [(block, rows, s.str.useClock)] }
  else s

/-- The blocks that a closing batch names: those of a HOT model are loaded, others evicted for them (R385). -/
def State.useBlocks (s : State) (m : Nat) : State :=
  if s.residency m = 1 then
    let s0 := { s with str := { s.str with useClock := s.str.useClock + 1 } }
    (List.range (s.model m).table.blocks.length).foldl (fun t i =>
      let rows := (nthD (t.model m).table.blocks i + 511) / 512
      let t1 := if (t.model m).isResident i then t else State.makeRoom rows (t.str.models.map fun x => x.2.resident.length).sum t
      t1.loadBlock m i) s0
  else s

/-- Blocks of a FIXED model are copied when it is loaded, or when FIXED is set (R385). -/
def State.fixBlocks (s : State) (m : Nat) : State :=
  if s.residency m = 2 ∧ (s.model m).pkg ≠ [] then
    (List.range (s.model m).table.blocks.length).foldl (fun t i => t.loadBlock m i) s
  else s

/-- RESIDENCY_EVICT: a HOT block that no command claims leaves its slot, and then its handle (R386). -/
def execResidencyEvict (slot : ModelNo) (block : Nat) (s : State) : Out :=
  if s.residency slot.val = 2 ∨ s.modelBusy slot.val then .next s else .next (s.evictBlock slot.val block)

/-! ### Prediction and placement (R383, R387, R388) -/

/-- f_ENG, under the issue duty of the throttle level (R387, R571, R576). -/
def State.engMhz (s : State) : Nat := s.clockMhz * levelDuty s.level / 100

/-- Predicted remaining time in ns of a batch of a size and chunk length under a model (R387). -/
def State.predictNs (s : State) (m b len : Nat) : Rat :=
  let x := s.model m
  let t := x.predict b len
  (((t.1 + t.2.1) * 1200 : Nat) : Rat) / (s.engMhz : Nat) + ((t.2.2 + (x.nonresident * 10 + 4095) / 4096 : Nat) : Rat)

/-- Time of the batches placed on a Square and not finished. -/
def State.squareLoad (s : State) (q : Nat) : Rat :=
  s.str.batches.foldl (fun a b => if b.2.square = q then a + b.2.pred else a) 0

/-- State rows of members that lie in other Squares than `q`. -/
def State.farStateRows (s : State) (mem : List (Nat × Nat)) (q : Nat) : Nat :=
  (mem.map fun x =>
    match s.stream? x.1 with
    | some st =>
      (match st.slot with
       | some r => if r / 65536 = q then 0 else s.stateRowsOf st
       | none => 0)
    | none => 0).sum

/-- Finish estimate of a Square, less the batch's own time, which is the same for all. -/
def State.finishEstimate (s : State) (mem : List (Nat × Nat)) (q : Nat) : Rat :=
  s.squareLoad q + ((s.farStateRows mem q * 51200 : Nat) : Rat) / 49152

/-- The Square of a set with the smallest estimate, the lowest of equal ones. -/
def bestSquare (est : Nat → Rat) : List Nat → Option Nat
  | [] => none
  | q :: qs =>
    match bestSquare est qs with
    | some r => if est r < est q then some r else some q
    | none => some q

/-- Squares on which a batch may be placed: those in service (R383). -/
def State.placeSquares (s : State) : List Nat := (List.range 8).filter s.inService

/-- The Square of each layer under a placement map, none when some mask has no Square that may be used (R383). -/
def State.pinSquares (s : State) (mem : List (Nat × Nat)) : List Nat → Option (List Nat)
  | [] => some []
  | mask :: ms =>
    match bestSquare (s.finishEstimate mem) (s.placeSquares.filter fun q => bitAt mask q), s.pinSquares mem ms with
    | some q, some qs => some (q :: qs)
    | _, _ => none

/-! ### Forming and closing (R380 to R382, R388 to R390) -/

/-- The model that the next chunk placed of a stream runs. -/
def Stream.nextModel (st : Stream) : Nat :=
  match st.switch with
  | some x => x.2.1
  | none => st.running

/-- Whether a chunk may join a batch: it is ready, its stream's previous chunk has committed, no regulator of its partition is
overdrawn, and no capture stands before it (R14, R63, R371, R380). A chunk that is to be replayed is placed by its replay. -/
def State.joinable (s : State) (c : Chunk) : Bool :=
  match s.stream? c.sid with
  | none => false
  | some st =>
    c.phase == .ready && c.aborts == 0 && c.no == st.nextSeq && st.cr.step == 0 && !s.overdrawn st.cfg.part
      && (st.state == .active || st.state == .parked || st.state == .draining)
      && !(st.exports.any fun e => decide (e.boundary ≤ c.no))

/-- The chunks that form a batch of a model, class and chunk length, in the order in which they join (R380). -/
def State.forming (s : State) (m cls len : Nat) : List Chunk :=
  let all := s.str.chunks.filter fun c => s.joinable c &&
    ((s.stream? c.sid).map fun st =>
      st.cfg.cls == cls && st.cfg.chunkMs == len && c.model.getD st.nextModel == m).getD false
  let key := fun (i : Nat) => ((all[i]?).map fun c => if cls = 0 then c.deadline else c.readyAt).getD 0
  (sortBy key (List.range all.length)).filterMap fun i => all[i]?

/-- Compute budget of a chunk's stream, in ns. -/
def State.computeNs (s : State) (c : Chunk) : Nat := ((s.stream? c.sid).map fun st => c.computeNs st.cfg).getD 0

/-- Whether a forming batch closes now (R381). -/
def State.closes (s : State) (m cls len : Nat) (l : List Chunk) : Bool :=
  let most := (s.model m).bMax len
  if most ≤ l.length then true
  else
    match l with
    | [] => false
    | c :: _ =>
      if cls = 0 then
        let left : Rat := (c.deadline : Rat) - (s.now : Rat) - s.predictNs m l.length len
        decide (left ≤ ((s.obj 0x2500 6 * s.computeNs c : Nat) : Rat) / 100)
      else decide (c.readyAt + s.obj 0x2500 7 * 1000000 ≤ s.now)

/-- The slack of a chunk under its stream's primary model, in ns toward zero, and whether it reaches the threshold
(R388 to R390). -/
def State.slackOf (s : State) (c : Chunk) (st : Stream) (b : Nat) : Int × Bool :=
  let x : Rat := (c.deadline : Rat) - (s.now : Rat) - s.predictNs st.cfg.model b st.cfg.chunkMs
  (Int.tdiv x.num x.den, decide (((s.obj 0x2500 2 * c.computeNs st.cfg : Nat) : Rat) / 100 ≤ x))

/-- Places one member: the model is recorded with the chunk at its first placement, and a switch that waits goes with it
(R382, R389). -/
def State.placeMember (s : State) (m b square : Nat) (c : Chunk) : State :=
  match s.stream? c.sid with
  | none => s
  | some st =>
    let first := c.model.isNone
    let s1 := s.modChunk c.sid c.no fun x =>
      { x with phase := .placed, placedAt := s.now, model := some m, square := square, slack := some (s.slackOf c st b)
               fallback := if first then st.switch else x.fallback }
    s1.modStream c.sid fun x =>
      { x with running := m, switch := if first then none else x.switch, lastSlackUs := Int.tdiv (s.slackOf c st b).1 1000 }

/-- The lowest batch ID that no batch and no valid entry takes. -/
def State.freeBatch (s : State) : Option Nat :=
  firstIndex 512 fun b => (Tbl.get? s.str.batches b).isNone && !(s.batchEntry b).valid

/-- Closes a forming batch: evaluates its members, places it on a Square and gives it an ID (R380 to R383, R388). -/
def State.closeBatch (s : State) (m cls len bid : Nat) (l : List Chunk) : State :=
  let mem := l.map fun c => (c.sid, c.no)
  let s0 := s.useBlocks m
  let pinned := bitAt (s0.modelPlace m) 0
  let pin := if pinned then s0.pinSquares mem (s0.model m).table.placeMap else none
  match bestSquare (s0.finishEstimate mem) s0.placeSquares with
  | none => s
  | some aff =>
    let square := match pin with
      | some qs => qs.headD aff
      | none => aff
    let s1 := if pinned ∧ pin.isNone then s0.incObj 0x2700 0x43 else s0
    let s2 := l.foldl (fun t c => t.placeMember m l.length square c) s1
    let b : Batch := { model := m, cls := cls, chunkMs := len, members := mem, closedAt := s.now, waitSince := s.now
                       deadline := (l.map (·.deadline)).foldl Nat.min ((l.map (·.deadline)).headD 0)
                       square := square, layers := pin.getD [], pred := s0.predictNs m l.length len }
    { s2 with str := { s2.str with batches := Tbl.put s2.str.batches bid b }, rb := { s2.rb with live := [] } }

/-- BATCH_CLOSE: the forming batch of a model, class and chunk length closes, once its condition holds and an ID is free
(R380, R381). -/
def execBatchClose (model : ModelNo) (cls : Bool) (chunkMs : Nat) (s : State) : Out :=
  let c := b2n cls
  let all := s.forming model.val c chunkMs
  let l := all.take ((s.model model.val).bMax chunkMs)
  match s.freeBatch with
  | some bid => if s.closes model.val c chunkMs all then .next (s.closeBatch model.val c chunkMs bid l) else .next s
  | none => .next s

/-! ### Reservation (R395 to R399) -/

/-- Sets a batch. -/
def State.putBatch (s : State) (bid : Nat) (b : Batch) : State :=
  { s with str := { s.str with batches := Tbl.put s.str.batches bid b } }

/-- A member is left out of a batch and stays ready for a later one; LEFT_OUT counts it (R396, R400). -/
def State.leaveOut (s : State) (bid : Nat) (mem : Nat × Nat) : State :=
  let s1 := { s with str := { s.str with batches := Tbl.modify s.str.batches bid fun b =>
    { b with members := b.members.filter (· != mem) } } }
  (s1.modChunk mem.1 mem.2 fun c => if c.phase = .placed then { c with phase := .ready } else c).incObj 0x4018 7

/-- Order in which batches that wait at a level are served: LC by deadline, then BE in closing order; a BE batch that has
waited BE_BATCH_WAIT at level 2 goes before LC batches that closed after it (R398). -/
def State.servedBefore (s : State) (level : Nat) (a b : Nat × Batch) : Bool :=
  let x := a.2
  let y := b.2
  let aged := fun (be lc : Batch) => level == 1 && decide (be.waitSince + s.inForce 0x2500 7 * 1000000 ≤ s.now)
    && decide (be.closedAt < lc.closedAt)
  if x.cls = 0 ∧ y.cls = 0 then decide (x.deadline < y.deadline ∨ (x.deadline = y.deadline ∧ a.1 < b.1))
  else if x.cls = 0 then !aged y x
  else if y.cls = 0 then aged x y
  else decide (x.closedAt < y.closedAt ∨ (x.closedAt = y.closedAt ∧ a.1 < b.1))

/-- Whether another batch waits at the same level and is served first. -/
def State.mustYield (s : State) (bid : Nat) (b : Batch) (level : Nat) : Bool :=
  s.str.batches.any fun o => o.1 != bid && o.2.level == level && s.servedBefore level o (bid, b)

/-! ### State slots (R49, R396, R410) -/

/-- The earliest chunk of a stream that is queued: its input is ready. -/
def State.queuedChunk (s : State) (sid : Nat) : Option Chunk :=
  s.str.chunks.find? fun c => c.sid == sid && c.phase != .forming && c.phase != .full

/-- Whether a resident state without a queued chunk is the one used least recently of such states (R49). -/
def State.coldState (s : State) (sid : Nat) (st : Stream) : Bool :=
  s.str.tab.all fun e => e.1 == sid || e.2.slot.isNone || (s.queuedChunk e.1).isSome || decide (st.lastCommitTime ≤ e.2.lastCommitTime)

/-- Whether the state region is under pressure: a stream with a queued chunk has no state slot. DEDUCED: R49 does not say what
pressure is. -/
def State.slotPressure (s : State) : Bool := s.str.tab.any fun e => e.2.slot.isNone && (s.queuedChunk e.1).isSome

/-- Whether another resident stream without a queued chunk could be swapped out. -/
def State.otherSwap (s : State) (sid : Nat) : Bool :=
  s.str.tab.any fun e => e.1 != sid && e.2.slot.isSome && (s.queuedChunk e.1).isNone

/-- Whether an LC stream with a queued chunk lacks a state slot (R410). -/
def State.lcShort (s : State) : Bool := s.str.tab.any fun e => e.2.cfg.cls == 0 && e.2.slot.isNone && (s.queuedChunk e.1).isSome

/-- Whether a stream with a queued chunk may be swapped out (R410): an LC stream is short of a slot; it is BE, its chunk not in a
batch, there is no other choice, and it committed least recently of such streams. -/
def State.victim (s : State) (sid : Nat) (st : Stream) : Bool :=
  let ok := fun (i : Nat) (x : Stream) => x.cfg.cls == 1 && x.slot.isSome &&
    ((s.queuedChunk i).map fun c => c.phase == .ready).getD false
  s.lcShort && ok sid st && !s.otherSwap sid
    && s.str.tab.all fun e => !ok e.1 e.2 || decide (st.lastCommitTime ≤ e.2.lastCommitTime)

/-- Whether rows can be a stream's state slot: whole tags, in quarters that are ON, apart from every other state slot. -/
def State.stateSlotFits (s : State) (sid base n : Nat) : Bool :=
  base % 4 == 0 && decide (base + n ≤ 524288) && (List.range n).all (fun i => s.quarterOn (rowQuarter (base + i)))
    && s.str.tab.all fun e => e.1 == sid || (match e.2.slot with
      | some b => rowsApart base n b (2 * s.stateRowsOf e.2)
      | none => true)

/-- Whether a state slot can be had for a stream (level 1 of R396): it has one, rows for one are free, a state without a queued chunk
can be swapped out, or, for an LC stream, a BE state can (R410). Rows are looked for where a quarter begins and behind each slot. -/
def State.slotToHave (s : State) (sid : Nat) (st : Stream) : Bool :=
  let n := 2 * s.stateRowsOf st
  let ends := s.str.tab.filterMap fun e => e.2.slot.map fun b => (b + 2 * s.stateRowsOf e.2 + 3) / 4 * 4
  st.slot.isSome || s.otherSwap sid
    || ((List.range 32).map (16384 * ·) ++ ends).any (fun b => s.stateSlotFits sid b n)
    || (st.cfg.cls == 0 && s.str.tab.any fun e => s.victim e.1 e.2)

/-- Level 1: a member whose stream has ended, or for which no state slot can be had, is left out; the others' slots are pinned or named
for a swap-in. A batch without members ends (R396, R398). -/
def State.levelOne (s : State) (bid : Nat) : State :=
  match Tbl.get? s.str.batches bid with
  | none => s
  | some b =>
    let s1 := (b.members.filter fun m => ((s.stream? m.1).map fun st => (st.slot.isNone && st.state == .closed) || !s.slotToHave m.1 st).getD true).foldl
      (fun t m => t.leaveOut bid m) s
    match Tbl.get? s1.str.batches bid with
    | none => s1
    | some x =>
      if x.members = [] then { s1 with str := { s1.str with batches := Tbl.erase s1.str.batches bid } }
      else s1.putBatch bid { x with level := 1, waitSince := s.now }

/-- Working handles and rows that batches hold, and whether one more may take its own (R396). -/
def State.workFits (s : State) (b : Batch) : Bool :=
  let t := (s.model b.model).table
  decide ((s.str.batches.map fun x => x.2.handles).sum + t.workHandles ≤ 255
    ∧ (s.str.batches.map fun x => x.2.rows).sum + t.workRows ≤ s.str.workRowsFree)

/-- Level 2: every working handle and row, or none. -/
def State.levelTwo (s : State) (bid : Nat) : State :=
  match Tbl.get? s.str.batches bid with
  | none => s
  | some b =>
    if s.mustYield bid b 1 ∨ !s.workFits b then s
    else
      let t := (s.model b.model).table
      s.putBatch bid { b with level := 2, handles := t.workHandles, rows := t.workRows }

/-- Level 3: a step boundary, at which the members join; a member whose join is refused is left out, and a batch without
members ends. -/
def State.levelThree (s : State) (bid : Nat) : State :=
  match Tbl.get? s.str.batches bid with
  | none => s
  | some b =>
    let s1 := if (s.model b.model).usesAt then
        let s2 := s.leaveAll.refillAll.joinAll (b.members.map fun m => m.1 * 8)
        (b.members.filter fun m => ((s2.seq? (m.1 * 8)).map fun x => x.joined.isNone).getD true).foldl
          (fun t m => t.leaveOut bid m) s2
      else s
    match Tbl.get? s1.str.batches bid with
    | none => s1
    | some x =>
      if x.members = [] then { s1 with str := { s1.str with batches := Tbl.erase s1.str.batches bid } }
      else s1.putBatch bid { x with level := 3, waitSince := s.now }

/-- One descriptor of a remote part: registered here, or asked of the peer (R396, R463). -/
def State.registerPart (s : State) (bid part : Nat) (r : RxReg) : Option State :=
  let p := r.port.val
  let of : Nat × Bool × Nat := match r.chunk with
    | some c => (c.1.val, false, c.2.toNat)
    | none => (bid, true, 0)
  let mode := if r.fill then 1 else 2
  if (s.port p).state ≠ .up then none
  else if r.onPeer then
    let t := s.takeTxn p
    some (t.2.send p { vc := 2, type := 0xC, part := part, txn := t.1
                       payload := Config.rxMsgBytes (.request r.handle.toNat r.first.toNat r.rows of.1 of.2.1 of.2.2 mode) })
  else
    (s.register (s.port p).peerDev part r.handle.toNat r.first.toNat r.rows of.1 of.2.1 of.2.2 mode).map fun x =>
      { x.2 with xr := { x.2.xr with rxDescs := Tbl.modify x.2.xr.rxDescs x.1 fun d => { d with home := true } } }

/-- Registers every descriptor of a list, or none. -/
def State.registerParts (bid part : Nat) : List RxReg → State → Option State
  | [], s => some s
  | r :: rs, s => (s.registerPart bid part r).bind (State.registerParts bid part rs)

/-- Level 4: every descriptor that the batch's remote parts need, or none; it never waits. -/
def State.levelFour (s : State) (bid : Nat) (parts : List RxReg) : State :=
  match Tbl.get? s.str.batches bid with
  | none => s
  | some b =>
    let part := s.streamPart ((b.members.map (·.1)).headD 0)
    let held := State.registerParts bid part parts s
    (held.getD s).putBatch bid { b with level := 4, waitSince := s.now, crossing := held.isSome && !parts.isEmpty }

/-- Command slots that batches of a class hold, and what the class may hold in all (R396). -/
def State.slotLedger (s : State) (cls : Nat) : Nat × Nat :=
  ((s.str.batches.map fun x => if x.2.cls = cls then x.2.slots else 0).sum,
   if cls = 0 then s.inForce 0x2500 4 else 4096 - s.inForce 0x2500 4 - 128)

/-- Level 5: CMD_WINDOW command slots. -/
def State.levelFive (s : State) (bid : Nat) : State :=
  match Tbl.get? s.str.batches bid with
  | none => s
  | some b =>
    let w := s.inForce 0x4018 4
    let l := s.slotLedger b.cls
    if s.mustYield bid b 4 ∨ l.2 < l.1 + w then s else s.putBatch bid { b with level := 5, slots := w }

/-- BATCH_RESERVE: a closed batch takes its resources level by level, as far as they can be had; `parts` are what its step
program's remote parts need (R395, R396). -/
def execBatchReserve (bid : BatchId) (parts : List RxReg) (s : State) : Out :=
  let at_ := fun (t : State) => ((Tbl.get? t.str.batches bid.val).map (·.level)).getD 9
  let s1 := if at_ s = 0 then s.levelOne bid.val else s
  let s2 := if at_ s1 = 1 then s1.levelTwo bid.val else s1
  let s3 := if at_ s2 = 2 then s2.levelThree bid.val else s2
  let s4 := if at_ s3 = 3 then s3.levelFour bid.val parts else s3
  .next (if at_ s4 = 4 then s4.levelFive bid.val else s4)

/-! ### Swap (R48, R49, R410, R411) -/

/-- SWAP_OUT: under pressure the resident state without a queued chunk that was used least recently goes to its mirror buffers and
its slot is free; a pre-empted BE stream is PARKED (R48, R49, R410, R411). -/
def execSwapOut (sid : Sid) (s : State) : Out :=
  match s.stream? sid.val with
  | none => .next s
  | some st =>
    if st.slot.isNone ∨ st.cr.step ≠ 0 then .next s
    else if (s.queuedChunk sid.val).isNone then
      (if s.slotPressure && s.coldState sid.val st then .next (s.swapOutState sid.val) else .next s)
    else if s.victim sid.val st then
      let s1 := s.swapOutState sid.val
      .next ((s1.modStream sid.val fun x => if x.state = .active then { x with state := .parked } else x).incObj 0x4018 8)
    else .next s

/-- SWAP_IN: Mc is copied into Sc at device row `base` and its tag becomes FULL; a PARKED stream is ACTIVE. `bad` is the mask
of mirror buffers in which the read meets an unreadable line (R24, R49, R50, R433). -/
def execSwapIn (sid : Sid) (base : Nat) (bad : Nat) (s : State) : Out :=
  match s.stream? sid.val with
  | none => .next s
  | some st =>
    if st.slot.isSome ∨ !(st.state = .active ∨ st.state = .parked ∨ st.state = .draining)
        ∨ !s.stateSlotFits sid.val base (2 * s.stateRowsOf st) then .next s
    else
      let s1 := (s.modStream sid.val fun x => { x with badMirror := Nat.lor x.badMirror (bits bad 0 2) }).restoreM sid.val 3
      match s1.stream? sid.val with
      | none => .next s1
      | some x =>
        if x.state = .lost then .next s1
        else
          let y := { x with slot := some base, state := if x.state = .parked then .active else x.state }
          .next (((s1.modStream sid.val fun _ => y).copyFromMirror sid.val y y.cr.cur y.cr.cur).openBuffer y)

end Sys2Proof.Machine
end

