-- ==== Sys2Proof/Machine/Cores.lean ====
section
/-! DEFINITION. Faults of the control cores and their restart (R416, R423, R438). -/

namespace Sys2Proof.Machine

/-- Whether a chunk's step program runs on a core: the core that its accepted commands name for completions. -/
def State.runsOn (s : State) (c : Chunk) (core : Nat) : Bool :=
  s.rb.cmds.any fun x => x.desc.compCc == core && s.lists x.desc c.sid c.no

/-- Carries a commit past its commit point as far as it goes now, and counts it (R423, R446). -/
def State.rollForward (s : State) (sid : Nat) : State := (s.carryCommit sid).incObj 0x4010 9

/-- A core is reset: its memory is cleared, commits past their point are carried on, the other chunks that it ran are aborted
and replayed (R416, R438). A USDO transfer is lost with CC0. The log entry has ACTION 2 where a commit was carried through, else 1
where a chunk was aborted, else 7 (DEDUCED, log 63). -/
def State.resetCore (s : State) (core : Nat) : State :=
  let s1 := { s with st := { s.st with core := Mem.clearRange s.st.core (core * 2 ^ 18) (2 ^ 18) }
                     ctl := { s.ctl with coresDown := dedup (s.ctl.coresDown ++ [core])
                                         usdo := if core = 0 then [] else s.ctl.usdo } }
  let mine := s1.str.chunks.filter fun c => s1.runsOn c core
  let fwd := mine.filter fun c => c.phase == .committing
  let gone := mine.filter fun c => c.phase != .committing
  let s2 := s1.logFault { cls := 8, source := 0x50 + core
                          action := if !fwd.isEmpty then 2 else if !gone.isEmpty then 1 else 7 }
  let s3 := fwd.foldl (fun t c => t.rollForward c.sid) s2
  let s4 := gone.foldl (fun t c => t.abortChunk c.sid c.no 8 false none) s3
  if gone.isEmpty then s4 else s4.incObj 0x4010 8

/-- CC_WATCHDOG: a core that is serving missed its watchdog. One without a clock counts no time (R13). -/
def execCcWatchdog (core : Core) (s : State) : Out :=
  if s.coreRuns core.val then .next (s.resetCore core.val) else .next s

/-- CORE_MEMORY_UNCORRECTABLE: a CORE fault (R417). -/
def execCoreMemoryUncorrectable (core : Core) (s : State) : Out :=
  if s.ctl.coresDown.contains core.val then .next s else .next (s.resetCore core.val)

/-- A core that was reset serves again (R438, R533). -/
def State.coreServes (s : State) (core : Nat) : State :=
  if s.ctl.coresDown.contains core then
    { s with ctl := { s.ctl with coresDown := s.ctl.coresDown.filter (· != core) } }.emcyEvent 0x5000 [3, core]
  else s

end Sys2Proof.Machine
end

