-- ==== Sys2Proof/Machine/Egress.lean ====
section
/-! DEFINITION. Commands of EG, IN and FE, and the egress queues' way to the host rings (R155, R320, R322, R329 to R332, R350,
R424, R540, R541). -/

namespace Sys2Proof.Machine

/-! ### Provisional ranges (R320, R322, R328) -/

/-- The PROVISIONAL records of drafts over a context. -/
def provRecs (m : ModelSlot) (sid chunk range : Nat) (drafts : List Nat) (ctx : TokenCtx) : List (Rec × List Byte) :=
  let bytes := ctx.hold ++ drafts.flatMap m.tokenText
  (tokenRun 0x02 sid chunk range ctx.nextPos drafts (utf8Split bytes.length bytes).1).map fun r => (r, [])

/-- Publishes a provisional range, or skips it when it does not fit at once. -/
def State.publishRange (s : State) (mark sid : Nat) (st : Stream) (c : Chunk) (m : ModelSlot) (drafts : List Nat) (ctx : TokenCtx) :
    State :=
  let rs := provRecs m sid c.no st.eg.rangeNext drafts ctx
  let p := st.cfg.part
  let r := st.cfg.outRing
  if s.ringWaits p r || !s.roomFor p r rs then s.incObj 0x2C00 6
  else
    (s.placeAll p r mark false rs).modStream sid fun x =>
      { x with eg := { x.eg with rangeNext := (st.eg.rangeNext + 1) % 2 ^ 32
                                 ledger := some ⟨st.eg.rangeNext, ctx.nextPos, c.no, drafts⟩ } }

/-- What EG_PROV publishes for a chunk with drafts: nothing when the ledger holds the same range; otherwise the ledger's
range is retracted first, and the new range follows where the chunk's PROVISIONAL is on. -/
def State.provisional (s : State) (mark sid : Nat) (c : Chunk) (m : ModelSlot) (drafts : List Nat) (ctx : TokenCtx) : State :=
  match s.stream? sid with
  | none => s
  | some st =>
    let same := match st.eg.ledger with
      | some l => l.pos == ctx.nextPos && l.drafts == drafts
      | none => false
    if same then s
    else
      let s1 := s.retractAt mark sid
      match s1.stream? sid with
      | some st1 => if c.provisional && !drafts.isEmpty then s1.publishRange mark sid st1 c m drafts ctx else s1
      | none => s1

/-- What EG_PROV publishes for each chunk: DRAFT holds D token IDs, of which the chunk may have so many, CTX the context whose
NEXT_POS starts the range (R316, R320). -/
def egProvAfter (v : State) (c : Cmd) (s : State) : State :=
  let drafts := v.tokens16 (c.ops.getD 0 {}) (c.desc.param 0 5)
  let ctx := TokenCtx.of (v.opRow (c.ops.getD 1 {}) (c.ops.getD 1 {}).off)
  (v.cmdChunks c.desc).foldl (fun t m =>
    let slot := m.2.model.getD (((v.stream? m.1).map (·.cfg.model)).getD 0)
    t.provisional (c.seq + 1) m.1 m.2 (v.model (c.desc.param 5 6)) (m.2.limitDrafts (v.model slot).table.token drafts) ctx) s

/-- What an EG_PROV reads and does. -/
def egProvPath : Datapath := { op := 0x58, data := fun _ _ => {}, after := egProvAfter }

/-- EG_PROV (R320, R350). -/
def execEgProv (eng : Eng) (hw : Hw) (s : State) : Out := .next (s.runPath eng.toNat hw egProvPath)

/-! ### Synthesis audio (R329, R330) -/

/-- Adds one frame onto the tail: the samples emitted and the new tail. -/
def olaFrame (hop : Nat) (tail frame : List Nat) : List Nat × List Nat :=
  let buf := (tail ++ List.replicate hop 0).zip frame
  let sum := buf.map fun x => fadd x.1 x.2
  (sum.take hop, sum.drop hop)

/-- Frames that a chunk of L ms may emit (R329). -/
def frameLimit (m : ModelSlot) (chunkMs : Nat) : Nat := chunkMs * m.rate / (1000 * m.table.token.olaHop)

/-- What EG_OLA makes of its frames: emitted samples, the new tail, and the frames not added. -/
def State.olaRun (s : State) (c : Cmd) (limit : Nat) : List Nat × List Nat × Nat :=
  let d := c.desc
  let o := fun k => c.ops.getD k {}
  let t := (s.model (d.param 13 6)).table.token
  let n := Nat.min (d.param 0 13) limit
  let rowsPer := rowsForBits (t.olaFrame * 32)
  let step := if (o 0).stride = 0 then rowsPer else (o 0).stride
  let words := fun (op : Operand) (off k : Nat) => (List.range k).map fun i =>
    leAt (s.opRow op (off + i / 128)) (4 * (i % 128)) 4
  let r := (List.range n).foldl (fun (acc : List Nat × List Nat) f =>
    let x := olaFrame t.olaHop acc.2 (words (o 0) ((o 0).off + f * step) t.olaFrame)
    (acc.1 ++ x.1, x.2)) ([], words (o 1) (o 1).off (t.olaFrame - t.olaHop))
  (r.1, r.2, d.param 0 13 - n)

/-- The frames that a chunk may still emit for an EG_OLA (R329). -/
def State.olaLimit (s : State) (c : Cmd) (m : Nat × Chunk) : Nat :=
  let slot := s.model (c.desc.param 13 6)
  frameLimit slot (((s.stream? m.1).map (·.cfg.chunkMs)).getD 0) - m.2.audioSamples / slot.table.token.olaHop

/-- The frames that an EG_OLA may add: those of its first chunk. -/
def State.olaFrames (s : State) (c : Cmd) : Nat := ((s.cmdChunk c.desc).map (s.olaLimit c)).getD 0

/-- The output format of a stream. -/
def State.outFormat (s : State) (sid : Nat) : Nat := ((s.stream? sid).map (·.cfg.outFormat)).getD 1

/-- EG_OLA's datapath: TAIL_OUT and AUDIO. -/
def egOlaData (s : State) (c : Cmd) : Result :=
  let r := s.olaRun c (s.olaFrames c)
  { narrow := [(2, (c.ops.getD 2 {}).off, 0, r.2.1.flatMap (leBytes 4)),
               (3, (c.ops.getD 3 {}).off, 0, (encodeRun (s.outFormat (((s.cmdChunk c.desc).map (·.1)).getD 0)) r.1).1)] }

/-- Writes OUT_POS into the token context of S(1-c) through EG's port; `v` is what EG sees (R118, R312, R329). -/
def State.writeOutPos (s v : State) (sid : Nat) (samples : Nat) : State :=
  match v.stream? sid with
  | some st =>
    if st.slot.isSome then
      let row := (v.model st.cfg.model).table.token.tokctxRow
      let pos := (TokenCtx.of (v.readRow (v.bufRow st st.cr.cur + row))).outPos
      s.narrowWrite 3 (v.bufRow st (!st.cr.cur) + row) 0x10 (leBytes 8 ((pos + samples) % 2 ^ 64)) [(st.cfg.part, sid)]
    else s
  | none => s

/-- What an EG_OLA leaves with its chunks: their samples, for the commit, and OUT_POS. -/
def egOlaAfter (v : State) (c : Cmd) (s : State) : State :=
  (v.cmdChunks c.desc).foldl (fun t m =>
    let r := v.olaRun c (v.olaLimit c m)
    let run := encodeRun (v.outFormat m.1) r.1
    let n := m.2.audioSamples + r.1.length
    (t.modChunk m.1 m.2.no fun k =>
      { k with audio := k.audio ++ run.1, audioClipped := k.audioClipped + run.2, audioSamples := n
               trunc := k.trunc + r.2.2 }).writeOutPos v m.1 n) s

/-- What an EG_OLA reads and computes. -/
def egOlaPath : Datapath := { op := 0x59, data := egOlaData, after := egOlaAfter }

/-- EG_OLA (R329, R330, R350): the chunk keeps its samples for the commit. -/
def execEgOla (eng : Eng) (hw : Hw) (s : State) : Out := .next (s.runPath eng.toNat hw egOlaPath)

/-! ### Steps 4 and 5 as commands (R350) -/

/-- Whether the commit of a chunk stands at step 3. -/
def State.atStepThree (s : State) (m : Nat × Nat) : Bool :=
  ((s.stream? m.1).map fun st => st.cr.step == 3 && st.cr.commitSeq % 65536 == m.2).getD false

/-- EG_PUBLISH: step 4 of the commits in progress of the command's streams; the command waits while records do not fit, and is
done when no commit of its chunks stands at step 3 (R328, R350, R424). -/
def execEgPublish (eng : Eng) (hw : Hw) (s : State) : Out :=
  .next (s.atCommand eng.toNat 0x5A hw fun s0 c =>
    let s1 := ((s0.members c.desc).filter s0.atStepThree).foldl (fun t m => t.stepFour (c.seq + 1) m.1) s0
    if (s1.members c.desc).any s1.atStepThree then s1 else s1.endCmd c)

/-- IN_RELEASE: the slots of the chunks' input are EMPTY again; committing chunks' input and extent halves are free (R350,
R423). -/
def execInRelease (eng : Eng) (hw : Hw) (s : State) : Out :=
  .next (s.atCommand eng.toNat 0x60 hw fun s0 c =>
    let o := c.ops.getD 0 {}
    let s1 := if o.slotRows = 0 then s0 else s0.setTag (slotTag o o.off) (((s0.tag (slotTag o o.off)).set .empty 0).by c.desc)
    let s2 := (s1.cmdChunks c.desc).foldl (fun t m =>
      if m.2.phase = ChunkPhase.committing then
        (t.tagSlot m.2 .empty).modChunk m.1 m.2.no fun k => { k with slotHeld := false, extentHeld := false }
      else t) s1
    s2.endCmd c)

/-! ### The ingest context (R92, R95) -/

/-- The context that 11 rows hold, for a model. -/
def FeContext.ofRows (m : ModelSlot) (row : Nat → List Byte) : FeContext :=
  let bins := m.feat 0x04 1
  let ws := m.feat 0x00 1 * m.rate / 1000
  let hs := m.feat 0x01 1 * m.rate / 1000
  let words := fun (r n : Nat) => (List.range n).map fun i => leAt (row (r + i / 128)) (4 * (i % 128)) 4
  { stats := { mean := words 0 bins, var := words 1 bins, n := leAt (row 2) 0 4 }, tail := words 3 (ws - hs) }

/-- A stream takes the context that 11 rows hold: FE's statistics and tail, and the DC blocker's state. -/
def State.loadContext (s : State) (sid : Nat) (m : ModelSlot) (row : Nat → List Byte) : State :=
  s.modStream sid fun x =>
    { x with fe := FeContext.ofRows m row, ing := { x.ing with dcIn := leAt (row 2) 4 4, dcOut := leAt (row 2) 8 4 } }

/-- What an FE_CTX does: the live context of each member's stream is loaded from rows 0 to 10 of STATE. -/
def feCtxAfter (v : State) (c : Cmd) (s : State) : State :=
  let o := c.ops.getD 0 {}
  (v.members c.desc).foldl (fun t m => t.loadContext m.1 (v.model (v.cmdModelNo c.desc)) fun r => v.opRow o (o.off + r)) s

/-- What an FE_CTX reads and does. -/
def feCtxPath : Datapath := { op := 0x64, data := fun _ _ => {}, after := feCtxAfter }

/-- FE_CTX (R95, R350). -/
def execFeCtx (eng : Eng) (hw : Hw) (s : State) : Out := .next (s.runPath eng.toNat hw feCtxPath)

/-! ### Messages (R541, R544) -/

/-- Sends the message of a vector, or sets its pending bit while it is masked or Bus Master Enable is 0. -/
def State.sendMsix (s : State) (p v : Nat) : State :=
  let f := s.fn p
  if f.bme && !bitAt f.masked v then s.setFn p { f with sent := f.sent ++ [v] }
  else s.setFn p { f with pending := setBit f.pending v true }

/-- What EG evaluates after a write of PROD_WB. -/
def State.moderate (s : State) (p ring : Nat) : State :=
  let o := s.oq p ring
  let n := (o.prod + 2 ^ 32 - o.pSent) % 2 ^ 32
  if o.modRecords ≤ n ∨ o.modUs = 0 then (s.setOq p ring { o with pSent := o.prod, timer := false }).sendMsix p o.vector
  else s.setOq p ring { o with timer := true }

/-- MSIX_MOD_TIMER: the moderation timer's message (R541). -/
def execMsixModTimer (p : Part) (ring : Ring) (s : State) : Out :=
  let o := s.oq p.val ring.val
  if o.timer then .next ((s.setOq p.val ring.val { o with pSent := o.prod, timer := false }).sendMsix p.val o.vector)
  else .next s

/-! ### From the queue to the host ring (R155, R540) -/

/-- Free entries of an output ring. -/
def OutRing.room (o : OutRing) : Nat := 2 ^ o.log2 - (o.prod + 2 ^ 32 - o.cons) % 2 ^ 32

/-- Writes one record, its audio run first, into the next slot. -/
def State.writeRecord (s : State) (p ring : Nat) (r : Rec × List Byte) : State :=
  let o := s.oq p ring
  let s1 := if r.2 = [] then s else s.hostWrite (o.audioBase + bits r.1.w3 0 32) r.2
  let s2 := s1.hostWrite (o.base + o.prod % 2 ^ o.log2 * 64) r.1.toBytes
  (s2.setOq p ring { o with prod := (o.prod + 1) % 2 ^ 32, queue := o.queue.drop 1, marks := o.marks.drop 1 }).chargePart p 4 (64 + r.2.length)

/-- EG writes the queued records that the ring has room for, then the producer index; the message follows the moderation
rule, and what waits for the queue's room is placed (R328, R371, R540, R541, R544). -/
def State.drainRing (s : State) (p ring : Nat) : State :=
  let o := s.oq p ring
  let n := Nat.min o.queue.length o.room
  if !o.enable || !(s.fn p).bme || s.overdrawn p || n == 0 then s
  else
    let s1 := (o.queue.take n).foldl (fun t r => t.writeRecord p ring r) s
    let s2 := s1.hostWrite o.prodWb (leBytes 8 (s1.oq p ring).prod)
    (s2.moderate p ring).pumpRing p ring

/-- EGRESS_DRAIN. -/
def execEgressDrain (p : Part) (ring : Ring) (s : State) : Out := .next (s.drainRing p.val ring.val)

/-- Sets error flags of a partition block, and counts the event (R444, R537). -/
def State.ringError (s : State) (p b : Nat) : State :=
  let f := s.fn p
  s.setFn p { f with errFlags := setBit f.errFlags b true, errEvents := (f.errEvents + 1) % 2 ^ 32 }

/-- Frees the audio space of the records that the host has consumed (R331). -/
def OutRing.freeAudio (o : OutRing) : OutRing :=
  let done := o.pubIndex - o.queue.length - (o.prod + 2 ^ 32 - o.cons) % 2 ^ 32
  { o with audioHeld := o.audioHeld - ((o.audioRuns.filter fun r => decide (r.1 < done)).map (·.2)).sum
           audioRuns := o.audioRuns.filter fun r => !decide (r.1 < done) }

/-- Whether the host reaches the registers of a function: the link is up and start-up has completed (R590), the function
exists (R535), and no reset of its partition runs (R546). -/
def State.hostOk (s : State) (p : Nat) : Bool :=
  s.host.linkUp && s.boot.step == 10 && (p == 0 || (s.fn p).present) && !(s.fn p).resetting

/-- OQ_CONS: a valid count returns entries and audio space; any other is discarded (R540). -/
def execOqCons (p : Part) (ring : Ring) (value : BitVec 32) (s : State) : Out :=
  let o := s.oq p.val ring.val
  if !s.hostOk p.val then .next s
  else if !o.enable then .next (s.ringError p.val 1)
  else if (value.toNat + 2 ^ 32 - o.cons) % 2 ^ 32 ≤ (o.prod + 2 ^ 32 - o.cons) % 2 ^ 32 then
    .next ((s.setOq p.val ring.val ({ o with cons := value.toNat }).freeAudio).pumpRing p.val ring.val)
  else .next (s.ringError p.val 0)

end Sys2Proof.Machine
end

