-- ==== Sys2Proof/Machine/Admit.lean ====
section
/-! DEFINITION. Admission of streams, refusals and closes (R18 to R31, R55 to R58, R61, R62, R68, R368, R621, R622). -/

namespace Sys2Proof.Machine

/-! ### Events and errors of entries (R54, R55, R622) -/

/-- Whether an entry names a stream of the partition whose table entry is neither FREE nor OPENING (R622). -/
def State.namesStream (s : State) (p sid : Nat) : Bool :=
  match s.stream? sid with
  | some st => st.state != .opening && st.cfg.part == p
  | none => false

/-- The stream of a partition that is open, an OPENING entry left out (R22, R23). -/
def State.openIn? (s : State) (p sid : Nat) : Option Stream :=
  match s.stream? sid with
  | some st => if st.cfg.part = p ∧ st.state ≠ .opening ∧ st.state ≠ .closed ∧ st.state ≠ .lost then some st else none
  | none => none

/-- Publishes a DESC_ERROR: on the stream's ring when the entry names such a stream, else on ring 0 (R325, R622). -/
def State.descError (s : State) (p : Nat) (sid : Option Nat) (op tag code ring seq expected : Nat) : State :=
  match sid.filter (s.namesStream p) with
  | some q =>
    match s.stream? q with
    | some st => s.publish p st.cfg.outRing [(descErrorFields (mkRec 0x0B q st.lastChunk tag) code op ring seq expected, [])]
    | none => s
  | none => s.publish p 0 [(descErrorFields (mkRec0 0x0B tag) code op ring seq expected, [])]

/-- Publishes a refusal of an entry that names an open stream (R55). -/
def State.refuse (s : State) (sid op tag reason : Nat) : State := s.streamEvent sid 0x09 reason op tag 0

/-- The event of a refused OPEN, IMPORT or MIGRATE_IN; an OPENING entry goes with it (R20, R61, R621). -/
def State.refuseOpen (s : State) (p op tag reason : Nat) (sid : Option Nat) : State :=
  s.publishW { part := p, ring := 0, frees := sid
               recs := [(eventRec0 (if op = 0x10 then 0x02 else 0x07) reason op tag 0, [])] }

/-- OPENED or IMPORTED of a stream, which STREAMS_OPENED counts (R394). -/
def State.openedEvent (s : State) (sid op tag : Nat) : State :=
  match s.stream? sid with
  | some st => (s.incObj (0x3000 + st.cfg.part) 1).streamEvent sid (if op = 0x10 then 0x01 else 0x06) 0 op tag st.cfg.model
  | none => s

/-! ### The stream table (R18, R19) -/

/-- The lowest free entry. -/
def State.freeSid (s : State) : Option Nat := firstIndex 8192 fun i => (s.stream? i).isNone

/-- Takes an entry for a stream that is OPENING: its EPOCH rises (R24, R524). -/
def State.allocStream (s : State) (sid : Nat) (st : Stream) : State :=
  let s1 := s.putStream sid { st with state := .opening }
  { s1 with str := { s1.str with epoch := Tbl.put s1.str.epoch sid ((Tbl.getD s1.str.epoch 0 sid + 1) % 2 ^ 32) } }

/-! ### Checks (R29, R31, R43, R57, R368, R621) -/

/-- Whether a model slot is loaded and visible to a partition. -/
def State.modelVisible (s : State) (m p : Nat) : Bool := (s.model m).state == 2 && bitAt (s.model m).partMask p

/-- R31. -/
def kindFits (m : ModelSlot) (cfg : StreamCfg) : Bool :=
  if m.kind = 2 then cfg.inFormat == 5 && cfg.outFormat != 0 && cfg.lookMs == 0 && !cfg.provisional
  else cfg.inFormat != 5 && cfg.outFormat == 0

/-- R43 for a fallback slot of a partition. -/
def State.fallbackOk (s : State) (m p : Nat) : Option Nat → Bool
  | none => true
  | some f => s.modelVisible f p && fallbackFits (s.model m) (s.model f)

/-- R29. -/
def budgetFits (m : ModelSlot) (d l a : Nat) : Bool :=
  let t := m.predict 1 l
  decide (l + a + 10 ≤ d ∧ t.1 + t.2.1 + t.2.2 ≤ (d - l - a) * 1000000)

/-- STREAMS_OPEN of a partition: entries in any state other than FREE (R363). -/
def State.streamsOpen (s : State) (p : Nat) : Nat := (s.str.tab.filter fun e => e.2.cfg.part == p).length

/-- LC_LOAD_USED of a partition. -/
def State.loadUsed (s : State) (p : Nat) : Nat := ((s.str.tab.filter fun e => e.2.cfg.part == p).map (·.2.load)).sum

/-- The LC load of all partitions. -/
def State.loadTotal (s : State) : Nat := (s.str.tab.map (·.2.load)).sum

/-- Squares that the device limit counts: four at most while a Tulip request waits (R368, R564). -/
def State.lcSquares (s : State) : Nat :=
  let n := ((List.range 8).filter s.inService).length
  if s.pw.tulipPending then Nat.min 4 n else n

/-- Checks 10 and 11 of R621 for a stream that is OPENING, and counted already: the stream quota, the LC load, the device
limit, the LC pages. -/
def State.roomFault (s : State) (cfg : StreamCfg) : Option Nat :=
  let p := cfg.part
  let m := s.model cfg.model
  let load := if cfg.cls = 0 then m.lcLoad cfg.chunkMs else 0
  if s.obj (0x2400 + p) 1 < s.streamsOpen p then some 0x05
  else if cfg.cls ≠ 0 then none
  else if s.obj (0x2400 + p) 2 < s.loadUsed p + load then some 0x05
  else if s.lcSquares * s.inForce 0x2500 5 * 10000 < s.loadTotal + load then some 0x07
  else if s.freeOnchip + s.freeSpill < s.lcUnused + m.field 0x88 4 then some 0x07
  else none

/-- Checks 7 to 11 of R621. -/
def State.paramFault (s : State) (cfg : StreamCfg) : Option Nat :=
  let m := s.model cfg.model
  if !kindFits m cfg then some 0x08
  else if !s.fallbackOk cfg.model cfg.part cfg.fallback then some 0x03
  else if !budgetFits m cfg.budgetMs cfg.chunkMs cfg.lookMs then some 0x04
  else s.roomFault cfg

/-- Checks 5 and 7 to 11 of R621: an OPEN. -/
def State.openFault (s : State) (cfg : StreamCfg) : Option Nat :=
  if !s.modelVisible cfg.model cfg.part then some 0x02 else s.paramFault cfg

/-- Checks 1 to 3 of R621, made as an entry is consumed. -/
def State.earlyFault (s : State) (cfg : StreamCfg) : Option Nat :=
  let o := s.oq cfg.part cfg.outRing
  if s.ctl.nmt ≠ .operational then some 0x0E
  else if !o.enable || (cfg.outFormat != 0 && o.audioBytes == 0) then some 0x0E
  else if s.freeSid = none then some 0x06
  else none

/-! ### A stream begins (R28, R44, R57, R263) -/

/-- Begins the sequence of beam 0: no pages, nothing committed. Walkers and reclaim lists of an earlier life stay with their
copies. -/
def State.beginSeq (s : State) (sid : Nat) (cfg : StreamCfg) : State :=
  s.beginTable (sid * 8) false { model := cfg.model, part := cfg.part }

/-- Admits an OPENING entry in a state: loads and pages are reserved, both mirror buffers hold zeros, every counter is 0. -/
def State.beginStream (s : State) (sid : Nat) (cfg : StreamCfg) (state : StreamState) : State :=
  let m := s.model cfg.model
  let lc := decide (cfg.cls = 0)
  let s1 := { s with str := { s.str with mirror := Mem.clearRange s.str.mirror (sid * 2 * 196608) (2 * 196608) } }
  let s2 := s1.modStream sid fun x =>
    { state := state, cfg := cfg, running := cfg.model, load := if lc then m.lcLoad cfg.chunkMs else 0
      lcPages := if lc then m.field 0x88 4 else 0, peerDev := x.peerDev, peerStream := x.peerStream, hostTag := x.hostTag
      entRing := x.entRing, heldSince := s.now }
  if m.usesAt then s2.beginSeq sid cfg else s2

/-! ### Blobs (R66, R68) -/

/-- Steps 1 to 3 of R68. -/
def blobFault (b : List Byte) : Option Nat :=
  let f := fun (o n : Nat) => leAt b o n
  if b.length < 132 ∨ f 0 4 ≠ 0x4254535A ∨ f 4 2 ≠ 0x0100 ∨ 4 ≤ f 6 2 ∨ f 0x3C 4 ≠ 0 ∨ f 0x5C 36 ≠ 0
      ∨ !within 1 256 (f 0x48 4) ∨ 128 < f 0x4C 4 ∨ (f 6 2 % 2 = 0 ∧ f 0x4C 4 ≠ 0) ∨ 1024 < f 0x50 4
      ∨ !within 2 64 (f 0x58 2) ∨ 32 < f 0x5A 2 then some 0x09
  else if b.length ≠ 132 + 512 * (f 0x48 4 + f 0x4C 4) + 32768 * f 0x50 4 then some 0x0D
  else if crc32c (b.take (b.length - 4)) ≠ f (b.length - 4) 4 then some 0x0A
  else none

/-- Row `r` of a blob's planes. -/
def blobRow (b : List Byte) (r : Nat) : List Byte := slice b (128 + 512 * r) 512

/-- Whether a token context keeps R312: HOLD_LEN at most 3, reserved bits and bytes 0. -/
def ctxRowOk (row : List Byte) : Bool :=
  decide (leAt row 8 1 < 4) && decide (leAt row 9 1 ≤ 3) && leAt row 0x0D 3 == 0 && (row.drop 0x18).all (· == 0)

/-- Step 5 of R68. -/
def blobLayoutOk (m : ModelSlot) (b : List Byte) : Bool :=
  let f := fun (o n : Nat) => leAt b o n
  let len := f 0x54 4
  slice b 0x28 16 == slice m.pkg 0x28 16 && f 0x48 4 == m.stateRows && f 0x4C 4 == m.residualRows
    && (f 6 2 % 2 == 1) == decide (0 < m.residualRows)
    && (if m.usesAt then decide (len ≤ m.cache.maxTokens) && f 0x50 4 == pagesFor m.cache.tokensPerPage len
        else len == 0 && f 0x50 4 == 0)
    && ctxRowOk (blobRow b m.table.token.tokctxRow)

/-- Chunk length and look-ahead of a blob take their place among the parameters (R28). -/
def StreamCfg.ofBlob (cfg : StreamCfg) (b : List Byte) : StreamCfg :=
  { cfg with chunkMs := 10 * leAt b 0x58 2, lookMs := 10 * leAt b 0x5A 2 }

/-- Checks 4 to 11 of R621 on a blob. -/
def State.importFault (s : State) (cfg : StreamCfg) (b : List Byte) : Option Nat :=
  match blobFault b with
  | some r => some r
  | none =>
    let m := s.model cfg.model
    if !s.modelVisible cfg.model cfg.part then some 0x02
    else if slice b 0x08 32 ≠ slice m.pkg 0x08 32 then some 0x0B
    else if !blobLayoutOk m b then some 0x0C
    else s.paramFault (cfg.ofBlob b)

/-- A frame for an imported page: a general on-chip frame, else a spill frame; none when R273 grants no page. -/
def State.takeImport (s : State) (sid : Nat) : Option (Nat × State) :=
  if !s.mayTakePage sid then none
  else if 0 < s.onchipFor false then
    let f := lowestFree s.usedOnchip
    some (f, s.claimFrame f false)
  else s.nextSpill.map fun f => (spillPage f, s.claimSpill f)

/-- Gives an imported sequence its pages, private ones (R68). From the first page that no frame can be had for, the
sequence is marked REBUILD. -/
def State.importPages (sid : Nat) : List (List Byte) → State → State
  | [], s => s
  | bs :: rest, s =>
    match s.takeImport sid with
    | some (page, t) =>
      let t1 := (t.writePage page bs).modSeq (sid * 8) fun q =>
        q.setTable { q.table with entries := q.table.entries ++ [{ page := page, valid := true }] }
      State.importPages sid rest t1
    | none =>
      (s.modSeq (sid * 8) fun q =>
        { q with rebuild := true }.setTable { q.table with rebuiltLen := q.table.entries.length * s.seqTp q }).incObj
        0x2900 0x0B

/-- An accepted blob becomes the committed state, in both mirror buffers, and the stream goes on after it (R32, R68,
R95, R418). -/
def State.importBlob (s : State) (sid : Nat) (b : List Byte) : State :=
  match s.stream? sid with
  | none => s
  | some st =>
    let m := s.model st.cfg.model
    let rows := m.stateRows + m.residualRows
    let planes := slice b 128 (512 * rows)
    let steps := leAt b 0x38 8
    let pos := leAt b 0x40 8
    let len := leAt b 0x54 4
    let s1 := { s with str := { s.str with
      mirror := Mem.writeBytes (Mem.writeBytes s.str.mirror (mirrorAddr sid false) planes) (mirrorAddr sid true) planes } }
    let s2 := s1.modStream sid fun x =>
      { x with nextSeq := steps, samplePos := pos
               ing := { x.ing with bufPos := pos, chunkNo := steps, chunkStart := pos }
               cr := { x.cr with committed := decide (0 < steps), commitSeq := steps - 1, model := st.cfg.model } }
    let s3 := if m.kind = 2 then s2 else s2.loadContext sid m (blobRow b)
    if m.usesAt then
      let s4 := s3.modSeq (sid * 8) fun q => q.setTable
        { q.table with committedLen := len, workLen := len, rebuiltLen := len, workChunk := steps % 65536 }
      State.importPages sid (chunksOf (leAt b 0x50 4) 32768 ((b.drop (128 + 512 * rows)).take (32768 * leAt b 0x50 4))) s4
    else s3

/-! ### Closing (R25) -/

/-- Discards a stream's uncommitted chunks and retained input: queued commands are cancelled, peers' parts too; tags are emptied
once the commands already issued have completed (R427). A chunk past its commit point stays (R419). -/
def State.discardChunks (s : State) (sid : Nat) : State :=
  let gone := s.str.chunks.filter fun c => c.sid == sid && c.phase != .committing
  let s1 := gone.foldl (fun t c =>
    let t1 := ((t.cancelChunk sid c.no).cancelParts sid c.no).tagSlot c .empty
    ({ t1 with rb := { t1.rb with orphans := t1.rb.orphans ++ [(sid, c.no)] } }).dropChunk sid c.no) s
  (s1.settleAborts.endBatches).modStream sid fun x =>
    { x with ing := { x.ing with buf := [], bufPos := x.ing.pos, gaps := [], idlePending := false } }

/-- A CLOSE in ABORT mode, or another end at once: RETRACT for the unresolved range, then CLOSED (R25). A commit past its
commit point publishes first. -/
def State.abortStream (s : State) (sid op tag : Nat) : State :=
  let s1 := (s.dropExports sid fun e => !e.captured).discardChunks sid
  match s1.stream? sid with
  | none => s1
  | some st =>
    if st.cr.step = 2 then
      (s1.modChunk sid st.cr.commitSeq fun c => { c with closeKind := 4 }).modStream sid fun x =>
        { x with state := .closed, closing := some tag }
    else (if st.cr.step = 3 then s1 else s1.retractLedger sid).closeStream sid op tag

end Sys2Proof.Machine
end

