-- ==== Sys2Proof/Machine/Entries.lean ====
section
/-! DEFINITION. Submission entries: their form, their order of checks, and how a ring's head is consumed (R37, R51 to R56,
R326, R439, R493, R537 to R539). -/

namespace Sys2Proof.Machine

/-! ### Fields of an entry (R51 to R56) -/

/-- Word `i` of an entry. -/
def entWord (e : Words8) (i : Nat) : Nat :=
  nthD [e.w0.toNat, e.w1.toNat, e.w2.toNat, e.w3.toNat, e.w4.toNat, e.w5.toNat, e.w6.toNat, e.w7.toNat] i

/-- Bits `[lo + n - 1 : lo]` of word `i`. -/
def ent (e : Words8) (i lo n : Nat) : Nat := bits (entWord e i) lo n

/-- OPCODE. -/
def entOp (e : Words8) : Nat := ent e 0 0 8

/-- STREAM. -/
def entSid (e : Words8) : Nat := ent e 0 16 13

/-- HOST_TAG. -/
def entTag (e : Words8) : Nat := ent e 0 32 32

/-- PTS_VALID. -/
def entPtsValid (e : Words8) : Bool := ent e 0 8 1 == 1

/-- EOU. -/
def entEou (e : Words8) : Bool := ent e 0 9 1 == 1

/-- ENTRY_SEQ of an AUDIO or TOKENS entry. -/
def entSeq (e : Words8) : Nat := ent e 2 32 32

/-- HAS_FALLBACK and FALLBACK. -/
def entFallback (e : Words8) : Option Nat := if ent e 1 7 1 = 1 then some (ent e 1 8 6) else none

/-- The opcodes of R52. -/
def entOpcodes : List Nat := [0x00, 0x01, 0x02, 0x10, 0x11, 0x12, 0x13, 0x20, 0x21, 0x22, 0x23, 0x30, 0x31]

/-- OPEN, IMPORT or MIGRATE_IN. -/
def isOpener (op : Nat) : Bool := op == 0x10 || op == 0x21 || op == 0x23

/-- Whether an opcode's STREAM names a stream (R51). -/
def namesSid (op : Nat) : Bool := [0x01, 0x02, 0x11, 0x12, 0x13, 0x20, 0x22].contains op

/-- A mask of fields given as (lowest bit, width). -/
def fieldMask (fs : List (Nat × Nat)) : Nat := (fs.map fun f => (2 ^ f.2 - 1) * 2 ^ f.1).sum

/-- W1 of R56. -/
def streamFields : List (Nat × Nat) :=
  [(0, 6), (7, 1), (8, 6), (16, 1), (17, 1), (18, 1), (19, 1), (20, 4), (24, 7), (32, 6), (40, 11), (52, 3), (56, 3), (60, 3)]

/-- The fields that an opcode uses in W1 to W7; every other bit must be 0 (R53). -/
def entFields (op : Nat) : List (List (Nat × Nat)) :=
  let whole := [(0, 64)]
  match op with
  | 0x01 => [whole, whole, whole]
  | 0x02 => [whole, whole, whole, whole, whole, whole, whole]
  | 0x10 => [streamFields, [(0, 32)]]
  | 0x11 => [[(0, 1)]]
  | 0x12 => [streamFields, [(0, 3)]]
  | 0x20 => [whole, [(0, 33)]]
  | 0x21 => [streamFields, [(0, 32)], whole, [(0, 32)]]
  | 0x22 => [[(0, 3)]]
  | 0x23 => [streamFields, [(0, 32)], [(0, 3), (16, 13)]]
  | 0x30 => [whole, [(0, 48)], [(0, 6), (16, 16)]]
  | 0x31 => [[], [], [(0, 6)]]
  | _ => []

/-- Whether a reserved bit of an entry is set. -/
def entReserved (e : Words8) : Bool :=
  let fs := [(0, 10), (16, 13), (32, 32)] :: entFields (entOp e)
  (List.range 8).any fun i => Nat.land (entWord e i) (2 ^ 64 - 1 - fieldMask (fs.getD i [])) != 0

/-- Whether a field that must be 0 for its opcode is not (R51, R56, R326). -/
def entNotZero (e : Words8) : Bool :=
  let op := entOp e
  (entPtsValid e && op != 0x01 && op != 0x02) || (entEou e && op != 0x01) || (!namesSid op && entSid e != 0)
    || (op == 0x02 && ent e 1 0 64 != 0 && (List.range 4).any fun i => entWord e (4 + i) != 0)
    || (isOpener op && ((ent e 1 7 1 == 0 && ent e 1 8 6 != 0) || (ent e 1 52 3 == 5 && ent e 1 56 3 != 0)
          || (op != 0x10 && (ent e 1 24 7 != 0 || ent e 1 32 6 != 0))))
    || (op == 0x12 && ent e 2 2 1 == 1 && ent e 1 7 1 == 0 && ent e 1 8 6 != 0)

/-- Whether the parameters of R56 are in range. -/
def paramsInRange (e : Words8) : Bool :=
  let gap := ent e 2 0 16
  let idle := ent e 2 16 16
  (entOp e != 0x10 || (within 2 64 (ent e 1 24 7) && decide (ent e 1 32 6 ≤ 32))) && within 40 2000 (ent e 1 40 11)
    && decide (ent e 1 52 3 ≤ 5) && decide (ent e 1 56 3 ≤ 6) && decide (ent e 1 60 3 ≤ 3)
    && (gap == 0 || within 20 2000 gap) && (idle == 0 || within 10 60000 idle)

/-- Whether a field of an entry lies outside its range, or an address breaks the alignment that its field alone gives
(R54, R64, R326). `dev` is the device's own DEV_ID. -/
def entOutOfRange (dev : Nat) (e : Words8) : Bool :=
  match entOp e with
  | 0x01 => !within 1 1048576 (ent e 2 0 32)
  | 0x02 => !within 1 4096 (ent e 2 0 32) || (ent e 1 0 64 == 0 && decide (16 < ent e 2 0 32)) || ent e 1 0 1 == 1
  | 0x10 => !paramsInRange e
  | 0x12 => ent e 2 0 1 == 1 && !within 40 2000 (ent e 1 40 11)
  | 0x20 => ent e 1 0 6 != 0
  | 0x21 => !paramsInRange e
  | 0x22 => ent e 1 0 3 == dev
  | 0x23 => !paramsInRange e
  | _ => false

/-- Whether an AUDIO or TOKENS entry is of the kind that a stream's IN_FORMAT takes (R27). -/
def entKindFits (op : Nat) (st : Stream) : Bool := (op == 0x02) == (st.cfg.inFormat == 5)

/-- The DESC_ERROR code of a malformed entry, none when it is well formed: the first in the order of R326. -/
def State.entryError (s : State) (p : Nat) (e : Words8) : Option Nat :=
  let op := entOp e
  let st := s.openIn? p (entSid e)
  let n := (st.map fun x => container x.cfg.inFormat).getD 1
  let audio := op == 0x01 && (st.map fun x => entKindFits op x).getD false
  if !entOpcodes.contains op then some 0x01
  else if p ≠ 0 ∧ (op = 0x30 ∨ op = 0x31) then some 0x07
  else if entReserved e || entNotZero e then some 0x02
  else if entOutOfRange s.xr.devId e || (audio && ent e 1 0 64 % n != 0) then some 0x03
  else if audio && ent e 2 0 32 % n != 0 then some 0x04
  else if namesSid op && st.isNone then some 0x06
  else if (op = 0x01 ∨ op = 0x02) ∧ (st.map fun x => x.ing.entrySeq).getD 0 ≠ entSeq e then some 0x05
  else none

/-- The parameters of an OPEN, IMPORT or MIGRATE_IN (R56). -/
def entCfg (p : Nat) (e : Words8) : StreamCfg :=
  { part := p, model := ent e 1 0 6, fallback := entFallback e, cls := ent e 1 16 1, chunkMs := 10 * ent e 1 24 7
    lookMs := 10 * ent e 1 32 6, budgetMs := ent e 1 40 11, inFormat := ent e 1 52 3, inRate := ent e 1 56 3
    outFormat := ent e 1 60 3, outRing := ent e 1 20 4, provisional := ent e 1 17 1 == 1, carried := ent e 1 18 1 == 1
    dcBlock := ent e 1 19 1 == 1, gapMs := if ent e 2 0 16 = 0 then 200 else ent e 2 0 16
    idleMs := if ent e 2 16 16 = 0 then 5000 else 10 * ent e 2 16 16 }

/-! ### Consumption (R60, R371, R493, R495, R539, R544, R546) -/

/-- Whether the device consumes the entry at the head of a ring now. Outside the NMT state operational it consumes OPEN,
IMPORT and MIGRATE_IN alone, which it refuses; during a freeze, nothing. -/
def State.consumes (s : State) (p ring : Nat) (opener : Bool) : Bool :=
  let f := s.fn p
  let q := s.sq p ring
  q.enable && q.head != q.tail && (p == 0 || f.present) && f.bme && !f.resetting && !s.overdrawn p && !s.frozen
    && (match s.ctl.nmt with
        | .operational => true
        | .init => false
        | _ => opener)

/-- HEAD passes one entry. -/
def State.advanceHead (s : State) (p ring : Nat) : State :=
  let q := s.sq p ring
  s.setSq p ring { q with head := (q.head + 1) % 2 ^ 32 }

/-- The DESC_ERROR of an entry: ENTRY_SEQ as received and the number the device expected, for AUDIO and TOKENS. -/
def State.entryFault (s : State) (p ring : Nat) (e : Words8) (code : Nat) : State :=
  let op := entOp e
  let input := op == 0x01 || op == 0x02
  let sid := if namesSid op then some (entSid e) else none
  let expected := if input then ((s.openIn? p (entSid e)).map fun x => x.ing.entrySeq).getD 0 else 0
  s.descError p sid op (entTag e) code ring (if input then entSeq e else 0) expected

/-- Consumes the entry at the head of a ring. `mine` says which entries the command stands for; a reserved opcode is
malformed under every one of them. An entry of another kind is left where it is. -/
def State.consume (s : State) (p : Part) (ring : Ring) (e : Words8) (mine : Bool) (act : State → State) : State :=
  let known := entOpcodes.contains (entOp e)
  if !s.consumes p.val ring.val (isOpener (entOp e)) || (known && !mine) then s
  else
    let s1 := s.advanceHead p.val ring.val
    match s.entryError p.val e with
    | some code => s1.entryFault p.val ring.val e code
    | none => act s1

/-- NOP: only the head advances. -/
def execNop (p : Part) (ring : Ring) (e : Words8) (s : State) : Out :=
  .next (s.consume p ring e (entOp e == 0x00) fun t => t)

/-- ENTRY_READ_FAIL: the entry that could not be read is consumed; one DESC_ERROR goes to output ring 0 (R439). -/
def execEntryReadFail (p : Part) (ring : Ring) (fault : ReadFault) (s : State) : Out :=
  if s.consumes p.val ring.val false then
    .next (((s.hostReadFault p.val fault).advanceHead p.val ring.val).descError p.val none 0 0 0x08 ring.val 0 0)
  else .next s

/-! ### AUDIO and TOKENS (R27, R73, R74) -/

/-- Refuses an input entry, which advances the expected ENTRY_SEQ all the same (R27). -/
def State.refuseInput (s : State) (e : Words8) (reason : Nat) : State :=
  s.refuse (entSid e) (entOp e) (entTag e) reason

/-- An input entry is consumed: the stream wakes from IDLE, and its idle timer starts again (R24, R61, R82). -/
def State.wakeInput (s : State) (e : Words8) : State :=
  let sid := entSid e
  let s1 := s.modStream sid fun x =>
    { x with ing := { x.ing with lastTs := s.now, idlePending := false }, state := if x.state = .idle then .active else x.state }
  if ((s.stream? sid).map fun x => x.state == StreamState.idle).getD false then
    s1.streamEvent sid 0x05 0 (entOp e) (entTag e) 0
  else s1

/-- An AUDIO or TOKENS entry that is well formed: by the state of its stream (R27). -/
def State.inputEntry (s : State) (e : Words8) (act : State → State) : State :=
  let sid := entSid e
  match s.stream? sid with
  | none => s
  | some st =>
    let s1 := s.modStream sid fun x => { x with ing := { x.ing with entrySeq := (x.ing.entrySeq + 1) % 2 ^ 32 } }
    if st.state ≠ .active ∧ st.state ≠ .idle ∧ st.state ≠ .parked then s1.refuseInput e 0x0E
    else if !entKindFits (entOp e) st then s1.refuseInput e 0x08
    else act (s1.wakeInput e)

/-- EOU of an entry ends the chunk in progress (R35). -/
def State.endAtEou (s : State) (e : Words8) : State := if entEou e then (s.cutChunks (entSid e) s.now false).endsExactly (entSid e) else s

/-- AUDIO: the samples are fetched, converted, checked against the expected PTS and taken (R27, R73 to R84). -/
def execAudio (p : Part) (ring : Ring) (e : Words8) (buf : List Byte) (s : State) : Out :=
  .next (s.consume p ring e (entOp e == 0x01) fun t => t.inputEntry e fun u =>
    let n := ent e 2 0 32
    let u1 := u.chargePart p.val 4 n
    (u1.audioIn (entSid e) (if entPtsValid e then some (entWord e 3) else none) (slice buf 0 n)).endAtEou e)

/-- The token IDs of a TOKENS entry: in the entry, or in its buffer. -/
def entTokens (e : Words8) (buf : List Byte) : List Nat :=
  let src := if ent e 1 0 64 = 0 then (List.range 4).flatMap fun i => leBytes 8 (entWord e (4 + i)) else buf
  (List.range (ent e 2 0 32)).map fun i => leAt src (2 * i) 2

/-- TOKENS: one synthesis chunk (R27, R36, R73). -/
def execTokens (p : Part) (ring : Ring) (e : Words8) (buf : List Byte) (s : State) : Out :=
  .next (s.consume p ring e (entOp e == 0x02) fun t => t.inputEntry e fun u =>
    let u1 := if ent e 1 0 64 = 0 then u else u.chargePart p.val 4 (2 * ent e 2 0 32)
    u1.tokensIn (entSid e) (entTokens e buf))

/-- AUDIO_FETCH_FAIL: the buffer of an AUDIO or TOKENS entry cannot be read. No sample is taken, the expected PTS stays, and
EOU still acts (R74). -/
def execAudioFetchFail (p : Part) (ring : Ring) (e : Words8) (fault : ReadFault) (s : State) : Out :=
  let mine := entOp e == 0x01 || (entOp e == 0x02 && ent e 1 0 64 != 0)
  .next (s.consume p ring e mine fun t => t.inputEntry e fun u =>
    ((u.hostReadFault p.val fault).descError p.val (some (entSid e)) (entOp e) (entTag e) 0x08 ring.val (entSeq e) (entSeq e)).endAtEou e)

end Sys2Proof.Machine
end

