-- ==== Sys2Proof/Machine/StreamOps.lean ====
section
/-! DEFINITION. The entries that open, close, change, export, import and migrate streams, and what follows them (R24, R25,
R57 to R70). -/

namespace Sys2Proof.Machine

/-! ### OPEN (R57, R621) -/

/-- The OPENING entry that an OPEN, IMPORT or MIGRATE_IN takes, with what its later checks need. -/
def entStream (p ring : Nat) (e : Words8) : Stream :=
  { cfg := entCfg p e, hostTag := entTag e, entRing := ring
    blobLen := if entOp e = 0x21 then ent e 4 0 32 else 0
    fromPeer := entOp e == 0x23
    peerDev := if entOp e = 0x23 then ent e 3 0 3 else 0
    peerStream := if entOp e = 0x23 then ent e 3 16 13 else 0 }

/-- Takes a table entry for a consumed OPEN, IMPORT or MIGRATE_IN, or refuses it at checks 1 to 3 (R621). -/
def State.opening (s : State) (p ring : Nat) (e : Words8) (act : Nat → State → State) : State :=
  match s.earlyFault (entCfg p e), s.freeSid with
  | none, some sid => act sid (s.allocStream sid (entStream p ring e))
  | some r, _ => s.refuseOpen p (entOp e) (entTag e) r none
  | none, none => s.refuseOpen p (entOp e) (entTag e) 0x06 none

/-- OPEN: the stream is admitted as ACTIVE, or refused (R57, R621). -/
def execOpenStream (p : Part) (ring : Ring) (e : Words8) (s : State) : Out :=
  .next (s.consume p ring e (entOp e == 0x10) fun t => t.opening p.val ring.val e fun sid u =>
    let cfg := entCfg p.val e
    match u.openFault cfg with
    | some r => u.refuseOpen p.val 0x10 (entTag e) r (some sid)
    | none => (u.beginStream sid cfg .active).openedEvent sid 0x10 (entTag e))

/-! ### CLOSE, SET, RESUME (R25, R58, R59) -/

/-- Forgets a migration of a stream. -/
def State.dropMig (s : State) (sid : Nat) : State :=
  { s with xr := { s.xr with migs := s.xr.migs.filter fun m => m.sid != sid } }

/-- CLOSE in DRAIN mode: the incomplete chunk is padded, and the stream drains (R24, R25). A MIGRATE_OUT that waits for its
capture is refused, since the stream leaves the states in which it was accepted (R64). -/
def execCloseDrain (p : Part) (ring : Ring) (e : Words8) (s : State) : Out :=
  .next (s.consume p ring e (entOp e == 0x11 && ent e 1 0 1 == 0) fun t =>
    let sid := entSid e
    match t.stream? sid with
    | none => t
    | some st =>
      if st.state = .active ∨ st.state = .idle ∨ st.state = .parked then
        (((t.dropExports sid fun x => x.opcode == 0x22).cutChunks sid t.now true).modStream sid fun x =>
          { x with state := .draining, closing := some (entTag e) }).settleStream sid
      else t.refuse sid 0x11 (entTag e) 0x0E)

/-- CLOSE in ABORT mode (R24, R25); refused while MIGRATING. -/
def execCloseAbort (p : Part) (ring : Ring) (e : Words8) (s : State) : Out :=
  .next (s.consume p ring e (entOp e == 0x11 && ent e 1 0 1 == 1) fun t =>
    let sid := entSid e
    match t.stream? sid with
    | none => t
    | some st =>
      if st.state = .migrating then t.refuse sid 0x11 (entTag e) 0x0E
      else (t.dropMig sid).abortStream sid 0x11 (entTag e))

/-- The reason that refuses a SET (R29, R31, R43, R58). DESIGN CHOICE: when several checks fail, the reason is that of the first in
the order of checks 7 to 9 of R621, which orders OPEN, IMPORT and MIGRATE_IN only. -/
def State.setFault (s : State) (st : Stream) (e : Words8) : Option Nat :=
  let m := s.model st.cfg.model
  if ent e 2 1 1 = 1 ∧ ent e 1 17 1 = 1 ∧ m.kind = 2 then some 0x08
  else if ent e 2 2 1 = 1 ∧ !s.fallbackOk st.cfg.model st.cfg.part (entFallback e) then some 0x03
  else if ent e 2 0 1 = 1 ∧ !budgetFits m (ent e 1 40 11) st.cfg.chunkMs st.cfg.lookMs then some 0x04
  else none

/-- The stream's parameters after a SET; removing the fallback that the stream runs returns its next chunk to the primary
model (R58, R390). -/
def Stream.set (st : Stream) (e : Words8) : Stream :=
  let c1 := if ent e 2 0 1 = 1 then { st.cfg with budgetMs := ent e 1 40 11 } else st.cfg
  let c2 := if ent e 2 1 1 = 1 then { c1 with provisional := ent e 1 17 1 == 1 } else c1
  let c3 := if ent e 2 2 1 = 1 then { c2 with fallback := entFallback e } else c2
  if ent e 2 2 1 = 1 ∧ entFallback e = none ∧ st.onFallback then
    { st with cfg := c3, onFallback := false, hyst := 0, switch := some (st.running, st.cfg.model, true, st.lastSlackUs) }
  else { st with cfg := c3 }

/-- SET: the selected parameters, from the next chunk that begins formation (R58). -/
def execSetParams (p : Part) (ring : Ring) (e : Words8) (s : State) : Out :=
  .next (s.consume p ring e (entOp e == 0x12) fun t =>
    let sid := entSid e
    match t.stream? sid with
    | none => t
    | some st =>
      match t.setFault st e with
      | some r => t.streamEvent sid 0x10 r 0x12 (entTag e) 0
      | none => (t.modStream sid fun x => x.set e).streamEvent sid 0x0F 0 0x12 (entTag e) 0)

/-- RESUME: a HELD copy becomes ACTIVE (R59). -/
def execResume (p : Part) (ring : Ring) (e : Words8) (s : State) : Out :=
  .next (s.consume p ring e (entOp e == 0x13) fun t =>
    let sid := entSid e
    match t.stream? sid with
    | none => t
    | some st =>
      if st.state = .held then
        ((t.dropMig sid).modStream sid fun x => { x with state := .active }).openedEvent sid 0x13 (entTag e)
      else t.refuse sid 0x13 (entTag e) 0x0E)

/-! ### EXPORT (R63 to R67) -/

/-- The chunk after the last complete one of a stream: the boundary of R63. -/
def State.boundary (s : State) (sid : Nat) (st : Stream) : Nat :=
  (s.str.chunks.filter fun c => c.sid == sid && c.complete).foldl (fun n c => Nat.max n (c.no + 1)) st.nextSeq

/-- The request that an EXPORT or MIGRATE_OUT leaves with its stream. -/
def entExport (ring : Nat) (e : Words8) (boundary : Nat) : ExportReq :=
  { opcode := entOp e, hostTag := entTag e, ring := ring, boundary := boundary
    bufAddr := if entOp e = 0x20 then ent e 1 0 64 else 0, bufLen := if entOp e = 0x20 then ent e 2 0 32 else 0
    detach := entOp e == 0x20 && ent e 2 32 1 == 1, dest := if entOp e = 0x22 then ent e 1 0 3 else 0 }

/-- EXPORT acts: the capture is due once every chunk complete now has committed (R63, R64). -/
def execExportEntry (p : Part) (ring : Ring) (e : Words8) (s : State) : Out :=
  .next (s.consume p ring e (entOp e == 0x20) fun t =>
    let sid := entSid e
    match t.stream? sid with
    | none => t
    | some st =>
      if st.state = .active ∨ st.state = .idle ∨ st.state = .parked ∨ st.state = .draining then
        t.modStream sid fun x => { x with exports := x.exports ++ [entExport ring.val e (t.boundary sid st)] }
      else t.refuse sid 0x20 (entTag e) 0x0E)

/-- The records of a close that exports held back (R26, R67). -/
def Stream.heldClose (st : Stream) (sid : Nat) : List (Rec × List Byte) :=
  if st.cr.committed ∧ st.cr.commitSeq = 2 ^ 32 - 1 then
    [(eventRec sid st.lastChunk 0x11 0 0 0 0, []), (eventRec sid st.lastChunk 0x03 0 0 0 0, [])]
  else [(eventRec sid st.lastChunk 0x03 0 (if st.closing.isSome then 0x11 else 0) (st.closing.getD 0) 0, [])]

/-- Takes the oldest export off a stream; the last one lets a close go that was held back. -/
def State.popExport (s : State) (sid : Nat) (before : List (Rec × List Byte)) : State :=
  match s.stream? sid with
  | none => s
  | some st =>
    let rest := st.exports.drop 1
    let s1 := s.modStream sid fun x => { x with exports := rest }
    let closed := if rest.isEmpty && st.state == .closed then st.heldClose sid else []
    (s1.publish st.cfg.part st.cfg.outRing (before ++ closed)).settleMigrate sid

/-- EXPORT_CAPTURE: the committed state at the boundary is captured, or refused when the buffer is too small. A MIGRATE_OUT
freezes its stream (R63, R67, R69). -/
def execExportCapture (sid : Sid) (s : State) : Out :=
  match s.stream? sid.val with
  | none => .next s
  | some st =>
    match st.exports with
    | [] => .next s
    | e :: _ =>
      if !s.captureReady sid.val st then .next s
      else if e.opcode = 0x22 then .next (s.settleMigrate sid.val)
      else
        let s1 := s.repairCommitted sid.val
        match s1.stream? sid.val with
        | none => .next s1
        | some x =>
          if x.state = .lost then .next s1
          else
            let blob := s1.blobOf sid.val x
            if e.bufLen < blob.length then
              .next ((s1.refuse sid.val 0x20 e.hostTag 0x17).popExport sid.val [])
            else .next (s1.modStream sid.val fun y =>
              { y with exports := { e with blob := blob, captured := true } :: y.exports.drop 1 })

/-- A DETACH, or a migration that its peer acknowledged: other exports are refused, uncovered input and chunks discarded, the range resolved, and EXPORT_DONE and one
CLOSED form a publication (R64, R67, R69, R322). -/
def State.detach (s : State) (sid : Nat) (e : ExportReq) (done : Rec) : State :=
  let s1 := ((s.dropExports sid fun x => !x.captured).discardChunks sid).retractLedger sid
  match s1.stream? sid with
  | none => s1
  | some st =>
    let limit := if st.state = .closed then (st.heldClose sid).dropLast else []
    let s2 := s1.modStream sid fun x => { x with state := .closed, slot := none, exports := [] }
    s2.publish st.cfg.part st.cfg.outRing
      ([(done, [])] ++ limit ++ [(eventRec sid st.lastChunk 0x03 0 e.opcode e.hostTag 0, [])])

/-- BLOB_WRITE_DONE: the blob lies in host memory; EXPORT_DONE is published, and with DETACH the stream closes. The write
waits while Bus Master Enable is 0 (R67, R544). -/
def execBlobWriteDone (sid : Sid) (s : State) : Out :=
  match s.stream? sid.val with
  | none => .next s
  | some st =>
    match st.exports with
    | [] => .next s
    | e :: _ =>
      if !e.captured || e.opcode != 0x20 || !(s.fn st.cfg.part).bme || (s.fn st.cfg.part).resetting then .next s
      else
        let done := exportDoneRec sid.val st.lastChunk e.hostTag e.blob.length st.nextSeq st.samplePos
        let s1 := s.hostWrite e.bufAddr e.blob
        .next (if e.detach then s1.detach sid.val e done else s1.popExport sid.val [(done, [])])

/-! ### IMPORT (R68, R621) -/

/-- IMPORT: an entry is taken and the blob read begins (R621). -/
def execImportEntry (p : Part) (ring : Ring) (e : Words8) (s : State) : Out :=
  .next (s.consume p ring e (entOp e == 0x21) fun t => t.opening p.val ring.val e fun _ u => u)

/-- IMPORT_BLOB_READ_DONE: the blob is checked and the stream admitted as ACTIVE, or refused; a failed read imports
nothing (R68, R439, R621). -/
def execImportBlobReadDone (sid : Sid) (fault : Option ReadFault) (blob : List Byte) (s : State) : Out :=
  match s.stream? sid.val with
  | none => .next s
  | some st =>
    let cfg := st.cfg
    if st.state ≠ .opening ∨ st.fromPeer = true then .next s
    else
      match fault with
      | some f =>
        .next ((s.hostReadFault cfg.part f).publishW
          { part := cfg.part, ring := 0, frees := some sid.val
            recs := [(descErrorFields (mkRec0 0x0B st.hostTag) 0x08 0x21 st.entRing 0 0, [])] })
      | none =>
        let b := slice blob 0 st.blobLen
        match s.importFault cfg b with
        | some r => .next (s.refuseOpen cfg.part 0x21 st.hostTag r (some sid.val))
        | none => .next (((s.beginStream sid.val (cfg.ofBlob b) .active).importBlob sid.val b).openedEvent sid.val 0x21 st.hostTag)

/-! ### Migration entries (R64, R69, R468) -/

/-- MIGRATE_OUT acts: the stream is frozen at the boundary of R63, at once when it stands there (R64, R69). -/
def execMigrateOut (p : Part) (ring : Ring) (e : Words8) (s : State) : Out :=
  .next (s.consume p ring e (entOp e == 0x22) fun t =>
    let sid := entSid e
    match t.stream? sid with
    | none => t
    | some st =>
      if !(st.state = .active ∨ st.state = .idle ∨ st.state = .parked) then t.refuse sid 0x22 (entTag e) 0x0E
      else if (t.portTo (ent e 1 0 3)).isNone then t.refuse sid 0x22 (entTag e) 0x0F
      else (t.modStream sid fun x =>
        { x with exports := x.exports ++ [entExport ring.val e (t.boundary sid st)] }).settleMigrate sid)

/-- MIGRATE_IN: an entry is taken and waits for the source's OFFER (R468, R621). -/
def execMigrateIn (p : Part) (ring : Ring) (e : Words8) (s : State) : Out :=
  .next (s.consume p ring e (entOp e == 0x23) fun t => t.opening p.val ring.val e fun _ u => u)

/-! ### Model packages (R37, R40 to R42, R620) -/

/-- A MODEL event on output ring 0 of the PF (R61, R622). -/
def State.modelEvent (s : State) (ev reason op tag slot : Nat) : State := s.ring0Event 0 ev reason op tag slot

/-- MODEL_LOAD: the read of the package begins, or the entry is refused (R40, R41). -/
def execModelLoad (p : Part) (ring : Ring) (e : Words8) (s : State) : Out :=
  .next (s.consume p ring e (entOp e == 0x30) fun t =>
    let slot := ent e 3 0 6
    let m := t.model slot
    if m.state ≠ 0 then t.modelEvent 0x0D 0x16 0x30 (entTag e) slot
    else t.setModel slot ({ m with partMask := ent e 3 16 16, hostTag := entTag e, pkgLen := ent e 2 0 48
                                   ring := ring.val }.become 1))

/-- Streams in any state other than FREE that name a slot as their model or fallback (R42). -/
def State.streamsNaming (s : State) (slot : Nat) : Nat :=
  (s.str.tab.filter fun x => x.2.cfg.model == slot || x.2.cfg.fallback == some slot).length

/-- An empty slot, with its CHANGE_COUNT. -/
def emptySlot (count : Nat) : ModelSlot := { changeCount := count }

/-- MODEL_UNLOAD: the slot is emptied and both copies of its weights freed, or the entry is refused (R42, R620). A slot that
is still LOADING is no slot that can be unloaded, and it is not empty. -/
def execModelUnload (p : Part) (ring : Ring) (e : Words8) (s : State) : Out :=
  .next (s.consume p ring e (entOp e == 0x31) fun t =>
    let slot := ent e 3 0 6
    let m := t.model slot
    let refused := fun (r : Nat) => t.modelEvent 0x0D r 0x31 (entTag e) slot
    if m.state = 0 then refused 0x02
    else if m.state ≠ 2 ∨ 0 < t.streamsNaming slot then refused 0x16
    else
      (t.setModel slot (emptySlot ((m.changeCount + 2) % 2 ^ 32))).modelEvent 0x0E 0 0x31 (entTag e) slot)

/-! ### Weight copies (R40, R620) -/

/-- The ranges of HBM that weight copies hold. -/
def State.weightHeld (s : State) : List (Nat × Nat) := s.str.models.flatMap fun m => m.2.copyA ++ m.2.copyB

/-- Bytes of weight region of a stack that copies of models hold. -/
def State.weightUsed (s : State) (stack : Nat) : Nat :=
  ((s.weightHeld.filter fun r => hbmStack r.1 == stack).map (·.2)).sum

/-- The weight region of a stack: its first byte and the byte after it. DESIGN CHOICE: the three regions of R620 lie in the order
of its table. -/
def State.weightRegion (s : State) (stack : Nat) : Nat × Nat :=
  (stack * 2 ^ 34 + 2 ^ 31 + s.obj 0x2900 2 * 8192, stack * 2 ^ 34 + 2 ^ 34)

/-- Bytes of weight region of a stack that no model's copy holds (R620). -/
def State.weightFree (s : State) (stack : Nat) : Nat := 14 * 2 ^ 30 - s.obj 0x2900 2 * 8192 - s.weightUsed stack

/-- Whether two stacks have room for a weight image (step 8 of R40). -/
def State.weightRoom (s : State) (n : Nat) : Bool :=
  decide (2 ≤ ((List.range 4).filter fun k => decide (n ≤ s.weightFree k)).length)

/-- Whether ranges share no byte. -/
def rangesApart : List (Nat × Nat) → Bool
  | [] => true
  | r :: rs => rs.all (fun q => rowsApart r.1 r.2 q.1 q.2) && rangesApart rs

/-- Whether ranges can be a copy of `n` bytes in a stack: whole lines of its weight region that nothing else holds. -/
def State.copyFits (s : State) (n stack : Nat) (rs : List (Nat × Nat)) : Bool :=
  let g := s.weightRegion stack
  (rs.map (·.2)).sum == n && rangesApart (rs ++ s.weightHeld)
    && rs.all fun r => r.1 % 64 == 0 && r.2 % 64 == 0 && decide (g.1 ≤ r.1 ∧ r.1 + r.2 ≤ g.2)

/-- The free ranges between `at_` and `stop`, around ranges in ascending order. -/
def gapsAround (stop : Nat) : Nat → List (Nat × Nat) → List (Nat × Nat)
  | at_, [] => [(at_, stop - at_)]
  | at_, r :: rs => (at_, r.1 - at_) :: gapsAround stop (r.1 + r.2) rs

/-- The first `n` bytes of ranges. -/
def takeRanges : Nat → List (Nat × Nat) → List (Nat × Nat)
  | _, [] => []
  | n, r :: rs => if n = 0 ∨ r.2 = 0 then takeRanges n rs else if n ≤ r.2 then [(r.1, n)] else r :: takeRanges (n - r.2) rs

/-- The lowest free ranges of a stack's weight region that `n` bytes take. -/
def State.firstFit (s : State) (n stack : Nat) : List (Nat × Nat) :=
  let g := s.weightRegion stack
  let held := s.weightHeld.filter fun r => hbmStack r.1 == stack && r.2 != 0
  let asc := (sortBy (fun i => (held.getD i (0, 0)).1) (List.range held.length)).map fun i => held.getD i (0, 0)
  takeRanges n (gapsAround g.2 g.1 asc)

/-- Where the two copies of a weight image go: where the command says, when they fit there in two stacks, else the lowest free
ranges of the first two stacks with room. DESIGN CHOICE: R620 leaves the placement within the region open. -/
def State.placeWeights (s : State) (n : Nat) (a b : List (Nat × Nat)) : List (Nat × Nat) × List (Nat × Nat) :=
  let stackOf := fun (rs : List (Nat × Nat)) => hbmStack ((rs.headD (0, 0)).1)
  if s.copyFits n (stackOf a) a && s.copyFits n (stackOf b) b && (n == 0 || stackOf a != stackOf b) then (a, b)
  else
    match (List.range 4).filter fun k => decide (n ≤ s.weightFree k) with
    | x :: y :: _ => (s.firstFit n x, s.firstFit n y)
    | _ => ([], [])

/-- Writes an image over ranges, in order. -/
def State.writeRanges (s : State) (rs : List (Nat × Nat)) (img : List Byte) : State :=
  (rs.foldl (fun (a : State × List Byte) r => (a.1.writeHbm r.1 (a.2.take r.2), a.2.drop r.2)) (s, img)).1

/-- Loads a package that passed every check: the weight image is written twice. The slot is usable once MODEL_LOADED has been
published, and until then it is LOADING (R41). -/
def State.loadModel (s : State) (slot : Nat) (m : ModelSlot) (a b : List (Nat × Nat)) : State :=
  let img := m.pkg.drop m.weightOff
  let at_ := s.placeWeights m.weightBytes a b
  let s1 := (s.writeRanges at_.1 img).writeRanges at_.2 img
  let s2 := (s1.setModel slot { m with copyA := at_.1, copyB := at_.2, badCopies := 0 }).fixBlocks slot
  s2.publishW { part := 0, ring := 0, loads := some slot, recs := [(eventRec0 0x0C 0 0x30 m.hostTag slot, [])] }

/-- PACKAGE_READ_DONE: the checks of R40 run in order; the package is loaded with its two weight copies, at the ranges `copyA`
and `copyB` where they fit, or refused and leaves nothing behind (R40, R41, R439). -/
def execPackageReadDone (slot : ModelNo) (fault : Option ReadFault) (pkg : List Byte) (copyA copyB : List (Nat × Nat)) (s : State) : Out :=
  let m := s.model slot.val
  let empty := emptySlot ((m.changeCount + 1) % 2 ^ 32)
  if m.state ≠ 1 ∨ m.pkg ≠ [] then .next s
  else
    match fault with
    | some f => .next (((s.hostReadFault 0 f).setModel slot.val empty).descError 0 none 0x30 m.hostTag 0x08 m.ring 0 0)
    | none =>
      let bytes := slice pkg 0 m.pkgLen
      let m1 := { m with pkg := bytes }
      let m2 := { m1 with table := Config.layerTable (bytes.drop (m1.field 0x70 4)) (m1.field 0x74 4) }
      let refused := fun (r : Nat) => (s.setModel slot.val empty).modelEvent 0x0D r 0x30 m.hostTag slot.val
      match m2.packageFault with
      | some r => .next (refused r)
      | none => if s.weightRoom m2.weightBytes then .next (s.loadModel slot.val m2 copyA copyB) else .next (refused 0x15)

end Sys2Proof.Machine
end

