-- ==== Sys2Proof/Machine/Supply.lean ====
section
/-! DEFINITION. Supplies, rails and straps; resets that reach the die; power-down (R450, R491, R507, R512, R548 to R560, R578,
R580, R611, R618). -/

namespace Sys2Proof.Machine

/-! ### Monitors (R560) -/

/-- A monitor after one sample. -/
def Monitor.sample (m : Monitor) (mv : Nat) : Monitor :=
  { m with mv := mv, min := if m.seen then Nat.min m.min mv else mv, max := if m.seen then Nat.max m.max mv else mv, seen := true }

/-- The monitor of a supply: 1 to 8 the rails, 9 VIN, 10 VAUX. -/
def State.monitor (s : State) (r : Nat) : Monitor := Tbl.getD s.pw.mon {} r

/-- Sets a monitor. -/
def State.setMonitor (s : State) (r : Nat) (m : Monitor) : State := s.modPw fun x => { x with mon := Tbl.put x.mon r m }

/-- Takes a sample of a supply. -/
def State.sampleMv (s : State) (r mv : Nat) : State := s.setMonitor r ((s.monitor r).sample mv)

/-- A filtered excursion of a supply, with its sample. -/
def State.excursion (s : State) (r mv : Nat) : State :=
  let m := (s.monitor r).sample mv
  s.setMonitor r { m with events := (m.events + 1) % 2 ^ 32 }

/-- The VCORE rail: 0.65 V until the points are set, then max(V_g, V_s of the Squares whose engines are ON) (R555, R586,
R598). -/
def State.railMv (s : State) : Nat :=
  if s.boot.step ≤ 4 then 650
  else
    ((List.range 8).filter fun q => (List.range 6).any fun k => s.domain (10 * q + k) == 2).foldl (fun v q =>
      Nat.max v (Tbl.getD s.boot.squares {} q).point) s.boot.globalPoint

/-- Undervoltage and overvoltage thresholds in force, in mV (R548, R555). -/
def State.thresholds (s : State) (r : Nat) : Nat × Nat :=
  match r with
  | 1 => (760, 840)
  | 2 => (855, 945)
  | 3 => (1710, 1890)
  | 4 => (s.railMv - 50, s.railMv + 50)
  | 5 => (760, 840)
  | 6 => (1710, 1890)
  | 7 => (2375, 2625)
  | 8 => (1140, 1260)
  | 9 => (16000, 36000)
  | _ => (3000, 3465)

/-- The rails of a step of the sequencer, by their codes (R555). -/
def stepRails (step : Nat) : List Nat :=
  match step with
  | 1 => [1]
  | 2 => [2]
  | 3 => [3]
  | 4 => [4, 5]
  | 5 => [6]
  | 6 => [7, 8]
  | _ => []

/-! ### Resets that reach the die (R580) -/

/-- The always-on controller's part of the power state after a die reset: what the die held returns to its reset value. -/
def Power.afterDie (x : Power) : Power :=
  { ({} : Power) with
    auxPg := x.auxPg, pgMod := x.pgMod, vinOk := x.vinOk, vinWaits := x.vinWaits, seqStep := x.seqStep, railsUp := x.railsUp
    down := x.down, downCause := x.downCause, railFaults := x.railFaults, heldOff := x.heldOff, vinFell := x.vinFell
    holdupOk := x.holdupOk, ride := x.ride, mon := x.mon, powerDw := x.powerDw, sensors := x.sensors }

/-- A reset that reaches the die: everything in it and in HBM is lost. The always-on controller with its EMCY queue, the boot
flash, the fuses, the straps as sampled, and what the block has written outside it remain; the timebase starts again at 0. -/
def State.resetDie (s : State) (cause : Nat) : State :=
  { pending := s.pending
    free := s.free
    host := { mem := s.host.mem, perstReleased := s.host.perstReleased }
    xr := { devId := s.xr.devId, strapBad := s.xr.strapBad }
    tm := { master := s.xr.devId }
    ctl := { od := s.ctl.flashA, flashA := s.ctl.flashA, flashB := s.ctl.flashB, emcy := s.ctl.emcy, conditions := s.ctl.conditions
             canOut := s.ctl.canOut, nodeId := s.ctl.nodeId, nodeSource := s.ctl.nodeSource, nominalRate := s.ctl.nominalRate, dataRate := s.ctl.dataRate, dbgStrap := s.ctl.dbgStrap
             probeJ3 := s.ctl.probeJ3 }
    pw := s.pw.afterDie
    boot := { pllLocked := s.boot.pllLocked, step := s.boot.step, fails := s.boot.fails, resetCause := cause
              failedStep := s.boot.failedStep, lockLosses := s.boot.lockLosses, bankA := s.boot.bankA, bankB := s.boot.bankB
              serial := s.boot.serial, globalPoint := s.boot.globalPoint, recorded := s.boot.recorded
              startupMs := s.boot.startupMs } }

/-! ### Power-down (R554, R556) -/

/-- Whether the rails are up or on their way up. -/
def State.powered (s : State) : Bool := s.boot.step != 0 || s.boot.hold

/-- A power-down: the rails fall, the die is reset, PG_MOD is low and ALERT_N asserted. VAON falls only with VAUX. -/
def State.powerDown (s : State) (cause : DownCause) (reset : Nat) : State :=
  if !s.powered then s
  else
    let s1 := s.resetDie reset
    { s1 with pw := { s1.pw with pgMod := false, down := true, downCause := cause, seqStep := 0, ride := false
                                 railsUp := if s1.pw.auxPg then [1] else [], vinOk := false }
              boot := { s1.boot with step := 0, hold := false } }

/-- The sequencer starts: step 1 of start-up begins (R553, R555, R581). -/
def State.startSequencer (s : State) : State :=
  { s with pw := { s.pw with vinOk := true, vinWaits := false, seqStep := 1, down := false, downCause := .none
                             heldOff := false, vinFell := false }
           boot := { s.boot with step := 1, fails := 0, failedStep := 0, hold := false } }

/-! ### VAUX and the straps (R450, R491, R507, R548, R611) -/

/-- What samples of a strap say: the first pair, else the second; none when both differ. -/
def strapValue (f : StrapSample → Nat) (l : List StrapSample) : Option Nat :=
  let v := fun (i : Nat) => f (l.getD i (l.getLast?.getD {}))
  if v 0 = v 1 then some (v 0) else if v 2 = v 3 then some (v 2) else none

/-- The field port takes its node-ID, unless the straps gave one, and its rates from 0x2001 (R491, R496). -/
def State.applyNode (s : State) : State :=
  { s with ctl := { s.ctl with nodeId := if s.ctl.nodeSource = 1 then s.ctl.nodeId else s.obj 0x2001 1
                               nominalRate := s.obj 0x2001 2, dataRate := s.obj 0x2001 3 } }

/-- The straps choose the node-ID, the DEV_ID and DBG_EN; a pair that differs twice is reported. -/
def State.takeStraps (s : State) (l : List StrapSample) : State :=
  let own := s.obj 0x2001 1
  let s1 := match strapValue (fun x => x.node % 128) l with
    | some 0 => { s with ctl := { s.ctl with nodeId := own, nodeSource := 0 } }
    | some v => { s with ctl := { s.ctl with nodeId := v, nodeSource := 1 } }
    | none => ({ s with ctl := { s.ctl with nodeId := own, nodeSource := 2 } }).emcyEvent 0x5000 [1, 0]
  let s2 := match strapValue (fun x => x.dev % 8) l with
    | some v => { s1 with xr := { s1.xr with devId := v, strapBad := false }, tm := { s1.tm with master := v } }
    | none => (({ s1 with xr := { s1.xr with devId := 0, strapBad := true }, tm := { s1.tm with master := 0 } }).emcyEvent
        0x5000 [1, 1]).emcyEvent 0xFF50 [7, 0xFF, 7]
  match strapValue (fun x => if x.dbg then 1 else 0) l with
  | some v => { s2 with ctl := { s2.ctl with dbgStrap := v == 1 } }
  | none => ({ s2 with ctl := { s2.ctl with dbgStrap := false } }).emcyEvent 0x5000 [1, 2]

/-- VAUX_GOOD: AUX_PG rises, which is the power-on reset; the straps are sampled, and a sequencer that waited for AUX_PG
starts (R548, R550, R580). -/
def execVauxGood (mv : Nat) (straps : List StrapSample) (s : State) : Out :=
  if s.pw.auxPg then .next s
  else
    let s1 := s.resetDie 1
    let s2 := { s1 with pw := { auxPg := true, railsUp := [1], vinWaits := s.pw.vinWaits, vinFell := s.pw.vinFell
                                mon := Tbl.put [] 9 { s.monitor 9 with events := 0 } }
                        boot := { s1.boot with step := 0, lockLosses := 0, startupMs := 0, failedStep := 0 }
                        ctl := { s1.ctl with emcy := [], conditions := [] } }
    let s3 := ((s2.sampleMv 10 mv).takeStraps straps).applyNode
    .next (if s3.pw.vinWaits then s3.startSequencer else s3)

/-- VAUX_LOST: AUX_PG falls and the module powers down at once; nothing of the always-on controller remains (R548, R554). -/
def execVauxLost (mv : Nat) (s : State) : Out :=
  if !s.pw.auxPg then .next s
  else
    let s1 := (s.excursion 10 mv).powerDown .vaux 2
    .next { s1 with pw := { s1.pw with auxPg := false, pgMod := false, railsUp := [], downCause := .vaux, vinWaits := false }
                    boot := { s1.boot with pllLocked := false }
                    ctl := { s1.ctl with emcy := [], conditions := [] } }

/-! ### VIN (R548 to R553) -/

/-- VIN_START: the sequencer starts, unless AUX_PG is low, when it waits, or a second rail fault holds the module off
(R548, R550, R553, R558). -/
def execVinStart (mv : Nat) (s : State) : Out :=
  let s1 := s.sampleMv 9 mv
  if s.powered then .next s1
  else if !s.pw.auxPg then .next (s1.modPw fun x => { x with vinWaits := true })
  else if s.pw.heldOff ∧ !s.pw.vinFell then .next s1
  else .next ((s1.modPw fun x => { x with railFaults := 0 }).startSequencer)

/-- VIN_OUT_OF_RANGE: a condition begins or ends (R548). -/
def execVinOutOfRange (above begins : Bool) (mv : Nat) (s : State) : Out :=
  let kind := if above then 2 else 1
  if begins then .next ((s.excursion 9 mv).emcyRaise 0x3100 [kind, 0])
  else .next ((s.sampleMv 9 mv).emcyEnd 0x3100 fun m => m == [kind, 0])

/-- VIN_UNDERVOLTAGE_LOCKOUT: ride-through with a good hold-up store, else power-down at once (R552, R618). -/
def execVinUndervoltageLockout (mv : Nat) (s : State) : Out :=
  let s1 := (s.sampleMv 9 mv).modPw fun x => { x with vinFell := true, vinWaits := false }
  if !s.powered then .next s1
  else if s.pw.holdupOk then .next (s1.modPw fun x => { x with ride := true })
  else .next ((s1.emcyRaise 0x3100 [1, 0]).powerDown .vin 2)

/-- VIN_RETURN: the ride-through ends as a sag (R552). -/
def execVinReturn (mv : Nat) (s : State) : Out :=
  if s.pw.ride then
    .next ((((s.sampleMv 9 mv).modPw fun x => { x with ride := false }).emcyEvent 0x3100 [4, 0]).incObj 0x2116 6)
  else .next (s.sampleMv 9 mv)

/-- RIDE_THROUGH_EXPIRY (R552). -/
def execRideThroughExpiry (s : State) : Out :=
  if s.pw.ride then .next ((s.emcyRaise 0x3100 [1, 0]).powerDown .vin 2) else .next s

/-- VIN_OVERVOLTAGE_LOCKOUT: power-down at once (R548, R554). -/
def execVinOvervoltageLockout (mv : Nat) (s : State) : Out :=
  let s1 := s.sampleMv 9 mv
  if s.powered then .next ((s1.emcyRaise 0x3100 [2, 0]).powerDown .vin 2) else .next s1

/-! ### Rails (R555, R558) -/

/-- SEQUENCER_STEP_DONE: the rails of the step hold their windows; after step 6 PG_MOD is high (R555, R613). `mv` are the
rails' values in the order of their codes. -/
def execSequencerStepDone (mv : List Nat) (s : State) : Out :=
  let n := s.pw.seqStep
  if n = 0 then .next s
  else
    let rails := stepRails n
    let s1 := (rails.zip mv).foldl (fun t r => t.sampleMv r.1 r.2) s
    let up := s1.pw.railsUp ++ rails.filter fun r => !s1.pw.railsUp.contains r
    if n = 6 then
      .next ((s1.modPw fun x => { x with seqStep := 0, railsUp := up, pgMod := true }).emcyEnd 0x3100 fun m => nthD m 0 == 3)
    else .next (s1.modPw fun x => { x with seqStep := n + 1, railsUp := up })

/-- RAIL_FAULT: power-down with the rail's code; in start-up the first fault is retried, and the second holds the module off
(R558). -/
def execRailFault (code mv : Nat) (s : State) : Out :=
  if !s.powered ∨ code = 0 ∨ 8 < code ∨ !(s.pw.railsUp.contains code ∨ (stepRails s.pw.seqStep).contains code) then .next s
  else
    let starting := s.boot.step < 10 && !s.boot.hold
    let n := if starting then s.pw.railFaults + 1 else 0
    let s1 := ((s.excursion code mv).emcyRaise 0x3100 [3, code]).powerDown .rail 2
    .next (s1.modPw fun x => { x with railFaults := n, heldOff := decide (2 ≤ n), vinFell := false })

/-- RAIL_RETRY_TIMER: one retry after the first rail fault of a start-up (R558). -/
def execRailRetryTimer (s : State) : Out :=
  if s.pw.auxPg ∧ !s.powered ∧ s.pw.downCause = .rail ∧ s.pw.railFaults = 1 then .next s.startSequencer else .next s

/-- PLL_LOCK_LOSS: a power-down with a cause of its own (R578). -/
def execPllLockLoss (s : State) : Out :=
  if !s.pw.auxPg then .next s
  else
    let s1 := (s.powerDown .pll 5).emcyEvent 0x5000 [5, 0]
    .next { s1 with boot := { s1.boot with pllLocked := false, lockLosses := (s1.boot.lockLosses + 1) % 2 ^ 32 } }

end Sys2Proof.Machine
end

