-- ==== Sys2Proof/Machine/Time.lean ====
section
/-! DEFINITION. The timebase: its tick, PPS, election, exchanges, corrections, steps and holdover (R471 to R485). -/

namespace Sys2Proof.Machine

/-! ### The counter (R471) -/

/-- 2^32: fraction units of a ns. -/
def nsUnit : Nat := 4294967296

/-- INCR in units of 2^-32 ns: 5 ns x (1 + r), rounded to the nearest. -/
def Timebase.incr (t : Timebase) : Nat := (((5 * nsUnit : Nat) : Rat) * (1 + t.r) + 1 / 2).floor.toNat

/-- One CK_TIME cycle. -/
def Timebase.tick (t : Timebase) : Timebase := { t with t := (t.t + t.incr) % 2 ^ 96, cycles := t.cycles + 1 }

/-- The timebase in ns with its fraction. -/
def Timebase.ns (t : Timebase) : Rat := ((t.t : Nat) : Rat) / ((nsUnit : Nat) : Rat)

/-- The absolute value of a rational. -/
def ratAbs (x : Rat) : Rat := if x < 0 then -x else x

/-- The integer part of a rational, toward zero. -/
def ratTrunc (x : Rat) : Int := Int.tdiv x.num x.den

/-! ### States and classes (R475, R476) -/

/-- JUMP_THRESHOLD in ns. -/
def State.jumpNs (s : State) : Rat := ((s.obj 0x2211 0 * 1000 : Nat) : Rat)

/-- Whether PPS is locked (R476). -/
def State.ppsLocked (s : State) : Bool :=
  s.tm.ppsValid && decide (ratAbs s.tm.ppsPhase ≤ s.jumpNs) && s.tm.state != .free && s.tm.state != .untrusted

/-- The class of the device (R475). -/
def State.timeClass (s : State) : Nat :=
  match s.tm.state with
  | .free | .untrusted => 2
  | .holdover => 1
  | _ => if s.ppsLocked then 0 else 1

/-- The code of a time state. -/
def TimeState.code : TimeState → Nat
  | .free => 0
  | .sourced => 1
  | .locked => 2
  | .holdover => 3
  | .untrusted => 4

/-- Whether the device is master. -/
def State.isMaster (s : State) : Bool := s.tm.master == s.xr.devId

/-- HOLD_S: seconds since entry, or the master's when it reports HOLDOVER (R484). -/
def State.holdS (s : State) : Nat :=
  if s.tm.state ≠ .holdover then 0
  else if s.tm.masterHold then s.tm.holdS
  else (s.tm.cycles - s.tm.holdSince) / 200000000

/-- Changes the timebase unit's state. -/
def State.modTm (s : State) (f : Timebase → Timebase) : State := { s with tm := f s.tm }

/-! ### Steps (R482) -/

/-- Moves a time by a step. -/
def shiftTime (d : Int) (x : Nat) : Nat := ((x : Int) + d).toNat

/-- Moves a command descriptor's DEADLINE (R482). -/
def Desc.shift (d : Int) (x : Desc) : Desc := { x with w1 := BitVec.ofInt 64 ((x.w1.toNat : Int) + d) }

/-- Every deadline and ingest timestamp that a chunk holds, and the starts of its waits, move with a step. -/
def Chunk.shift (d : Int) (c : Chunk) : Chunk :=
  { c with deadline := shiftTime d c.deadline, backoffUntil := if c.backoffUntil = 0 then 0 else shiftTime d c.backoffUntil
           readyAt := shiftTime d c.readyAt, placedAt := shiftTime d c.placedAt }

/-- The times that a stream holds. -/
def Stream.shift (d : Int) (x : Stream) : Stream :=
  { x with ing := { x.ing with lastTs := shiftTime d x.ing.lastTs
                               buf := x.ing.buf.map fun b => { b with ts := shiftTime d b.ts } }
           closeTs := shiftTime d x.closeTs, heldSince := shiftTime d x.heldSince
           lastCommitTime := if x.cr.step = 0 then x.lastCommitTime else shiftTime d x.lastCommitTime }

/-- Every time that the device holds moves by the change of the integer timebase (R482). -/
def State.shiftTimes (s : State) (d : Int) : State :=
  let sh := shiftTime d
  { s with
    str := { s.str with tab := s.str.tab.map fun e => (e.1, e.2.shift d)
                        chunks := s.str.chunks.map (Chunk.shift d)
                        batches := s.str.batches.map fun b =>
                          (b.1, { b.2 with deadline := sh b.2.deadline, closedAt := sh b.2.closedAt, waitSince := sh b.2.waitSince }) }
    rb := { s.rb with cmds := s.rb.cmds.map fun c => { c with desc := c.desc.shift d, waitSince := sh c.waitSince }
                      heldMail := s.rb.heldMail.map fun h => { h with since := sh h.since }
                      sqFaults := s.rb.sqFaults.map fun f => (f.1, f.2.map sh) }
    st := { s.st with closingSince := s.st.closingSince.map fun e => (e.1, sh e.2) }
    pg := { s.pg with seqs := s.pg.seqs.map fun q =>
      (q.1, { q.2 with waitSince := sh q.2.waitSince, admittedAt := sh q.2.admittedAt }) }
    xr := { s.xr with migs := s.xr.migs.map fun m => { m with firstOffer := sh m.firstOffer } }
    ctl := { s.ctl with tpdo := s.ctl.tpdo.map fun e => (e.1, { e.2 with at_ := sh e.2.at_ }) } }

/-- A step: the timebase becomes its value less `o`, everything that the device holds moves with it, the second of R392
closes, and TIME_STEPPED, STEPS and LAST_STEP_NS report it (R482). -/
def State.timeStep (s : State) (o : Rat) : State :=
  let t := s.tm.ns
  let units := ((t - o) * ((nsUnit : Nat) : Rat)).floor
  let d : Int := (t - o).floor - t.floor
  let s1 := (s.shiftTimes d).modTm fun x =>
    { x with t := (units % ((2 ^ 96 : Nat) : Int)).toNat, e := 0, r := 0, oPrev := 0, stepped := true
             refSince := some x.cycles, lastStepNs := d, refusedReported := false }
  ((s1.setObj 0x2213 4 (setBit (s1.obj 0x2213 4) 1 true)).incObj 0x2213 6).closeSecond false

/-! ### Corrections (R480, R481, R483) -/

/-- Bounds a rate to ±500 ppm. -/
def clampRate (x : Rat) : Rat :=
  let m : Rat := 1 / 2000
  if x < -m then -m else if m < x then m else x

/-- Rate correction by an accepted offset (R481). -/
def Timebase.correct (x : Timebase) (o : Rat) (src : OffsetSource × Nat) : Timebase :=
  let ref := (x.refSource == some src || x.stepped) && x.refSince.isSome
  let dt : Nat := (x.cycles - x.refSince.getD 0) * 5
  let e := if ref ∧ 1000000 ≤ dt then x.e + ((o - x.oPrev) / ((dt : Nat) : Rat) - x.r - x.e) / 4 else x.e
  { x with e := e, r := clampRate (-e - o / 1000000000), oPrev := o, refSource := some src, refSince := some x.cycles
           stepped := false, refusedReported := false }

/-! ### Election (R477) -/

/-- The candidate with the smallest pair of class and DEV_ID. -/
def State.electNow (s : State) : Nat :=
  let all := (s.timeClass, s.xr.devId) :: s.tm.heard.map fun h => (h.2, h.1)
  ((argMin (fun c : Nat × Nat => c.1 * 8 + c.2) all).map (·.2)).getD s.xr.devId

/-- Elects the master again, as a class or a candidate has changed. A device that elects itself uses no exchange. -/
def State.elect (s : State) : State :=
  let m := s.electNow
  if m = s.tm.master then s
  else
    let self := decide (m = s.xr.devId)
    s.modTm fun x => { x with master := m, exch := none, masterHold := false
                              state := if self ∧ x.state = .locked then .sourced else x.state }

/-! ### Offsets (R480, R483) -/

/-- The code of a source in EMCY 0xFF30 (R533). -/
def OffsetSource.code : OffsetSource → Nat
  | .exchange => 0
  | .pps => 1
  | .operator => 2

/-- A refused offset: TIME_JUMP_REFUSED, REFUSALS, and an EMCY at the first since the last accepted one (R483). -/
def State.refuseOffset (s : State) (o : Rat) (src : OffsetSource) : State :=
  let ms := Nat.min 65535 (ratTrunc (ratAbs o / 1000000)).toNat
  let s1 := ((s.setObj 0x2213 4 (setBit (s.obj 0x2213 4) 0 true)).incObj 0x2213 5).elect
  if s1.tm.refusedReported then s1
  else (s1.modTm fun x => { x with refusedReported := true }).emcyEvent 0xFF30
    [src.code, s.tm.master, ms % 256, ms / 256]

/-- Whether an offset is accepted, by a step or by rate (R480). -/
def State.offsetOk (s : State) (o : Rat) : Bool :=
  s.tm.state == .free || s.tm.state == .untrusted || decide (ratAbs o ≤ s.jumpNs)

/-- The state after an accepted offset: an exchange locks a follower, other sources make the device SOURCED. A follower of a
master that reports HOLDOVER stays in it (R475, R480, R484). -/
def TimeState.after (x : TimeState) (src : OffsetSource) (masterHold : Bool) : TimeState :=
  match src with
  | .exchange => if x = .holdover ∧ masterHold then .holdover else .locked
  | _ => .sourced

/-- An offset reaches the device (R480). -/
def State.takeOffset (s : State) (o : Rat) (src : OffsetSource) : State :=
  let last := Int.toNat (((ratTrunc o) + 2 ^ 31))
  let s0 := s.modTm fun x => { x with offsetNs := (Nat.min last (2 ^ 32 - 1) : Nat) - (2 ^ 31 : Int) }
  let id := if src = .exchange then s.tm.master else 0
  if !s.offsetOk o then s0.refuseOffset o src
  else
    let next := s.tm.state.after src s.tm.masterHold
    let s1 := if s.tm.state = .free ∨ s.tm.state = .untrusted then
        (s0.timeStep o).modTm fun x => { x with refSource := some (src, id) }
      else s0.modTm fun x => x.correct o (src, id)
    let s2 := (s1.modTm fun x => { x with state := next }).elect
    if next = .holdover then s2 else s2.emcyEnd 0xFF31 fun _ => true

/-! ### Holdover (R484) -/

/-- Enters HOLDOVER: the rate is the last estimate alone, and EMCY 0xFF31 is raised. -/
def State.enterHoldover (s : State) : State :=
  (s.modTm fun x => { x with state := .holdover, r := clampRate (-x.e), holdSince := x.cycles }).emcyRaise 0xFF31
    [s.tm.master, 0] |>.elect

/-- Whether the device is one whose corrections can stop: a follower, or one still LOCKED. -/
def State.mayHold (s : State) : Bool := s.tm.state == .locked || (s.tm.state == .sourced && !s.isMaster)

/-- ELECTION_WINDOW_EXPIRY: no SYNC of a candidate for 187.5 ms. -/
def execElectionWindowExpiry (dev : DevNo) (s : State) : Out :=
  .next ((s.modTm fun x => { x with heard := Tbl.erase x.heard dev.val }).elect)

/-- HOLDOVER_ENTRY: no accepted correction for 187.5 ms. -/
def execHoldoverEntry (s : State) : Out := if s.mayHold then .next s.enterHoldover else .next s

/-- HOLDOVER_LIMIT_EXPIRY: the device is UNTRUSTED. -/
def execHoldoverLimitExpiry (s : State) : Out :=
  if s.tm.state = .holdover then
    let s1 := { s with ctl := { s.ctl with conditions := s.ctl.conditions.filter fun c => c.1 != 0xFF31 } }
    .next ((s1.modTm fun x => { x with state := .untrusted }).emcyRaise 0xFF31 [s.tm.master, 1]).elect
  else .next s

/-! ### The exchange (R477 to R479) -/

/-- A MGMT_TIME frame. -/
def timeFrame (payload : List Byte) : Frame := { vc := 2, type := 0xE, payload := payload }

/-- A time as 12 bytes: 64-bit ns, 32-bit fraction. -/
def timeBytes (t : Nat) : List Byte := leBytes 8 (t / nsUnit) ++ leBytes 4 (t % nsUnit)

/-- Reads 12 bytes as a time. -/
def timeAt (bs : List Byte) (o : Nat) : Nat := leAt bs o 8 * nsUnit + leAt bs (o + 8) 4

/-- SYNC_TIMER: SYNC and FOLLOW_UP go on every UP port. -/
def execSyncTimer (s : State) : Out :=
  let n := (s.tm.exchNo + 1) % 65536
  let sync := leBytes 1 1 ++ leBytes 1 s.timeClass ++ leBytes 1 s.tm.state.code ++ leBytes 1 s.tm.master ++ leBytes 2 n
    ++ leBytes 2 0 ++ leBytes 4 s.holdS
  let follow := leBytes 1 2 ++ leBytes 1 0 ++ leBytes 2 0 ++ leBytes 2 n ++ leBytes 2 0 ++ timeBytes s.tm.t
  .next ((List.range 7).foldl (fun t p => t.sendAll p [timeFrame sync, timeFrame follow])
    (s.modTm fun x => { x with exchNo := n }))

/-- An exchange that comes to nothing (R479). -/
def State.loseExchange (s : State) : State :=
  if s.tm.exch.isSome then (s.modTm fun x => { x with exch := none }).incObj 0x2213 0xC else s

/-- A SYNC of the master begins an exchange: t2 is its arrival, t3 the DELAY_REQ that answers it. -/
def State.beginExchange (s : State) (p : Nat) (f : Frame) : State :=
  let n := leAt f.payload 4 2
  let s1 := s.loseExchange
  let req := leBytes 1 3 ++ leBytes 3 0 ++ leBytes 2 n ++ leBytes 2 0
  (s1.modTm fun x => { x with exch := some { exch := n, t2 := f.at_, t3 := some x.t, since := x.cycles } }).send p
    (timeFrame req)

/-- SYNC: the election counts its sender; a SYNC of the device's master begins an exchange and tells whether that master
is in HOLDOVER. -/
def execSync (port : PortNo) (s : State) : Out :=
  .next (s.onFrame port.val (ofSub 0xE 1) fun f t =>
    let dev := (t.port port.val).peerDev
    let was := t.tm.master
    let t1 := (t.modTm fun x => { x with heard := Tbl.put x.heard dev (leAt f.payload 1 1) }).elect
    if t1.tm.master ≠ dev then t1
    else
      let hold := leAt f.payload 2 1 == 3
      let t2 := t1.modTm fun x => { x with masterHold := hold, holdS := leAt f.payload 8 4 }
      let t3 := if hold && t2.mayHold then t2.enterHoldover else t2
      if was = dev then t3.beginExchange port.val f else t3)

/-- Whether an answer of the exchange in progress came from the master, and in time: none when it is no such answer, false
when the exchange is lost. -/
def State.exchangeOk (s : State) (p : Nat) (f : Frame) : Option (Exchange × Bool) :=
  if (s.port p).peerDev ≠ s.tm.master then none
  else s.tm.exch.map fun e => (e, e.exch == leAt f.payload 4 2 && decide (s.tm.cycles - e.since ≤ 2000000))

/-- FOLLOW_UP: t1 of the exchange. -/
def execFollowUp (port : PortNo) (s : State) : Out :=
  .next (s.onFrame port.val (ofSub 0xE 2) fun f t =>
    match t.exchangeOk port.val f with
    | none => t
    | some (e, ok) =>
      if ok && leAt f.payload 1 1 == 0 then
        t.modTm fun x => { x with exch := some { e with t1 := some (timeAt f.payload 8) } }
      else t.loseExchange)

/-- DELAY_REQ: answered with the time of its arrival. -/
def execDelayReq (port : PortNo) (s : State) : Out :=
  .next (s.onFrame port.val (ofSub 0xE 3) fun f t =>
    t.send port.val (timeFrame (leBytes 1 4 ++ leBytes 3 0 ++ leBytes 2 (leAt f.payload 4 2) ++ leBytes 2 0 ++ timeBytes f.at_)))

/-- The offset of an exchange, in ns (R479). -/
def exchangeOffset (t1 t2 t3 t4 : Nat) : Rat :=
  ((((t2 : Int) - t1) - ((t4 : Int) - t3) : Int) : Rat) / ((2 * nsUnit : Nat) : Rat)

/-- DELAY_RESP: the exchange is complete and its offset is taken, unless it is lost. -/
def execDelayResp (port : PortNo) (s : State) : Out :=
  .next (s.onFrame port.val (ofSub 0xE 4) fun f t =>
    match t.exchangeOk port.val f with
    | none => t
    | some (e, ok) =>
      match e.t1, e.t3 with
      | some t1, some t3 =>
        if ok && !e.retx then
          (t.modTm fun x => { x with exch := none }).takeOffset (exchangeOffset t1 e.t2 t3 (timeAt f.payload 8)) .exchange
        else t.loseExchange
      | _, _ => t.loseExchange)

/-! ### PPS (R473, R474, R476) -/

/-- The phase of an edge: its timestamp modulo 10^9, in the range −5 × 10^8 to 5 × 10^8 − 1. -/
def edgePhase (ts : Rat) : Rat :=
  let k := (ts / 1000000000).floor
  let x := ts - ((k * 1000000000 : Int) : Rat)
  if x < 500000000 then x else x - 1000000000

/-- Whether a number of cycles is `k` seconds of local time within 1 ms. -/
def nearSeconds (cycles k : Nat) : Bool := decide (k * 1000000000 ≤ cycles * 5 + 1000000 ∧ cycles * 5 ≤ k * 1000000000 + 1000000)

/-- An accepted edge: its phase is known, and a master is corrected by it. -/
def State.acceptEdge (s : State) : State :=
  let phase := edgePhase (s.tm.ns - ((200 * s.tm.incr : Nat) : Rat) / ((nsUnit : Nat) : Rat))
  let s1 := (s.modTm fun x =>
    { x with ppsValid := true, ppsAccepted := some x.cycles, ppsPhase := phase }).incObj 0x2213 0xA
  if s1.isMaster then s1.takeOffset phase .pps else s1.elect

/-- PPS_EDGE: an edge that stayed high for 200 cycles. Before acquisition, an edge 1 s ± 1 ms after the last one acquires
PPS; later, an edge is accepted within 1 ms of an expected instant, and rejected elsewhere. -/
def execPpsEdge (s : State) : Out :=
  let near := fun (since : Option Nat) (ks : List Nat) => match since with
    | some c => ks.any fun k => nearSeconds (s.tm.cycles - c) k
    | none => false
  let tooSoon := match s.tm.ppsLastEdge with
    | some c => decide (s.tm.cycles - c < 200)
    | none => false
  if tooSoon then .next s
  else
    let s1 := s.modTm fun x => { x with ppsLastEdge := some x.cycles }
    if s.tm.ppsValid then
      (if near s.tm.ppsAccepted [1, 2, 3] then .next s1.acceptEdge else .next (s1.incObj 0x2213 0xB))
    else if near s.tm.ppsLastEdge [1] then .next s1.acceptEdge
    else .next s1

/-- PPS_LOSS: three expected instants passed without an accepted edge. -/
def execPpsLoss (s : State) : Out :=
  .next (s.modTm fun x => { x with ppsValid := false, ppsAccepted := none, ppsLastEdge := none }).elect

end Sys2Proof.Machine
end

