-- ==== Sys2Proof/Machine/Power.lean ====
section
/-! DEFINITION. Domains, module power states, scheduled Snowdrop, the power and thermal loops (R561 to R573). -/

namespace Sys2Proof.Machine

/-! ### Domains (R561 to R563) -/

/-- The engines of the Squares in a mask. -/
def engineIds (mask : Nat) : List Nat :=
  ((List.range 8).filter fun q => bitAt mask q).flatMap fun q => (List.range 6).map fun k => q * 8 + k

/-- IN, FE0, FE1, TK0, TK1, EG. -/
def unitIds : List Nat := [0x40, 0x41, 0x42, 0x43, 0x44, 0x45]

/-- Switches an engine or unit off, once its drain rule is met. -/
def State.gateEngine (s : State) (e : Nat) : State :=
  match engineDomain e with
  | some d => if s.domain d = 2 then (s.setDomain d 3).settleEngine e else s
  | none => s

/-- Switches an engine or unit on. -/
def State.ungateEngine (s : State) (e : Nat) : State :=
  match engineDomain e with
  | some d => s.setDomain d 2
  | none => s

/-- Engines and global units off, as in Crocus. -/
def State.gateAll (s : State) : State := (engineIds 0xFF ++ unitIds).foldl (fun t e => t.gateEngine e) s

/-- Engines and global units on, but for those of the Squares in a mask. -/
def State.ungateAll (s : State) (mask : Nat) : State :=
  (engineIds (0xFF - mask) ++ unitIds).foldl (fun t e => t.ungateEngine e) s

/-- Sets the four HBM2E pairs to a state: 2 ON, 4 SELF_REFRESH. -/
def State.setHbm (s : State) (v : Nat) : State := (List.range 4).foldl (fun t k => t.setDomain (86 + k) v) s

/-- Whether the freeze of R495 is over: every chunk whose input slot is FULL has committed. -/
def State.frozenOut (s : State) : Bool := s.str.chunks.all fun c => c.phase == .forming

/-! ### Requests (R564, R565) -/

/-- The admitted LC load fits four Squares. -/
def State.fitsTulip (s : State) : Bool := decide (s.loadTotal ≤ 4 * s.inForce 0x2500 5 * 10000)

/-- Acts on a request while no change is under way. Out of Snowdrop the device goes through Sunflower. -/
def State.actRequest (s : State) (r : Nat) : State :=
  let s1 := s.modPw fun x => { x with autoCrocus := false }
  let dst := requestState r
  if s.pw.powerState = 4 ∧ dst ≠ 4 then
    (s1.toPower 1).modPw fun x => { x with waiting := if dst = 1 then none else some r }
  else if dst = 2 ∧ s.pw.powerState ≠ 2 ∧ !s.fitsTulip then
    (s1.toPower 1).modPw fun x => { x with tulipPending := true }
  else s1.toPower dst

/-- A write of STATE_REQUEST that passed its checks: a request written during a change waits for its end. -/
def State.writeRequest (s : State) (r : Nat) : State :=
  let s1 := s.setObj 0x2112 0 r
  if s1.pw.changing then s1.modPw fun x => { x with waiting := some r } else s1.actRequest r

/-- CROCUS_IDLE_EXPIRY: with the idle conditions the device enters Crocus by itself (R565). -/
def execCrocusIdleExpiry (s : State) : Out :=
  let r := s.obj 0x2112 0
  let lcOpen := s.str.tab.any fun e => e.2.cfg.cls == 0 && e.2.state != .opening && e.2.state != .closed && e.2.state != .lost
  let unread := s.host.fns.any fun f => f.2.sq.any fun q => q.2.enable && q.2.head != q.2.tail
  if s.boot.step ≠ 10 ∨ !(r = 0 ∨ r = 2) ∨ s.obj 0x2113 0 = 0 ∨ s.pw.changing ∨ 3 ≤ s.pw.powerState ∨ s.ctl.nmt = .stopped
      ∨ lcOpen ∨ unread ∨ s.str.chunks ≠ [] then .next s
  else .next ((s.toPower 3).modPw fun x => { x with autoCrocus := true })

/-- CROCUS_WAKE (R565). -/
def execCrocusWake (s : State) : Out := .next s.wakeTrigger

/-! ### Tulip and Snowdrop (R566 to R569) -/

/-- Whether a batch or an issued command still runs on a Square of a mask. -/
def State.squaresBusy (s : State) (mask : Nat) : Bool :=
  (s.str.batches.any fun b => bitAt mask b.2.square || b.2.layers.any fun q => bitAt mask q)
    || s.rb.cmds.any fun c => decide (c.desc.engine < 0x40) && bitAt mask (c.desc.engine / 8)

/-- TULIP_ENTRY: once a pending request's load fits, the move begins; when the batches placed on the masked Squares have ended,
their engines switch off (R564, R566). -/
def execTulipEntry (s : State) : Out :=
  let s1 := if s.pw.tulipPending ∧ !s.pw.changing ∧ s.fitsTulip then s.toPower 2 else s
  let mask := s1.pw.tulipMask
  if s1.pw.target = 2 ∧ s1.pw.changing ∧ !s1.squaresBusy mask then
    let s2 := if s1.ctl.nmt = .stopped then s1 else (s1.ungateAll mask).setHbm 2
    .next ((engineIds mask).foldl (fun t e => t.gateEngine e) s2)
  else .next s1

/-- Moves every page on chip that may be moved into the spill pool. -/
def State.demoteAll : Nat → State → State
  | 0, s => s
  | n + 1, s =>
    match s.demoteOrder.head?.bind fun q => s.demote q with
    | some t => State.demoteAll n t
    | none => s

/-- The pages still on chip go with their quarters: their sequences are rebuilt (R294). -/
def State.loseOnchip (s : State) : State := (dedup s.usedOnchip).foldl (fun t f => t.pageLost f) s

/-- Copies the input of chunks with partial input into the recovery extent (step 1 of R568). -/
def State.keepPartial (s : State) : State :=
  { s with str := { s.str with chunks := s.str.chunks.map fun c =>
    if c.phase = .forming ∧ c.slotHeld then { c with extent := s.slotBytes c, extentHeld := true, extentBad := false } else c } }

/-- Drains a quarter and switches it off (R127). -/
def State.quarterOff (s : State) (q : Nat) : State :=
  let s1 := s.flushAll fun _ b => rowQuarter b.row == q
  ((s1.clearQuarterTags q).clearQuarterRows q).setDomain (quarterDomain q) 0

/-- Clears a quarter and switches it on (R128). -/
def State.quarterOnNow (s : State) (q : Nat) : State :=
  ((s.clearQuarterTags q).clearQuarterRows q).setDomain (quarterDomain q) 2

/-- Disables a port for Snowdrop: it leaves UP with no EMCY (R462, R470). -/
def State.portOff (s : State) (p : Nat) : State :=
  let s1 := s.leaveUp p .disabled 0 false
  (s1.setPort p { s1.port p with state := .disabled, identGood := 0, peerOk := false }).setDomain (91 + p) 0

/-- A port trains again from DOWN. -/
def State.portOn (s : State) (p : Nat) : State := (s.setPort p { s.port p with state := .down }).setDomain (91 + p) 5

/-- SNOWDROP_ENTRY: steps 2 to 6 of R568, once the freeze of step 1 is over and no command is at work. -/
def execSnowdropEntry (s : State) : Out :=
  if s.pw.target = 4 ∧ s.pw.changing ∧ s.frozenOut ∧ s.rb.cmds = [] then
    let ports := (List.range 7).filter fun p => (s.port p).state != .disabled
    let s1 := s.keepPartial.cancelRx fun _ => true
    let s2 := ports.foldl (fun t p => t.portOff p) s1
    let s3 := (s2.str.tab.map (·.1)).foldl (fun t sid => t.swapOutState sid) s2
    let s4 := { s3 with str := { s3.str with models := s3.str.models.map fun m => (m.1, { m.2 with resident := [] }) } }
    let s5 := (State.demoteAll s4.reliefBound s4).loseOnchip
    let s6 := (List.range 32).foldl (fun t q => t.quarterOff q) s5
    let s7 := (s6.gateAll.setHbm 4).setDomain 90 0
    .next { s7 with host := { s7.host with linkUp := false }, pw := { s7.pw with snowPorts := ports } }
  else .next s

/-- SNOWDROP_EXIT: the domains come back, the ports and the link train; rings are as kept (R569). -/
def execSnowdropExit (s : State) : Out :=
  if s.pw.powerState = 4 ∧ s.pw.changing ∧ s.pw.target ≠ 4 then
    let s1 := (List.range 32).foldl (fun t q => t.quarterOnNow q) ((s.setHbm 2).ungateAll 0)
    let s2 := s.pw.snowPorts.foldl (fun t p => t.portOn p) s1
    let s3 := (s2.str.models.map (·.1)).foldl (fun t m => t.fixBlocks m) s2
    .next ((s3.setDomain 90 5).modPw fun x => { x with snowPorts := [] })
  else .next s

/-- Whether engines or units are off. -/
def State.allOff (s : State) (es : List Nat) : Bool := es.all fun e => ((engineDomain e).map fun d => s.domain d == 0).getD true

/-- Whether the device stands in the domains of the state that it moves to. -/
def State.changeReady (s : State) : Bool :=
  match s.pw.target with
  | 2 => s.allOff (engineIds s.pw.tulipMask)
  | 3 => s.frozenOut && s.allOff (engineIds 0xFF ++ unitIds)
  | 4 => s.domain 90 == 0 && s.allOff (engineIds 0xFF ++ unitIds)
  | _ => s.pw.powerState != 4 || s.domain 90 != 0

/-- The move into Crocus, once its freeze is over, switches engines and units off; one whose drain rule is not met yet switches off
when it is, so no tile outlasts the stay (R169, R567). -/
def State.beginGating (s : State) : State := if s.pw.target = 3 ∧ s.frozenOut then s.gateAll else s

/-- The domains of a state whose entry has no command of its own: in Crocus HBM2E refreshes itself, in Sunflower all is on. -/
def State.enterState (s : State) : State :=
  match s.pw.target with
  | 1 => if s.ctl.nmt = .stopped then s else (s.ungateAll 0).setHbm 2
  | 3 => s.setHbm 4
  | _ => s

/-- POWER_STATE_CHANGE_DONE: the new state is reported; a request that waits is acted on, or a wake trigger that came during
the entry of an automatic Crocus (R564, R565). -/
def execPowerStateChangeDone (s : State) : Out :=
  if !s.pw.changing then .next s
  else
    let s0 := s.beginGating
    if !s0.changeReady then .next s0
    else
      let s1 := (s0.enterState.modPw fun x => { x with powerState := x.target, changing := false, wake := false }).incObj 0x2116 5
      match s.pw.waiting with
      | some r => .next ((s1.modPw fun x => { x with waiting := none }).actRequest r)
      | none => .next (if s.pw.wake then s1.wakeTrigger else s1)

/-! ### Scheduled Snowdrop (R570) -/

/-- Seconds of the timebase with DAY_OFFSET_S, as a day and not before day 0. -/
def State.schedDayNow (s : State) : Nat :=
  (((s.now / 1000000000 : Nat) : Int) + signedOf 32 (s.obj 0x2115 4)).toNat / 86400

/-- SCHEDULE_START: once a day, in a trusted time state, STATE_REQUEST is saved and 4 written. -/
def execScheduleStart (s : State) : Out :=
  let timed := s.tm.state == .sourced || s.tm.state == .locked || s.tm.state == .holdover
  if s.boot.step = 10 ∧ s.obj 0x2115 1 = 1 ∧ timed ∧ s.pw.schedSaved.isNone ∧ s.pw.schedDay ≠ some s.schedDayNow then
    .next ((s.modPw fun x => { x with schedSaved := some (s.obj 0x2112 0), schedDay := some s.schedDayNow }).writeRequest 4)
  else .next s

/-- SCHEDULE_END: the saved value is written back, in any time state. -/
def execScheduleEnd (s : State) : Out :=
  match s.pw.schedSaved with
  | some r => .next ((s.modPw fun x => { x with schedSaved := none }).writeRequest r)
  | none => .next s

/-! ### Power loop (R571) -/

/-- POWER_LOOP_TICK: each millisecond the level P follows the average input power, given in 0.1 W. -/
def execPowerLoopTick (dw : Nat) (s : State) : Out :=
  let limit := s.obj 0x2111 0
  let x := s.pw
  let y :=
    if 10 * limit < dw then { x with powerDw := dw, levelP := Nat.min 6 (x.levelP + 1), lowMs := 0 }
    else if 100 * dw < 950 * limit then
      (if 99 ≤ x.lowMs then { x with powerDw := dw, levelP := x.levelP - 1, lowMs := 0 }
       else { x with powerDw := dw, lowMs := x.lowMs + 1 })
    else { x with powerDw := dw, lowMs := 0 }
  .next ({ s with pw := y }).followLevel

/-- LIMIT_UNMET_EXPIRY: 100 ms at level 6 above the limit (R571, R444). -/
def execLimitUnmetExpiry (s : State) : Out :=
  if s.level = 6 ∧ 10 * s.obj 0x2111 0 < s.pw.powerDw then
    .next ((s.setObj 0x2116 3 (setBit (s.obj 0x2116 3) 0 true)).incObj 0x2116 4)
  else .next s

/-! ### Sensors (R572) -/

/-- A sensor. -/
def State.sensor (s : State) (i : Nat) : Sensor := Tbl.getD s.pw.sensors {} i

/-- The Squares one Boulevard hop away from a Square (R8). -/
def nearSquares (q : Nat) : List Nat := [(q + 4) % 8, q / 2 * 2 + (1 - q % 2)]

/-- Puts an integer before the first greater one. -/
def insertInt (x : Int) : List Int → List Int
  | [] => [x]
  | y :: ys => if x ≤ y then x :: y :: ys else y :: insertInt x ys

/-- Twice the median of a list. -/
def median2 (l : List Int) : Int :=
  let m := l.foldl (fun acc x => insertInt x acc) []
  let n := m.length
  m.getD ((n - 1) / 2) 0 + m.getD (n / 2) 0

/-- The readings with which a sensor's is compared, and by how much it may differ, in 0.1 °C. -/
def sensorPeers (t : Nat → Int) (i : Nat) : Option (List Int × Int) :=
  if i < 16 then
    some (t (i / 2 * 2 + (1 - i % 2)) :: (nearSquares (i / 2)).flatMap (fun q => [t (2 * q), t (2 * q + 1)]), 100)
  else if i < 20 then
    let q := nthD [0, 3, 4, 7] (i - 16)
    some ([t (2 * q), t (2 * q + 1)], 150)
  else none

/-- Whether a reading is implausible. -/
def implausible (t : Nat → Int) (i : Nat) (old : Sensor) : Bool :=
  let x := t i
  decide (x < -400 ∨ 1500 < x) || (old.seen && decide (100 < (x - old.last).natAbs))
    || match sensorPeers t i with
       | some (l, d) => decide (2 * d < ((2 * x - median2 l).natAbs : Int))
       | none => false

/-- One reading of one sensor. -/
def State.readSensor (s : State) (t : Nat → Int) (i : Nat) : State :=
  let old := s.sensor i
  let put := fun (x : Sensor) => s.modPw fun w => { w with sensors := Tbl.put w.sensors i x }
  if implausible t i old then
    let s1 := put { last := t i, seen := true, ok := false, good := 0 }
    if old.ok then (s1.incObj 0x2300 0xA).emcyEvent 0x4200 [3, i] else s1
  else if old.ok then put { last := t i, seen := true, ok := true, good := 0 }
  else put { last := t i, seen := true, ok := decide (10000 ≤ old.good + 1), good := if 10000 ≤ old.good + 1 then 0 else old.good + 1 }

/-- SENSOR_READ: one reading of the 21 sensors, in 0.1 °C. Every sensor is compared with the others' readings of the same
moment. -/
def execSensorRead (temps : List Int) (s : State) : Out :=
  if temps.length = 21 then .next ((List.range 21).foldl (fun t i => t.readSensor (fun k => temps.getD k 0) i) s) else .next s

/-! ### Thermal loop (R573) -/

/-- Whether a sensor is accepted and has been read. -/
def State.accepted (s : State) (i : Nat) : Bool := (s.sensor i).ok && (s.sensor i).seen

/-- The greatest of a list of integers. -/
def maxInt : List Int → Option Int
  | [] => none
  | x :: xs => match maxInt xs with
    | some y => some (if x < y then y else x)
    | none => some x

/-- The hottest accepted reading of sensors. -/
def State.hottest (s : State) (l : List Nat) : Option Int := maxInt ((l.filter s.accepted).map fun i => (s.sensor i).last)

/-- θ: the hottest die value; a Square with no accepted sensor counts as the hottest reading plus 5 °C. -/
def State.theta (s : State) : Option Int :=
  let blind := (List.range 8).any fun q => !s.accepted (2 * q) && !s.accepted (2 * q + 1)
  (s.hottest (List.range 16)).map fun x => if blind then x + 50 else x

/-- Readings of the HBM stacks that are accepted. -/
def State.stackTemp (s : State) (k : Nat) : Option Int := if s.accepted (16 + k) then some (s.sensor (16 + k)).last else none

/-- Whether an optional reading is at least a value. -/
def atLeast (x : Option Int) (v : Int) : Bool := (x.map fun y => decide (v ≤ y)).getD false

/-- THERMAL_TICK: each millisecond the level T follows the temperatures, and the conditions of EMCY 0x4200 with it. -/
def execThermalTick (s : State) : Out :=
  let θ := s.theta
  let start : Int := signedOf 16 (s.obj 0x2300 5)
  let hbm := (List.range 4).map s.stackTemp
  let hot := atLeast θ start || hbm.any (atLeast · 950)
  let cool := !atLeast θ (start - 30) && !hbm.any (atLeast · 920)
  let x := s.pw
  let t1 := if hot then Nat.min 6 (x.levelT + 1) else if cool ∧ 99 ≤ x.coolMs then x.levelT - 1 else x.levelT
  let ms := if cool ∧ x.coolMs < 99 then x.coolMs + 1 else 0
  let t2 := if atLeast θ 1000 then 6 else t1
  let fast := ((List.range 4).filter fun k => atLeast (s.stackTemp k) 850).foldl (fun m k => m + 2 ^ k) 0
  let s1 := ({ s with pw := { x with levelT := t2, coolMs := ms, fastRefresh := fast } }).followLevel
  let s2 := if 0 < t2 then s1.emcyRaise 0x4200 [1, 0] else s1.emcyEnd 0x4200 fun m => nthD m 0 == 1
  .next (if atLeast θ 1000 then s2.emcyRaise 0x4200 [2, 0]
         else if atLeast θ 970 then s2
         else s2.emcyEnd 0x4200 fun m => nthD m 0 == 2)

/-- THERMAL_TRIP: θ has stayed at 105 °C or more for 1 ms (R573). -/
def execThermalTrip (s : State) : Out :=
  if s.powered ∧ atLeast s.theta 1050 then .next ((s.emcyRaise 0x4200 [2, 0]).powerDown .thermal 2) else .next s

end Sys2Proof.Machine
end

