-- ==== Sys2Proof/Machine/Boot.lean ====
section
/-! DEFINITION. Start-up, the PCIe link, shadow qualification and the margin walk (R581 to R604, R613). -/

namespace Sys2Proof.Machine

/-- Changes the part of clocks, start-up and calibration. -/
def State.modBoot (s : State) (f : Boot → Boot) : State := { s with boot := f s.boot }

/-- Sets an object and both of its copies in the boot flash (R512). -/
def State.persist (s : State) (idx sub v : Nat) : State :=
  let k := objKey idx sub
  let s1 := s.setObj idx sub v
  { s1 with ctl := { s1.ctl with flashA := Tbl.put s1.ctl.flashA k v, flashB := Tbl.put s1.ctl.flashB k v } }

/-! ### Images (R511, R584) -/

/-- Whether 0x5001 lists a digest; 32 zero bytes match nothing. -/
def State.listed (s : State) (digest : List Byte) : Bool :=
  let d := leNat digest
  d != 0 && (List.range 4).any fun i => s.obj 0x5001 (i + 1) == d

/-- Whether a bank may be started from. -/
def State.bankAccepted (s : State) (b : Bank) : Bool := b.state != 0 && b.state != 3 && b.headerOk && s.listed b.digest

/-- A bank, by its number. -/
def State.bank (s : State) (n : Nat) : Bank := if n = 0 then s.boot.bankA else s.boot.bankB

/-- The state of a bank against 0x5001 as it stands at start-up. -/
def State.judgeBank (s : State) (b : Bank) : Bank :=
  if b.state = 0 ∨ b.state = 3 then b else { b with state := if s.listed b.digest then 1 else 2 }

/-- The bank that start-up takes: the preferred one, else the other. -/
def State.chooseBank (s : State) : Option Nat :=
  let p := s.obj 0x5000 7
  if s.bankAccepted (s.bank p) then some p else if s.bankAccepted (s.bank (1 - p)) then some (1 - p) else none

/-! ### Start-up (R581 to R591) -/

/-- A start-up step fails: the first failure is followed by a start-up retry, the second by boot hold (R582, R583). -/
def State.failStep (s : State) : State :=
  let n := s.boot.step
  let s1 := (s.modBoot fun b => { b with failedStep := n, fails := b.fails + 1 }).emcyEvent 0x5000 [4, n]
  if s1.boot.fails ≤ 1 then (s1.resetDie 4).modBoot fun b => { b with step := 2 }
  else s1.modBoot fun b => { b with step := 0, hold := true }

/-- The next step begins. Steps 7 and 8 let the ports and the link train. -/
def State.enterStep (s : State) (n : Nat) : State :=
  let s1 := s.modBoot fun b => { b with step := n }
  if n = 7 then
    (List.range 7).foldl (fun t p =>
      let on := t.obj (0x4100 + p) 1 == 1
      let x := t.port p
      if !on then (t.setPort p { x with enable := false, state := .disabled }).setDomain (91 + p) 0
      else if t.xr.strapBad then (t.setPort p { x with enable := true, state := .held, downReason := 7 }).setDomain (91 + p) 2
      else (t.setPort p { x with enable := true, state := .down }).setDomain (91 + p) 5) s1
  else if n = 8 then s1.setDomain 90 5
  else s1

/-- Takes Squares out of service, with EMCY 0x5000 for each (R588, R591). -/
def State.dropSquares (s : State) (qs : List Nat) : State :=
  qs.foldl (fun t q =>
    ({ t with rb := { t.rb with sqOut := Tbl.put t.rb.sqOut q 1 } }).emcyRaise 0x5000 [2, q]) s

/-- Squares that have not left service. -/
def State.squaresLeft (s : State) : List Nat := (List.range 8).filter fun q => Tbl.getD s.rb.sqOut 0 q != 1

/-- Step 4: every Square takes its recorded point, else its fused default (R586). -/
def State.setPoints (s : State) : State :=
  s.modBoot fun b => { b with
    engDiv := 4
    squares := (List.range 8).map fun q =>
      let old := Tbl.getD b.squares {} q
      match Tbl.get? b.recorded q with
      | some r => (q, { old with point := r.1, temp := r.2.1, lastFail := r.2.2, lastPassed := r.1 })
      | none => (q, { old with point := old.fusePoint, lastPassed := old.fusePoint }) }

/-- Whether the field port is in bus-off, where it sends nothing (R490, R529). -/
def State.busOff (s : State) : Bool := s.obj 0x4005 9 == 2

/-- Sends a frame of the field port. -/
def State.canSend (s : State) (cob : Nat) (data : List Nat) : State :=
  if s.busOff then s else { s with ctl := { s.ctl with canOut := s.ctl.canOut ++ [⟨cob, data⟩] } }

/-- Sends a heartbeat with a state code; 0 is the boot-up message (R492 to R494). -/
def State.sendHeartbeat (s : State) (code : Nat) : State := s.canSend (0x700 + s.ctl.nodeId) [code]

/-- Start-up completes: boot-up message, pre-operational, and operational when AUTO_START is 1 (R494, R579). -/
def State.bootUp (s : State) (ms : Nat) : State :=
  let s1 := s.modBoot fun b => { b with step := 10, startupMs := ms % 2 ^ 32 }
  let s2 := (s1.persist 0x2200 8 ((s1.obj 0x2200 8 + 1) % 2 ^ 32)).modPw fun x => { x with railFaults := 0 }
  let s3 := s2.applyNode.sendHeartbeat 0
  { s3 with ctl := { s3.ctl with nmt := if s3.obj 0x2001 4 = 1 then .operational else .preop } }

/-- STARTUP_STEP_DONE: what each step leaves, with what it found; a step whose own rule declares failure fails. -/
def execStartupStepDone (r : StepResult) (s : State) : Out :=
  let bad := (dedup r.badSquares).filter (· < 8)
  match s.boot.step with
  | 1 =>
    if s.pw.pgMod then
      let s1 := s.modPw fun x => { x with holdupOk := r.holdup }
      let s2 := if r.holdup then s1.emcyEnd 0x3100 fun m => nthD m 0 == 5 else s1.emcyRaise 0x3100 [5, 0]
      .next (s2.enterStep 2)
    else .next s
  | 2 =>
    let s1 := (List.range 4).foldl (fun t q => t.quarterOnNow q) (s.modBoot fun b => { b with pllLocked := true })
    .next (s1.enterStep 3)
  | 3 =>
    let s1 := s.modBoot fun b => { b with bankA := s.judgeBank b.bankA, bankB := s.judgeBank b.bankB }
    match s1.chooseBank with
    | some n => .next ((s1.modBoot fun b => { b with runningBank := n, runningDigest := (s1.bank n).digest }).enterStep 4)
    | none => .next s1.failStep
  | 4 => .next (s.setPoints.enterStep 5)
  | 5 => .next ((s.setHbm 2).enterStep 6)
  | 6 =>
    let s1 := s.dropSquares bad
    if s1.squaresLeft.length < 4 then .next s1.failStep
    else
      let s2 := (List.range 32).foldl (fun t q => t.quarterOnNow q) (s1.ungateAll 0)
      let s3 := s1.squaresLeft.foldl (fun t q => { t with rb := { t.rb with sqOut := Tbl.put t.rb.sqOut q 2 } }) s2
      .next (s3.enterStep 7)
  | 7 => .next (s.enterStep 8)
  | 8 => .next (s.enterStep 9)
  | 9 =>
    let failed := bad.filter fun q => s.squaresLeft.contains q
    let s1 := (s.dropSquares failed).addObj 0x4200 6 failed.length
    if s1.squaresLeft.length < 4 then .next s1.failStep
    else
      let s2 := s1.squaresLeft.foldl (fun t q => { t with rb := { t.rb with sqOut := Tbl.put t.rb.sqOut q 0 } }) s1
      .next (s2.bootUp r.ms)
  | _ => .next s

/-- STARTUP_STEP_FAIL: a step of 2 to 6 or step 9 fails or times out. Step 1 follows R558; steps 7 and 8 never fail. -/
def execStartupStepFail (s : State) : Out :=
  let n := s.boot.step
  if (2 ≤ n ∧ n ≤ 6) ∨ n = 9 then .next s.failStep else .next s

/-! ### The PCIe link (R590, R613) -/

/-- PERST_N_RELEASE: the link may train while its domain is ON. -/
def execPerstNRelease (s : State) : Out :=
  .next { s with host := { s.host with perstReleased := true } }

/-- PCIE_LINK_UP: the link is up at the rate and width that it negotiated (R534). Until step 9 of start-up completes, the endpoint answers with Configuration Request Retry
Status. -/
def execPcieLinkUp (rate : LinkRate) (width : LinkWidth) (s : State) : Out :=
  if s.domain 90 ≠ 0 ∧ s.host.perstReleased then
    .next (({ s with host := { s.host with linkUp := true, linkRate := rate, linkWidth := width } }).setDomain 90 2)
  else .next s

/-! ### Points and records (R598, R599, R602) -/

/-- The highest and lowest point that a raise may reach: the cap of R598. -/
def pointCap : Nat := 850

/-- The calibration of a Square. -/
def State.cal (s : State) (q : Nat) : SquareCal := Tbl.getD s.boot.squares {} q

/-- Changes the calibration of a Square. -/
def State.modCal (s : State) (q : Nat) (f : SquareCal → SquareCal) : State :=
  s.modBoot fun b => { b with squares := Tbl.put b.squares q (f (Tbl.getD b.squares {} q)) }

/-- The hottest accepted sensor of a Square; without one, the hottest die reading plus 5 °C (R572). -/
def State.squareTemp (s : State) (q : Nat) : Int :=
  ((s.hottest [2 * q, 2 * q + 1]).or s.theta).getD 0

/-- Records a Square's point with the present temperature, in the parameter area too (R512, R599). -/
def State.recordPoint (s : State) (q : Nat) : State :=
  let t := s.squareTemp q
  let s1 := s.modCal q fun c => { c with temp := t }
  let c := s1.cal q
  s1.modBoot fun b => { b with recorded := Tbl.put b.recorded q (c.point, c.temp, c.lastFail) }

/-- EMCY 0xFF60 of a Square (R603). -/
def State.walkEmcy (s : State) (q kind : Nat) : State :=
  let v := (s.cal q).point
  s.emcyEvent 0xFF60 [q, v % 256, v / 256, kind]

/-- Says where a Square stands: 0 in service, 1 out of service, 2 under qualification. -/
def State.setSquare (s : State) (q v : Nat) : State := { s with rb := { s.rb with sqOut := Tbl.put s.rb.sqOut q v } }

/-- Puts a Square under qualification at its present point (R592, R593). -/
def State.qualify (s : State) (q : Nat) (stage : SqStage) : State :=
  (s.modCal q fun c => { c with stage := stage, qual := some {} }).setSquare q 2

/-- Returns a Square to service; its EMCY condition ends. -/
def State.returnSquare (s : State) (q : Nat) : State :=
  ((s.modCal q fun c => { c with qual := none, attempts := 0 }).setSquare q 0).emcyEnd 0x5000 fun m => m == [2, q]

/-- The walk of a Square ends; the next walk is the next Square's. -/
def State.endPointWalk (s : State) (q : Nat) : State :=
  s.modBoot fun b => { b with walkSquare := none, walkNext := (q + 1) % 8 }

/-! ### The margin walk (R599 to R601) -/

/-- One step of a walk: 5 mV lower, or the floor, where the walk records the point and returns the Square. -/
def State.walkDown (s : State) (q : Nat) : State :=
  let c := s.cal q
  if c.point < s.obj 0x4200 3 + 5 then
    (((s.walkEmcy q 2).recordPoint q).returnSquare q).endPointWalk q
  else (s.modCal q fun x => { x with lastPassed := c.point, point := c.point - 5 }).qualify q .walkStep

/-- Whether a walk may begin (R600). -/
def State.mayWalk (s : State) : Bool :=
  s.obj 0x4200 1 == 1 && s.pw.powerState == 1 && !s.pw.changing && s.level == 0 && s.ctl.nmt == .operational
    && (List.range 8).all s.inService && decide (s.loadTotal ≤ 7 * s.inForce 0x2500 5 * 10000) && s.boot.walkSquare.isNone

/-- WALK_START: the next Square leaves service and its first step begins. -/
def execWalkStart (s : State) : Out :=
  if s.mayWalk then
    let q := s.boot.walkNext
    .next ((s.modBoot fun b => { b with walkSquare := some q }).walkDown q)
  else .next s

/-- Whether a qualification has met its counts (R596). -/
def Qual.met (x : Qual) : Bool := decide (64 ≤ x.chunks.length) && x.equal.all fun n => decide (16 ≤ n)

/-- A qualification passes. -/
def State.qualPass (s : State) (q : Nat) : State :=
  match (s.cal q).stage with
  | .walkStep => s.walkDown q
  | .walkFinal => ((s.recordPoint q).returnSquare q).endPointWalk q
  | .qualifying => s.returnSquare q

/-- A Square that fails qualification stays out of service, at the cap until the next die reset (R597, R603). -/
def State.keepOut (s : State) (q : Nat) : State :=
  let top := pointCap ≤ (s.cal q).point
  let s1 := (s.modCal q fun c => { c with qual := none, attempts := c.attempts + 1, capped := decide top }).setSquare q 1
  let s2 := s1.emcyRaise 0x5000 [2, q]
  if top then s2.walkEmcy q 4 else s2

/-- A qualification fails: in a walk the point rises by 15 mV and is qualified once more; else the Square stays out. -/
def State.qualFail (s : State) (q : Nat) : State :=
  let s1 := s.incObj 0x4200 6
  match (s1.cal q).stage with
  | .walkStep =>
    let s2 := s1.modCal q fun c => { c with lastFail := c.point, point := Nat.min pointCap (c.point + 15) }
    (s2.walkEmcy q 1).qualify q .walkFinal
  | .walkFinal => (s1.keepOut q).endPointWalk q
  | .qualifying => s1.keepOut q

/-- QUALIFICATION_DONE: the comparisons of a Square decide, a mismatch first (R595, R596). -/
def execQualificationDone (square : SquareNo) (s : State) : Out :=
  match (s.cal square.val).qual with
  | some x => if x.mismatch then .next (s.qualFail square.val) else if x.met then .next (s.qualPass square.val) else .next s
  | none => .next s

/-- WALK_ABANDON: the point returns to the last that passed and is qualified again; a mismatch seen before is taken first
(R601). -/
def execWalkAbandon (s : State) : Out :=
  match s.boot.walkSquare with
  | none => .next s
  | some q =>
    let s1 := if ((s.cal q).qual.map (·.mismatch)).getD false then s.qualFail q else s
    if s1.boot.walkSquare = some q then
      let raised := (s1.cal q).stage == .walkFinal
      let s2 := s1.modCal q fun c => { c with point := if raised then c.point else c.lastPassed }
      .next ((s2.qualify q .qualifying).endPointWalk q)
    else .next s1

/-- QUAL_WINDOW_EXPIRY: chunks of the reference set are placed on the pair (R596). -/
def execQualWindowExpiry (square : SquareNo) (s : State) : Out :=
  .next (s.modCal square.val fun c => { c with qual := c.qual.map fun x => if x.met then x else { x with refSet := true } })

/-- QUAL_RETRY_TIMER: a Square out of service is qualified, after three failed attempts at a point 15 mV higher; batches on it
have run to their end (R430, R592, R597). -/
def execQualRetryTimer (square : SquareNo) (s : State) : Out :=
  let q := square.val
  let c := s.cal q
  if Tbl.getD s.rb.sqOut 0 q ≠ 1 ∨ c.capped ∨ s.boot.step ≠ 10 ∨ s.squaresBusy (2 ^ q) then .next s
  else
    let s1 := if 3 ≤ c.attempts then
        (s.modCal q fun x => { x with point := Nat.min pointCap (x.point + 15), attempts := 0 }).recordPoint q
      else s
    .next (s1.qualify q .qualifying)

/-- Whether a Square's warmest accepted sensor is more than TEMP_GUARD below the temperature of its recorded point (R602). -/
def State.cooled (s : State) (q : Nat) : Bool :=
  match s.hottest [2 * q, 2 * q + 1] with
  | some t => decide (t + ((s.obj 0x4200 0xF : Nat) : Int) < (s.cal q).temp)
  | none => false

/-- TEMP_GUARD_EXPIRY: a Square that has cooled by more than TEMP_GUARD serves again only at a point 15 mV higher (R602). -/
def execTempGuardExpiry (square : SquareNo) (s : State) : Out :=
  let q := square.val
  let raised := Nat.min pointCap ((s.cal q).point + 15)
  let s1 := s.modCal q fun x => { x with point := raised, lastPassed := raised }
  if s.boot.step = 10 ∧ Tbl.getD s.rb.sqOut 0 q = 0 ∧ s.cooled q = true then
    .next (((s1.walkEmcy q 3).recordPoint q).qualify q .qualifying)
  else .next s

end Sys2Proof.Machine
end

