-- ==== Sys2Proof/Machine/Nmt.lean ====
section
/-! DEFINITION. NMT states and commands, freezing, node reset and reset communication (R493 to R496, R580). -/

namespace Sys2Proof.Machine

/-- Changes the control plane. -/
def State.modCtl (s : State) (f : Ctl → Ctl) : State := { s with ctl := f s.ctl }

/-- Whether CC0 serves the field port: it runs, and start-up has completed or boot hold lasts (R549, R583, R617). -/
def State.fieldServed (s : State) : Bool :=
  s.pw.auxPg && !s.ctl.coresDown.contains 0 && (s.ctl.nmt != .init || s.boot.hold)

/-! ### States (R493, R567) -/

/-- Enters an NMT state: in stopped the engines are gated as in Crocus; on leaving it they stand as the power state says. -/
def State.setNmt (s : State) (n : Nmt) : State :=
  let s1 := s.modCtl fun c => { c with nmt := n, freezeTo := none, resetPending := false }
  if n = .stopped then s1.gateAll.setHbm 4
  else if s.ctl.nmt = .stopped ∧ s.pw.powerState < 3 then
    (s1.ungateAll (if s.pw.powerState = 2 then s.pw.tulipMask else 0)).setHbm 2
  else s1

/-! ### Resets (R496, R580, R583) -/

/-- Whether CLOSED is owed to a stream at a node reset: it has been opened and has not ended. -/
def Stream.isOpen (st : Stream) : Bool := st.state != .opening && st.state != .closed && st.state != .lost

/-- Writes what the rings have room for: each round takes what the last one let in. -/
def State.drainAll : Nat → State → State
  | 0, s => s
  | n + 1, s =>
    State.drainAll n ((List.range 256).foldl (fun t i => t.drainRing (i / 16) (i % 16)) s)

/-- The node reset: CLOSED for every open stream, which the host can read as far as its rings have room, then a reset that
reaches the die, from step 2. -/
def State.resetNode (s : State) : State :=
  let sids := Tbl.keysWhere s.str.tab fun _ st => st.isOpen
  let s1 := sids.foldl (fun t sid => t.closeStream sid 0 0) s
  let s2 := State.drainAll (s1.str.waiting.length + 1) s1
  (s2.resetDie 3).modBoot fun b => { b with step := 2, fails := 0, failedStep := 0 }

/-- Object values of the communication area and of 0x2001 as stored in the flash, else none. -/
def reloadComm (od flash : Tbl Nat) : Tbl Nat :=
  let mine := fun (k : Nat) => objIsComm (k / 256) || k / 256 == 0x2001
  (flash.filter fun x => mine x.1).foldl (fun t x => Tbl.put t x.1 x.2) (od.filter fun x => !mine x.1)

/-- Reset communication: the field port starts anew with its stored objects and sends its boot-up message. -/
def State.resetComm (s : State) : State :=
  let s1 := s.modCtl fun c => { c with od := reloadComm c.od c.flashA, usdo := [], tpdo := [] }
  s1.applyNode.sendHeartbeat 0

/-! ### Commands (R494, R495) -/

/-- Whether an NMT command is being carried through. -/
def State.freezing (s : State) : Bool := s.ctl.freezeTo.isSome || s.ctl.resetPending

/-- Begins a freeze for a state; `reset`: for a node reset, which freezes as for stopped. -/
def State.freeze (s : State) (n : Nmt) (reset : Bool) : State :=
  s.modCtl fun c => { c with freezeTo := some n, resetPending := reset }

/-- Acts on one NMT command. Only leaving operational takes a freeze. In boot hold the resets alone act. -/
def State.actNmt (s : State) (k : NmtCmd) : State :=
  let running := s.ctl.nmt == .operational
  match k with
  | .resetComm => s.resetComm
  | .resetNode => if running then s.freeze .stopped true else s.resetNode
  | .start => if s.ctl.nmt = .init then s else s.setNmt .operational
  | .stop => if s.ctl.nmt = .init then s else if running then s.freeze .stopped false else s.setNmt .stopped
  | .preop => if s.ctl.nmt = .init then s else if running then s.freeze .preop false else s.setNmt .preop

/-- Acts on commands in turn, until one has to freeze first: the others wait. -/
def State.runNmt : List NmtCmd → State → State
  | [], s => s.modCtl fun c => { c with nmtWait := [] }
  | k :: ks, s =>
    let s1 := s.actNmt k
    if s1.freezing then s1.modCtl fun c => { c with nmtWait := ks } else State.runNmt ks s1

/-- An NMT command arrives, for this node-ID or for all. -/
def State.takeNmt (s : State) (node : Nat) (k : NmtCmd) : State :=
  if !s.fieldServed || !(node == 0 || node == s.ctl.nodeId) then s
  else if s.freezing then s.modCtl fun c => { c with nmtWait := c.nmtWait ++ [k] }
  else State.runNmt [k] s

/-- NMT_START. -/
def execNmtStart (node : Byte) (s : State) : Out := .next (s.takeNmt node.toNat .start)

/-- NMT_STOP. -/
def execNmtStop (node : Byte) (s : State) : Out := .next (s.takeNmt node.toNat .stop)

/-- NMT_ENTER_PREOP. -/
def execNmtEnterPreop (node : Byte) (s : State) : Out := .next (s.takeNmt node.toNat .preop)

/-- NMT_RESET_NODE. -/
def execNmtResetNode (node : Byte) (s : State) : Out := .next (s.takeNmt node.toNat .resetNode)

/-- NMT_RESET_COMM. -/
def execNmtResetComm (node : Byte) (s : State) : Out := .next (s.takeNmt node.toNat .resetComm)

/-- FREEZE_DONE: every chunk whose input was full has committed; the new state holds, or the node reset acts, and the commands
that waited follow. -/
def execFreezeDone (s : State) : Out :=
  if s.freezing ∧ s.frozenOut then
    if s.ctl.resetPending then .next s.resetNode
    else .next (State.runNmt s.ctl.nmtWait (s.setNmt (s.ctl.freezeTo.getD .preop)))
  else .next s

end Sys2Proof.Machine
end

