-- ==== Sys2Proof/Machine/Dict.lean ====
section
/-! DEFINITION. Reading the object dictionary: ports, windows, and the values that the device computes (R447, R486, R502 to
R507, R514 to R531, R560, R561, R574, R575, R579, R604). -/

namespace Sys2Proof.Machine

/-! ### Ports (R502, R515) -/

/-- The number under which a port's SELECT values and answers are held: FIELD 0, HOST-PF 1, VF n n + 1, peer n 32 + n,
DEBUG 64. -/
def portKey : PortClass → Nat
  | .field => 0
  | .pf => 1
  | .vf n => n.val + 1
  | .peer n => 32 + n.val
  | .debug => 64

/-- A port's access letter in a row. -/
def ObjRow.letter (r : ObjRow) : PortClass → Access
  | .field => r.f
  | .pf => r.h
  | .vf _ => r.v
  | .peer _ => r.p
  | .debug => r.d

/-- The partition of a VF port. -/
def vfOf : PortClass → Option Nat
  | .vf n => some n.val
  | _ => none

/-- The SELECT subindices: each port has its own value (R447, R515, R523, R524, R527, R575, R604). -/
def isSelect (idx sub : Nat) : Bool :=
  (idx == 0x2300 && sub == 7) || (idx == 0x2600 && sub == 1) || (idx == 0x2800 && sub == 1) || (idx == 0x4000 && sub == 2)
    || (idx == 0x4002 && sub == 1) || (idx == 0x4200 && sub == 8)

/-- What a port has selected. -/
def State.sel (s : State) (port : PortClass) (idx sub : Nat) : Nat := Tbl.getD s.ctl.sel 0 (portKey port * 2 ^ 24 + objKey idx sub)

/-- Sets a port's selection. -/
def State.setSel (s : State) (port : PortClass) (idx sub v : Nat) : State :=
  s.modCtl fun c => { c with sel := Tbl.setD c.sel 0 (portKey port * 2 ^ 24 + objKey idx sub) v }

/-! ### Values of the communication and device objects -/

/-- The release of the running image (R517). -/
def State.release (s : State) : Nat := (s.bank s.boot.runningBank).release

/-- Two decimal digits. -/
def twoDigits (n : Nat) : List Byte := [BitVec.ofNat 8 (48 + n / 10 % 10), BitVec.ofNat 8 (48 + n % 10)]

/-- The text of MFR_SW_VERSION. -/
def swVersion (r : Nat) : List Byte :=
  asciiBytes "BRUSK " ++ twoDigits (bits r 11 5) ++ asciiBytes "." ++ twoDigits (bits r 5 6) ++ asciiBytes "." ++ twoDigits (bits r 0 5)

/-- COB-ID of TPDO n, from 0 (R492, R518). -/
def State.tpdoCob (s : State) (n : Nat) : Nat := 0x180 + 0x100 * n + s.ctl.nodeId

/-- 0x1000 to 0x1FFF. -/
def State.valComm (s : State) (idx sub : Nat) : Nat :=
  if idx = 0x1001 then errorRegister s.ctl.conditions
  else if idx = 0x1008 then leNat (asciiBytes (if Config.orderP then "TRS4-M64-P" else "TRS4-M64-A"))
  else if idx = 0x1009 then leNat (asciiBytes "Rev B0")
  else if idx = 0x100A then leNat (swVersion s.release)
  else if idx = 0x1018 ∧ sub = 2 then (if Config.orderP then 0x00040002 else 0x00040001)
  else if idx = 0x1018 ∧ sub = 3 then 0xB0 * 2 ^ 16 + s.release % 2 ^ 16
  else if idx = 0x1018 ∧ sub = 4 then s.boot.serial % 2 ^ 32
  else if idx = 0x1400 ∧ sub = 1 then 0x200 + s.ctl.nodeId
  else if 0x1800 ≤ idx ∧ idx ≤ 0x1803 ∧ sub = 1 then s.obj idx 1 + s.tpdoCob (idx - 0x1800)
  else s.obj idx sub

/-- POWER_STATE: while NMT is stopped it reads 3, unless the target is Snowdrop (R522, R567). -/
def State.powerStateVal (s : State) : Nat :=
  if s.ctl.nmt = .stopped ∧ s.pw.target ≠ 4 then 3 else s.pw.powerState

/-- 0x2000 to 0x21FF. -/
def State.valDevice (s : State) (idx sub : Nat) : Nat :=
  if idx = 0x2000 ∧ sub = 0xB then s.xr.devId
  else if idx = 0x2001 ∧ sub = 5 then s.ctl.nodeId
  else if idx = 0x2001 ∧ sub = 6 then s.ctl.nodeSource
  else if idx = 0x2100 ∧ sub = 1 then (s.monitor 9).mv % 65536
  else if idx = 0x2100 ∧ sub = 2 then (s.monitor 10).mv % 65536
  else if idx = 0x2100 ∧ sub = 3 then Nat.min s.pw.powerDw 65535
  else if 0x2101 ≤ idx ∧ idx ≤ 0x210A then
    let m := s.monitor (idx - 0x2100)
    match sub with
    | 1 => m.mv % 65536
    | 2 => m.min % 65536
    | 3 => m.max % 65536
    | 4 => (s.thresholds (idx - 0x2100)).1
    | 5 => (s.thresholds (idx - 0x2100)).2
    | 6 => m.events
    | _ => s.obj idx sub
  else if idx = 0x2110 then s.powerStateVal
  else if idx = 0x2116 ∧ sub = 1 then s.pw.target
  else if idx = 0x2116 ∧ sub = 2 then s.pw.levelP + 8 * s.pw.levelT
  else if idx = 0x2116 ∧ sub = 3 then setBit (s.obj 0x2116 3) 1 s.pw.tulipPending
  else if idx = 0x2117 then b2n s.pw.holdupOk
  else if idx = 0x2130 ∧ 1 ≤ sub then s.domain (sub - 1)
  else s.obj idx sub

/-- 0x2200 to 0x22FF. -/
def State.valClock (s : State) (port : PortClass) (idx sub : Nat) : Nat :=
  if idx = 0x2200 then
    match sub with
    | 1 => b2n s.boot.pllLocked
    | 2 => s.clockMhz
    | 3 => s.boot.engDiv
    | 4 => s.boot.resetCause
    | 5 => s.boot.startupMs
    | 6 => s.boot.failedStep
    | 7 => s.boot.lockLosses
    | _ => s.obj idx sub
  else if idx = 0x2210 ∧ sub = 1 then s.now
  else if idx = 0x2210 ∧ sub = 2 then Tbl.getD s.ctl.timeFrac 0 (portKey port)
  else if idx = 0x2213 then
    match sub with
    | 1 => s.tm.state.code
    | 2 => s.timeClass
    | 3 => s.tm.master
    | 4 => setBit (setBit (s.obj 0x2213 4) 2 s.tm.ppsValid) 3 s.ppsLocked
    | 7 => unsignedOf 64 s.tm.lastStepNs
    | 8 => unsignedOf 32 s.tm.offsetNs
    | 9 => unsignedOf 32 (ratTrunc (s.tm.r * 1000000000))
    | _ => s.obj idx sub
  else s.obj idx sub

/-- 0x2300: sensors and throttling (R522, R575). A maximum over no accepted sensor reads 0. -/
def State.valThermal (s : State) (port : PortClass) (sub : Nat) : Nat :=
  let x := s.sensor (s.sel port 0x2300 7)
  match sub with
  | 1 => unsignedOf 16 ((s.hottest (List.range 16)).getD 0)
  | 2 => unsignedOf 16 ((s.hottest [16, 17, 18, 19]).getD 0)
  | 3 => s.clockMhz * 100 / 1200
  | 4 => unsignedOf 16 (s.sensor 20).last
  | 6 => levelDuty s.level
  | 8 => unsignedOf 16 x.last
  | 9 => b2n (x.ok && x.seen)
  | _ => s.obj 0x2300 sub

/-! ### Values of the sharing objects -/

/-- BUCKET_LOW: bit n while regulator n is below zero (R363). -/
def State.bucketLow (s : State) (p : Nat) : Nat :=
  ((List.range 5).filter fun r => decide (Tbl.getD s.rb.bucket 0 (p * 8 + r) < 0)).foldl (fun m r => m + 2 ^ r) 0

/-- 0x2400 to 0x24FF. -/
def State.valPart (s : State) (idx sub : Nat) : Nat :=
  let p := idx - 0x2400
  match sub with
  | 4 => s.streamsOpen p
  | 5 => s.loadUsed p
  | 0x10 => s.bucketLow p
  | _ => s.obj idx sub

/-- 0x2600: the model slot that the port has selected (R523). -/
def State.valModel (s : State) (slot sub : Nat) : Nat :=
  let m := s.model slot
  match sub with
  | 2 => m.state
  | 3 => m.kind
  | 4 => m.partMask
  | 5 => m.field 0x08 32
  | 6 => m.field 0x28 16
  | 7 => m.field 0x38 16
  | 8 => m.field 0x04 2
  | 9 => if m.pkg = [] then 0 else m.weightBytes
  | 0xA => m.field 0x88 4
  | 0xB => if m.state = 0 then 0 else s.streamsNaming slot
  | 0xC => (m.resident.map (·.2.1)).sum
  | 0xD => m.changeCount
  | _ => s.obj 0x2600 sub

/-- The code of a stream's state (R23). -/
def StreamState.code : StreamState → Nat
  | .free => 0
  | .opening => 1
  | .active => 2
  | .idle => 3
  | .parked => 4
  | .draining => 5
  | .migrating => 6
  | .held => 7
  | .closed => 8
  | .lost => 9

/-- A value within the INTEGER32 range. -/
def clampI32 (x : Int) : Int := max (-(2 ^ 31)) (min (2 ^ 31 - 1) x)

/-- 0x2800: a stream table entry that is not FREE (R524). -/
def State.valStream (s : State) (sid : Nat) (st : Stream) (sub : Nat) : Nat :=
  match sub with
  | 2 => st.state.code
  | 3 => Tbl.getD s.str.epoch 0 sid
  | 4 => st.cfg.part
  | 5 => st.cfg.model
  | 6 => st.cfg.fallback.getD 0xFF
  | 7 => st.running
  | 8 => st.cfg.cls
  | 9 => st.cfg.chunkMs
  | 0xA => st.cfg.lookMs
  | 0xB => st.cfg.budgetMs
  | 0xC => st.nextSeq % 2 ^ 32
  | 0xD => st.eg.pubNext
  | 0xE => st.deadlineMisses
  | 0xF => unsignedOf 32 (clampI32 st.lastSlackUs)
  | 0x10 => b2n st.slot.isSome
  | 0x11 => st.ing.samplesIn
  | 0x12 => st.ing.nonfinite
  | 0x13 => st.ing.clamped
  | 0x14 => st.ing.clipped
  | 0x15 => st.ing.formatViolation
  | 0x16 => st.ing.gapsFilled
  | 0x17 => st.ing.gapEvents
  | 0x18 => st.ing.zeroInserted
  | 0x19 => st.ing.ptsOverlap
  | 0x1A => st.symLimit
  | 0x1B => st.audioTrunc
  | _ => st.utf8Replaced

/-- 0x2700 and 0x2900. -/
def State.valPools (s : State) (idx sub : Nat) : Nat :=
  if idx = 0x2700 ∧ sub = 0x42 then s.resUsed
  else if idx = 0x2900 ∧ sub = 6 then s.freeOnchip
  else if idx = 0x2900 ∧ sub = 7 then s.freeSpill
  else if idx = 0x2900 ∧ sub = 8 then s.lcUnused
  else s.obj idx sub

/-! ### Values of ports, calibration and firmware -/

/-- The code of a port's state (R460). -/
def PortState.code : PortState → Nat
  | .disabled => 0
  | .down => 1
  | .detect => 2
  | .lock => 3
  | .deskew => 4
  | .ident => 5
  | .up => 6
  | .held => 7

/-- 0x4100 to 0x4106 (R470). -/
def State.valPort (s : State) (p sub : Nat) : Nat :=
  let x := s.port p
  match sub with
  | 2 => x.state.code
  | 3 => if x.state = .up then x.peerDev else 0xFF
  | 4 => x.downReason
  | 5 => x.framesTx
  | 6 => x.framesRx
  | 7 => x.crcErrors
  | 8 => x.retries
  | 9 => x.downEvents
  | 0xA => x.attempts
  | 0xB => x.rxDiscarded
  | 0xC => if x.state = .up then (s.xr.rxDescs.filter fun d => !d.2.home && d.2.src == x.peerDev).length else 0
  | _ => s.obj (0x4100 + p) sub

/-- QUAL_STATE: 0 in service, 1 qualifying, 2 walking, 3 out of service (R604). -/
def State.qualState (s : State) (q : Nat) : Nat :=
  match Tbl.getD s.rb.sqOut 0 q with
  | 0 => 0
  | 1 => 3
  | _ => if (s.cal q).stage = .qualifying then 1 else 2

/-- 0x4200 (R604). -/
def State.valCal (s : State) (port : PortClass) (sub : Nat) : Nat :=
  let q := s.sel port 0x4200 8
  match sub with
  | 4 => s.boot.walkSquare.getD 0xFF
  | 9 => (s.cal q).point
  | 0xA => (s.cal q).lastFail
  | 0xB => unsignedOf 16 (s.cal q).temp
  | 0xC => s.qualState q
  | 0xD => (s.cal q).fusePoint
  | 0xE => s.railMv
  | _ => s.obj 0x4200 sub

/-- 0x5000 (R531). -/
def State.valFirmware (s : State) (sub : Nat) : Nat :=
  match sub with
  | 1 => s.boot.runningBank
  | 2 => leNat s.boot.runningDigest
  | 3 => leNat s.boot.bankA.digest
  | 4 => leNat s.boot.bankB.digest
  | 5 => s.boot.bankA.state
  | 6 => s.boot.bankB.state
  | _ => s.obj 0x5000 sub

/-! ### One subindex -/

/-- The value of a subindex as a port reads it, for all but SELECT, the stream window and the fault log. -/
def State.objVal (s : State) (port : PortClass) (idx sub : Nat) : Nat :=
  if idx < 0x2000 then s.valComm idx sub
  else if idx < 0x2200 then s.valDevice idx sub
  else if idx < 0x2300 then s.valClock port idx sub
  else if idx = 0x2300 then s.valThermal port sub
  else if idx ≤ 0x240F then s.valPart idx sub
  else if idx = 0x2600 then s.valModel (s.sel port 0x2600 1) sub
  else if idx < 0x3000 then s.valPools idx sub
  else if idx = 0x4002 ∧ 2 ≤ sub then Tbl.getD s.rb.engCtr 0 (s.sel port 0x4002 1 * 16 + sub)
  else if 0x4100 ≤ idx ∧ idx ≤ 0x4106 then s.valPort (idx - 0x4100) sub
  else if idx = 0x4200 then s.valCal port sub
  else if idx = 0x5000 then s.valFirmware sub
  else if idx = 0x5F01 ∧ sub = 3 then b2n s.ctl.dbgStrap
  else s.obj idx sub

/-- The place in the log of the entry with a number (R447). -/
def State.logEntry (s : State) (no : Nat) : Option FaultEntry :=
  let first := s.obj 0x4000 1 + 2 ^ 32 - s.ctl.faultLog.length
  s.ctl.faultLog[(no + 2 ^ 32 - first % 2 ^ 32) % 2 ^ 32]?

/-- Whether a VF may look into the model slot. -/
def State.slotVisible (s : State) (slot p : Nat) : Bool := bitAt (s.model slot).partMask p

/-- What a read of a subindex returns, none where there is no data (R447, R525). -/
def State.readVal (s : State) (port : PortClass) (idx sub : Nat) : Option Nat :=
  if isSelect idx sub then some (s.sel port idx sub)
  else if idx = 0x4000 ∧ sub = 3 then (s.logEntry (s.sel port 0x4000 2)).map fun e => leNat (e.words.flatMap (leBytes 8))
  else if idx = 0x2800 ∧ sub ≠ 0 then
    let sid := s.sel port 0x2800 1
    match s.stream? sid with
    | some st => if ((vfOf port).map fun p => st.cfg.part == p).getD true then some (s.valStream sid st sub) else none
    | none =>
      if (vfOf port).isSome then none
      else if sub = 2 then some 0
      else if sub = 3 then some (Tbl.getD s.str.epoch 0 sid)
      else none
  else if idx = 0x2600 ∧ sub ≠ 0 ∧ !(((vfOf port).map (s.slotVisible (s.sel port 0x2600 1))).getD true) then none
  else some (s.objVal port idx sub)

/-- Reads a subindex that passed its checks: the abort code and the bytes. A read of TIME_NS keeps its fraction for the
port (R486). -/
def State.readSub (s : State) (port : PortClass) (idx sub len : Nat) : (Nat × List Byte) × State :=
  let s1 := if idx = 0x2210 ∧ sub = 1 then
      s.modCtl fun c => { c with timeFrac := Tbl.put c.timeFrac (portKey port) (s.tm.t % 2 ^ 32) }
    else s
  match s.readVal port idx sub with
  | some v => ((0, leBytes len v), s1)
  | none => ((0x08000024, []), s1)

/-! ### The checks of every access (R503, R504, R509) -/

/-- Whether a VF sees an index. -/
def vfSees (p idx : Nat) : Bool :=
  (objTable.any fun r => Nat.ble r.idx idx && Nat.ble idx r.idxHi && decide (r.v ≠ .no))
    && (!(decide (0x2400 ≤ idx ∧ idx ≤ 0x240F) || decide (0x3000 ≤ idx ∧ idx ≤ 0x300F)) || idx % 16 == p)

/-- The override mode of a port's class (R509). -/
def State.overrideMode (s : State) : PortClass → Nat
  | .field => 0
  | .pf => s.obj 0x5F00 1
  | .vf _ => s.obj 0x5F00 2
  | .peer _ => s.obj 0x5F00 3
  | .debug => s.obj 0x5F00 4

/-- Checks 1 to 5: the abort code, or the row of the subindex. A peer reaches subindices of up to 112 bytes (R506). -/
def State.checkAccess (s : State) (port : PortClass) (wr : Bool) (idx sub : Nat) : Except Nat ObjRow :=
  if !objIndexExists idx || ((vfOf port).map fun p => !vfSees p idx).getD false then .error 0x06020000
  else
    match objRow? idx sub with
    | none => .error 0x06090011
    | some r =>
      let a := r.letter port
      let mode := s.overrideMode port
      let far := match port with
        | .peer _ => decide (r.len = 0 ∨ 112 < r.len)
        | _ => false
      if a = .no ∨ far = true then .error 0x06010000
      else if wr ∧ a = .ro then .error 0x06010002
      else if !wr ∧ a = .wo then .error 0x06010001
      else if mode = 1 ∧ wr then .error 0x08000021
      else if mode = 2 ∧ (wr ∨ !(idx = 0x1000 ∨ idx = 0x1018 ∨ idx = 0x5F00)) then .error 0x08000021
      else .ok r

/-- Where a port stands: no answer, every access refused for the device's state, the accesses of boot hold only, or served. -/
inductive PortGate where
  | silent | refuse | hold | served
  deriving DecidableEq, Repr

/-- Whether a port is served now (R438, R493, R507, R583, R590, R617). -/
def State.gate (s : State) (port : PortClass) : PortGate :=
  if s.ctl.coresDown.contains 0 || !s.pw.auxPg then .silent
  else
    match port with
    | .field => if s.ctl.nmt = .init then (if s.boot.hold then .hold else .silent) else if s.ctl.nmt = .stopped then .silent else .served
    | .pf => if s.hostOk 0 then .served else .silent
    | .vf n => if n.val ≠ 0 ∧ s.hostOk n.val then .served else .silent
    | .peer _ => if s.ctl.nmt = .init then .refuse else .served
    | .debug => if s.ctl.dbgStrap ∧ s.obj 0x5F01 1 = 1 ∧ s.ctl.nmt ≠ .init then .served else .silent

/-- The accesses that boot hold serves (R583). -/
def holdServes (wr : Bool) (idx sub : Nat) : Bool :=
  if wr then (idx == 0x5000 && (sub == 7 || sub == 8)) || idx == 0x5001
  else idx == 0x1000 || idx == 0x1018 || idx == 0x2200 || idx == 0x5000

/-- A read by a port: none where it goes unanswered, else the abort code, 0 when done, and the bytes. -/
def State.readObject (s : State) (port : PortClass) (idx sub : Nat) : Option ((Nat × List Byte) × State) :=
  let go := match s.checkAccess port false idx sub with
    | .error e => ((e, []), s)
    | .ok r => s.readSub port idx sub r.len
  match s.gate port with
  | .silent => none
  | .refuse => some ((0x08000022, []), s)
  | .hold => some (if holdServes false idx sub then go else ((0x08000022, []), s))
  | .served => some go

end Sys2Proof.Machine
end

