-- ==== Sys2Proof/Machine/HostRows.lean ====
section
/-! DEFINITION. What the host does to the partition blocks, the MSI-X tables, Bus Master Enable, the debug window and the
functions, and the resets that it starts (R535 to R547). -/

namespace Sys2Proof.Machine

/-! ### Rings (R537 to R539) -/

/-- SQ_DB: a doorbell covers new entries, or is discarded; new entries wake the device (R539, R565). -/
def execSqDb (p : Part) (ring : Ring) (value : BitVec 32) (s : State) : Out :=
  let q := s.sq p.val ring.val
  let t := value.toNat
  if !s.hostOk p.val then .next s
  else if !q.enable then .next (s.ringError p.val 1)
  else if t = q.tail then .next s
  else if (t + 2 ^ 32 - q.tail) % 2 ^ 32 < 2 ^ 31 ∧ (t + 2 ^ 32 - q.head) % 2 ^ 32 ≤ 2 ^ q.log2 then
    .next (s.setSq p.val ring.val { q with tail := t }).wakeTrigger
  else .next (s.ringError p.val 0)

/-- A write of SQ_LOG2 and SQ_ENABLE (R538). While the ring is enabled, only ENABLE may change. -/
def State.writeSqCtl (s : State) (p ring v : Nat) : State :=
  let q := s.sq p ring
  let log2 := bits v 0 5
  let on := bitAt v 8
  if q.enable then
    (if log2 ≠ q.log2 then s.ringError p 2 else s.setSq p ring { q with enable := on })
  else if log2 < 8 ∨ 16 < log2 then s.ringError p 3
  else if on then s.setSq p ring { q with log2 := log2, enable := true, head := 0, tail := 0, headWritten := 0 }
  else s.setSq p ring { q with log2 := log2 }

/-- SQ_ENABLE_WRITE: a write of the register that holds SQ_LOG2 and SQ_ENABLE. -/
def execSqEnableWrite (p : Part) (ring : Ring) (value : BitVec 32) (s : State) : Out :=
  if s.hostOk p.val then .next (s.writeSqCtl p.val ring.val value.toNat) else .next s

/-- A write of OQ_LOG2, OQ_ENABLE and VECTOR (R538). Enabling needs PROD_WB. -/
def State.writeOqCtl (s : State) (p ring v : Nat) : State :=
  let o := s.oq p ring
  let log2 := bits v 0 5
  let on := bitAt v 8
  let vec := bits v 16 4
  if o.enable then
    (if log2 ≠ o.log2 ∨ vec ≠ o.vector then s.ringError p 2 else s.setOq p ring { o with enable := on })
  else if log2 < 8 ∨ 16 < log2 then s.ringError p 3
  else if on ∧ o.prodWb = 0 then s.ringError p 2
  else if on then
    s.setOq p ring ({ o with log2 := log2, vector := vec, enable := true, prod := 0, cons := 0, pSent := 0, timer := false }).freeAudio
  else s.setOq p ring { o with log2 := log2, vector := vec }

/-- OQ_ENABLE_WRITE: a write of the register that holds OQ_LOG2, OQ_ENABLE and VECTOR. -/
def execOqEnableWrite (p : Part) (ring : Ring) (value : BitVec 32) (s : State) : Out :=
  if s.hostOk p.val then .next (s.writeOqCtl p.val ring.val value.toNat) else .next s

/-- A 64-bit register with one of its halves written. -/
def setHalf (old : Nat) (high : Bool) (v : Nat) : Nat := setBits old (if high then 32 else 0) 32 v

/-- A write of a submission ring's other registers: `r` is the offset within the ring's block. -/
def State.writeSqReg (s : State) (p ring r v : Nat) : State :=
  let q := s.sq p ring
  let put := fun (bad : Bool) (x : SubRing) =>
    if q.enable then s.ringError p 2 else if bad then s.ringError p 3 else s.setSq p ring x
  match r with
  | 0x00 => put (v % 4096 != 0) { q with base := setHalf q.base false v }
  | 0x04 => put false { q with base := setHalf q.base true v }
  | 0x08 => s.writeSqCtl p ring v
  | 0x10 => put (v % 8 != 0) { q with headWb := setHalf q.headWb false v }
  | 0x14 => put false { q with headWb := setHalf q.headWb true v }
  | _ => s

/-- A write of an output ring's other registers. -/
def State.writeOqReg (s : State) (p ring r v : Nat) : State :=
  let o := s.oq p ring
  let put := fun (bad : Bool) (x : OutRing) =>
    if o.enable then s.ringError p 2 else if bad then s.ringError p 3 else s.setOq p ring x
  match r with
  | 0x00 => put (v % 4096 != 0) { o with base := setHalf o.base false v }
  | 0x04 => put false { o with base := setHalf o.base true v }
  | 0x08 => s.writeOqCtl p ring v
  | 0x10 => put (v % 8 != 0) { o with prodWb := setHalf o.prodWb false v }
  | 0x14 => put false { o with prodWb := setHalf o.prodWb true v }
  | 0x18 => put (v % 65536 == 0) { o with modRecords := v % 65536 }
  | 0x1C => put false { o with modUs := v % 65536 }
  | 0x20 => put (v % 64 != 0) { o with audioBase := setHalf o.audioBase false v }
  | 0x24 => put false { o with audioBase := setHalf o.audioBase true v }
  | 0x28 => put (v % 64 != 0) { o with audioBytes := v }
  | _ => s

/-! ### Messages (R541, R544) -/

/-- The message that a pending vector has been waiting for, when nothing holds it back any more. -/
def State.releaseVector (s : State) (p v : Nat) : State :=
  let f := s.fn p
  if bitAt f.pending v && !bitAt f.masked v && f.bme then
    s.setFn p { f with pending := setBit f.pending v false, sent := f.sent ++ [v] }
  else s

/-- MSIX_UNMASK: the vector's mask bit is cleared; a message that was pending is sent once. -/
def execMsixUnmask (p : Part) (vector : VectorNo) (s : State) : Out :=
  if s.hostOk p.val then
    let f := s.fn p.val
    .next ((s.setFn p.val { f with masked := setBit f.masked vector.val false }).releaseVector p.val vector.val)
  else .next s

/-- A write of a word of the MSI-X table: address, data, or the mask bit of a vector. -/
def State.writeMsix (s : State) (p k v : Nat) : State :=
  let f := s.fn p
  if k % 4 = 3 then
    (s.setFn p { f with masked := setBit f.masked (k / 4) (bitAt v 0) }).releaseVector p (k / 4)
  else s.setFn p { f with msixTable := Tbl.setD f.msixTable 0 k v }

/-- RING_REGISTER_WRITE: a 32-bit write of BAR0 other than a doorbell, a consumer count or an enable register; what R536 and
R537 do not list is discarded. -/
def execRingRegisterWrite (p : Part) (off : BitVec 17) (value : BitVec 32) (s : State) : Out :=
  let a := off.toNat
  let v := value.toNat
  let f := s.fn p.val
  if !s.hostOk p.val ∨ a % 4 ≠ 0 then .next s
  else if a = 0x100 then .next (s.setFn p.val { f with mbxVector := v % 16 })
  else if a = 0x108 then .next (s.setFn p.val { f with errFlags := f.errFlags - Nat.land f.errFlags v })
  else if 0x1000 ≤ a ∧ a < 0x1400 then .next (s.writeSqReg p.val ((a - 0x1000) / 64) (a % 64) v)
  else if 0x2000 ≤ a ∧ a < 0x2400 then .next (s.writeOqReg p.val ((a - 0x2000) / 64) (a % 64) v)
  else if 0x10000 ≤ a ∧ a < 0x10100 then .next (s.writeMsix p.val ((a - 0x10000) / 4) v)
  else .next s

/-! ### HEAD_WB and Bus Master Enable (R539, R544) -/

/-- Writes HEAD of a ring to HEAD_WB, when it has moved since it was last written. -/
def State.writeHead (s : State) (p ring : Nat) : State :=
  let q := s.sq p ring
  if q.headWb = 0 ∨ q.head = q.headWritten ∨ !(s.fn p).bme ∨ (s.fn p).resetting then s
  else (s.hostWrite q.headWb (leBytes 8 q.head)).setSq p ring { q with headWritten := q.head }

/-- HEAD_WB_TIMER (R539). -/
def execHeadWbTimer (p : Part) (ring : Ring) (s : State) : Out := .next (s.writeHead p.val ring.val)

/-- A function with what the host writes into its configuration space beside Bus Master Enable (R534, R544). -/
def Function.configure (f : Function) (c : PcieConfig) : Function :=
  { f with payload := c.payload.val, readReq := c.readReq.val, aspmL1 := c.aspmL1, aerTimeout := f.aerTimeout && !c.clearErrors }

/-- BUS_MASTER_ENABLE_CHANGE: on, the messages and the HEAD values that were held back go out (R544). The fields that the host
sets beside it come with it (R534; that one command carries both is a DESIGN CHOICE, log 182). -/
def execBusMasterEnableChange (p : Part) (on : Bool) (cfg : PcieConfig) (s : State) : Out :=
  if !s.hostOk p.val then .next s
  else
    let s1 := s.setFn p.val { (s.fn p.val).configure cfg with bme := on }
    if on then
      let s2 := (List.range 16).foldl (fun t v => t.releaseVector p.val v) s1
      .next ((List.range 16).foldl (fun t r => t.writeHead p.val r) s2)
    else .next s1

/-! ### The debug window (R129, R545) -/

/-- Writes bytes within one row through the debug window's gather port. -/
def State.windowWrite (s : State) (row o : Nat) (bs : List Byte) : State :=
  if bs = [] then s
  else if s.quarterOn (rowQuarter row) then s.narrowWrite 8 row o bs []
  else s.incObj 0x4001 7

/-- Reads bytes within one row: a correction is counted, an uncorrectable row is reported (R123, R124); a quarter that is not ON
reads zeros and sets OFF_READ. -/
def State.windowRead (s : State) (row o n : Nat) : List Byte × State :=
  if n = 0 then ([], s)
  else if s.quarterOn (rowQuarter row) then
    (s.narrowRead 8 row o n,
     match s.countReads [row] with
     | (t, none) => t
     | (t, some r) => (t.spUncorrected r 0xFF).logFault { cls := 2, action := 8, addr := r })
  else (List.replicate n 0, (s.setObj 0x4001 8 (setBit (s.obj 0x4001 8) 0 true)).incObj 0x4001 9)

/-- BAR4_ACCESS: a read or write of up to 64 bytes of scratchpad, while BAR4_ENABLE is 1. Addresses beyond the scratchpad
read 0 and discard writes. -/
def execBar4Access (off : Nat) (wr : Bool) (len : Nat) (data : List Byte) (s : State) : Out :=
  let n := Nat.min len 64
  let limit := s.obj 0x2010 0 * 512
  let first := Nat.min n (512 - off % 512)
  let ret := fun (t : State) (bs : List Byte) => { t with host := { t.host with windowData := bs } }
  if !s.hostOk 0 then .next s
  else if s.obj 0x5F01 2 = 0 ∨ limit ≤ off then (if wr then .next s else .next (ret s (List.replicate n 0)))
  else
    let more := if off + n ≤ limit then n - first else 0
    if wr then
      let bs := slice data 0 n
      .next ((s.windowWrite (off / 512) (off % 512) (bs.take first)).windowWrite (off / 512 + 1) 0 ((bs.drop first).take more))
    else
      let a := s.windowRead (off / 512) (off % 512) first
      let b := a.2.windowRead (off / 512 + 1) 0 more
      .next (ret b.2 (a.1 ++ b.1 ++ List.replicate (n - first - more) 0))

/-! ### Resets of partitions (R535, R546, R547) -/

/-- Steps 3, 5 and 6 of R153 for a commit past its commit point, without its records (step 2 of R546). -/
def State.finishSilently (s : State) (sid : Nat) : State :=
  match s.stream? sid with
  | none => s
  | some st =>
    if st.cr.step = 0 then s
    else
      let s1 := match s.chunk? sid st.cr.commitSeq with
        | some c => if st.cr.step = 2 then (s.stepThree sid st.cr.beam c).getD s else s
        | none => s
      let s2 := s1.logCommit { sid := sid, chunk := st.cr.commitSeq, cur := st.cr.cur, cacheLen := (s1.streamTable sid).committedLen
                               recFirst := st.eg.pubNext, recCount := 0, model := st.cr.model, time := st.lastCommitTime }
      (s2.dropChunk sid st.cr.commitSeq).modStream sid fun x => { x with cr := { x.cr with step := 0 } }

/-- A MIGRATING stream tells its peer that the migration ends (step 2 of R546, R70). -/
def State.abandonMig (s : State) (sid : Nat) : State :=
  match s.xr.migs.find? fun m => m.sid == sid with
  | none => s
  | some m =>
    let s1 := if m.source then s.send m.port (migFrame 3 m.txn 0x08 []) else s
    s1.dropMig sid

/-- Closes a stream with no record published (step 2 of R546). -/
def State.closeSilently (s : State) (sid : Nat) : State :=
  ((((s.finishSilently sid).abandonMig sid).discardChunks sid).modStream sid fun x =>
    { x with state := .closed, slot := none, exports := [], eg := { x.eg with ledger := none } }).endSeqs sid

/-- The streams of a partition. -/
def State.streamsOf (s : State) (p : Nat) : List Nat := Tbl.keysWhere s.str.tab fun _ x => x.cfg.part == p

/-- Drops the publications that wait at the rings of a partition. A model whose MODEL_LOADED is dropped becomes usable with
it (R41; DESIGN CHOICE: the spec does not say what a lost record leaves of a load that has succeeded). -/
def State.dropWaiting (s : State) (p : Nat) : State :=
  let gone := s.str.waiting.filter fun w => w.part == p
  let s1 := { s with str := { s.str with waiting := s.str.waiting.filter fun w => w.part != p } }
  (gone.filterMap (·.loads)).foldl (fun t slot => t.setModel slot ((t.model slot).become 2)) s1

/-- Begins the reset of a partition: its DMA stops, its streams close, its queued commands are cancelled, its egress queues,
retained input, pages and handles are freed, and its registers return to their defaults (steps 1 to 5 of R546). Max Payload Size,
the ASPM control and logged errors outlast a function-level reset (PCI Express Base Specification; PRESUMED, log 57). -/
def State.resetPart (s : State) (p : Nat) : State :=
  let f := s.fn p
  let s1 := s.setFn p { s.fn p with resetting := true }
  let s2 := s1.dropWaiting p
  let s3 := (s2.streamsOf p).foldl (fun t sid => t.closeSilently sid) s2
  let gone := s3.rb.cmds.filter fun c => !c.desc.batch && c.desc.part == p && (c.phase == .queued || c.phase == .parked)
  let s4 := gone.foldl (fun t c => t.cancelCmd c) s3
  let s5 := { s4 with st := { s4.st with handles := s4.st.handles.filter fun h => h.1 / 256 != p }
                      pg := { s4.pg with nodes := s4.pg.nodes.filter fun n => n.2.part != p } }
  s5.setFn p { present := f.present, resetting := true, payload := f.payload, aspmL1 := f.aspmL1, aerTimeout := f.aerTimeout }

/-- FLR: a function-level reset of a VF begins (R546). That of the PF is a HOT_RESET. -/
def execFlr (p : Part) (s : State) : Out :=
  if p.val = 0 ∨ !s.hostOk p.val then .next s else .next (s.resetPart p.val)

/-- FLR_DONE: the reset of a partition completes; its stream entries become FREE without a record (R20, R546). -/
def execFlrDone (p : Part) (s : State) : Out :=
  if (s.fn p.val).resetting then
    let s1 := (s.streamsOf p.val).foldl (fun t sid => t.freeStream sid) s
    .next (s1.setFn p.val { s1.fn p.val with resetting := false })
  else .next s

/-- VF_ENABLE_SET: the VFs up to `num` appear, each with its registers at their defaults (R535). -/
def execVfEnableSet (num : Nat) (s : State) : Out :=
  if !s.hostOk 0 ∨ 15 < num ∨ num < s.host.numVfs then .next s
  else
    let s1 := (List.range num).foldl (fun t i =>
      let f := t.fn (i + 1)
      if f.present then t else t.setFn (i + 1) { present := true, resetting := f.resetting }) s
    .next { s1 with host := { s1.host with numVfs := num } }

/-- Takes the VFs above a number away, and resets their partitions. -/
def State.dropVfs (s : State) (num : Nat) : State :=
  let gone := (List.range 16).filter fun p => num < p && (s.fn p).present
  let s1 := gone.foldl (fun t p => (t.resetPart p).setFn p { present := false, resetting := true }) s
  { s1 with host := { s1.host with numVfs := num } }

/-- VF_ENABLE_CLEAR: VF Enable is cleared (`num` 0) or NumVFs lowered (R535). -/
def execVfEnableClear (num : Nat) (s : State) : Out :=
  if !s.hostOk 0 ∨ s.host.numVfs < num then .next s else .next (s.dropVfs num)

/-- Every partition is reset, and VF Enable is cleared (R547). -/
def State.resetAllParts (s : State) : State :=
  let s1 := s.dropVfs 0
  ((List.range 16).filter fun p => !(s1.fn p).resetting).foldl (fun t p => t.resetPart p) s1

/-- HOT_RESET: an FLR of the PF (cause 0), a hot reset (1), an assertion of PERST_N (2) or a link down that the device did not
cause (3). The last three take the link down, which trains again while its domain is ON (R547, R613). -/
def execHotReset (cause : Nat) (s : State) : Out :=
  let s1 := s.resetAllParts
  if cause = 0 then .next s1
  else
    let s2 := s1.setFn 0 { s1.fn 0 with payload := 0, aspmL1 := false }
    let s3 := { s2 with host := { s2.host with linkUp := false, perstReleased := s2.host.perstReleased && cause != 2 } }
    .next (if s3.domain 90 = 2 then s3.setDomain 90 5 else s3)

end Sys2Proof.Machine
end

