-- ==== Sys2Proof/Machine/DictWrite.lean ====
section
/-! DEFINITION. Writing the object dictionary: checks 6 to 9 of every write, and what each write does (R272, R288, R384, R393,
R394, R444, R470, R485, R491, R503, R504, R509 to R512, R517, R518, R530, R531, R564, R570, R574, R604). -/

namespace Sys2Proof.Machine

/-! ### Lengths and ranges: checks 6 and 7 (R503, R514) -/

/-- Whether the data length is that of the type; a DOMAIN takes 1 byte to 31 MiB. -/
def ObjRow.lengthOk (r : ObjRow) (n : Nat) : Bool := if r.len = 0 then decide (1 ≤ n ∧ n ≤ 31 * 2 ^ 20) else n == r.len

/-- Whether a value lies in a range that a table states. -/
def Rng.holds (r : Rng) (len v : Nat) : Bool :=
  match r with
  | .any => true
  | .own => true
  | .nat lo hi => decide (lo ≤ v ∧ v ≤ hi)
  | .orNat vs lo hi => vs.contains v || decide (lo ≤ v ∧ v ≤ hi)
  | .int lo hi => decide (lo ≤ signedOf (8 * len) v ∧ signedOf (8 * len) v ≤ hi)

/-- The number of bits set. -/
def onesOf (n w : Nat) : Nat := ((List.range w).filter fun i => bitAt n i).length

/-- Ranges that rest on a rule of their own: the objects concerned, and whether the value is in range. -/
def State.ownRange (s : State) (port : PortClass) (idx sub v : Nat) : Bool :=
  if idx = 0x1016 ∧ sub = 1 then v == 0 || (decide (v < 2 ^ 24) && decide (1 ≤ bits v 16 8 ∧ bits v 16 8 ≤ 127 ∧ 10 ≤ bits v 0 16))
  else if 0x1800 ≤ idx ∧ idx ≤ 0x1803 ∧ sub = 1 then v % 2 ^ 31 == s.tpdoCob (idx - 0x1800)
  else if idx = 0x2001 ∧ sub = 3 then decide (v ≤ 3)
  else if idx = 0x2114 then onesOf v 8 == 4
  else if idx = 0x2500 ∧ sub = 2 then decide (5 ≤ v ∧ v ≤ 90 ∧ v < s.obj 0x2500 6)
  else if idx = 0x2500 ∧ sub = 6 then decide (s.obj 0x2500 2 < v ∧ v ≤ 95)
  else if idx = 0x2600 ∧ sub = 1 then ((vfOf port).map fun p => s.slotVisible v p).getD true
  else if idx = 0x2700 ∧ 1 ≤ sub ∧ sub ≤ 0x40 then
    decide (v < 8 ∧ bits v 1 2 ≠ 3)
      && !(bitAt v 0 && (s.model (sub - 1)).state == 2 && (s.model (sub - 1)).table.placeMap.isEmpty)
  else if idx = 0x2700 ∧ sub = 0x41 then decide (v ≤ s.obj 0x2010 0 / 4 ∧ v % 512 = 0)
  else if idx = 0x2800 ∧ sub = 1 then
    match vfOf port, s.stream? v with
    | some p, some st => st.cfg.part == p
    | _, _ => true
  else if idx = 0x2900 ∧ sub = 3 then decide (v ≤ s.obj 0x2900 1 / 2)
  else if idx = 0x2900 ∧ sub = 4 then decide (v ≤ s.obj 0x2900 1 / 4)
  else if idx = 0x4002 ∧ sub = 1 then decide (v < 0x40 ∧ v % 8 < 6)
  else true

/-! ### The device's state and own conditions: checks 8 and 9 -/

/-- Settings that are written in pre-operational only (R272, R288, R384, R393, R400). -/
def preopOnly (idx sub : Nat) : Bool :=
  (idx == 0x2500 && sub == 4) || (idx == 0x2700 && sub == 0x41) || (idx == 0x2900 && (sub == 1 || sub == 2))
    || (idx == 0x2A00 && (sub == 1 || sub == 2)) || (idx == 0x4018 && sub == 4)

/-- Whether the device's state permits a write: pre-operational, and for 0x180x:02 and :03 a TPDO that is not valid (R518). -/
def State.stateOk (s : State) (idx sub : Nat) : Bool :=
  (!preopOnly idx sub || s.ctl.nmt == .preop)
    && !(decide (0x1800 ≤ idx ∧ idx ≤ 0x1803 ∧ (sub = 2 ∨ sub = 3)) && !bitAt (s.obj idx 1) 31)

/-- Rows that the weight blocks of a slot would take in the residency region (R385). -/
def ModelSlot.blockRows (m : ModelSlot) : Nat := (m.table.blocks.map fun b => (b + 511) / 512).sum

/-- Rows of the FIXED models other than a slot's. -/
def State.fixedRows (s : State) (slot : Nat) : Nat :=
  ((s.str.models.filter fun m => m.1 != slot && s.residency m.1 == 2 && m.2.state == 2).map fun m => m.2.blockRows).sum

/-- Whether a bank holds a whole image whose digest is among some (R511). -/
def Bank.matches (b : Bank) (digests : List Nat) : Bool :=
  b.state != 0 && b.state != 3 && leNat b.digest != 0 && digests.contains (leNat b.digest)

/-- The object's own condition. -/
def State.ownCondition (s : State) (idx sub v : Nat) : Bool :=
  if idx = 0x5001 then
    let ds := (List.range 4).map fun i => if i + 1 = sub then v else s.obj 0x5001 (i + 1)
    s.boot.bankA.matches ds || s.boot.bankB.matches ds
  else if idx = 0x2700 ∧ 1 ≤ sub ∧ sub ≤ 0x40 then
    bits v 1 2 != 2 || (s.model (sub - 1)).state != 2
      || decide (s.fixedRows (sub - 1) + (s.model (sub - 1)).blockRows ≤ s.obj 0x2700 0x41)
  else if idx = 0x2700 ∧ sub = 0x41 then decide (s.fixedRows 64 ≤ v)
  else if idx = 0x2900 ∧ sub = 2 then
    (List.range 4).all fun k => decide (s.weightUsed k + v * 8192 ≤ 14 * 2 ^ 30)
  else true

/-! ### Effects -/

/-- Clears the flags of a W1C subindex that a write names (R444). -/
def State.clearFlags (s : State) (idx sub v : Nat) : State :=
  let old := s.obj idx sub
  s.setObj idx sub (old - Nat.land old v)

/-- Whether the device follows a master of class 0 or 1 (R485). -/
def State.followsTrusted (s : State) : Bool := !s.isMaster && decide (Tbl.getD s.tm.heard 2 s.tm.master ≤ 1)

/-- A write of TIME_NS is an offset, taken or refused (R485). -/
def State.writeTime (s : State) (v : Nat) : Nat × State :=
  let o := s.tm.ns - ((v : Nat) : Rat)
  if s.followsTrusted then (0x08000022, s)
  else if s.offsetOk o then (0, s.takeOffset o .operator)
  else (0x08000022, s.takeOffset o .operator)

/-- Values of counters in 0x4001, 0x4003, 0x4004 and 0x4005: not the settings, the flags or the state of the bus. -/
def isErrorCounter (idx sub : Nat) : Bool :=
  (idx == 0x4001 && sub != 0 && sub != 4 && sub != 8) || (idx == 0x4003 && sub != 0) || (idx == 0x4004 && sub != 0)
    || (idx == 0x4005 && decide (1 ≤ sub ∧ sub ≤ 6))

/-- COUNTER_CLEAR (R530, R560). -/
def State.clearCounters (s : State) : State :=
  { s with ctl := { s.ctl with od := s.ctl.od.filter fun x => !isErrorCounter (x.1 / 256) (x.1 % 256) }
           rb := { s.rb with engCtr := [] }
           pw := { s.pw with mon := s.pw.mon.map fun m => (m.1, { m.2 with events := 0, min := m.2.mv, max := m.2.mv }) } }

/-- CLEAR of a partition's accounting (R394). -/
def State.clearAccount (s : State) (p : Nat) : State :=
  { s with ctl := { s.ctl with od := s.ctl.od.filter fun x => !(x.1 / 256 == 0x3000 + p && decide (1 ≤ x.1 % 256 ∧ x.1 % 256 ≤ 0xF)) } }

/-- ENABLE of a Crossing port (R460, R462, R470). In Snowdrop the port trains at the exit. With DEV_ID unknown it is held. -/
def State.writePortEnable (s : State) (p : Nat) (on : Bool) : State :=
  let x := s.port p
  if x.enable = on then s
  else if on then
    let s1 := s.setPort p { x with enable := true }
    if s.domain 90 = 0 ∧ s.pw.target = 4 then s1.modPw fun w => { w with snowPorts := w.snowPorts ++ [p] }
    else if s.xr.strapBad then
      (s1.setPort p { s1.port p with state := .held, downReason := 7 }).setDomain (91 + p) 2
    else s1.portOn p
  else
    let s1 := (s.portOff p).modPw fun w => { w with snowPorts := w.snowPorts.filter (· != p) }
    s1.setPort p { s1.port p with enable := false }

/-- Changes the bank that is not running. -/
def State.modSpare (s : State) (f : Bank → Bank) : State :=
  s.modBoot fun b => if b.runningBank = 0 then { b with bankB := f b.bankB } else { b with bankA := f b.bankA }

/-- The first segment of a STAGE_IMAGE write: the bank is incomplete until the last (R531). -/
def State.stageBegin (s : State) : State := s.modSpare fun b => { b with state := 3 }

/-- The last segment: the image is held, and trusted when 0x5001 lists its digest; otherwise the write is refused. -/
def State.stageEnd (s : State) (image : List Byte) : Nat × State :=
  let d := sha256 image
  let ok := s.listed d
  let rel := Config.imageRelease image
  (if ok then 0 else 0x08000020,
   s.modSpare fun _ => { state := if ok then 1 else 2, digest := d, release := rel.getD 0, headerOk := rel.isSome })

/-- A write of a subindex that is no SELECT and has an effect of its own beside the value it sets; none where it has not. -/
def State.writeSpecial (s : State) (idx sub v : Nat) (data : List Byte) : Option (Nat × State) :=
  if 0x1800 ≤ idx ∧ idx ≤ 0x1803 ∧ sub = 1 then some (0, s.setObj idx 1 (v / 2 ^ 31 * 2 ^ 31))
  else if idx = 0x2112 then some (0, (s.modPw fun x => { x with schedSaved := none }).writeRequest v)
  else if (idx = 0x2116 ∧ sub = 3) ∨ (idx = 0x2213 ∧ sub = 4) ∨ (idx = 0x4001 ∧ sub = 8) then some (0, s.clearFlags idx sub v)
  else if idx = 0x2210 ∧ sub = 1 then some (s.writeTime v)
  else if idx = 0x2213 ∧ sub = 0xD then some (0, (s.modTm fun x => { x with state := .untrusted }).elect)
  else if idx = 0x2700 ∧ 1 ≤ sub ∧ sub ≤ 0x40 then some (0, (s.setObj idx sub v).fixBlocks (sub - 1))
  else if idx = 0x2A00 ∧ sub = 2 then
    some (0, if s.obj 0x2A00 2 = v then s else { s.setObj 0x2A00 2 v with pg := { s.pg with nodes := [] } })
  else if 0x3000 ≤ idx ∧ idx ≤ 0x300F ∧ sub = 0x10 then some (0, s.clearAccount (idx - 0x3000))
  else if idx = 0x4020 then some (0, s.clearCounters)
  else if 0x4100 ≤ idx ∧ idx ≤ 0x4106 ∧ sub = 1 then some (0, (s.persist idx 1 v).writePortEnable (idx - 0x4100) (v == 1))
  else if idx = 0x4200 ∧ sub = 0x10 then some (0, s.modBoot fun b => { b with recorded := [] })
  else if idx = 0x5000 ∧ sub = 8 then some (s.stageEnd data)
  else if idx = 0x5F01 ∧ sub = 1 ∧ v = 0 then some (0, (s.setObj idx sub 0).modCtl fun c => { c with tapReset := true })
  else none

/-- A write that passed its checks: the abort code of its own rule, 0 when done (R512, R515). -/
def State.applyWrite (s : State) (port : PortClass) (idx sub v : Nat) (data : List Byte) : Nat × State :=
  if isSelect idx sub then (0, s.setSel port idx sub v)
  else (s.writeSpecial idx sub v data).getD
    (0, if objPersists idx sub then s.persist idx sub v else s.setObj idx sub v)

/-- Keeps the value in force of a setting that the next batch to close puts out of force (R393, R400). -/
def State.holdValue (s : State) (idx sub : Nat) : State :=
  let key := idx * 256 + sub
  if (idx = 0x2500 ∨ idx = 0x4018) ∧ (Tbl.get? s.rb.live key).isNone then
    { s with rb := { s.rb with live := Tbl.put s.rb.live key (s.obj idx sub) } }
  else s

/-- Checks 6 to 9, then the write. -/
def State.writeChecked (s : State) (port : PortClass) (r : ObjRow) (idx sub : Nat) (data : List Byte) : Nat × State :=
  let v := if r.len = 0 then 0 else leNat data
  if !r.lengthOk data.length then (0x06070010, s)
  else if !(r.rng.holds r.len v && s.ownRange port idx sub v) then (0x06090030, s)
  else if !s.stateOk idx sub then (0x08000022, s)
  else if !s.ownCondition idx sub v then (0x08000020, s)
  else (s.holdValue idx sub).applyWrite port idx sub v data

/-- A write that a served port makes. -/
def State.writeServed (s : State) (port : PortClass) (idx sub : Nat) (data : List Byte) : Nat × State :=
  match s.checkAccess port true idx sub with
  | .error e => (e, s)
  | .ok r => s.writeChecked port r idx sub data

/-- A write by a port: none where it goes unanswered, else the abort code, 0 when done. -/
def State.writeObject (s : State) (port : PortClass) (idx sub : Nat) (data : List Byte) : Option (Nat × State) :=
  match s.gate port with
  | .silent => none
  | .refuse => some (0x08000022, s)
  | .hold => some (if holdServes true idx sub then s.writeServed port idx sub data else (0x08000022, s))
  | .served => some (s.writeServed port idx sub data)

/-- Checks 1 to 5 of a write, for its first segment; the first segment of STAGE_IMAGE opens the bank (R531, R543). -/
def State.beginWrite (s : State) (port : PortClass) (idx sub : Nat) : Option (Nat × State) :=
  let go : Nat × State := match s.checkAccess port true idx sub with
    | .error e => (e, s)
    | .ok _ => (0, if idx = 0x5000 ∧ sub = 8 then s.stageBegin else s)
  match s.gate port with
  | .silent => none
  | .refuse => some (0x08000022, s)
  | .hold => some (if holdServes true idx sub then go else (0x08000022, s))
  | .served => some go

/-- Keeps what a port was answered. -/
def State.answer (s : State) (key code : Nat) (data : List Byte) : State :=
  s.modCtl fun c => { c with answers := Tbl.put c.answers key (code, data) }

/-! ### Rows of the command table -/

/-- A write by a port, with its answer kept. -/
def State.portWrite (s : State) (port : PortClass) (idx sub : Nat) (data : List Byte) : State :=
  match s.writeObject port idx sub data with
  | none => s
  | some (code, t) => t.answer (portKey port) code []

/-- OBJECT_WRITE. -/
def execObjectWrite (port : PortClass) (index : BitVec 16) (sub : Byte) (data : List Byte) (s : State) : Out :=
  .next (s.portWrite port index.toNat sub.toNat data)

/-- TIME_NS_WRITE (R485). -/
def execTimeNsWrite (port : PortClass) (data : List Byte) (s : State) : Out := .next (s.portWrite port 0x2210 1 data)

/-- TRUST_RELEASE (R485). -/
def execTrustRelease (port : PortClass) (data : List Byte) (s : State) : Out := .next (s.portWrite port 0x2213 0xD data)

/-- COUNTER_CLEAR (R530). -/
def execCounterClear (port : PortClass) (data : List Byte) (s : State) : Out := .next (s.portWrite port 0x4020 0 data)

/-- CLEAR (R394). -/
def execClear (port : PortClass) (p : Part) (data : List Byte) (s : State) : Out :=
  .next (s.portWrite port (0x3000 + p.val) 0x10 data)

/-- RESET_POINTS (R604). -/
def execResetPoints (port : PortClass) (data : List Byte) (s : State) : Out := .next (s.portWrite port 0x4200 0x10 data)

/-- JTAG_ENABLE_WRITE (R510). -/
def execJtagEnableWrite (port : PortClass) (data : List Byte) (s : State) : Out := .next (s.portWrite port 0x5F01 1 data)

/-- PORT_ENABLE_WRITE (R470). -/
def execPortEnableWrite (port : PortClass) (x : PortNo) (data : List Byte) (s : State) : Out :=
  .next (s.portWrite port (0x4100 + x.val) 1 data)

/-- STATE_REQUEST (R564). -/
def execStateRequest (port : PortClass) (data : List Byte) (s : State) : Out := .next (s.portWrite port 0x2112 0 data)

/-- POWER_LIMIT (R571). -/
def execPowerLimit (port : PortClass) (data : List Byte) (s : State) : Out := .next (s.portWrite port 0x2111 0 data)

/-- STAGE_IMAGE: a segment of a port's write of 0x5000:08; the segments before it are kept for the port (R531). -/
def execStageImage (port : PortClass) (first last : Bool) (data : List Byte) (s : State) : Out :=
  let k := portKey port
  let old := Tbl.get? s.ctl.stage k
  let drop := fun (t : State) => t.modCtl fun c => { c with stage := Tbl.erase c.stage k }
  if first then
    match s.beginWrite port 0x5000 8 with
    | none => .next s
    | some (code, t) =>
      if code ≠ 0 then .next ((drop t).answer k code [])
      else if last then .next ((drop t).portWrite port 0x5000 8 data)
      else .next (t.modCtl fun c => { c with stage := Tbl.put c.stage k data })
  else
    match old with
    | none => .next s
    | some bs =>
      if s.gate port = .silent then .next s
      else if last then .next ((drop s).portWrite port 0x5000 8 (bs ++ data))
      else .next (s.modCtl fun c => { c with stage := Tbl.put c.stage k (bs ++ data) })

end Sys2Proof.Machine
end

