-- ==== Sys2Proof/Machine/Field.lean ====
section
/-! DEFINITION. The field port: heartbeats, USDO sessions, PDOs, emergency messages and bus errors (R489, R490, R492, R497 to
R501, R518, R519). -/

namespace Sys2Proof.Machine

/-! ### Heartbeats (R492, R497) -/

/-- The node-ID that the heartbeat consumer watches; 0 while it is off. -/
def State.watched (s : State) : Nat := bits (s.obj 0x1016 1) 16 8

/-- The heartbeat's state code; boot hold sends that of pre-operational (R493, R583). -/
def State.nmtCode (s : State) : Nat :=
  match s.ctl.nmt with
  | .init => 0x7F
  | .preop => 0x7F
  | .operational => 5
  | .stopped => 4

/-- HEARTBEAT_PRODUCE. -/
def execHeartbeatProduce (s : State) : Out :=
  if s.fieldServed ∧ s.obj 0x1017 0 ≠ 0 then .next (s.sendHeartbeat s.nmtCode) else .next s

/-- HEARTBEAT: the watched producer's heartbeat restarts the consumer timer, and ends a loss; another producer's is a frame to
ignore (R489). -/
def execHeartbeat (node _st : Byte) (s : State) : Out :=
  if !s.fieldServed then .next s
  else if s.watched = 0 ∨ node.toNat ≠ s.watched then .next (s.incObj 0x4005 1)
  else .next ((s.modCtl fun c => { c with hbLost := false }).emcyEnd 0x8130 fun _ => true)

/-- HEARTBEAT_TIMEOUT: no heartbeat within the consumer time. -/
def execHeartbeatTimeout (s : State) : Out :=
  if s.fieldServed ∧ s.watched ≠ 0 ∧ !s.ctl.hbLost then
    .next (((s.modCtl fun c => { c with hbLost := true }).incObj 0x4005 4).emcyRaise 0x8130 [s.watched])
  else .next s

/-! ### USDO (R500) -/

/-- The key of a client's answers. -/
def usdoKey (client : Nat) : Nat := 256 + client

/-- The session of a client. -/
def State.session? (s : State) (client : Nat) : Option UsdoSession := s.ctl.usdo.find? fun x => x.client == client

/-- Ends the session of a client. -/
def State.endSession (s : State) (client : Nat) : State :=
  s.modCtl fun c => { c with usdo := c.usdo.filter fun x => x.client != client }

/-- Whether a session of a client can open: at most 4 at once. -/
def State.sessionRoom (s : State) (client : Nat) : Bool := decide ((s.endSession client).ctl.usdo.length < 4)

/-- Keeps what a client is answered. -/
def State.usdoAnswer (_s : State) (client : Nat) (r : (Nat × List Byte) × State) : State :=
  r.2.answer (usdoKey client) r.1.1 r.1.2

/-- Opens a session: at most four at once (R500). -/
def State.openSession (s : State) (x : UsdoSession) : State :=
  s.modCtl fun c => if c.usdo.length < 4 then { c with usdo := c.usdo ++ [x] } else c

/-- A new session of a client, when there is room for it: reads and expedited writes end at once. -/
def State.usdoOpen (s : State) (client : Nat) (req : UsdoReq) : State :=
  let s0 := s.endSession client
  let done := fun (x : Option (Nat × State)) => match x with
    | some (code, t) => t.answer (usdoKey client) code []
    | none => s0
  match req with
  | .read i n => ((s0.readObject .field i.toNat n.toNat).map (s0.usdoAnswer client)).getD s0
  | .write i n data => done (s0.writeObject .field i.toNat n.toNat data)
  | .begin i n data =>
    match s0.beginWrite .field i.toNat n.toNat with
    | some (code, t) =>
      if code = 0 then t.openSession ⟨client, i.toNat, n.toNat, true, data⟩ else t.answer (usdoKey client) code []
    | none => s0
  | _ => s0

/-- USDO_REQUEST: a request or a segment of a client. A segment without a transfer is no valid command. -/
def execUsdoRequest (client : Byte) (req : UsdoReq) (s : State) : Out :=
  let c := client.toNat
  if s.gate .field = .silent then .next s
  else
    match req with
    | .abort => .next (s.endSession c)
    | .invalid => .next ((s.endSession c).answer (usdoKey c) 0x05040001 [])
    | .segment data last =>
      match s.session? c with
      | none => .next (s.answer (usdoKey c) 0x05040001 [])
      | some x =>
        let bs := x.data ++ data
        if last then
          match (s.endSession c).writeObject .field x.index x.sub bs with
          | some (code, t) => .next (t.answer (usdoKey c) code [])
          | none => .next s
        else .next (s.modCtl fun k => { k with usdo := k.usdo.map fun y => if y.client = c then { y with data := bs } else y })
    | _ =>
      if s.sessionRoom c then .next (s.usdoOpen c req) else .next (s.answer (usdoKey c) 0x05040005 [])

/-- USDO_TIMEOUT: no segment for 1 s. -/
def execUsdoTimeout (client : Byte) (s : State) : Out :=
  let c := client.toNat
  match s.session? c with
  | some _ => if s.gate .field = .silent then .next s else .next ((s.endSession c).answer (usdoKey c) 0x05040000 [])
  | none => .next s

/-! ### PDOs (R499, R518, R519) -/

/-- RPDO_1: two FIELD writes, both or none. -/
def execRpdo1 (data : List Byte) (s : State) : Out :=
  if s.ctl.nmt ≠ .operational ∨ !s.fieldServed then .next s
  else if data.length ≠ 3 then .next (s.emcyEvent 0x8210 [data.length % 256])
  else
    let req := slice data 2 1
    let a := s.writeServed .field 0x2111 0 (slice data 0 2)
    let b := if leNat req = 0 then (0, a.2) else a.2.writeServed .field 0x2112 0 req
    if a.1 = 0 ∧ b.1 = 0 then .next b.2 else .next (s.incObj 0x4005 5)

/-- Mapped entries of TPDO n, from 0: index, subindex, bytes. -/
def tpdoMap (n : Nat) : List (Nat × Nat × Nat) :=
  (List.range (objDefault (0x1A00 + n) 0)).map fun i =>
    let e := objDefault (0x1A00 + n) (i + 1)
    (bits e 16 16, bits e 8 8, bits e 0 8 / 8)

/-- The CAN FD data lengths. -/
def fdLength (n : Nat) : Nat := ([8, 12, 16, 20, 24, 32, 48].find? fun l => Nat.ble n l).getD 64

/-- The data of TPDO n as it stands now. -/
def State.tpdoData (s : State) (n : Nat) : List Nat :=
  let d := (tpdoMap n).flatMap fun e => (leBytes e.2.2 (s.objVal .field e.1 e.2.1)).map (·.toNat)
  if d.length ≤ 8 then d ++ List.replicate (8 - d.length) 0 else d ++ List.replicate (fdLength d.length - d.length) 0

/-- Whether TPDO n may go now: valid, past its inhibit time, and due by its event timer or, with type 254, by a change. -/
def State.tpdoDue (s : State) (n : Nat) : Bool :=
  let i := 0x1800 + n
  let changed := s.obj i 2 == 254 && ((Tbl.get? s.ctl.tpdo n).map fun x => x.data != s.tpdoData n).getD true
  let late := ((Tbl.get? s.ctl.tpdo n).map fun x => decide (x.at_ + s.obj i 3 * 100000 ≤ s.now)).getD true
  !bitAt (s.obj i 1) 31 && late && (s.obj i 5 != 0 || changed)

/-- TPDO_SEND. -/
def execTpdoSend (n : TpdoNo) (s : State) : Out :=
  if s.ctl.nmt = .operational ∧ s.fieldServed ∧ !s.busOff ∧ s.tpdoDue n.val then
    let d := s.tpdoData n.val
    .next ((s.canSend (s.tpdoCob n.val) d).modCtl fun c => { c with tpdo := Tbl.put c.tpdo n.val ⟨d, s.now⟩ })
  else .next s

/-! ### Emergency messages (R501, R549) -/

/-- The data of a message. -/
def Emcy.data (m : Emcy) : List Nat :=
  [m.code % 256, m.code / 256, m.reg] ++ (List.range 5).map fun i => nthD m.mfr i % 256

/-- EMCY_SEND: in pre-operational and operational, and by the always-on controller while CC0 does not run; at most one per
millisecond of local time. -/
def execEmcySend (s : State) : Out :=
  let rested := (s.ctl.emcyAt.map fun x => decide (x + 200000 ≤ s.tm.cycles)).getD true
  match s.ctl.emcy with
  | [] => .next s
  | m :: ms =>
    if !s.pw.auxPg ∨ s.ctl.nmt = .stopped ∨ s.busOff = true ∨ !rested then .next s
    else .next ((s.canSend (0x80 + s.ctl.nodeId) m.data).modCtl fun c => { c with emcy := ms, emcyAt := some s.tm.cycles })

/-! ### Bus errors (R489, R490, R529) -/

/-- CAN_ERROR_PASSIVE: error passive begins, or error active returns. -/
def execCanErrorPassive (enter : Bool) (tec rec : Byte) (s : State) : Out :=
  if s.busOff then .next s
  else
    let s1 := (s.setObj 0x4005 7 tec.toNat).setObj 0x4005 8 rec.toNat
    if enter then
      if s.obj 0x4005 9 = 1 then .next s1 else .next ((s1.setObj 0x4005 9 1).emcyRaise 0x8120 [tec.toNat, rec.toNat])
    else .next ((s1.setObj 0x4005 9 0).emcyEnd 0x8120 fun _ => true)

/-- BUS_OFF: the port stops sending. -/
def execBusOff (s : State) : Out := .next (s.setObj 0x4005 9 2)

/-- BUS_OFF_RECOVERED: the port rejoins, error active, and says so. -/
def execBusOffRecovered (s : State) : Out :=
  if !s.busOff then .next s
  else
    let s1 := ((s.setObj 0x4005 9 0).setObj 0x4005 7 0).setObj 0x4005 8 0
    .next (((s1.emcyEnd 0x8120 fun _ => true).incObj 0x4005 2).emcyEvent 0x8140 [])

/-- CAN_OVERRUN: a frame found no room among 32. -/
def execCanOverrun (s : State) : Out := .next ((s.incObj 0x4005 3).emcyEvent 0x8110 [])

/-- Whether a COB-ID is one that the device takes frames on (R489, R492). -/
def State.cobTaken (s : State) (cob : Nat) : Bool :=
  cob == 0 || (s.watched != 0 && cob == 0x700 + s.watched) || cob == 0x200 + s.ctl.nodeId || cob == 0x600 + s.ctl.nodeId

/-- CAN_FRAME_IGNORED. -/
def execCanFrameIgnored (cob : BitVec 29) (s : State) : Out :=
  if s.fieldServed ∧ s.cobTaken cob.toNat = false then .next (s.incObj 0x4005 1) else .next s

end Sys2Proof.Machine
end

