-- ==== Sys2Proof/Machine/Access.lean ====
section
/-! DEFINITION. The other ports of the dictionary: mailboxes, peers, JTAG (R505 to R507, R541 to R543, R610). -/

namespace Sys2Proof.Machine

/-! ### Mailboxes (R543) -/

/-- The port class of a function's mailbox (R542). -/
def mailPort (p : Part) : PortClass := if p.val = 0 then .pf else .vf p

/-- Changes a mailbox. -/
def State.modMbx (s : State) (p : Nat) (f : Mailbox → Mailbox) : State := s.setFn p { s.fn p with mbx := f (s.fn p).mbx }

/-- One segment of a write: the abort code so far. Checks 1 to 5 run at the first segment, all of them at the last. -/
def State.mailSegment (s : State) (p : Part) : Nat × State :=
  let m := (s.fn p.val).mbx
  let stop := fun (t : State) => t.modMbx p.val fun x => { x with xfer := none, xferAbort := 0 }
  let finish := fun (t : State) (bs : List Byte) =>
    if m.last then (stop t).writeServed (mailPort p) m.index m.sub bs
    else (0, t.modMbx p.val fun x => { x with xfer := some (m.index, m.sub, bs), xferAbort := 0 })
  if 2048 < m.len then (0x05040001, stop s)
  else
    let bs := slice m.data 0 m.len
    if m.first then
      if m.offset ≠ 0 then (0x05040001, stop s)
      else
        let r := ((stop s).beginWrite (mailPort p) m.index m.sub).getD (0, stop s)
        if r.1 ≠ 0 then r else finish r.2 bs
    else
      match m.xfer with
      | none => (if m.xferAbort = 0 then 0x05040001 else m.xferAbort, stop s)
      | some (i, n, old) =>
        if i = m.index ∧ n = m.sub ∧ m.offset = old.length then finish s (old ++ bs) else (0x05040001, stop s)

/-- Serves the request of a mailbox that is BUSY: the response registers, DONE, and the message of MBX_VECTOR. -/
def State.serveMail (s : State) (p : Part) : State :=
  let m := (s.fn p.val).mbx
  if !m.busy ∨ s.gate (mailPort p) ≠ .served then s
  else
    let done := fun (t : State) (code n total : Nat) (bs : List Byte) =>
      (t.modMbx p.val fun x =>
        { x with busy := false, done := true, abort := code, respLen := n, total := total
                 respLast := decide (code = 0 ∧ m.write = false ∧ total ≤ m.offset + n)
                 data := if bs = [] then x.data else spliceBytes x.data 0 bs }).sendMsix p.val (t.fn p.val).mbxVector
    if m.write then
      let r := s.mailSegment p
      done r.2 r.1 0 0 []
    else
      match s.readObject (mailPort p) m.index m.sub with
      | none => s
      | some ((code, bs), t) =>
        let seg := slice bs m.offset (Nat.min 2048 (bs.length - m.offset))
        done t code seg.length (if code = 0 then bs.length else 0) seg

/-- GO: the registers as the host has written them, and GO; while BUSY the write only sets GO_IGNORED. -/
def execGo (p : Part) (req : MbxReq) (s : State) : Out :=
  if !s.hostOk p.val then .next s
  else
    let s1 := s.modMbx p.val fun m => if req.ack then { m with done := false, goIgnored := false } else m
    if (s.fn p.val).mbx.busy then .next (s1.modMbx p.val fun m => { m with goIgnored := true })
    else
      let s2 := s1.modMbx p.val fun m =>
        { m with index := req.index.toNat, sub := req.sub.toNat, write := req.write, first := req.first, last := req.last
                 offset := req.offset.toNat, len := req.len.toNat, busy := true, done := false
                 data := if req.data = [] then m.data else spliceBytes m.data 0 (req.data.take 2048) }
      .next (s2.serveMail p)

/-- MAILBOX_TRANSFER_TIMEOUT: 1 s without a segment. -/
def execMailboxTransferTimeout (p : Part) (s : State) : Out :=
  if (s.fn p.val).mbx.xfer.isSome then
    .next (s.modMbx p.val fun m => { m with xfer := none, xferAbort := 0x05040000 })
  else .next s

/-- CONTROL_CORE_RESTARTED: the core serves again; with CC0 the requests that waited in mailboxes are served in order (R416, R438,
R505). -/
def execControlCoreRestarted (core : Core) (s : State) : Out :=
  let t := s.coreServes core.val
  .next (if core.val = 0 then (List.finRange 16).foldl (fun u p => u.serveMail p) t else t)

/-! ### Peers (R506) -/

/-- A frame of a peer's object access. -/
def accessFrame (payload : List Byte) : Frame := { vc := 2, type := 0xE, payload := payload }

/-- PEER_OBJECT_REQUEST: served and answered at once, in order of arrival. -/
def execPeerObjectRequest (port : PortNo) (s : State) : Out :=
  if s.ctl.coresDown.contains 0 then .next s
  else .next (s.onFrame port.val (ofSub 0xE 0x10) fun f t =>
    let dev : DevNo := Fin.ofNat 8 (t.port port.val).peerDev
    let b := f.payload
    let op := leAt b 1 1
    let i := leAt b 2 2
    let n := leAt b 4 1
    let r : (Nat × List Byte) × State :=
      if op = 0 then (t.readObject (.peer dev) i n).getD ((0, []), t)
      else if op = 1 then
        let w := (t.writeObject (.peer dev) i n (slice b 8 (leAt b 5 1))).getD (0, t)
        ((w.1, []), w.2)
      else ((0x05040001, []), t)
    let len := if op = 0 then r.1.2.length else leAt b 5 1
    r.2.send port.val (accessFrame (leBytes 1 0x11 ++ leBytes 1 0 ++ leBytes 2 i ++ leBytes 1 n ++ leBytes 1 len ++ slice b 6 2
      ++ leBytes 4 r.1.1 ++ r.1.2)))

/-- PEER_OBJECT_RESPONSE: ends this device's own request that it names. -/
def execPeerObjectResponse (port : PortNo) (s : State) : Out :=
  .next (s.onFrame port.val (ofSub 0xE 0x11) fun f t =>
    let x := t.port port.val
    let txn := leAt f.payload 6 2
    if x.open_.contains txn then
      (t.setPort port.val { x with open_ := x.open_.filter (· != txn) }).answer (512 + port.val) (leAt f.payload 8 4)
        (slice f.payload 0xC (leAt f.payload 5 1))
    else t)

/-- PEER_REQUEST_TIMEOUT: no response for 10 ms. -/
def execPeerRequestTimeout (port : PortNo) (txn : Nat) (s : State) : Out :=
  let x := s.port port.val
  if x.open_.contains txn then .next (s.setPort port.val { x with open_ := x.open_.filter (· != txn) }) else .next s

/-! ### JTAG (R507, R510, R610) -/

/-- DEBUG_ACCESS: while JTAG is usable, an access under class D. -/
def execDebugAccess (index : BitVec 16) (sub : Byte) (wr : Bool) (data : List Byte) (s : State) : Out :=
  if s.gate .debug = .silent then .next s
  else
    let s1 := s.modCtl fun c => { c with tapReset := false }
    if wr then .next (s1.portWrite .debug index.toNat sub.toNat data)
    else
      match s1.readObject .debug index.toNat sub.toNat with
      | some ((code, bs), t) => .next (t.answer (portKey .debug) code bs)
      | none => .next s1

/-- PROBE_CHANGE: JTAG moves to J3 or back to J2, and the TAP controller is reset. -/
def execProbeChange (low : Bool) (s : State) : Out :=
  if s.ctl.probeJ3 = low then .next s
  else .next (s.modCtl fun c => { c with probeJ3 := low, tapReset := true })

end Sys2Proof.Machine
end

