-- ==== Sys2Proof/Machine/Migrate.lean ====
section
/-! DEFINITION. Migration between devices (R69, R70, R468). -/

namespace Sys2Proof.Machine

/-- The migration of a stream. -/
def State.mig? (s : State) (sid : Nat) : Option Migration := s.xr.migs.find? fun m => m.sid == sid

/-- The migration that a frame belongs to: its port, its transaction number and the side. -/
def State.migOf (s : State) (p txn : Nat) (source : Bool) : Option Migration :=
  s.xr.migs.find? fun m => m.port == p && m.txn == txn && m.source == source

/-- Sets a migration. -/
def State.putMig (s : State) (m : Migration) : State :=
  { s with xr := { s.xr with migs := s.xr.migs.map fun x => if x.sid = m.sid then m else x } }

/-- Fails a migration at its source: the stream goes on, MIGRATE_FAILED is published and ABORT sent (R70). -/
def State.failMig (s : State) (m : Migration) : State :=
  let tag := (((s.stream? m.sid).bind fun st => st.exports.head?).map (·.hostTag)).getD 0
  let s1 := (s.dropMig m.sid).modStream m.sid fun x => { x with state := .active, exports := [] }
  (s1.streamEvent m.sid 0x0A 0 0x22 tag 0).send m.port (migFrame 3 m.txn 0x08 [])

/-- Bytes of the largest blob that a stream can have: what a target can always stage in HBM. -/
def blobMost : Nat := 132 + 512 * (256 + 128) + 32768 * 1024

/-- OFFER: the OPENING entry that names the peer's stream takes the blob, or refuses what cannot be staged; without such an
entry the answer is NOT_READY. -/
def execOffer (port : PortNo) (s : State) : Out :=
  .next (s.onFrame port.val (ofSub 0xD 0x01) fun f t =>
    let p := port.val
    let src := leAt f.payload 1 2
    let len := leAt f.payload 11 4
    let dev := (t.port p).peerDev
    match t.str.tab.find? fun e => e.2.state == .opening && e.2.fromPeer && e.2.peerDev == dev && e.2.peerStream == src
        && (t.mig? e.1).isNone with
    | none => t.send p (migFrame 1 f.txn 0x03 [])
    | some e =>
      if blobMost < len then
        (t.send p (migFrame 1 f.txn 0x06 (leBytes 1 0x07))).refuseOpen e.2.cfg.part 0x23 e.2.hostTag 0x07 (some e.1)
      else
        let m : Migration := { sid := e.1, source := false, port := p, txn := f.txn, peerStream := src, stage := 2, blobLen := len }
        ({ t with xr := { t.xr with migs := t.xr.migs ++ [m] } }).send p (migFrame 1 f.txn 0x02 []))

/-- The DATA frames of a blob: up to 120 bytes each, in order. -/
def dataFrames (txn : Nat) (blob : List Byte) : List Frame :=
  (List.range ((blob.length + 119) / 120)).map fun i =>
    migFrame 0 txn 0x04 (leBytes 4 (120 * i) ++ (blob.drop (120 * i)).take 120)

/-- ACCEPT: the blob is sent. -/
def execAccept (port : PortNo) (s : State) : Out :=
  .next (s.onFrame port.val (ofSub 0xD 0x02) fun f t =>
    match t.migOf port.val f.txn true with
    | some m => if m.stage ≤ 1 then (t.putMig { m with stage := 3 }).sendAll port.val (dataFrames f.txn m.blob) else t
    | none => t)

/-- NOT_READY: the source offers again 1 ms later. -/
def execNotReady (port : PortNo) (s : State) : Out :=
  .next (s.onFrame port.val (ofSub 0xD 0x03) fun f t =>
    match t.migOf port.val f.txn true with
    | some m => if m.stage = 0 then t.putMig { m with stage := 1 } else t
    | none => t)

/-- REOFFER_TIMER: OFFER again, or the end of the migration 100 ms after the first OFFER. -/
def execReofferTimer (sid : Sid) (s : State) : Out :=
  match s.mig? sid.val with
  | none => .next s
  | some m =>
    if !m.source || 2 ≤ m.stage then .next s
    else if m.firstOffer + 100000000 ≤ s.now then .next (s.failMig m)
    else if m.stage = 1 then .next ((s.putMig { m with stage := 0 }).sendOffer m)
    else .next s

/-- The whole blob is staged: it is checked and the stream admitted as HELD with an ACK, or refused (R68, R69, R468). -/
def State.admitMig (s : State) (m : Migration) : State :=
  match s.stream? m.sid with
  | none => s.dropMig m.sid
  | some st =>
    match s.importFault st.cfg m.blob with
    | some r =>
      (((s.dropMig m.sid).send m.port (migFrame 1 m.txn 0x06 (leBytes 1 r))).refuseOpen st.cfg.part 0x23 st.hostTag r
        (some m.sid))
    | none =>
      let s1 := (s.beginStream m.sid (st.cfg.ofBlob m.blob) .held).importBlob m.sid m.blob
      (s1.putMig { m with stage := 3, blob := [] }).send m.port (migFrame 1 m.txn 0x05 (leBytes 2 m.sid))

/-- DATA: blob bytes are staged in order; the last ones start the checks. -/
def execMigData (port : PortNo) (s : State) : Out :=
  .next (s.onFrame port.val (ofSub 0xD 0x04) fun f t =>
    match t.migOf port.val f.txn false with
    | some m =>
      if m.stage ≠ 2 ∨ leAt f.payload 1 4 ≠ m.blob.length then t
      else
        let m1 := { m with blob := m.blob ++ f.payload.drop 5 }
        if m1.blob.length < m1.blobLen then t.putMig m1 else (t.putMig m1).admitMig m1
    | none => t)

/-- ACK: the source closes its copy, publishes EXPORT_DONE and CLOSED, and sends RELEASE (R69). -/
def execMigAck (port : PortNo) (s : State) : Out :=
  .next (s.onFrame port.val (ofSub 0xD 0x05) fun f t =>
    match t.migOf port.val f.txn true with
    | none => t
    | some m =>
      if m.stage ≠ 3 then t
      else
        match t.stream? m.sid with
        | none => t.dropMig m.sid
        | some st =>
          match st.exports with
          | [] => t.dropMig m.sid
          | e :: _ =>
            let done := exportDoneRec m.sid st.lastChunk e.hostTag m.blobLen st.nextSeq st.samplePos
            ((t.dropMig m.sid).detach m.sid e done).send m.port (migFrame 3 m.txn 0x07 []))

/-- REFUSE: the migration fails at once (R468). -/
def execRefuse (port : PortNo) (s : State) : Out :=
  .next (s.onFrame port.val (ofSub 0xD 0x06) fun f t =>
    match t.migOf port.val f.txn true with
    | some m => t.failMig m
    | none => t)

/-- RELEASE: the held copy becomes ACTIVE (R69). -/
def execRelease (port : PortNo) (s : State) : Out :=
  .next (s.onFrame port.val (ofSub 0xD 0x07) fun f t =>
    match t.migOf port.val f.txn false with
    | none => t
    | some m =>
      match t.stream? m.sid with
      | none => t.dropMig m.sid
      | some st =>
        if st.state = .held then
          ((t.dropMig m.sid).modStream m.sid fun x => { x with state := .active }).openedEvent m.sid 0x23 st.hostTag
        else t.dropMig m.sid)

/-- ABORT: the held copy is discarded; what was staged before an ACK is forgotten (R70). DESIGN CHOICE: the discarded copy publishes
CLOSED with the opcode 0x23 and the tag of its MIGRATE_IN; R24 and R61 list no cause for it. -/
def execMigAbort (port : PortNo) (s : State) : Out :=
  .next (s.onFrame port.val (ofSub 0xD 0x08) fun f t =>
    match t.migOf port.val f.txn false with
    | none => t
    | some m =>
      match t.stream? m.sid with
      | none => t.dropMig m.sid
      | some st =>
        if st.state = .held then (t.dropMig m.sid).abortStream m.sid 0x23 st.hostTag else t.dropMig m.sid)

/-- MIGRATE_ACK_TIMEOUT: no ACK 10 ms after the blob (R70). -/
def execMigrateAckTimeout (sid : Sid) (s : State) : Out :=
  match s.mig? sid.val with
  | some m => if m.source && m.stage == 3 then .next (s.failMig m) else .next s
  | none => .next s

/-- MIGRATE_HELD_TIMEOUT: neither release nor abort 20 ms after the ACK (R70). -/
def execMigrateHeldTimeout (sid : Sid) (s : State) : Out :=
  match s.mig? sid.val, s.stream? sid.val with
  | some m, some st =>
    if !m.source && m.stage == 3 && st.state == .held then
      .next ((s.putMig { m with stage := 4 }).streamEvent sid.val 0x0B 0 0x23 st.hostTag 0)
    else .next s
  | _, _ => .next s

/-- MIGRATE_IN_TIMEOUT: no OFFER came within 1 s (R468). DESIGN CHOICE: an entry whose OFFER was accepted stays OPENING with what was
staged, also when the port goes down before the whole blob has come; R468 bounds the wait for an OFFER alone. -/
def execMigrateInTimeout (sid : Sid) (s : State) : Out :=
  match s.stream? sid.val with
  | some st =>
    if st.state = .opening ∧ st.fromPeer = true ∧ (s.mig? sid.val).isNone then
      .next (s.refuseOpen st.cfg.part 0x23 st.hostTag 0x0F (some sid.val))
    else .next s
  | none => .next s

end Sys2Proof.Machine
end

