-- ==== Sys2Proof/Machine/Parts.lean ====
section
/-! DEFINITION. AT_SCORE and AT_VALUE: over this device's own sequences, or as a part that this device runs for a peer (R298,
R301, R467). -/

namespace Sys2Proof.Machine

/-- Reads an owner's table copy from its bytes (R276). -/
def PageTable.ofBytes (b : List Byte) : PageTable :=
  let h := leAt b 0x14 4
  { committedLen := leAt b 0 4, workLen := leAt b 4 4, rebuiltLen := leAt b 8 4, prefixEnd := leAt b 0xC 4
    workChunk := leAt b 0x12 2, headroom := if bitAt h 20 then some (bits h 0 20) else none
    model := leAt b 0x18 1, part := leAt b 0x19 1, gen := leAt b 0x1A 2
    entries := (List.range (leAt b 0x10 2)).map fun i =>
      let e := leAt b (64 + 4 * i) 4
      { page := bits e 0 20, valid := bitAt e 20, shared := bitAt e 21 } }

/-- The chunk word that a part names for a sequence (R340, R467). -/
def State.partChunk (s : State) (d : Desc) (q : Nat) : Nat :=
  match (s.members d).find? fun m => m.1 == q / 8 with
  | some m => m.2 % 65536
  | none => d.chunk

/-- Asks the owner for its table of a sequence. -/
def State.askTable (s : State) (p : Nat) (c : Cmd) (q : Nat) : State :=
  let t := s.takeTxn p
  let f : Frame := { vc := 0, type := 0x8, part := s.tablePart c.desc, txn := t.1
                     payload := leBytes 2 q ++ leBytes 2 (s.partChunk c.desc q) }
  (t.2.send p f).addOp { port := p, txn := t.1, cmd := c.seq, req := f }

/-- Asks the owner for a layer's section of a page; its bytes are charged to the Crossing regulator (R370, R466). -/
def State.askPage (s : State) (p : Nat) (c : Cmd) (k : CacheDesc) (q page : Nat) : State :=
  let t := s.takeTxn p
  let n := k.tokensPerPage * k.latBytes / 512
  let f : Frame := { vc := 0, type := 0x5, part := s.tablePart c.desc, txn := t.1
                     payload := pageBlock (c.desc.param 0 4 * n) n page q }
  ((t.2.send p f).addOp { port := p, txn := t.1, cmd := c.seq, req := f, left := 4 * n }).charge c.desc 3 (512 * n)

/-- The tables that a part has obtained. -/
def State.partTables (s : State) (c : Cmd) : List (Nat × PageTable) :=
  (s.xr.peerTables.filter fun t => t.cmd == c.seq && t.complete).map fun t => (t.seq, PageTable.ofBytes t.bytes)

/-- The command as it walks the owner's tables: each as its copy A. -/
def State.partCmd (s : State) (c : Cmd) : Cmd := { c with walks := (s.partTables c).map fun t => (t.1, false) }

/-- The device as a part sees it: the sequences are the owner's. -/
def State.partView (s : State) (c : Cmd) : State :=
  { s with pg := { s.pg with seqs := (s.partTables c).foldl (fun m t => Tbl.put m t.1 { valid := true, copyA := t.2 }) [] } }

/-- The pages that a part reads, each with its sequence. -/
def State.partPages (s : State) (c : Cmd) (tp : Nat) : List (Nat × Nat) :=
  let v := s.partView c
  let x := s.partCmd c
  ((v.walkAll x tp).1.map fun m => (m.1, (((v.walkTable x m.1).getD {}).entries.getD (m.2 / tp) {}).page)).eraseDups

/-- The device as a part computes over it: the owner's pages, as read, lie in frames of their own. -/
def State.partStore (s : State) (c : Cmd) : State :=
  let got := s.xr.peerPages.filter fun x => x.cmd == c.seq
  let place := fun (e : PageEntry) => { e with page := spillPage ((got.findIdx? fun x => x.page == e.page).getD 0) }
  let tables := (s.partTables c).foldl (fun m t => Tbl.put m t.1
    ({ valid := true, copyA := { t.2 with entries := t.2.entries.map place } } : Sequence)) []
  { s with pg := { s.pg with seqs := tables, spillBad := []
                             spill := (List.range got.length).foldl (fun m i =>
                               Mem.writeBytes m (i * 32768) (((got[i]?).map (·.bytes)).getD [])) [] } }

/-- Computes a part over what it has read; the device's own tables and pages stay as they are. -/
def State.computePart (s : State) (path : Datapath) (c : Cmd) : State :=
  let t := (s.partStore c).runOn path (s.partCmd c)
  { t with pg := s.pg, rb := { t.rb with cmds := t.rb.cmds.map fun x =>
      if x.seq = c.seq ∧ x.shadow = c.shadow then { x with walks := c.walks } else x } }

/-- The next stage of a part that this device runs for the owner at a port: tables are asked for, then pages, then it is computed.
A port that is not UP is a lost peer (R437). -/
def State.runPart (s : State) (p : Nat) (path : Datapath) (c : Cmd) : State :=
  if (s.port p).state ≠ .up then s.failPeer c
  else
    let k := (s.atModel c.desc).cache
    let seqs := (dedup (c.atMembers.map (·.1))).filter fun q => !(s.partTables c).any fun t => t.1 == q
    let pages := (s.partPages c k.tokensPerPage).filter fun x => !s.xr.peerPages.any fun y => y.cmd == c.seq && y.page == x.2
    if seqs ≠ [] then (seqs.foldl (fun t q => t.askTable p c q) s).awaitPeer c seqs.length false
    else if pages ≠ [] then (pages.foldl (fun t x => t.askPage p c k x.1 x.2) s).awaitPeer c pages.length false
    else s.computePart path c

/-- Runs a walk: over this device's own pages, or for the owner at a port. How a command of a part names the owner is open (R298,
R301): the row's operand says it (DESIGN CHOICE, log 56). -/
def State.runWalk (s : State) (e : Nat) (hw : Hw) (owner : Option PortNo) (path : Datapath) : State :=
  s.atCommand e path.op hw fun t c =>
    match owner with
    | none => t.walkOwn path c
    | some p => t.runPart p.val path c

/-- AT_SCORE (R301). -/
def execAtScore (eng : Eng) (hw : Hw) (owner : Option PortNo) (s : State) : Out :=
  .next (s.runWalk eng.toNat hw owner (atScorePath hw))

/-- AT_VALUE (R301). -/
def execAtValue (eng : Eng) (hw : Hw) (owner : Option PortNo) (s : State) : Out :=
  .next (s.runWalk eng.toNat hw owner (atValuePath hw))

end Sys2Proof.Machine
end

