-- ==== Sys2Proof/Machine/Dispatch.lean ====
section
/-! DEFINITION. One arm per command: each calls the one meaning of its command. -/

namespace Sys2Proof.Machine

/-- The effect of a command on everything but the queue. -/
def exec (i : Instr) (s : State) : Host.Outcome State Fault Refusal :=
  match i with
  | .nop p ring e => Sys2Proof.Machine.execNop p ring e s
  | .audio p ring e buf => Sys2Proof.Machine.execAudio p ring e buf s
  | .tokens p ring e buf => Sys2Proof.Machine.execTokens p ring e buf s
  | .openStream p ring e => Sys2Proof.Machine.execOpenStream p ring e s
  | .closeDrain p ring e => Sys2Proof.Machine.execCloseDrain p ring e s
  | .closeAbort p ring e => Sys2Proof.Machine.execCloseAbort p ring e s
  | .setParams p ring e => Sys2Proof.Machine.execSetParams p ring e s
  | .resume p ring e => Sys2Proof.Machine.execResume p ring e s
  | .exportEntry p ring e => Sys2Proof.Machine.execExportEntry p ring e s
  | .exportCapture sid => Sys2Proof.Machine.execExportCapture sid s
  | .blobWriteDone sid => Sys2Proof.Machine.execBlobWriteDone sid s
  | .importEntry p ring e => Sys2Proof.Machine.execImportEntry p ring e s
  | .importBlobReadDone sid fault blob => Sys2Proof.Machine.execImportBlobReadDone sid fault blob s
  | .migrateOut p ring e => Sys2Proof.Machine.execMigrateOut p ring e s
  | .migrateIn p ring e => Sys2Proof.Machine.execMigrateIn p ring e s
  | .modelLoad p ring e => Sys2Proof.Machine.execModelLoad p ring e s
  | .packageReadDone slot fault pkg copyA copyB => Sys2Proof.Machine.execPackageReadDone slot fault pkg copyA copyB s
  | .modelUnload p ring e => Sys2Proof.Machine.execModelUnload p ring e s
  | .audioFetchFail p ring e fault => Sys2Proof.Machine.execAudioFetchFail p ring e fault s
  | .entryReadFail p ring fault => Sys2Proof.Machine.execEntryReadFail p ring fault s
  | .idleTimeout sid => Sys2Proof.Machine.execIdleTimeout sid s
  | .featureFrame sid base => Sys2Proof.Machine.execFeatureFrame sid base s
  | .inputSlotFull sid base => Sys2Proof.Machine.execInputSlotFull sid base s
  | .inputExtentCopyDone sid no => Sys2Proof.Machine.execInputExtentCopyDone sid no s
  | .batchClose model cls chunkMs => Sys2Proof.Machine.execBatchClose model cls chunkMs s
  | .batchReserve bid parts => Sys2Proof.Machine.execBatchReserve bid parts s
  | .swapOut sid => Sys2Proof.Machine.execSwapOut sid s
  | .swapIn sid base bad => Sys2Proof.Machine.execSwapIn sid base bad s
  | .chunkCommit sid beam => Sys2Proof.Machine.execChunkCommit sid beam s
  | .chunkAbort sid no => Sys2Proof.Machine.execChunkAbort sid no s
  | .chunkReplay sid no => Sys2Proof.Machine.execChunkReplay sid no s
  | .replayBackoffExpiry sid no => Sys2Proof.Machine.execReplayBackoffExpiry sid no s
  | .descSubmit core d others => Sys2Proof.Machine.execDescSubmit core d others s
  | .roundaboutIssue eng => Sys2Proof.Machine.execRoundaboutIssue eng s
  | .tagClaim eng => Sys2Proof.Machine.execTagClaim eng s
  | .commandComplete eng busy => Sys2Proof.Machine.execCommandComplete eng busy s
  | .cmdTimeout eng => Sys2Proof.Machine.execCmdTimeout eng s
  | .nopCmd eng => Sys2Proof.Machine.execNopCmd eng s
  | .matmul eng hw => Sys2Proof.Machine.execMatmul eng hw s
  | .tileStore eng hw => Sys2Proof.Machine.execTileStore eng hw s
  | .vxRun eng hw => Sys2Proof.Machine.execVxRun eng hw s
  | .vxSoftmax eng hw => Sys2Proof.Machine.execVxSoftmax eng hw s
  | .seScan eng hw => Sys2Proof.Machine.execSeScan eng hw s
  | .seCarry eng hw => Sys2Proof.Machine.execSeCarry eng hw s
  | .atAppend eng hw => Sys2Proof.Machine.execAtAppend eng hw s
  | .atScore eng hw owner => Sys2Proof.Machine.execAtScore eng hw owner s
  | .atValue eng hw owner => Sys2Proof.Machine.execAtValue eng hw owner s
  | .atMerge eng hw => Sys2Proof.Machine.execAtMerge eng hw s
  | .tkSelect eng hw => Sys2Proof.Machine.execTkSelect eng hw s
  | .tkTopk eng hw => Sys2Proof.Machine.execTkTopk eng hw s
  | .tkVerify eng hw => Sys2Proof.Machine.execTkVerify eng hw s
  | .tkPrefix eng hw => Sys2Proof.Machine.execTkPrefix eng hw s
  | .tkDetok eng hw => Sys2Proof.Machine.execTkDetok eng hw s
  | .egProv eng hw => Sys2Proof.Machine.execEgProv eng hw s
  | .egOla eng hw => Sys2Proof.Machine.execEgOla eng hw s
  | .egPublish eng hw => Sys2Proof.Machine.execEgPublish eng hw s
  | .egressDrain p ring => Sys2Proof.Machine.execEgressDrain p ring s
  | .inRelease eng hw => Sys2Proof.Machine.execInRelease eng hw s
  | .feCtx eng hw => Sys2Proof.Machine.execFeCtx eng hw s
  | .lnCopy eng hw => Sys2Proof.Machine.execLnCopy eng hw s
  | .lnHost eng hw fault data => Sys2Proof.Machine.execLnHost eng hw fault data s
  | .lnRwrite eng hw => Sys2Proof.Machine.execLnRwrite eng hw s
  | .lnRtag eng hw => Sys2Proof.Machine.execLnRtag eng hw s
  | .lnRread eng hw => Sys2Proof.Machine.execLnRread eng hw s
  | .tagSet eng hw => Sys2Proof.Machine.execTagSet eng hw s
  | .mbPost eng hw writes => Sys2Proof.Machine.execMbPost eng hw writes s
  | .mailboxFreed core bad => Sys2Proof.Machine.execMailboxFreed core bad s
  | .chunkCancel sid chunk => Sys2Proof.Machine.execChunkCancel sid chunk s
  | .batchTableWrite bid valid members => Sys2Proof.Machine.execBatchTableWrite bid valid members s
  | .handleWrite p h w0 w1 => Sys2Proof.Machine.execHandleWrite p h w0 w1 s
  | .narrowWrite port p sid h off at_ data mode fin => Sys2Proof.Machine.execNarrowWrite port p sid h off at_ data mode fin s
  | .gatherIdleFlush port row => Sys2Proof.Machine.execGatherIdleFlush port row s
  | .scrubVisit square upsets => Sys2Proof.Machine.execScrubVisit square upsets s
  | .hbmScrubVisit use upsets => Sys2Proof.Machine.execHbmScrubVisit use upsets s
  | .quarterPowerDown q => Sys2Proof.Machine.execQuarterPowerDown q s
  | .quarterDrained q => Sys2Proof.Machine.execQuarterDrained q s
  | .drainAbandon q => Sys2Proof.Machine.execDrainAbandon q s
  | .quarterPowerUp q => Sys2Proof.Machine.execQuarterPowerUp q s
  | .quarterWakeDone q => Sys2Proof.Machine.execQuarterWakeDone q s
  | .mxPowerDown mx => Sys2Proof.Machine.execMxPowerDown mx s
  | .regulatorRefill => Sys2Proof.Machine.execRegulatorRefill s
  | .stormSecond => Sys2Proof.Machine.execStormSecond s
  | .stepBoundary => Sys2Proof.Machine.execStepBoundary s
  | .pageDemote sid => Sys2Proof.Machine.execPageDemote sid s
  | .pageWaitLimit => Sys2Proof.Machine.execPageWaitLimit s
  | .tableEdit seq edit => Sys2Proof.Machine.execTableEdit seq edit s
  | .reclaimFree seq copyB => Sys2Proof.Machine.execReclaimFree seq copyB s
  | .prefixLookup seq toks => Sys2Proof.Machine.execPrefixLookup seq toks s
  | .rebuildMark seq => Sys2Proof.Machine.execRebuildMark seq s
  | .residencyEvict slot block => Sys2Proof.Machine.execResidencyEvict slot block s
  | .waitReport which => Sys2Proof.Machine.execWaitReport which s
  | .ccWatchdog core => Sys2Proof.Machine.execCcWatchdog core s
  | .write port => Sys2Proof.Machine.execWrite port s
  | .writeEnd port => Sys2Proof.Machine.execWriteEnd port s
  | .landed port => Sys2Proof.Machine.execLanded port s
  | .rtag port => Sys2Proof.Machine.execRtag port s
  | .rreadReq port => Sys2Proof.Machine.execRreadReq port s
  | .rreadData port => Sys2Proof.Machine.execRreadData port s
  | .retryRsp port => Sys2Proof.Machine.execRetryRsp port s
  | .rreadRetryTimer port txn => Sys2Proof.Machine.execRreadRetryTimer port txn s
  | .walkReq port => Sys2Proof.Machine.execWalkReq port s
  | .walkData port => Sys2Proof.Machine.execWalkData port s
  | .walkEnd port => Sys2Proof.Machine.execWalkEnd port s
  | .cancel port => Sys2Proof.Machine.execCancel port s
  | .rxReg port => Sys2Proof.Machine.execRxReg port s
  | .offer port => Sys2Proof.Machine.execOffer port s
  | .accept port => Sys2Proof.Machine.execAccept port s
  | .notReady port => Sys2Proof.Machine.execNotReady port s
  | .migData port => Sys2Proof.Machine.execMigData port s
  | .migAck port => Sys2Proof.Machine.execMigAck port s
  | .refuse port => Sys2Proof.Machine.execRefuse port s
  | .release port => Sys2Proof.Machine.execRelease port s
  | .migAbort port => Sys2Proof.Machine.execMigAbort port s
  | .migrateAckTimeout sid => Sys2Proof.Machine.execMigrateAckTimeout sid s
  | .migrateHeldTimeout sid => Sys2Proof.Machine.execMigrateHeldTimeout sid s
  | .reofferTimer sid => Sys2Proof.Machine.execReofferTimer sid s
  | .migrateInTimeout sid => Sys2Proof.Machine.execMigrateInTimeout sid s
  | .null port blocks => Sys2Proof.Machine.execNull port blocks s
  | .linkFrameRx port blocks => Sys2Proof.Machine.execLinkFrameRx port blocks s
  | .ackTimer port => Sys2Proof.Machine.execAckTimer port s
  | .retryTimeout port => Sys2Proof.Machine.execRetryTimeout port s
  | .portDownTimeout port => Sys2Proof.Machine.execPortDownTimeout port s
  | .escapeTimeout port vc1 => Sys2Proof.Machine.execEscapeTimeout port vc1 s
  | .ident port blocks => Sys2Proof.Machine.execIdent port blocks s
  | .downWaitExpiry port => Sys2Proof.Machine.execDownWaitExpiry port s
  | .signalDetect port => Sys2Proof.Machine.execSignalDetect port s
  | .lanesLocked port => Sys2Proof.Machine.execLanesLocked port s
  | .lanesDeskewed port => Sys2Proof.Machine.execLanesDeskewed port s
  | .blockLockLost port => Sys2Proof.Machine.execBlockLockLost port s
  | .trainingTimeout port => Sys2Proof.Machine.execTrainingTimeout port s
  | .peerRequestTimeout port txn => Sys2Proof.Machine.execPeerRequestTimeout port txn s
  | .ppsEdge => Sys2Proof.Machine.execPpsEdge s
  | .ppsLoss => Sys2Proof.Machine.execPpsLoss s
  | .syncTimer => Sys2Proof.Machine.execSyncTimer s
  | .sync port => Sys2Proof.Machine.execSync port s
  | .followUp port => Sys2Proof.Machine.execFollowUp port s
  | .delayReq port => Sys2Proof.Machine.execDelayReq port s
  | .delayResp port => Sys2Proof.Machine.execDelayResp port s
  | .electionWindowExpiry dev => Sys2Proof.Machine.execElectionWindowExpiry dev s
  | .holdoverEntry => Sys2Proof.Machine.execHoldoverEntry s
  | .holdoverLimitExpiry => Sys2Proof.Machine.execHoldoverLimitExpiry s
  | .timeNsWrite port data => Sys2Proof.Machine.execTimeNsWrite port data s
  | .trustRelease port data => Sys2Proof.Machine.execTrustRelease port data s
  | .nmtStart node => Sys2Proof.Machine.execNmtStart node s
  | .nmtStop node => Sys2Proof.Machine.execNmtStop node s
  | .nmtEnterPreop node => Sys2Proof.Machine.execNmtEnterPreop node s
  | .nmtResetNode node => Sys2Proof.Machine.execNmtResetNode node s
  | .nmtResetComm node => Sys2Proof.Machine.execNmtResetComm node s
  | .freezeDone => Sys2Proof.Machine.execFreezeDone s
  | .heartbeat node st => Sys2Proof.Machine.execHeartbeat node st s
  | .heartbeatTimeout => Sys2Proof.Machine.execHeartbeatTimeout s
  | .heartbeatProduce => Sys2Proof.Machine.execHeartbeatProduce s
  | .usdoRequest client req => Sys2Proof.Machine.execUsdoRequest client req s
  | .usdoTimeout client => Sys2Proof.Machine.execUsdoTimeout client s
  | .rpdo1 data => Sys2Proof.Machine.execRpdo1 data s
  | .tpdoSend n => Sys2Proof.Machine.execTpdoSend n s
  | .emcySend => Sys2Proof.Machine.execEmcySend s
  | .canErrorPassive enter tec rec => Sys2Proof.Machine.execCanErrorPassive enter tec rec s
  | .busOff => Sys2Proof.Machine.execBusOff s
  | .busOffRecovered => Sys2Proof.Machine.execBusOffRecovered s
  | .canOverrun => Sys2Proof.Machine.execCanOverrun s
  | .canFrameIgnored cob => Sys2Proof.Machine.execCanFrameIgnored cob s
  | .go p req => Sys2Proof.Machine.execGo p req s
  | .peerObjectRequest port => Sys2Proof.Machine.execPeerObjectRequest port s
  | .peerObjectResponse port => Sys2Proof.Machine.execPeerObjectResponse port s
  | .debugAccess index sub wr data => Sys2Proof.Machine.execDebugAccess index sub wr data s
  | .objectWrite port index sub data => Sys2Proof.Machine.execObjectWrite port index sub data s
  | .counterClear port data => Sys2Proof.Machine.execCounterClear port data s
  | .clear port p data => Sys2Proof.Machine.execClear port p data s
  | .stageImage port first last data => Sys2Proof.Machine.execStageImage port first last data s
  | .resetPoints port data => Sys2Proof.Machine.execResetPoints port data s
  | .jtagEnableWrite port data => Sys2Proof.Machine.execJtagEnableWrite port data s
  | .portEnableWrite port x data => Sys2Proof.Machine.execPortEnableWrite port x data s
  | .stateRequest port data => Sys2Proof.Machine.execStateRequest port data s
  | .powerLimit port data => Sys2Proof.Machine.execPowerLimit port data s
  | .sqDb p ring value => Sys2Proof.Machine.execSqDb p ring value s
  | .oqCons p ring value => Sys2Proof.Machine.execOqCons p ring value s
  | .sqEnableWrite p ring value => Sys2Proof.Machine.execSqEnableWrite p ring value s
  | .oqEnableWrite p ring value => Sys2Proof.Machine.execOqEnableWrite p ring value s
  | .ringRegisterWrite p off value => Sys2Proof.Machine.execRingRegisterWrite p off value s
  | .headWbTimer p ring => Sys2Proof.Machine.execHeadWbTimer p ring s
  | .msixModTimer p ring => Sys2Proof.Machine.execMsixModTimer p ring s
  | .msixUnmask p vector => Sys2Proof.Machine.execMsixUnmask p vector s
  | .bar4Access off wr len data => Sys2Proof.Machine.execBar4Access off wr len data s
  | .busMasterEnableChange p on cfg => Sys2Proof.Machine.execBusMasterEnableChange p on cfg s
  | .flr p => Sys2Proof.Machine.execFlr p s
  | .flrDone p => Sys2Proof.Machine.execFlrDone p s
  | .vfEnableClear num => Sys2Proof.Machine.execVfEnableClear num s
  | .hotReset cause => Sys2Proof.Machine.execHotReset cause s
  | .perstNRelease => Sys2Proof.Machine.execPerstNRelease s
  | .pcieLinkUp rate width => Sys2Proof.Machine.execPcieLinkUp rate width s
  | .vauxGood mv straps => Sys2Proof.Machine.execVauxGood mv straps s
  | .vauxLost mv => Sys2Proof.Machine.execVauxLost mv s
  | .vinStart mv => Sys2Proof.Machine.execVinStart mv s
  | .vinOutOfRange above begins mv => Sys2Proof.Machine.execVinOutOfRange above begins mv s
  | .vinUndervoltageLockout mv => Sys2Proof.Machine.execVinUndervoltageLockout mv s
  | .vinReturn mv => Sys2Proof.Machine.execVinReturn mv s
  | .rideThroughExpiry => Sys2Proof.Machine.execRideThroughExpiry s
  | .vinOvervoltageLockout mv => Sys2Proof.Machine.execVinOvervoltageLockout mv s
  | .sequencerStepDone mv => Sys2Proof.Machine.execSequencerStepDone mv s
  | .railFault code mv => Sys2Proof.Machine.execRailFault code mv s
  | .railRetryTimer => Sys2Proof.Machine.execRailRetryTimer s
  | .pllLockLoss => Sys2Proof.Machine.execPllLockLoss s
  | .startupStepDone r => Sys2Proof.Machine.execStartupStepDone r s
  | .startupStepFail => Sys2Proof.Machine.execStartupStepFail s
  | .sensorRead temps => Sys2Proof.Machine.execSensorRead temps s
  | .thermalTick => Sys2Proof.Machine.execThermalTick s
  | .thermalTrip => Sys2Proof.Machine.execThermalTrip s
  | .powerLoopTick dw => Sys2Proof.Machine.execPowerLoopTick dw s
  | .limitUnmetExpiry => Sys2Proof.Machine.execLimitUnmetExpiry s
  | .crocusIdleExpiry => Sys2Proof.Machine.execCrocusIdleExpiry s
  | .crocusWake => Sys2Proof.Machine.execCrocusWake s
  | .tulipEntry => Sys2Proof.Machine.execTulipEntry s
  | .snowdropEntry => Sys2Proof.Machine.execSnowdropEntry s
  | .snowdropExit => Sys2Proof.Machine.execSnowdropExit s
  | .powerStateChangeDone => Sys2Proof.Machine.execPowerStateChangeDone s
  | .scheduleStart => Sys2Proof.Machine.execScheduleStart s
  | .scheduleEnd => Sys2Proof.Machine.execScheduleEnd s
  | .probeChange low => Sys2Proof.Machine.execProbeChange low s
  | .walkStart => Sys2Proof.Machine.execWalkStart s
  | .qualificationDone square => Sys2Proof.Machine.execQualificationDone square s
  | .walkAbandon => Sys2Proof.Machine.execWalkAbandon s
  | .qualWindowExpiry square => Sys2Proof.Machine.execQualWindowExpiry square s
  | .qualRetryTimer square => Sys2Proof.Machine.execQualRetryTimer square s
  | .tempGuardExpiry square => Sys2Proof.Machine.execTempGuardExpiry square s
  | .mailboxTransferTimeout p => Sys2Proof.Machine.execMailboxTransferTimeout p s
  | .vfEnableSet num => Sys2Proof.Machine.execVfEnableSet num s
  | .controlCoreRestarted core => Sys2Proof.Machine.execControlCoreRestarted core s
  | .coreMemoryUncorrectable core => Sys2Proof.Machine.execCoreMemoryUncorrectable core s

end Sys2Proof.Machine
end

