-- ==== Sys2Proof/Machine/Step.lean ====
section
/-! DEFINITION. One step of the block: the command at the front of the queue, or a tick of the timebase. -/

namespace Sys2Proof.Machine

/-- The state without the command at the front of its queue. -/
def State.popped (s : State) : State := { s with pending := s.pending.drop 1 }

/-- One CK_TIME cycle with nothing commanded: the timebase counts on (R471). -/
def State.idle (s : State) : State := { s with tm := s.tm.tick }

/-- One step: `exec` of the command at the front on the state with the queue's rest; on an empty queue one CK_TIME cycle
passes. DESIGN CHOICE (log 3): the tick, which no row of the table names. -/
def step (s : State) : Host.Outcome State Fault Refusal :=
  match s.pending with
  | [] => .next s.idle
  | c :: _ => exec c s.popped

/-- The state with the command that a word spells at the front of its queue. -/
def State.withFetchWord (s : State) (nbits w : Nat) : State :=
  match decodeTableWord nbits w with
  | some c => { s with pending := c :: s.pending }
  | none => s

end Sys2Proof.Machine
end

