-- ==== Sys2Proof/Safety.lean ====
section
/-! DEFINITION. What a safe state of the block is: the limits and the forms that every command keeps. -/

namespace Sys2Proof.Machine

/-- The invariant of the block, in terms of its stores alone. -/
structure State.Inv (s : State) : Prop where
  /-- every byte store holds its one canonical form -/
  sp : Mem.wf s.st.sp
  acc : Mem.wf s.st.acc
  hbm : Mem.wf s.st.hbm
  ctlMem : Mem.wf s.st.ctl
  core : Mem.wf s.st.core
  spill : Mem.wf s.pg.spill
  mirror : Mem.wf s.str.mirror
  hostMem : Mem.wf s.host.mem
  /-- the fault log holds the last 4,096 entries (R447) -/
  faultLog : s.ctl.faultLog.length ≤ 4096
  /-- at most 32 emergency messages wait (R501) -/
  emcy : s.ctl.emcy.length ≤ 32
  /-- at most four USDO sessions are open (R500) -/
  usdo : s.ctl.usdo.length ≤ 4
  /-- the commit log holds 2^20 entries (R425) -/
  commitLog : s.str.log.length ≤ 2 ^ 20
  /-- the two flash copies of the stored values agree (R512) -/
  flash : s.ctl.flashA = s.ctl.flashB
  /-- the stream table has 8,192 entries, each listed once (R18) -/
  table : Tbl.sorted s.str.tab ∧ ∀ e ∈ s.str.tab, e.1 < 8192
  /-- what each core sees of control memory holds the same canonical form -/
  ctlView : ∀ e ∈ s.st.ctlView, Mem.wf e.2
  /-- every command that takes a command slot was numbered when it was accepted (R133) -/
  accepted : ∀ c ∈ s.rb.cmds, c.shadow = false → c.seq < s.rb.nextSeq

/-- A command completes in a state: it answers a next state, of which `Q` holds. -/
def Completes (c : Instr) (s : State) (Q : State → Prop) : Prop := ∃ t, exec c s = .next t ∧ Q t

/-- The partition, the ring and the entry of a command that the block takes from the head of a submission ring. -/
def ringEntry : Instr → Option (Part × Ring × Words8)
  | .nop p r e | .audio p r e _ | .tokens p r e _ | .openStream p r e | .closeDrain p r e | .closeAbort p r e
  | .setParams p r e | .resume p r e | .exportEntry p r e | .importEntry p r e | .migrateOut p r e | .migrateIn p r e
  | .modelLoad p r e | .modelUnload p r e | .audioFetchFail p r e _ => some (p, r, e)
  | _ => none

/-- Whether an entry is of the opcode (and, for CLOSE, of the MODE) that a ring command stands for (R52, R58). -/
def standsFor (c : Instr) (e : Words8) : Bool :=
  let op := entOp e
  match c with
  | .nop .. => op == 0x00
  | .audio .. => op == 0x01
  | .tokens .. => op == 0x02
  | .audioFetchFail .. => op == 0x01 || (op == 0x02 && ent e 1 0 64 != 0)
  | .openStream .. => op == 0x10
  | .closeDrain .. => op == 0x11 && ent e 1 0 1 == 0
  | .closeAbort .. => op == 0x11 && ent e 1 0 1 == 1
  | .setParams .. => op == 0x12
  | .resume .. => op == 0x13
  | .exportEntry .. => op == 0x20
  | .importEntry .. => op == 0x21
  | .migrateOut .. => op == 0x22
  | .migrateIn .. => op == 0x23
  | .modelLoad .. => op == 0x30
  | .modelUnload .. => op == 0x31
  | _ => false

/-- The entry of a ring command is consumed now, is of the command's kind, and is well formed (R52, R54). -/
def takes (c : Instr) (s : State) : Bool :=
  match ringEntry c with
  | some (p, ring, e) =>
    standsFor c e && s.consumes p.val ring.val (isOpener (entOp e)) && s.entryError p.val e == none
  | none => false

/-- The state in which the entry of a ring command has been passed by HEAD and nothing else has happened. -/
def State.passed (s : State) (p : Part) (ring : Ring) : State := s.advanceHead p.val ring.val

/-- The state in which the scrubber of a Square visits row `n` of the Square next. -/
def State.scrubTo (s : State) (square n : Nat) : State :=
  { s with st := { s.st with scrubNext := Tbl.setD s.st.scrubNext 0 square n } }

/-! ### Datapaths -/

/-- The engine, the upsets and the datapath of a command that stands for an engine's effect on rows and tiles. -/
def datapath : Instr → Option (Eng × Hw × Datapath)
  | .matmul e hw => some (e, hw, matmulPath hw)
  | .tileStore e hw => some (e, hw, tileStorePath)
  | .vxRun e hw => some (e, hw, vxRunPath hw)
  | .vxSoftmax e hw => some (e, hw, vxSoftmaxPath hw)
  | .seScan e hw => some (e, hw, seScanPath hw)
  | .seCarry e hw => some (e, hw, seCarryPath hw)
  | .atAppend e hw => some (e, hw, atAppendPath hw)
  | .atMerge e hw => some (e, hw, atMergePath hw)
  | .tkSelect e hw => some (e, hw, tkSelectPath)
  | .tkTopk e hw => some (e, hw, tkTopkPath)
  | .tkVerify e hw => some (e, hw, tkVerifyPath)
  | .tkPrefix e hw => some (e, hw, tkPrefixPath)
  | .tkDetok e hw => some (e, hw, tkDetokPath)
  | .egProv e hw => some (e, hw, egProvPath)
  | .egOla e hw => some (e, hw, egOlaPath)
  | .feCtx e hw => some (e, hw, feCtxPath)
  | _ => none

/-- How the run of a datapath ends. -/
inductive PathEnd where
  /-- it read a poisoned row -/
  | row (n : Nat)
  /-- it read an uncorrectable word of a tile, in a row of it -/
  | tile (key row : Nat)
  /-- a start check failed, in the state then -/
  | check (now : State) (r : Result)
  /-- it computed its result, in the state then -/
  | data (now : State) (r : Result)

/-- How the start checks of a datapath end, none when all pass; with the state then. -/
def State.checksEnd (s : State) (c : Cmd) (i : OpInfo) (sp : List Span) : List StartCheck → State × Option PathEnd
  | [] => (s, none)
  | k :: ks =>
    let rd := s.countReads (readRowsOf ((k.ops c).contains ·) i.roles c.desc.opcode c.ops sp)
    match rd.2 with
    | some row => (rd.1, some (.row row))
    | none =>
      match k.fails (rd.1.viewOf c.desc.engine) c with
      | some r => (rd.1, some (.check rd.1 r))
      | none => rd.1.checksEnd c i sp ks

/-- How the run of a datapath for a command ends. -/
def State.pathEnd (s : State) (p : Datapath) (c : Cmd) (i : OpInfo) : PathEnd :=
  let sp := s.spans c.desc c.ops
  let ck := s.checksEnd c i sp p.checks
  match ck.2 with
  | some e => e
  | none =>
    let rd := ck.1.countReads (p.rows ck.1 c i sp)
    match rd.2 with
    | some row => .row row
    | none =>
      match (p.tiles c).findSome? fun k => (rd.1.tileBad k.1 k.2).map fun r => (k.1, r) with
      | some b => .tile b.1 b.2
      | none =>
        let t := (p.tiles c).foldl (fun t k => t.countAcc k.1 k.2) rd.1
        .data t (p.data (t.viewOf c.desc.engine) c)

/-- A command at an engine whose datapath ends with a clean result: the command, what it sees, and the state in which its result
has landed and nothing that the opcode does beside its writes has yet; none for any other. -/
def State.landed? (s : State) (e : Nat) (hw : Hw) (p : Datapath) : Option (Cmd × State × State) :=
  match s.ready? e p.op with
  | none => none
  | some k0 =>
    let k := { k0 with ctl := k0.ctl.or (ctlLost hw) }
    let u := (s.upset e hw).putCmd k
    match opInfo k.desc with
    | none => none
    | some i =>
      let sp := u.spans k.desc k.ops
      match u.pathEnd p k i with
      | .data now r =>
        if k.ctl.isSome || overlaps k i.roles sp r || hasAbortFlag r.flags || (hasCheckFlag r.flags && !r.writes) || hasPtFlag r.flags
            || k.shadow then none
        else some (k, now.viewOf k.desc.engine, now.finish { k with far := k.farOf (p.allRows now k i sp ++ r.rowsWritten k) } r)
      | _ => none

/-- Scratchpad, accumulator stores, tags and HBM stand as they were. -/
def SameStores (s t : State) : Prop :=
  t.st.sp = s.st.sp ∧ t.st.acc = s.st.acc ∧ t.st.tags = s.st.tags ∧ t.st.tileTags = s.st.tileTags ∧ t.st.hbm = s.st.hbm

/-- The commands of the Roundabout with one of them changed. -/
def State.cmdsWith (s : State) (c : Cmd) : List Cmd := s.rb.cmds.map fun x => if x.seq = c.seq ∧ x.shadow = c.shadow then c else x

/-- A command that has ended with a result: its flags join those of the command. -/
def Cmd.endedWith (c : Cmd) (r : Result) : Cmd :=
  { c with phase := .ended, flags := Nat.lor c.flags r.flags, code := r.code, detail := r.detail, signature := r.signature
           wrote := c.wrote || r.writes }

/-- The port whose waiting frame a command acts on, and the frames that it selects (R454). -/
def frameCmd : Instr → Option (PortNo × (Frame → Bool))
  | .write p => some (p, ofType 0x1)
  | .writeEnd p => some (p, ofType 0x2)
  | .landed p => some (p, ofType 0x3)
  | .rtag p => some (p, ofType 0x4)
  | .rreadReq p => some (p, ofType 0x5)
  | .rreadData p => some (p, ofType 0x6)
  | .retryRsp p => some (p, ofType 0x7)
  | .walkReq p => some (p, ofType 0x8)
  | .walkData p => some (p, ofType 0x9)
  | .walkEnd p => some (p, ofType 0xA)
  | .cancel p => some (p, ofType 0xB)
  | .rxReg p => some (p, ofType 0xC)
  | .offer p => some (p, ofSub 0xD 1)
  | .accept p => some (p, ofSub 0xD 2)
  | .notReady p => some (p, ofSub 0xD 3)
  | .migData p => some (p, ofSub 0xD 4)
  | .migAck p => some (p, ofSub 0xD 5)
  | .refuse p => some (p, ofSub 0xD 6)
  | .release p => some (p, ofSub 0xD 7)
  | .migAbort p => some (p, ofSub 0xD 8)
  | .sync p => some (p, ofSub 0xE 1)
  | .followUp p => some (p, ofSub 0xE 2)
  | .delayReq p => some (p, ofSub 0xE 3)
  | .delayResp p => some (p, ofSub 0xE 4)
  | _ => none

/-! ### Frames -/

/-- The parts of the state that a frame speaks of. -/
inductive StatePart where
  /-- the counter of free values drawn -/
  | free
  /-- scratchpad data -/
  | sp
  /-- stored errors of the scratchpad, the accumulator stores and HBM -/
  | errors
  /-- slot tags -/
  | tags
  /-- handle tables -/
  | handles
  /-- gather ports -/
  | gather
  /-- accumulator stores -/
  | acc
  /-- tile tags -/
  | tileTags
  /-- HBM -/
  | hbm
  /-- control memory, as it is and as each core sees it -/
  | ctlMem
  /-- local memories of the control cores -/
  | core
  /-- the patrol scrubbers and the times of closing quarters -/
  | scrub
  /-- accepted commands and their numbering -/
  | cmds
  /-- settings that wait for the next batch to close -/
  | live
  /-- chunks and parts that have ended while commands of theirs still run -/
  | ended
  /-- what the submission ports report -/
  | reports
  /-- run, ptr and def of the issue order -/
  | turns
  /-- the batch table -/
  | batchTable
  /-- mailboxes of the control cores -/
  | mail
  /-- regulator counts and charges -/
  | regulators
  /-- engine counters -/
  | engCtr
  /-- domain states -/
  | domains
  /-- Squares out of service and the faults blamed on them -/
  | squares
  /-- page tables, walkers and reclaim lists -/
  | seqs
  /-- spill frames -/
  | spill
  /-- the prefix tree -/
  | tree
  /-- the stream table -/
  | streams
  /-- chunks -/
  | chunks
  /-- mirror buffers -/
  | mirror
  /-- model slots -/
  | models
  /-- forming and closed batches -/
  | batches
  /-- the commit log -/
  | commitLog
  /-- publications that wait -/
  | waiting
  /-- the use clock and the misses of the present second -/
  | clocks
  /-- submission rings -/
  | subRings
  /-- output rings and their egress queues -/
  | outRings
  /-- mailboxes of the functions -/
  | mailboxes
  /-- function controls, interrupts and error flags -/
  | functions
  /-- host memory -/
  | hostMem
  /-- the host link -/
  | hostLink
  /-- what the debug window returned -/
  | window
  /-- DEV_ID -/
  | straps
  /-- Crossing ports -/
  | ports
  /-- receive descriptors -/
  | rxDescs
  /-- grants of peers -/
  | grants
  /-- remote operations in progress -/
  | remoteOps
  /-- migrations -/
  | migrations
  /-- walks of peers, and tables and pages of owners -/
  | peerWalks
  /-- the timebase count -/
  | time
  /-- state of the time service -/
  | timeState
  /-- object values -/
  | objects
  /-- stored values -/
  | flash
  /-- SELECT and TIME_FRAC of the ports -/
  | select
  /-- the fault log -/
  | faultLog
  /-- NMT state, freeze and waiting NMT commands -/
  | nmt
  /-- emergency messages and conditions -/
  | emcy
  /-- frames sent by the field port -/
  | canOut
  /-- NODE_ID and bus rates -/
  | node
  /-- TPDOs as last sent, and the last EMCY time -/
  | sendTimes
  /-- USDO sessions -/
  | usdo
  /-- images being staged -/
  | stage
  /-- loss of the watched heartbeat -/
  | hbLost
  /-- debug straps and the TAP -/
  | debug
  /-- control cores in reset -/
  | coresDown
  /-- answers of the ports -/
  | answers
  /-- supplies and the sequencer -/
  | supply
  /-- supply monitors -/
  | monitors
  /-- power states -/
  | powerState
  /-- power and thermal levels -/
  | throttle
  /-- temperature sensors -/
  | sensors
  /-- the scheduled start -/
  | schedule
  /-- the PLL and the engine clock -/
  | clock
  /-- start-up -/
  | startup
  /-- boot banks and identity -/
  | banks
  /-- live calibration -/
  | calibration
  deriving DecidableEq, Repr

/-- What a power-down under R554 leaves of a powered device: rails down but those of VAUX, the die reset with its cause, no
stream and no stored row, the objects at their kept values, and the boot flash (R512, R554, R580). -/
def State.poweredDown (s t : State) (c : DownCause) (cause : Nat) : Prop :=
  t.powered = false ∧ t.pw.pgMod = false ∧ t.pw.down = true ∧ t.pw.downCause = c ∧ t.pw.ride = false
  ∧ t.pw.railsUp = (if s.pw.auxPg then [1] else []) ∧ t.boot.resetCause = cause ∧ t.host.linkUp = false ∧ t.str = {} ∧ t.st = {}
  ∧ t.rb = {} ∧ t.tm = { master := s.xr.devId } ∧ t.ctl.flashA = s.ctl.flashA ∧ t.boot.bankA = s.boot.bankA ∧ t.boot.bankB = s.boot.bankB
  ∧ t.boot.recorded = s.boot.recorded

/-- What the submission rings, the output rings and the mailbox leave of a function. -/
def Function.controls (f : Function) : Function := { f with sq := [], oq := [], mbx := {} }

/-- A part of the state stands as it was. -/
def StatePart.same : StatePart → State → State → Prop
  | .free, s, t => t.free = s.free
  | .sp, s, t => t.st.sp = s.st.sp
  | .errors, s, t => t.st.spErr = s.st.spErr ∧ t.st.accErr = s.st.accErr ∧ t.st.hbmErr = s.st.hbmErr
  | .tags, s, t => t.st.tags = s.st.tags
  | .handles, s, t => t.st.handles = s.st.handles
  | .gather, s, t => t.st.gather = s.st.gather
  | .acc, s, t => t.st.acc = s.st.acc
  | .tileTags, s, t => t.st.tileTags = s.st.tileTags
  | .hbm, s, t => t.st.hbm = s.st.hbm
  | .ctlMem, s, t => t.st.ctl = s.st.ctl ∧ t.st.ctlView = s.st.ctlView
  | .core, s, t => t.st.core = s.st.core
  | .scrub, s, t => t.st.scrubNext = s.st.scrubNext ∧ t.st.closingSince = s.st.closingSince
  | .cmds, s, t => t.rb.cmds = s.rb.cmds ∧ t.rb.nextSeq = s.rb.nextSeq
  | .live, s, t => t.rb.live = s.rb.live
  | .ended, s, t => t.rb.orphans = s.rb.orphans ∧ t.rb.cancelled = s.rb.cancelled
  | .reports, s, t => t.rb.lastCore = s.rb.lastCore ∧ t.rb.report = s.rb.report
  | .turns, s, t => t.rb.run = s.rb.run ∧ t.rb.ptr = s.rb.ptr ∧ t.rb.deficit = s.rb.deficit
  | .batchTable, s, t => t.rb.batches = s.rb.batches
  | .mail, s, t => t.rb.mail = s.rb.mail ∧ t.rb.heldMail = s.rb.heldMail ∧ t.rb.mailCap = s.rb.mailCap
  | .regulators, s, t => t.rb.bucket = s.rb.bucket ∧ t.rb.charges = s.rb.charges
  | .engCtr, s, t => t.rb.engCtr = s.rb.engCtr
  | .domains, s, t => t.rb.domain = s.rb.domain
  | .squares, s, t => t.rb.sqFaults = s.rb.sqFaults ∧ t.rb.sqOut = s.rb.sqOut
  | .seqs, s, t => t.pg.poolBase = s.pg.poolBase ∧ t.pg.seqs = s.pg.seqs ∧ t.pg.reserveFrames = s.pg.reserveFrames
  | .spill, s, t => t.pg.spill = s.pg.spill ∧ t.pg.spillBad = s.pg.spillBad ∧ t.pg.spillStack = s.pg.spillStack
  | .tree, s, t => t.pg.nodes = s.pg.nodes ∧ t.pg.nextNode = s.pg.nextNode
  | .streams, s, t => t.str.tab = s.str.tab ∧ t.str.epoch = s.str.epoch
  | .chunks, s, t => t.str.chunks = s.str.chunks
  | .mirror, s, t => t.str.mirror = s.str.mirror
  | .models, s, t => t.str.models = s.str.models
  | .batches, s, t => t.str.batches = s.str.batches ∧ t.str.workRowsFree = s.str.workRowsFree
  | .commitLog, s, t => t.str.log = s.str.log
  | .waiting, s, t => t.str.waiting = s.str.waiting
  | .clocks, s, t => t.str.missSecond = s.str.missSecond ∧ t.str.useClock = s.str.useClock
  | .subRings, s, t => ∀ p, (t.fn p).sq = (s.fn p).sq
  | .outRings, s, t => ∀ p, (t.fn p).oq = (s.fn p).oq
  | .mailboxes, s, t => ∀ p, (t.fn p).mbx = (s.fn p).mbx
  | .functions, s, t => ∀ p, (t.fn p).controls = (s.fn p).controls
  | .hostMem, s, t => t.host.mem = s.host.mem
  | .hostLink, s, t => t.host.numVfs = s.host.numVfs ∧ t.host.linkUp = s.host.linkUp ∧
      t.host.perstReleased = s.host.perstReleased ∧ t.host.linkRate = s.host.linkRate ∧ t.host.linkWidth = s.host.linkWidth
  | .window, s, t => t.host.windowData = s.host.windowData
  | .straps, s, t => t.xr.devId = s.xr.devId ∧ t.xr.strapBad = s.xr.strapBad
  | .ports, s, t => t.xr.ports = s.xr.ports
  | .rxDescs, s, t => t.xr.rxDescs = s.xr.rxDescs
  | .grants, s, t => t.xr.grants = s.xr.grants
  | .remoteOps, s, t => t.xr.ops = s.xr.ops
  | .migrations, s, t => t.xr.migs = s.xr.migs
  | .peerWalks, s, t => t.xr.walks = s.xr.walks ∧ t.xr.peerTables = s.xr.peerTables ∧ t.xr.peerPages = s.xr.peerPages
  | .time, s, t => t.tm.t = s.tm.t ∧ t.tm.cycles = s.tm.cycles
  | .timeState, s, t => t.tm.state = s.tm.state ∧ t.tm.e = s.tm.e ∧ t.tm.r = s.tm.r ∧ t.tm.oPrev = s.tm.oPrev ∧
      t.tm.refSince = s.tm.refSince ∧ t.tm.refSource = s.tm.refSource ∧ t.tm.stepped = s.tm.stepped ∧
      t.tm.ppsValid = s.tm.ppsValid ∧ t.tm.ppsLastEdge = s.tm.ppsLastEdge ∧ t.tm.ppsAccepted = s.tm.ppsAccepted ∧
      t.tm.ppsPhase = s.tm.ppsPhase ∧ t.tm.heard = s.tm.heard ∧ t.tm.master = s.tm.master ∧ t.tm.exchNo = s.tm.exchNo ∧
      t.tm.exch = s.tm.exch ∧ t.tm.holdSince = s.tm.holdSince ∧ t.tm.masterHold = s.tm.masterHold ∧
      t.tm.holdS = s.tm.holdS ∧ t.tm.refusedReported = s.tm.refusedReported ∧ t.tm.offsetNs = s.tm.offsetNs ∧
      t.tm.lastStepNs = s.tm.lastStepNs
  | .objects, s, t => t.ctl.od = s.ctl.od
  | .flash, s, t => t.ctl.flashA = s.ctl.flashA ∧ t.ctl.flashB = s.ctl.flashB
  | .select, s, t => t.ctl.sel = s.ctl.sel ∧ t.ctl.timeFrac = s.ctl.timeFrac
  | .faultLog, s, t => t.ctl.faultLog = s.ctl.faultLog
  | .nmt, s, t => t.ctl.nmt = s.ctl.nmt ∧ t.ctl.freezeTo = s.ctl.freezeTo ∧ t.ctl.nmtWait = s.ctl.nmtWait ∧
      t.ctl.resetPending = s.ctl.resetPending
  | .emcy, s, t => t.ctl.emcy = s.ctl.emcy ∧ t.ctl.conditions = s.ctl.conditions
  | .canOut, s, t => t.ctl.canOut = s.ctl.canOut
  | .node, s, t => t.ctl.nodeId = s.ctl.nodeId ∧ t.ctl.nodeSource = s.ctl.nodeSource ∧
      t.ctl.nominalRate = s.ctl.nominalRate ∧ t.ctl.dataRate = s.ctl.dataRate
  | .sendTimes, s, t => t.ctl.emcyAt = s.ctl.emcyAt ∧ t.ctl.tpdo = s.ctl.tpdo
  | .usdo, s, t => t.ctl.usdo = s.ctl.usdo
  | .stage, s, t => t.ctl.stage = s.ctl.stage
  | .hbLost, s, t => t.ctl.hbLost = s.ctl.hbLost
  | .debug, s, t => t.ctl.dbgStrap = s.ctl.dbgStrap ∧ t.ctl.tapReset = s.ctl.tapReset ∧ t.ctl.probeJ3 = s.ctl.probeJ3
  | .coresDown, s, t => t.ctl.coresDown = s.ctl.coresDown
  | .answers, s, t => t.ctl.answers = s.ctl.answers
  | .supply, s, t => t.pw.auxPg = s.pw.auxPg ∧ t.pw.pgMod = s.pw.pgMod ∧ t.pw.vinOk = s.pw.vinOk ∧
      t.pw.vinWaits = s.pw.vinWaits ∧ t.pw.seqStep = s.pw.seqStep ∧ t.pw.railsUp = s.pw.railsUp ∧ t.pw.down = s.pw.down ∧
      t.pw.downCause = s.pw.downCause ∧ t.pw.railFaults = s.pw.railFaults ∧ t.pw.heldOff = s.pw.heldOff ∧
      t.pw.vinFell = s.pw.vinFell ∧ t.pw.holdupOk = s.pw.holdupOk ∧ t.pw.ride = s.pw.ride
  | .monitors, s, t => t.pw.mon = s.pw.mon
  | .powerState, s, t => t.pw.powerState = s.pw.powerState ∧ t.pw.target = s.pw.target ∧ t.pw.changing = s.pw.changing ∧
      t.pw.waiting = s.pw.waiting ∧ t.pw.autoCrocus = s.pw.autoCrocus ∧ t.pw.wake = s.pw.wake ∧
      t.pw.tulipPending = s.pw.tulipPending ∧ t.pw.tulipMask = s.pw.tulipMask ∧ t.pw.snowPorts = s.pw.snowPorts
  | .throttle, s, t => t.pw.powerDw = s.pw.powerDw ∧ t.pw.levelP = s.pw.levelP ∧ t.pw.levelT = s.pw.levelT ∧
      t.pw.lowMs = s.pw.lowMs ∧ t.pw.coolMs = s.pw.coolMs
  | .sensors, s, t => t.pw.sensors = s.pw.sensors ∧ t.pw.fastRefresh = s.pw.fastRefresh
  | .schedule, s, t => t.pw.schedSaved = s.pw.schedSaved ∧ t.pw.schedDay = s.pw.schedDay
  | .clock, s, t => t.boot.pllLocked = s.boot.pllLocked ∧ t.boot.engDiv = s.boot.engDiv ∧
      t.boot.lockLosses = s.boot.lockLosses
  | .startup, s, t => t.boot.step = s.boot.step ∧ t.boot.fails = s.boot.fails ∧ t.boot.hold = s.boot.hold ∧
      t.boot.resetCause = s.boot.resetCause ∧ t.boot.failedStep = s.boot.failedStep ∧ t.boot.startupMs = s.boot.startupMs
  | .banks, s, t => t.boot.runningBank = s.boot.runningBank ∧ t.boot.bankA = s.boot.bankA ∧ t.boot.bankB = s.boot.bankB ∧
      t.boot.runningDigest = s.boot.runningDigest ∧ t.boot.serial = s.boot.serial
  | .calibration, s, t => t.boot.squares = s.boot.squares ∧ t.boot.globalPoint = s.boot.globalPoint ∧
      t.boot.walkSquare = s.boot.walkSquare ∧ t.boot.walkNext = s.boot.walkNext ∧ t.boot.recorded = s.boot.recorded

/-- Every part of the state. -/
def StatePart.all : List StatePart :=
  [.free, .sp, .errors, .tags, .handles, .gather, .acc, .tileTags, .hbm, .ctlMem, .core, .scrub, .cmds, .live, .ended,
   .reports, .turns, .batchTable, .mail, .regulators, .engCtr, .domains, .squares, .seqs, .spill, .tree, .streams,
   .chunks, .mirror, .models, .batches, .commitLog, .waiting, .clocks, .subRings, .outRings, .mailboxes, .functions,
   .hostMem, .hostLink, .window, .straps, .ports, .rxDescs, .grants, .remoteOps, .migrations, .peerWalks, .time,
   .timeState, .objects, .flash, .select, .faultLog, .nmt, .emcy, .canOut, .node, .sendTimes, .usdo, .stage, .hbLost,
   .debug, .coresDown, .answers, .supply, .monitors, .powerState, .throttle, .sensors, .schedule, .clock, .startup,
   .banks, .calibration]

/-- Every part but these. -/
def StatePart.allBut (l : List StatePart) : List StatePart := StatePart.all.filter fun p => !l.contains p

/-- The parts of the state that a command may change; it leaves every other part as it was. -/
def changes : Instr → List StatePart
  | .nop .. | .setParams .. | .exportEntry .. | .importEntry .. | .migrateIn .. | .modelLoad .. | .modelUnload .. =>
    [.seqs, .streams, .chunks, .models, .waiting, .subRings, .outRings]
  | .audio .. | .tokens .. => [.regulators, .seqs, .streams, .chunks, .models, .waiting, .subRings, .outRings, .objects]
  | .openStream .. => [.seqs, .streams, .chunks, .mirror, .models, .waiting, .subRings, .outRings, .objects]
  | .closeDrain .. =>
    [.sp, .errors, .tags, .acc, .tileTags, .cmds, .ended, .mail, .domains, .seqs, .streams, .chunks, .mirror, .models,
     .waiting, .clocks, .subRings, .outRings, .ports, .peerWalks, .objects, .faultLog, .emcy]
  | .closeAbort .. =>
    [.sp, .errors, .tags, .acc, .tileTags, .cmds, .ended, .mail, .domains, .seqs, .streams, .chunks, .models, .batches,
     .waiting, .clocks, .subRings, .outRings, .ports, .rxDescs, .migrations, .peerWalks, .objects, .faultLog, .emcy]
  | .resume .. => [.seqs, .streams, .chunks, .models, .waiting, .subRings, .outRings, .migrations, .objects]
  | .exportCapture .. =>
    [.sp, .errors, .tags, .acc, .tileTags, .cmds, .ended, .mail, .domains, .seqs, .streams, .chunks, .mirror, .models,
     .waiting, .clocks, .outRings, .ports, .migrations, .peerWalks, .objects, .faultLog, .emcy]
  | .blobWriteDone .. =>
    [.sp, .errors, .tags, .acc, .tileTags, .cmds, .ended, .mail, .domains, .seqs, .streams, .chunks, .mirror, .models,
     .batches, .waiting, .clocks, .outRings, .hostMem, .ports, .rxDescs, .migrations, .peerWalks, .objects, .faultLog,
     .emcy]
  | .importBlobReadDone .. =>
    [.sp, .errors, .seqs, .spill, .streams, .chunks, .mirror, .models, .waiting, .outRings, .functions, .objects]
  | .migrateOut .. =>
    [.sp, .errors, .tags, .acc, .tileTags, .cmds, .ended, .mail, .domains, .seqs, .streams, .chunks, .mirror, .models,
     .waiting, .clocks, .subRings, .outRings, .ports, .migrations, .peerWalks, .objects, .faultLog, .emcy]
  | .packageReadDone .. => [.errors, .hbm, .seqs, .streams, .chunks, .models, .waiting, .outRings, .functions]
  | .audioFetchFail .. | .entryReadFail .. =>
    [.seqs, .streams, .chunks, .models, .waiting, .subRings, .outRings, .functions]
  | .idleTimeout .. | .swapOut .. | .swapIn .. =>
    [.sp, .errors, .tags, .acc, .tileTags, .cmds, .ended, .mail, .domains, .seqs, .streams, .chunks, .mirror, .models,
     .waiting, .clocks, .outRings, .ports, .peerWalks, .objects, .faultLog, .emcy]
  | .featureFrame .. | .inputSlotFull .. => [.sp, .errors, .tags, .streams, .chunks]
  | .inputExtentCopyDone .. | .replayBackoffExpiry .. => [.chunks]
  | .batchClose .. => [.live, .streams, .chunks, .models, .batches, .clocks, .objects]
  | .batchReserve .. =>
    [.free, .sp, .errors, .tags, .acc, .tileTags, .cmds, .ended, .mail, .domains, .seqs, .spill, .tree, .streams,
     .chunks, .models, .batches, .waiting, .clocks, .outRings, .ports, .rxDescs, .peerWalks, .objects, .faultLog, .emcy]
  | .chunkCommit .. =>
    [.sp, .errors, .tags, .gather, .acc, .tileTags, .cmds, .ended, .mail, .domains, .seqs, .tree, .streams, .chunks,
     .mirror, .models, .batches, .commitLog, .waiting, .clocks, .outRings, .ports, .rxDescs, .migrations, .peerWalks,
     .objects, .faultLog, .emcy]
  | .chunkAbort .. | .pageWaitLimit | .waitReport .. =>
    [.sp, .errors, .tags, .acc, .tileTags, .cmds, .ended, .mail, .domains, .seqs, .streams, .chunks, .models, .waiting,
     .clocks, .outRings, .ports, .rxDescs, .peerWalks, .objects, .faultLog, .emcy]
  | .chunkReplay .. => [.sp, .errors, .chunks, .objects, .faultLog]
  | .descSubmit .. => [.cmds, .reports, .mail, .objects]
  | .roundaboutIssue .. =>
    [.sp, .errors, .gather, .cmds, .turns, .regulators, .seqs, .clocks, .objects, .faultLog, .emcy]
  | .tagClaim .. => [.tags, .tileTags, .cmds, .seqs, .clocks, .objects, .faultLog, .emcy]
  | .commandComplete .. | .cmdTimeout .. =>
    [.sp, .errors, .tags, .gather, .acc, .tileTags, .cmds, .ended, .turns, .mail, .regulators, .engCtr, .domains,
     .squares, .seqs, .tree, .streams, .chunks, .models, .waiting, .clocks, .outRings, .ports, .rxDescs, .peerWalks,
     .objects, .faultLog, .emcy, .calibration]
  | .nopCmd .. => [.cmds]
  | .matmul .. | .tileStore .. | .vxRun .. | .vxSoftmax .. | .seScan .. | .seCarry .. | .atMerge .. =>
    [.free, .sp, .errors, .gather, .acc, .cmds, .mail, .engCtr, .spill, .objects, .faultLog, .emcy]
  | .atAppend .. =>
    [.free, .sp, .errors, .gather, .acc, .cmds, .mail, .engCtr, .seqs, .spill, .objects, .faultLog, .emcy]
  | .atScore .. | .atValue .. =>
    [.free, .sp, .errors, .gather, .acc, .cmds, .mail, .regulators, .engCtr, .seqs, .spill, .tree, .ports, .remoteOps,
     .objects, .faultLog, .emcy]
  | .tkSelect .. | .tkTopk .. | .tkVerify .. | .tkPrefix .. | .tkDetok .. | .egOla .. =>
    [.free, .sp, .errors, .gather, .acc, .cmds, .mail, .engCtr, .spill, .chunks, .objects, .faultLog, .emcy]
  | .egProv .. =>
    [.free, .sp, .errors, .gather, .acc, .cmds, .mail, .engCtr, .seqs, .spill, .streams, .chunks, .models, .waiting,
     .outRings, .objects, .faultLog, .emcy]
  | .egPublish .. =>
    [.sp, .errors, .tags, .acc, .tileTags, .cmds, .ended, .mail, .domains, .seqs, .spill, .streams, .chunks, .mirror,
     .models, .batches, .commitLog, .waiting, .clocks, .outRings, .ports, .rxDescs, .migrations, .peerWalks, .objects,
     .faultLog, .emcy]
  | .egressDrain .. =>
    [.sp, .errors, .tags, .acc, .tileTags, .cmds, .ended, .mail, .regulators, .domains, .seqs, .streams, .chunks,
     .mirror, .models, .batches, .commitLog, .waiting, .clocks, .outRings, .functions, .hostMem, .ports, .rxDescs,
     .migrations, .peerWalks, .objects, .faultLog, .emcy]
  | .inRelease .. => [.errors, .tags, .cmds, .spill, .chunks, .objects]
  | .feCtx .. =>
    [.free, .sp, .errors, .gather, .acc, .cmds, .mail, .engCtr, .spill, .streams, .objects, .faultLog, .emcy]
  | .lnCopy .. => [.free, .sp, .errors, .gather, .acc, .hbm, .cmds, .mail, .engCtr, .spill, .objects, .faultLog, .emcy]
  | .lnHost .. =>
    [.free, .sp, .errors, .gather, .acc, .hbm, .cmds, .mail, .engCtr, .spill, .functions, .hostMem, .objects, .faultLog,
     .emcy]
  | .lnRwrite .. =>
    [.free, .sp, .errors, .gather, .acc, .cmds, .mail, .engCtr, .spill, .ports, .remoteOps, .objects, .faultLog, .emcy]
  | .lnRtag .. | .lnRread .. => [.errors, .cmds, .spill, .ports, .remoteOps, .objects]
  | .tagSet .. => [.sp, .errors, .tags, .gather, .acc, .tileTags, .cmds, .domains, .spill, .objects, .faultLog, .emcy]
  | .mbPost .. => [.errors, .ctlMem, .cmds, .mail, .spill, .objects]
  | .mailboxFreed .. =>
    [.sp, .errors, .tags, .acc, .tileTags, .ctlMem, .cmds, .ended, .mail, .domains, .seqs, .streams, .chunks, .models,
     .waiting, .clocks, .outRings, .ports, .rxDescs, .peerWalks, .objects, .faultLog, .emcy]
  | .chunkCancel .. | .walkEnd .. =>
    [.sp, .errors, .tags, .acc, .tileTags, .cmds, .ended, .mail, .domains, .seqs, .streams, .chunks, .models, .waiting,
     .clocks, .outRings, .ports, .peerWalks, .objects, .faultLog, .emcy]
  | .batchTableWrite .. => [.batchTable]
  | .handleWrite .. => [.handles, .objects]
  | .narrowWrite .. => [.sp, .errors, .tags, .gather, .objects, .faultLog, .emcy]
  | .gatherIdleFlush .. => [.sp, .errors, .gather, .objects, .faultLog, .emcy]
  | .scrubVisit .. =>
    [.sp, .errors, .tags, .acc, .tileTags, .scrub, .cmds, .ended, .mail, .domains, .seqs, .spill, .tree, .streams,
     .chunks, .models, .waiting, .clocks, .outRings, .ports, .peerWalks, .objects, .faultLog, .emcy]
  | .hbmScrubVisit .. =>
    [.errors, .tags, .acc, .tileTags, .hbm, .cmds, .ended, .mail, .domains, .seqs, .spill, .tree, .streams, .chunks,
     .mirror, .models, .waiting, .clocks, .outRings, .ports, .peerWalks, .objects, .faultLog, .emcy]
  | .quarterPowerDown .. => [.sp, .errors, .gather, .scrub, .domains, .objects, .faultLog, .emcy]
  | .quarterDrained .. => [.sp, .errors, .tags, .gather, .scrub, .domains, .objects, .faultLog, .emcy]
  | .drainAbandon .. => [.scrub, .domains, .objects]
  | .quarterPowerUp .. => [.domains]
  | .quarterWakeDone .. => [.sp, .errors, .tags, .domains]
  | .mxPowerDown .. => [.errors, .acc, .tileTags, .domains]
  | .regulatorRefill => [.regulators]
  | .stormSecond => [.clocks, .objects, .emcy]
  | .stepBoundary =>
    [.free, .sp, .errors, .tags, .acc, .tileTags, .cmds, .ended, .mail, .domains, .seqs, .spill, .tree, .streams,
     .chunks, .models, .waiting, .clocks, .outRings, .ports, .rxDescs, .peerWalks, .objects, .faultLog, .emcy]
  | .pageDemote .. => [.free, .sp, .errors, .seqs, .spill, .tree, .objects, .faultLog, .emcy]
  | .tableEdit .. => [.seqs]
  | .reclaimFree .. | .rebuildMark .. => [.seqs, .objects]
  | .prefixLookup .. => [.seqs, .tree, .clocks, .objects]
  | .residencyEvict .. => [.models]
  | .ccWatchdog .. | .coreMemoryUncorrectable .. =>
    [.sp, .errors, .tags, .acc, .tileTags, .core, .cmds, .ended, .mail, .domains, .seqs, .tree, .streams, .chunks,
     .mirror, .models, .batches, .commitLog, .waiting, .clocks, .outRings, .ports, .rxDescs, .migrations, .peerWalks,
     .objects, .faultLog, .emcy, .usdo, .coresDown]
  | .write .. => [.sp, .errors, .tags, .ports, .rxDescs, .objects, .faultLog, .emcy]
  | .writeEnd .. => [.tags, .ports, .rxDescs]
  | .landed .. => [.cmds, .ports, .grants, .remoteOps, .objects, .faultLog]
  | .rtag .. => [.tags, .ports]
  | .rreadReq .. =>
    [.sp, .errors, .tags, .acc, .tileTags, .cmds, .ended, .mail, .domains, .seqs, .tree, .streams, .chunks, .models,
     .waiting, .clocks, .outRings, .ports, .peerWalks, .objects, .faultLog, .emcy]
  | .rreadData .. => [.sp, .errors, .cmds, .ports, .remoteOps, .peerWalks, .objects, .faultLog, .emcy]
  | .retryRsp .. | .rreadRetryTimer .. => [.ports, .remoteOps]
  | .walkReq .. => [.seqs, .clocks, .ports, .peerWalks]
  | .walkData .. => [.cmds, .ports, .remoteOps, .peerWalks, .objects, .faultLog]
  | .cancel .. =>
    [.errors, .tags, .acc, .tileTags, .cmds, .ended, .mail, .domains, .seqs, .clocks, .ports, .rxDescs, .peerWalks,
     .objects]
  | .rxReg .. => [.tags, .ports, .rxDescs, .grants]
  | .offer .. | .refuse .. | .migrateAckTimeout .. | .reofferTimer .. =>
    [.seqs, .streams, .chunks, .models, .waiting, .outRings, .ports, .migrations]
  | .accept .. | .notReady .. => [.ports, .migrations]
  | .migData .. =>
    [.sp, .errors, .seqs, .spill, .streams, .chunks, .mirror, .models, .waiting, .outRings, .ports, .migrations,
     .objects]
  | .migAck .. | .migAbort .. =>
    [.sp, .errors, .tags, .acc, .tileTags, .cmds, .ended, .mail, .domains, .seqs, .streams, .chunks, .models, .batches,
     .waiting, .clocks, .outRings, .ports, .rxDescs, .migrations, .peerWalks, .objects, .faultLog, .emcy]
  | .release .. => [.seqs, .streams, .chunks, .models, .waiting, .outRings, .ports, .migrations, .objects]
  | .migrateHeldTimeout .. => [.seqs, .streams, .chunks, .models, .waiting, .outRings, .migrations]
  | .migrateInTimeout .. => [.seqs, .streams, .chunks, .models, .waiting, .outRings]
  | .null .. | .retryTimeout .. =>
    [.sp, .errors, .tags, .gather, .acc, .tileTags, .cmds, .ended, .turns, .mail, .regulators, .engCtr, .domains,
     .squares, .seqs, .tree, .streams, .chunks, .models, .waiting, .clocks, .outRings, .ports, .rxDescs, .grants,
     .remoteOps, .peerWalks, .timeState, .objects, .faultLog, .emcy, .calibration]
  | .linkFrameRx .. =>
    [.sp, .errors, .tags, .gather, .acc, .tileTags, .cmds, .ended, .turns, .mail, .regulators, .engCtr, .domains,
     .squares, .seqs, .tree, .streams, .chunks, .models, .waiting, .clocks, .outRings, .ports, .rxDescs, .grants,
     .remoteOps, .peerWalks, .timeState, .objects, .faultLog, .emcy, .powerState, .calibration]
  | .ackTimer .. | .downWaitExpiry .. | .signalDetect .. | .lanesLocked .. | .lanesDeskewed .. | .trainingTimeout ..
  | .peerRequestTimeout .. | .delayReq .. => [.ports]
  | .portDownTimeout .. | .blockLockLost .. =>
    [.sp, .errors, .tags, .gather, .acc, .tileTags, .cmds, .ended, .turns, .mail, .regulators, .engCtr, .domains,
     .squares, .seqs, .tree, .streams, .chunks, .models, .waiting, .clocks, .outRings, .ports, .rxDescs, .grants,
     .remoteOps, .peerWalks, .objects, .faultLog, .emcy, .calibration]
  | .escapeTimeout .. => [.ports, .objects]
  | .ident .. => [.ports, .objects, .emcy]
  | .ppsEdge =>
    [.scrub, .cmds, .mail, .squares, .seqs, .streams, .chunks, .batches, .clocks, .migrations, .time, .timeState,
     .objects, .emcy, .sendTimes]
  | .ppsLoss | .electionWindowExpiry .. => [.timeState]
  | .syncTimer => [.ports, .timeState]
  | .sync .. => [.ports, .timeState, .objects, .emcy]
  | .followUp .. => [.ports, .timeState, .objects]
  | .delayResp .. =>
    [.scrub, .cmds, .mail, .squares, .seqs, .streams, .chunks, .batches, .clocks, .ports, .migrations, .time, .timeState,
     .objects, .emcy, .sendTimes]
  | .holdoverEntry | .holdoverLimitExpiry => [.timeState, .objects, .emcy]
  | .timeNsWrite .. | .trustRelease .. | .debugAccess .. | .objectWrite .. | .counterClear .. | .clear ..
  | .resetPoints .. | .jtagEnableWrite .. | .portEnableWrite .. | .stateRequest .. | .powerLimit .. =>
    StatePart.allBut [.free, .handles, .hbm, .ctlMem, .core, .reports, .batchTable, .spill, .mirror, .commitLog, .subRings, .mailboxes, .functions, .hostMem, .hostLink, .window, .straps, .nmt, .canOut, .node, .usdo, .stage, .hbLost, .coresDown, .supply, .throttle, .sensors, .clock, .startup]
  | .nmtStart .. | .nmtStop .. | .nmtEnterPreop .. | .nmtResetNode .. | .nmtResetComm .. | .freezeDone =>
    StatePart.allBut [.free, .straps, .flash, .supply, .monitors]
  | .heartbeat .. | .heartbeatTimeout => [.objects, .emcy, .hbLost]
  | .heartbeatProduce => [.canOut]
  | .usdoRequest .. =>
    StatePart.allBut [.free, .handles, .hbm, .ctlMem, .core, .reports, .batchTable, .spill, .mirror, .commitLog, .subRings, .mailboxes, .functions, .hostMem, .hostLink, .window, .straps, .nmt, .canOut, .node, .stage, .hbLost, .coresDown, .supply, .throttle, .sensors, .clock, .startup]
  | .usdoTimeout .. => [.usdo, .answers]
  | .rpdo1 .. | .peerObjectRequest .. =>
    [.sp, .errors, .tags, .gather, .acc, .tileTags, .scrub, .cmds, .live, .ended, .turns, .mail, .regulators, .engCtr,
     .domains, .squares, .seqs, .tree, .streams, .chunks, .models, .batches, .waiting, .clocks, .outRings, .ports,
     .rxDescs, .grants, .remoteOps, .migrations, .peerWalks, .time, .timeState, .objects, .flash, .select, .faultLog,
     .emcy, .sendTimes, .debug, .monitors, .powerState, .schedule, .banks, .calibration]
  | .tpdoSend .. => [.canOut, .sendTimes]
  | .emcySend => [.emcy, .canOut, .sendTimes]
  | .canErrorPassive .. | .busOffRecovered | .canOverrun => [.objects, .emcy]
  | .busOff | .canFrameIgnored .. | .limitUnmetExpiry => [.objects]
  | .go .. =>
    StatePart.allBut [.free, .handles, .hbm, .ctlMem, .core, .reports, .batchTable, .spill, .mirror, .commitLog, .subRings, .hostMem, .hostLink, .window, .straps, .nmt, .canOut, .node, .usdo, .stage, .hbLost, .coresDown, .answers, .supply, .throttle, .sensors, .clock, .startup]
  | .peerObjectResponse .. => [.ports, .answers]
  | .stageImage .. =>
    StatePart.allBut [.free, .handles, .hbm, .ctlMem, .core, .reports, .batchTable, .spill, .mirror, .commitLog, .subRings, .mailboxes, .functions, .hostMem, .hostLink, .window, .straps, .nmt, .canOut, .node, .usdo, .hbLost, .coresDown, .supply, .throttle, .sensors, .clock, .startup]
  | .sqDb .. => [.subRings, .functions, .powerState]
  | .oqCons .. =>
    [.sp, .errors, .tags, .acc, .tileTags, .cmds, .ended, .mail, .domains, .seqs, .streams, .chunks, .mirror, .models,
     .batches, .commitLog, .waiting, .clocks, .outRings, .functions, .ports, .rxDescs, .migrations, .peerWalks, .objects,
     .faultLog, .emcy]
  | .sqEnableWrite .. => [.subRings, .functions]
  | .oqEnableWrite .. | .msixModTimer .. => [.outRings, .functions]
  | .ringRegisterWrite .. => [.subRings, .outRings, .functions]
  | .headWbTimer .. => [.subRings, .hostMem]
  | .msixUnmask .. => [.functions]
  | .bar4Access .. => [.sp, .errors, .gather, .window, .objects, .faultLog, .emcy]
  | .busMasterEnableChange .. => [.subRings, .functions, .hostMem]
  | .flr .. =>
    [.sp, .errors, .tags, .handles, .acc, .tileTags, .cmds, .ended, .mail, .domains, .seqs, .tree, .streams, .chunks,
     .models, .batches, .commitLog, .waiting, .clocks, .subRings, .outRings, .mailboxes, .functions, .ports, .rxDescs,
     .migrations, .peerWalks, .objects, .faultLog, .emcy]
  | .flrDone .. => [.seqs, .streams, .chunks, .functions]
  | .vfEnableClear .. | .hotReset .. =>
    [.sp, .errors, .tags, .handles, .acc, .tileTags, .cmds, .ended, .mail, .domains, .seqs, .tree, .streams, .chunks,
     .models, .batches, .commitLog, .waiting, .clocks, .subRings, .outRings, .mailboxes, .functions, .hostLink, .ports,
     .rxDescs, .migrations, .peerWalks, .objects, .faultLog, .emcy]
  | .perstNRelease => [.hostLink]
  | .pcieLinkUp .. => [.domains, .hostLink]
  | .vauxGood .. => StatePart.allBut [.free, .hostMem, .flash, .canOut]
  | .vauxLost .. | .vinUndervoltageLockout .. | .vinOvervoltageLockout .. | .railFault .. =>
    StatePart.allBut [.free, .hostMem, .straps, .flash, .canOut, .node]
  | .vinStart .. => [.supply, .monitors, .startup]
  | .vinOutOfRange .. => [.objects, .emcy, .monitors]
  | .vinReturn .. | .sequencerStepDone .. => [.objects, .emcy, .supply, .monitors]
  | .rideThroughExpiry | .pllLockLoss | .thermalTrip =>
    StatePart.allBut [.free, .hostMem, .straps, .flash, .canOut, .node, .monitors]
  | .railRetryTimer => [.supply, .startup]
  | .startupStepDone .. => StatePart.allBut [.free, .hostMem, .straps, .monitors]
  | .startupStepFail => StatePart.allBut [.free, .hostMem, .straps, .flash, .canOut, .node, .supply, .monitors]
  | .sensorRead .. => [.objects, .emcy, .sensors]
  | .thermalTick => [.objects, .emcy, .throttle, .sensors, .clock]
  | .powerLoopTick .. => [.throttle, .clock]
  | .crocusIdleExpiry | .crocusWake => [.powerState]
  | .tulipEntry => [.errors, .acc, .tileTags, .domains, .powerState]
  | .snowdropEntry =>
    [.free, .sp, .errors, .tags, .gather, .acc, .tileTags, .cmds, .ended, .turns, .mail, .regulators, .engCtr, .domains,
     .squares, .seqs, .spill, .tree, .streams, .chunks, .mirror, .models, .waiting, .clocks, .outRings, .hostLink,
     .ports, .rxDescs, .grants, .remoteOps, .peerWalks, .objects, .faultLog, .emcy, .powerState, .calibration]
  | .snowdropExit => [.sp, .errors, .tags, .domains, .models, .ports, .powerState]
  | .powerStateChangeDone => [.errors, .acc, .tileTags, .domains, .objects, .powerState]
  | .scheduleStart | .scheduleEnd => [.objects, .powerState, .schedule]
  | .probeChange .. => [.debug]
  | .walkStart | .qualificationDone .. | .walkAbandon | .tempGuardExpiry .. => [.squares, .objects, .emcy, .calibration]
  | .qualWindowExpiry .. => [.calibration]
  | .qualRetryTimer .. => [.squares, .calibration]
  | .mailboxTransferTimeout .. => [.mailboxes]
  | .vfEnableSet .. => [.subRings, .outRings, .mailboxes, .functions, .hostLink]
  | .controlCoreRestarted .. =>
    StatePart.allBut [.free, .handles, .hbm, .ctlMem, .core, .reports, .batchTable, .spill, .mirror, .commitLog, .subRings, .hostMem, .hostLink, .window, .straps, .nmt, .canOut, .node, .usdo, .stage, .hbLost, .answers, .supply, .throttle, .sensors, .clock, .startup]

end Sys2Proof.Machine
end

