-- ==== Sys2Proof/WellFormed.lean ====
section
/-! DEFINITION. Which commands are well formed: operands that their types alone do not bound. `exec` answers every command;
one that is not well formed is none that the outside of the block can send. -/

namespace Sys2Proof

/-- A VF port is that of VF 1 to 15; partition 0 is the PF's (R502, R535). -/
def portOk : PortClass → Bool
  | .vf n => n.val != 0
  | _ => true

/-- A CAN FD frame carries at most 64 bytes (R487). -/
def canBytes (data : List Byte) : Bool := decide (data.length ≤ 64)

/-- The data of one USDO frame. -/
def usdoOk : UsdoReq → Bool
  | .write _ _ data => canBytes data
  | .begin _ _ data => canBytes data
  | .segment data _ => canBytes data
  | _ => true

/-- Straps are sampled as one pair or two: NODE_ID of 7 bits, DEV_ID of 3 (R450, R491). -/
def strapsOk (l : List StrapSample) : Bool :=
  (l.length == 2 || l.length == 4) && l.all fun x => decide (x.node < 128 ∧ x.dev < 8)

/-- A narrow write of 1 to 64 bytes lies within its row; records are formed by control cores (R115, R197, R201, R205). -/
def narrowShape (port at_ : Nat) : NarrowData → Bool
  | .bytes l => decide (1 ≤ l.length ∧ l.length ≤ 64 ∧ at_ + l.length ≤ 512)
  | .requant .. => decide (4 ≤ port ∧ at_ + 8 ≤ 512)
  | _ => decide (4 ≤ port ∧ at_ + 16 ≤ 512)

/-- Whether the operands of a command are such as the outside can give it. -/
def Instr.wellFormed : Instr → Bool
  | .descSubmit core _ others => decide ((core :: others.map (·.1)).Nodup)
  | .commandComplete _ busy => decide (busy < 2 ^ 64)
  | .mbPost _ _ writes => writes.all (Nat.blt ·.1 (2 ^ 20))
  | .narrowWrite port _ _ _ _ at_ data _ _ => narrowShape port.val at_ data
  | .timeNsWrite port _ => portOk port
  | .trustRelease port _ => portOk port
  | .usdoRequest _ req => usdoOk req
  | .rpdo1 data => canBytes data
  | .go _ req => decide (req.data.length ≤ 2048)
  | .objectWrite port _ _ _ => portOk port
  | .counterClear port _ => portOk port
  | .clear port _ _ => portOk port
  | .stageImage port _ _ _ => portOk port
  | .resetPoints port _ => portOk port
  | .jtagEnableWrite port _ => portOk port
  | .portEnableWrite port _ _ => portOk port
  | .stateRequest port _ => portOk port
  | .powerLimit port _ => portOk port
  | .bar4Access _ wr len data => decide (1 ≤ len ∧ len ≤ 64) && (!wr || data.length == len)
  | .vfEnableClear num => decide (num ≤ 15)
  | .hotReset cause => decide (cause < 4)
  | .vauxGood _ straps => strapsOk straps
  | .railFault code _ => decide (1 ≤ code ∧ code ≤ 8)
  | .startupStepDone r => r.badSquares.all (Nat.blt · 8)
  | .sensorRead temps => temps.length == 21
  | .vfEnableSet num => decide (num ≤ 15)
  | .nop .. | .audio .. | .tokens .. | .openStream .. | .closeDrain .. | .closeAbort .. | .setParams .. | .resume ..
  | .exportEntry .. | .exportCapture .. | .blobWriteDone .. | .importEntry .. | .importBlobReadDone ..
  | .migrateOut .. | .migrateIn .. | .modelLoad .. | .packageReadDone .. | .modelUnload .. | .audioFetchFail ..
  | .entryReadFail .. | .idleTimeout .. | .featureFrame .. | .inputSlotFull .. | .inputExtentCopyDone ..
  | .batchClose .. | .batchReserve .. | .swapOut .. | .swapIn .. | .chunkCommit .. | .chunkAbort .. | .chunkReplay ..
  | .replayBackoffExpiry .. | .roundaboutIssue .. | .tagClaim .. | .cmdTimeout .. | .nopCmd .. | .matmul ..
  | .tileStore .. | .vxRun .. | .vxSoftmax .. | .seScan .. | .seCarry .. | .atAppend .. | .atScore .. | .atValue ..
  | .atMerge .. | .tkSelect .. | .tkTopk .. | .tkVerify .. | .tkPrefix .. | .tkDetok .. | .egProv .. | .egOla ..
  | .egPublish .. | .egressDrain .. | .inRelease .. | .feCtx .. | .lnCopy .. | .lnHost .. | .lnRwrite .. | .lnRtag ..
  | .lnRread .. | .tagSet .. | .mailboxFreed .. | .chunkCancel .. | .batchTableWrite .. | .handleWrite ..
  | .gatherIdleFlush .. | .scrubVisit .. | .hbmScrubVisit .. | .quarterPowerDown .. | .quarterDrained ..
  | .drainAbandon .. | .quarterPowerUp .. | .quarterWakeDone .. | .mxPowerDown .. | .regulatorRefill ..
  | .stormSecond .. | .stepBoundary .. | .pageDemote .. | .pageWaitLimit .. | .tableEdit .. | .reclaimFree ..
  | .prefixLookup .. | .rebuildMark .. | .residencyEvict .. | .waitReport .. | .ccWatchdog .. | .write ..
  | .writeEnd .. | .landed .. | .rtag .. | .rreadReq .. | .rreadData .. | .retryRsp .. | .rreadRetryTimer ..
  | .walkReq .. | .walkData .. | .walkEnd .. | .cancel .. | .rxReg .. | .offer .. | .accept .. | .notReady ..
  | .migData .. | .migAck .. | .refuse .. | .release .. | .migAbort .. | .migrateAckTimeout ..
  | .migrateHeldTimeout .. | .reofferTimer .. | .migrateInTimeout .. | .null .. | .linkFrameRx .. | .ackTimer ..
  | .retryTimeout .. | .portDownTimeout .. | .escapeTimeout .. | .ident .. | .downWaitExpiry .. | .signalDetect ..
  | .lanesLocked .. | .lanesDeskewed .. | .blockLockLost .. | .trainingTimeout .. | .peerRequestTimeout ..
  | .ppsEdge .. | .ppsLoss .. | .syncTimer .. | .sync .. | .followUp .. | .delayReq .. | .delayResp ..
  | .electionWindowExpiry .. | .holdoverEntry .. | .holdoverLimitExpiry .. | .nmtStart .. | .nmtStop ..
  | .nmtEnterPreop .. | .nmtResetNode .. | .nmtResetComm .. | .freezeDone .. | .heartbeat .. | .heartbeatTimeout ..
  | .heartbeatProduce .. | .usdoTimeout .. | .tpdoSend .. | .emcySend .. | .canErrorPassive .. | .busOff ..
  | .busOffRecovered .. | .canOverrun .. | .canFrameIgnored .. | .peerObjectRequest .. | .peerObjectResponse ..
  | .debugAccess .. | .sqDb .. | .oqCons .. | .sqEnableWrite .. | .oqEnableWrite .. | .ringRegisterWrite ..
  | .headWbTimer .. | .msixModTimer .. | .msixUnmask .. | .busMasterEnableChange .. | .flr .. | .flrDone ..
  | .perstNRelease .. | .pcieLinkUp .. | .vauxLost .. | .vinStart .. | .vinOutOfRange .. | .vinUndervoltageLockout ..
  | .vinReturn .. | .rideThroughExpiry .. | .vinOvervoltageLockout .. | .sequencerStepDone .. | .railRetryTimer ..
  | .pllLockLoss .. | .startupStepFail .. | .thermalTick .. | .thermalTrip .. | .powerLoopTick ..
  | .limitUnmetExpiry .. | .crocusIdleExpiry .. | .crocusWake .. | .tulipEntry .. | .snowdropEntry ..
  | .snowdropExit .. | .powerStateChangeDone .. | .scheduleStart .. | .scheduleEnd .. | .probeChange ..
  | .walkStart .. | .qualificationDone .. | .walkAbandon .. | .qualWindowExpiry .. | .qualRetryTimer ..
  | .tempGuardExpiry .. | .mailboxTransferTimeout .. | .controlCoreRestarted .. | .coreMemoryUncorrectable .. => true

end Sys2Proof
end

