-- ==== Sys2Proof/Certificates/Slice0/Obligations.lean ====
section
/-! DEFINITION. The statements for the provers. -/

open Sys2Proof Sys2Proof.Machine

/-- For every command c, queue rest and state s whose queue is c followed by the rest, one step is exec of c on s with the
queue's rest. -/
def Obligations.FrontCommandRuns : Prop :=
  ∀ (c : Instr) (rest : List Instr) (s : State), s.pending = c :: rest → step s = exec c { s with pending := rest }

/-- With no command waiting a step adds INCR to the timebase and one to the cycle count and changes nothing else; that a
step on an empty queue is a CK_TIME cycle is the model's design choice (log 3). -/
def Obligations.EmptyQueueTicks : Prop :=
  ∀ s : State, s.pending = [] →
    step s = .next { s with tm := { s.tm with t := (s.tm.t + s.tm.incr) % 2 ^ 96, cycles := s.tm.cycles + 1 } }

/-- At reset no stream exists and no chunk; every slot tag and tile tag is EMPTY with READERS 0; scratchpad, accumulator
stores and HBM read zero everywhere; the timebase is 0 with INCR 5 ns and time state FREE; the NMT state is
initialisation; every object value is its default, no fault is logged and no emergency message waits. (Registers that the
spec gives no reset value hold the values of the log.) -/
def Obligations.ResetValues : Prop :=
  let s := State.reset
  (∀ sid, s.stream? sid = none) ∧ s.str.chunks = [] ∧ (∀ m, (s.model m).state = 0)
  ∧ (∀ n, s.tag n = {}) ∧ (∀ n, s.tileTag n = {})
  ∧ (∀ a, Mem.read s.st.sp a = 0) ∧ (∀ a, Mem.read s.st.acc a = 0) ∧ (∀ a, Mem.read s.st.hbm a = 0)
  ∧ s.tm.t = 0 ∧ s.tm.incr = 5 * 2 ^ 32 ∧ s.tm.state = .free ∧ s.ctl.nmt = .init
  ∧ (∀ idx sub, s.obj idx sub = objDefault idx sub) ∧ s.ctl.faultLog = [] ∧ s.ctl.emcy = []

/-- State.reset satisfies State.Inv: the byte stores are in canonical form, the fault log, EMCY queue, USDO sessions and
commit log within their limits, the flash copies equal, the stream table sorted and within 8,192 entries, and every
accepted command numbered below the next number. -/
def Obligations.ResetMeetsInvariant : Prop :=
  State.reset.Inv

/-- From every state that meets State.Inv, whatever command stands at the front of its queue, the state that a step
answers meets State.Inv. -/
def Obligations.StepKeepsInvariant : Prop :=
  ∀ s t : State, s.Inv → step s = .next t → t.Inv

/-- For every command and state, the next state that exec answers has the same queue of waiting commands. -/
def Obligations.ExecKeepsQueue : Prop :=
  ∀ (c : Instr) (s t : State), exec c s = .next t → t.pending = s.pending

/-- For every command, with any operands, and every state, exec answers a next state: the block reports every error in its
own state and goes on. -/
def Obligations.EveryCommandCompletes : Prop :=
  ∀ (c : Instr) (s : State), ∃ t, exec c s = .next t

/-- Safety.lean names, for every command, the parts of the state that it may change (changes): whenever exec answers a
next state, every other part (scratchpad, tags, handles, accumulators, HBM, mailboxes, page tables, streams, chunks,
rings, ports, object values, fault log, supplies and the rest) stands exactly as it was. -/
def Obligations.FrameOfParts : Prop :=
  ∀ (c : Instr) (s t : State), exec c s = .next t → ∀ p : StatePart, p ∉ changes c → p.same s t

/-- For each of the 15 commands that stand for a ring entry: when the ring's head is consumed now and the entry is of the
command's opcode, the command completes, HEAD of that ring advances by one modulo 2^32 and every other field of every
submission ring stays; when it is not consumed now, the command completes and changes nothing. -/
def Obligations.RingEntryIsConsumed : Prop :=
  ∀ (c : Instr) (p : Part) (ring : Ring) (e : Words8) (s : State),
    ringEntry c = some (p, ring, e) → standsFor c e = true →
    (s.consumes p.val ring.val (isOpener (entOp e)) = true → Completes c s fun t =>
      ∀ q k, t.sq q k = if q = p.val ∧ k = ring.val
        then { s.sq p.val ring.val with head := ((s.sq p.val ring.val).head + 1) % 2 ^ 32 } else s.sq q k)
    ∧ (s.consumes p.val ring.val (isOpener (entOp e)) = false → exec c s = .next s)

/-- For each of the 15 ring commands: when its entry is consumed and breaks a condition of R54, with code the first that
applies, the next state is that in which HEAD has advanced and one DESC_ERROR record with that code, the entry's opcode,
HOST_TAG and ring is published (on the ring of the stream that it names when it names one, else on ring 0); the orders of
the codes 0x01, 0x07 and 0x06 are also stated: a reserved opcode gives 0x01 whatever else holds, a PF-only opcode of a VF
0x07 next, and a stream that is not open gives 0x06 once no reserved bit, range or length error stands before it. -/
def Obligations.MalformedEntryPublishesOneError : Prop :=
  (∀ (c : Instr) (p : Part) (ring : Ring) (e : Words8) (s : State) (code : Nat),
    ringEntry c = some (p, ring, e) → standsFor c e = true → s.consumes p.val ring.val (isOpener (entOp e)) = true →
    s.entryError p.val e = some code →
    exec c s = .next ((s.advanceHead p.val ring.val).descError p.val (if namesSid (entOp e) then some (entSid e) else none) (entOp e)
      (entTag e) code ring.val (if entOp e = 0x01 ∨ entOp e = 0x02 then entSeq e else 0)
      (if entOp e = 0x01 ∨ entOp e = 0x02 then ((s.openIn? p.val (entSid e)).map fun x => x.ing.entrySeq).getD 0 else 0)))
  ∧ (∀ (s : State) (p : Nat) (e : Words8), entOp e ∉ entOpcodes → s.entryError p e = some 0x01)
  ∧ (∀ (s : State) (p : Nat) (e : Words8), p ≠ 0 → (entOp e = 0x30 ∨ entOp e = 0x31) → s.entryError p e = some 0x07)
  ∧ (∀ (s : State) (p : Nat) (e : Words8), entOp e ∈ [0x11, 0x12, 0x13, 0x20, 0x22] → entReserved e = false →
      entNotZero e = false → entOutOfRange s.xr.devId e = false → s.openIn? p (entSid e) = none → s.entryError p e = some 0x06)

/-- For a well-formed entry that is consumed for a stream that is ACTIVE, IDLE or PARKED and whose IN_FORMAT fits: AUDIO
raises the expected ENTRY_SEQ by one and SAMPLES_IN by the samples that LENGTH gives, and sets the expected PTS to the
entry's PTS, or without PTS_VALID to the former expectation, plus the samples' duration; TOKENS raises ENTRY_SEQ and,
below chunk 2^32, forms one complete chunk of the entry's token IDs under the next chunk number; AUDIO_FETCH_FAIL raises
ENTRY_SEQ and leaves SAMPLES_IN and the expected PTS. In each case an IDLE stream becomes ACTIVE and another keeps its
state. -/
def Obligations.InputEntriesAreTaken : Prop :=
  let taken := fun (st x : Stream) => x.ing.entrySeq = (st.ing.entrySeq + 1) % 2 ^ 32
    ∧ x.state = if st.state = .idle then .active else st.state
  ∀ (p : Part) (ring : Ring) (e : Words8) (buf : List Byte) (fault : ReadFault) (s : State) (st : Stream),
    s.consumes p.val ring.val false = true → s.entryError p.val e = none → s.stream? (entSid e) = some st →
    (st.state = .active ∨ st.state = .idle ∨ st.state = .parked) →
    (entOp e = 0x01 → st.cfg.inFormat ≠ 5 →
      let n := ent e 2 0 32 / container st.cfg.inFormat
      Completes (.audio p ring e buf) s fun t => ∃ x, t.stream? (entSid e) = some x ∧ taken st x
        ∧ x.ing.samplesIn = (st.ing.samplesIn + n) % 2 ^ 32
        ∧ x.ing.expectedPts = (if entPtsValid e then some (entWord e 3) else st.ing.expectedPts).map
            fun b => b + n * 1000000000 / inHz st.cfg.inRate)
    ∧ (entOp e = 0x02 → st.cfg.inFormat = 5 →
      Completes (.tokens p ring e buf) s fun t => ∃ x, t.stream? (entSid e) = some x ∧ taken st x
        ∧ (st.ing.chunkNo < 2 ^ 32 → x.ing.chunkNo = st.ing.chunkNo + 1 ∧ ∃ c ∈ t.str.chunks, c.sid = entSid e
            ∧ c.no = st.ing.chunkNo ∧ c.tokens = entTokens e buf ∧ c.owned = ent e 2 0 32 ∧ c.complete = true))
    ∧ ((entOp e = 0x01 ∧ st.cfg.inFormat ≠ 5) ∨ (entOp e = 0x02 ∧ ent e 1 0 64 ≠ 0 ∧ st.cfg.inFormat = 5) →
      Completes (.audioFetchFail p ring e fault) s fun t => ∃ x, t.stream? (entSid e) = some x ∧ taken st x
        ∧ x.ing.samplesIn = st.ing.samplesIn ∧ x.ing.expectedPts = st.ing.expectedPts)

/-- A well-formed AUDIO, TOKENS or failed-fetch entry that is consumed for a stream in a state other than ACTIVE, IDLE and
PARKED advances the expected ENTRY_SEQ and publishes REFUSED with reason STATE (0x0E), and for a stream whose IN_FORMAT is
of the other kind REFUSED with KIND_MISMATCH (0x08); nothing else happens. An entry that could not be read is consumed
with one DESC_ERROR of code 0x08 on output ring 0; a completion timeout also sets the function's completion timeout bit in
its error reports. -/
def Obligations.InputEntriesAreRefused : Prop :=
  (∀ (c : Instr) (p : Part) (ring : Ring) (e : Words8) (s : State) (st : Stream),
    ringEntry c = some (p, ring, e) → standsFor c e = true → (entOp e = 0x01 ∨ entOp e = 0x02) →
    s.consumes p.val ring.val false = true → s.entryError p.val e = none → s.stream? (entSid e) = some st →
    let next := fun (reason : Nat) => (((s.advanceHead p.val ring.val).modStream (entSid e) fun x =>
      { x with ing := { x.ing with entrySeq := (x.ing.entrySeq + 1) % 2 ^ 32 } }).refuse (entSid e) (entOp e) (entTag e) reason)
    (st.state ≠ .active → st.state ≠ .idle → st.state ≠ .parked → exec c s = .next (next 0x0E))
    ∧ ((st.state = .active ∨ st.state = .idle ∨ st.state = .parked) → (entOp e = 0x02 ↔ st.cfg.inFormat ≠ 5) →
        exec c s = .next (next 0x08)))
  ∧ (∀ (p : Part) (ring : Ring) (fault : ReadFault) (s : State), s.consumes p.val ring.val false = true →
      exec (.entryReadFail p ring fault) s = .next (((s.hostReadFault p.val fault).advanceHead p.val ring.val).descError p.val none 0 0 0x08 ring.val 0 0))
  ∧ (∀ (p : Part) (ring : Ring) (fault : ReadFault) (s : State), s.consumes p.val ring.val false = false → exec (.entryReadFail p ring fault) s = .next s)

/-- A well-formed OPEN that is consumed: with a fault of checks 1 to 3 of R621 it is refused with that reason and no entry
is taken; else the lowest free table entry is taken as OPENING and its EPOCH rises; with a fault of the later checks it is
refused with that reason, and the OPENING entry goes with the refusal; without one the stream is ACTIVE with the
parameters of the entry, nothing committed, STEP_COUNT and SAMPLE_POS 0, ENTRY_SEQ 0, its LC load reserved, both mirror
buffers zero, and no other stream's entry changes. -/
def Obligations.OpenIsAdmittedOrRefused : Prop :=
  ∀ (p : Part) (ring : Ring) (e : Words8) (s : State), takes (.openStream p ring e) s = true →
    let cfg := entCfg p.val e
    (∀ r, s.earlyFault cfg = some r →
      exec (.openStream p ring e) s = .next ((s.passed p ring).refuseOpen p.val 0x10 (entTag e) r none))
    ∧ ∀ sid, s.earlyFault cfg = none → s.freeSid = some sid →
      let u := (s.passed p ring).allocStream sid (entStream p.val ring.val e)
      (∀ r, u.openFault cfg = some r →
        exec (.openStream p ring e) s = .next (u.refuseOpen p.val 0x10 (entTag e) r (some sid)))
      ∧ (u.openFault cfg = none → Completes (.openStream p ring e) s fun t =>
          (∃ x, t.stream? sid = some x ∧ x.state = .active ∧ x.cfg = cfg ∧ x.running = cfg.model ∧ x.nextSeq = 0
            ∧ x.samplePos = 0 ∧ x.ing = {} ∧ x.cr = {} ∧ x.exports = [] ∧ x.slot = none
            ∧ x.load = if cfg.cls = 0 then (s.model cfg.model).lcLoad cfg.chunkMs else 0)
          ∧ Tbl.getD t.str.epoch 0 sid = (Tbl.getD s.str.epoch 0 sid + 1) % 2 ^ 32
          ∧ (∀ a, sid * 393216 ≤ a → a < (sid + 1) * 393216 → Mem.read t.str.mirror a = 0)
          ∧ ∀ q, q ≠ sid → t.stream? q = s.stream? q)

/-- A well-formed IMPORT or MIGRATE_IN that is consumed is refused with the first fault of checks 1 to 3 of R621, or takes
the lowest free entry as OPENING and publishes nothing. When the read of an OPENING import ends: a failed read (a timeout
also sets the error bit of the function) publishes DESC_ERROR 0x08 on ring 0, and a blob with a fault of the later checks
is refused with that reason; the entry goes with either. A blob without a fault opens the stream as ACTIVE: chunk length
and look-ahead from the blob, the next chunk STEP_COUNT, SAMPLE_POS as in the blob, ENTRY_SEQ 0, and both mirror buffers
hold the state planes of the blob. For an entry that is not OPENING, or that waits for a peer's blob, the completed read
changes nothing. -/
def Obligations.ImportAndMigrateInTakeAnEntry : Prop :=
  (∀ (c : Instr) (p : Part) (ring : Ring) (e : Words8) (s : State), c = .importEntry p ring e ∨ c = .migrateIn p ring e →
    takes c s = true →
    (∀ r, s.earlyFault (entCfg p.val e) = some r →
      exec c s = .next ((s.passed p ring).refuseOpen p.val (entOp e) (entTag e) r none))
    ∧ (∀ sid, s.earlyFault (entCfg p.val e) = none → s.freeSid = some sid →
      exec c s = .next ((s.passed p ring).allocStream sid (entStream p.val ring.val e))))
  ∧ (∀ (sid : Sid) (fault : Option ReadFault) (blob : List Byte) (s : State) (st : Stream), s.stream? sid.val = some st →
    (st.state ≠ .opening ∨ st.fromPeer = true → exec (.importBlobReadDone sid fault blob) s = .next s)
    ∧ (st.state = .opening → st.fromPeer = false →
      let b := slice blob 0 st.blobLen
      (∀ f, fault = some f → exec (.importBlobReadDone sid fault blob) s = .next ((s.hostReadFault st.cfg.part f).publishW { part := st.cfg.part, ring := 0, frees := some sid.val, recs := [(descErrorFields (mkRec0 0x0B st.hostTag) 0x08 0x21 st.entRing 0 0, [])] }))
      ∧ (∀ r, fault = none → s.importFault st.cfg b = some r →
          exec (.importBlobReadDone sid fault blob) s = .next (s.refuseOpen st.cfg.part 0x21 st.hostTag r (some sid.val)))
      ∧ (fault = none → s.importFault st.cfg b = none → Completes (.importBlobReadDone sid fault blob) s fun t =>
          (∃ x, t.stream? sid.val = some x ∧ x.state = .active ∧ x.cfg = st.cfg.ofBlob b ∧ x.nextSeq = leAt b 0x38 8
            ∧ x.ing.chunkNo = leAt b 0x38 8 ∧ x.samplePos = leAt b 0x40 8 ∧ x.ing.entrySeq = 0)
          ∧ ∀ (buf : Bool) (i : Nat), i < 512 * ((s.model st.cfg.model).stateRows + (s.model st.cfg.model).residualRows) →
              Mem.read t.str.mirror (mirrorAddr sid.val buf + i) = (b.drop 128).getD i 0)))

/-- For each well-formed entry that is consumed for an open stream st: CLOSE in DRAIN mode acts in ACTIVE, IDLE and PARKED
(a MIGRATE_OUT still waiting is refused, the incomplete chunk is ended, the stream is DRAINING and settles when nothing is
left), CLOSE in ABORT mode in every state but MIGRATING, RESUME in HELD alone, EXPORT in ACTIVE, IDLE, PARKED and
DRAINING, MIGRATE_OUT in ACTIVE, IDLE and PARKED (with no port to the destination it is refused with LINK, 0x0F); SET acts
in every state unless R29, R31 or R43 forbids it. What does not act is refused with REFUSED and STATE (0x0E), SET with
SET_REFUSED. -/
def Obligations.StreamEntriesAct : Prop :=
  ∀ (p : Part) (ring : Ring) (e : Words8) (s : State) (st : Stream), s.stream? (entSid e) = some st →
    let u := s.passed p ring
    let sid := entSid e
    let moving := st.state = .active ∨ st.state = .idle ∨ st.state = .parked
    (takes (.closeDrain p ring e) s = true →
      (moving → exec (.closeDrain p ring e) s = .next ((((u.dropExports sid fun x => x.opcode == 0x22).cutChunks sid u.now true).modStream sid fun x =>
        { x with state := .draining, closing := some (entTag e) }).settleStream sid))
      ∧ (¬moving → exec (.closeDrain p ring e) s = .next (u.refuse sid 0x11 (entTag e) 0x0E)))
    ∧ (takes (.closeAbort p ring e) s = true →
      (st.state ≠ .migrating → exec (.closeAbort p ring e) s = .next ((u.dropMig sid).abortStream sid 0x11 (entTag e)))
      ∧ (st.state = .migrating → exec (.closeAbort p ring e) s = .next (u.refuse sid 0x11 (entTag e) 0x0E)))
    ∧ (takes (.setParams p ring e) s = true →
      (∀ r, u.setFault st e = some r → exec (.setParams p ring e) s = .next (u.streamEvent sid 0x10 r 0x12 (entTag e) 0))
      ∧ (u.setFault st e = none → exec (.setParams p ring e) s =
          .next ((u.modStream sid fun x => x.set e).streamEvent sid 0x0F 0 0x12 (entTag e) 0)))
    ∧ (takes (.resume p ring e) s = true →
      (st.state = .held → exec (.resume p ring e) s =
        .next (((u.dropMig sid).modStream sid fun x => { x with state := .active }).openedEvent sid 0x13 (entTag e)))
      ∧ (st.state ≠ .held → exec (.resume p ring e) s = .next (u.refuse sid 0x13 (entTag e) 0x0E)))
    ∧ (takes (.exportEntry p ring e) s = true →
      (moving ∨ st.state = .draining → exec (.exportEntry p ring e) s = .next (u.modStream sid fun x =>
        { x with exports := x.exports ++ [entExport ring.val e (u.boundary sid st)] }))
      ∧ (¬moving → st.state ≠ .draining → exec (.exportEntry p ring e) s = .next (u.refuse sid 0x20 (entTag e) 0x0E)))
    ∧ (takes (.migrateOut p ring e) s = true →
      (¬moving → exec (.migrateOut p ring e) s = .next (u.refuse sid 0x22 (entTag e) 0x0E))
      ∧ (moving → u.portTo (ent e 1 0 3) = none → exec (.migrateOut p ring e) s = .next (u.refuse sid 0x22 (entTag e) 0x0F))
      ∧ (moving → u.portTo (ent e 1 0 3) ≠ none → exec (.migrateOut p ring e) s = .next ((u.modStream sid fun x =>
          { x with exports := x.exports ++ [entExport ring.val e (u.boundary sid st)] }).settleMigrate sid)))

/-- MODEL_LOAD of a slot that is not EMPTY is refused with IN_USE (0x16); of an EMPTY slot it makes the slot LOADING with
the entry's PART_MASK and raises CHANGE_COUNT. MODEL_UNLOAD of an EMPTY slot is refused with NO_MODEL (0x02), of a slot
that is still LOADING or that a stream names with IN_USE; else the slot is EMPTY again and MODEL_UNLOADED is published.
When the package of a LOADING slot has been read: a failed read publishes DESC_ERROR 0x08, a package that breaks a check
of R40 is refused with that check's reason, one without weight room in two stacks with NO_ROOM (0x15), each leaving the
slot EMPTY; else the slot holds that package and MODEL_LOADED is published: the slot is LOADED when the record is placed,
and LOADING while it waits for the ring. The weight copies lie where placeWeights says, which is at the ranges of the
command whenever these fit in two different stacks, and both then hold the weight image. -/
def Obligations.ModelEntriesAct : Prop :=
  (∀ (p : Part) (ring : Ring) (e : Words8) (s : State),
    let u := s.passed p ring
    let slot := ent e 3 0 6
    (takes (.modelLoad p ring e) s = true →
      ((s.model slot).state ≠ 0 → exec (.modelLoad p ring e) s = .next (u.modelEvent 0x0D 0x16 0x30 (entTag e) slot))
      ∧ ((s.model slot).state = 0 → Completes (.modelLoad p ring e) s fun t =>
          (t.model slot).state = 1 ∧ (t.model slot).partMask = ent e 3 16 16 ∧ (t.model slot).pkgLen = ent e 2 0 48
          ∧ (t.model slot).changeCount = ((s.model slot).changeCount + 1) % 2 ^ 32 ∧ ∀ k, k ≠ slot → t.model k = s.model k))
    ∧ (takes (.modelUnload p ring e) s = true →
      ((s.model slot).state = 0 → exec (.modelUnload p ring e) s = .next (u.modelEvent 0x0D 0x02 0x31 (entTag e) slot))
      ∧ ((s.model slot).state = 1 ∨ ((s.model slot).state = 2 ∧ 0 < s.streamsNaming slot) →
          exec (.modelUnload p ring e) s = .next (u.modelEvent 0x0D 0x16 0x31 (entTag e) slot))
      ∧ ((s.model slot).state = 2 → s.streamsNaming slot = 0 → Completes (.modelUnload p ring e) s fun t =>
          t.model slot = emptySlot (((s.model slot).changeCount + 2) % 2 ^ 32) ∧ ∀ k, k ≠ slot → t.model k = s.model k)))
  ∧ (∀ (slot : ModelNo) (fault : Option ReadFault) (pkg : List Byte) (a b : List (Nat × Nat)) (s : State),
      let m := s.model slot.val
      let bytes := slice pkg 0 m.pkgLen
      let m1 := { m with pkg := bytes }
      let m2 := { m1 with table := Config.layerTable (bytes.drop (m1.field 0x70 4)) (m1.field 0x74 4) }
      let n := m2.weightBytes
      let image := bytes.drop (bytes.length - n)
      let empty := emptySlot ((m.changeCount + 1) % 2 ^ 32)
      let stackOf := fun (rs : List (Nat × Nat)) => hbmStack ((rs.headD (0, 0)).1)
      let held := fun (t : State) (rs : List (Nat × Nat)) => rs.flatMap fun r => Mem.readBytes t.st.hbm r.1 r.2
      let x : Waiting := { part := 0, ring := 0, loads := some slot.val, recs := [(eventRec0 0x0C 0 0x30 m.hostTag slot.val, [])] }
      let c := Instr.packageReadDone slot fault pkg a b
      (m.state ≠ 1 ∨ m.pkg ≠ [] → exec c s = .next s)
      ∧ (m.state = 1 → m.pkg = [] →
        (∀ f, fault = some f →
          exec c s = .next (((s.hostReadFault 0 f).setModel slot.val empty).descError 0 none 0x30 m.hostTag 0x08 m.ring 0 0))
        ∧ (∀ r, fault = none → m2.packageFault = some r →
          exec c s = .next ((s.setModel slot.val empty).modelEvent 0x0D r 0x30 m.hostTag slot.val))
        ∧ (fault = none → m2.packageFault = none → s.weightRoom n = false →
          exec c s = .next ((s.setModel slot.val empty).modelEvent 0x0D 0x15 0x30 m.hostTag slot.val))
        ∧ (fault = none → m2.packageFault = none → s.weightRoom n = true → Completes c s fun t =>
            (t.model slot.val).pkg = bytes ∧ (t.model slot.val).copyA = (s.placeWeights n a b).1
            ∧ (t.model slot.val).copyB = (s.placeWeights n a b).2
            ∧ (if !s.ringWaits 0 0 && s.roomFor 0 0 x.recs then (t.model slot.val).state = 2
                else (t.model slot.val).state = 1 ∧ t.str.waiting = s.str.waiting ++ [x])
            ∧ (s.copyFits n (stackOf a) a = true → s.copyFits n (stackOf b) b = true → stackOf a ≠ stackOf b →
                s.placeWeights n a b = (a, b) ∧ held t a = image ∧ held t b = image))))

/-- For the chunk c that FE works on (the lowest forming chunk below the second after the last committed one) of a stream
whose slot is held: FEATURE_FRAME in MODE 0, when the samples of the next frame have arrived, writes that frame into row 1
+ FRAMES of the slot, counts it, and changes no other byte of the scratchpad. INPUT_SLOT_FULL of a recognition chunk all
of whose data is written puts the header into row 0 and makes the chunk full. INPUT_EXTENT_COPY_DONE makes a full chunk
ready, with the copy of its slot in the extent and the present time as its readiness; a chunk that is not full stays. -/
def Obligations.ChunksEnterTheInputSlot : Prop :=
  (∀ (sid : Sid) (base : Nat) (s : State) (st : Stream) (c : Chunk), s.stream? sid.val = some st →
    s.feChunk? sid.val st = some c → s.chunk? sid.val c.no = some c → c.slotHeld = true →
    let m := s.model st.cfg.model
    (m.kind ≠ 2 → m.mode ≠ 1 →
      (if c.complete then c.frames < (s.slotCounts c).1 + (s.slotCounts c).2 else c.start + (c.frames + 1) * m.hopLen ≤ st.ing.pos) →
      Completes (.featureFrame sid base) s fun t =>
        (∃ x, t.chunk? sid.val c.no = some x ∧ x.frames = c.frames + 1)
        ∧ t.readRow (c.base + (1 + c.frames)) = slice (st.feFrame m c (c.start + (c.frames + 1) * m.hopLen)).1 0 512
        ∧ ∀ r, r ≠ c.base + (1 + c.frames) → t.readRow r = s.readRow r)
    ∧ (m.kind ≠ 2 → s.slotDone m c = true → Completes (.inputSlotFull sid base) s fun t =>
        ∃ x, t.chunk? sid.val c.no = some x ∧ x.phase = .full ∧ x.no = c.no ∧ x.owned = c.owned))
  ∧ (∀ (sid : Sid) (no : Nat) (s : State) (c : Chunk), s.chunk? sid.val no = some c →
      (c.phase = .full → Completes (.inputExtentCopyDone sid no) s fun t => ∃ x, t.chunk? sid.val no = some x
        ∧ x.phase = .ready ∧ x.readyAt = s.now ∧ x.extent = s.slotBytes c ∧ x.extentHeld = true)
      ∧ (c.phase ≠ .full → exec (.inputExtentCopyDone sid no) s = .next s))

/-- For a stream st: EXPORT_CAPTURE does nothing while the oldest export's boundary has not been reached; a MIGRATE_OUT
then freezes its stream; an EXPORT is refused with reason 0x17 when its buffer is shorter than the blob, else it is
captured. BLOB_WRITE_DONE, while Bus Master Enable is 1, writes the captured blob to the export's address and publishes
EXPORT_DONE (with DETACH the stream is detached); else it waits. IDLE_TIMEOUT ends the chunk in progress as EOU would and
lets the stream become IDLE when no chunk is left; it acts in ACTIVE and PARKED, in the NMT state operational and outside
a freeze. -/
def Obligations.StreamFollowUpsAct : Prop :=
  ∀ (sid : Sid) (s : State) (st : Stream) (e : ExportReq) (es : List ExportReq), s.stream? sid.val = some st →
    (s.captureReady sid.val st = false → exec (.exportCapture sid) s = .next s)
    ∧ (st.exports = e :: es → s.captureReady sid.val st = true → e.opcode = 0x22 →
        exec (.exportCapture sid) s = .next (s.settleMigrate sid.val))
    ∧ (∀ x, st.exports = e :: es → s.captureReady sid.val st = true → e.opcode ≠ 0x22 →
        (s.repairCommitted sid.val).stream? sid.val = some x → x.state ≠ .lost →
        let u := s.repairCommitted sid.val
        (e.bufLen < (u.blobOf sid.val x).length →
          exec (.exportCapture sid) s = .next ((u.refuse sid.val 0x20 e.hostTag 0x17).popExport sid.val []))
        ∧ ((u.blobOf sid.val x).length ≤ e.bufLen → Completes (.exportCapture sid) s fun t => ∃ y, t.stream? sid.val = some y
            ∧ y.exports = { e with blob := u.blobOf sid.val x, captured := true } :: x.exports.drop 1))
    ∧ (st.exports = e :: es → e.captured = false ∨ e.opcode ≠ 0x20 ∨ (s.fn st.cfg.part).bme = false →
        exec (.blobWriteDone sid) s = .next s)
    ∧ (st.exports = e :: es → e.captured = true → e.opcode = 0x20 → (s.fn st.cfg.part).bme = true →
        (s.fn st.cfg.part).resetting = false →
        let done := exportDoneRec sid.val st.lastChunk e.hostTag e.blob.length st.nextSeq st.samplePos
        let u := s.hostWrite e.bufAddr e.blob
        exec (.blobWriteDone sid) s = .next (if e.detach then u.detach sid.val e done else u.popExport sid.val [(done, [])]))
    ∧ (st.state = .active ∨ st.state = .parked → s.ctl.nmt = .operational → s.frozen = false →
        exec (.idleTimeout sid) s = .next (((s.cutChunks sid.val st.ing.lastTs false).modStream sid.val fun x =>
          { x with ing := { x.ing with idlePending := true } }).settleStream sid.val))
    ∧ ((st.state ≠ .active ∧ st.state ≠ .parked) ∨ s.ctl.nmt ≠ .operational ∨ s.frozen = true →
        exec (.idleTimeout sid) s = .next s)

/-- BATCH_CLOSE does nothing while no batch ID is free or the condition of R381 does not hold; else the first b_max chunks
of the forming batch become a closed batch under the lowest free ID, with a Square in service, at level 0. BATCH_RESERVE
of a batch that waits at level 1 (2 of R395) takes every working handle and row or nothing, of a batch that waits at level
4 takes CMD_WINDOW command slots, if its class has them and no other batch is served first, or nothing (the value of
CMD_WINDOW that is in force); of a batch at level 0 it leaves out the members that can have no state slot and continues
from level 1; of one that holds everything, and of none, it does nothing. RESIDENCY_EVICT takes a block out of residency
unless its model is FIXED or named by a command, and no other block. -/
def Obligations.BatchesFormAndReserve : Prop :=
  (∀ (model : ModelNo) (cls : Bool) (chunkMs : Nat) (s : State),
    let all := s.forming model.val (b2n cls) chunkMs
    let l := all.take ((s.model model.val).bMax chunkMs)
    let mem := l.map fun c => (c.sid, c.no)
    (s.freeBatch = none ∨ s.closes model.val (b2n cls) chunkMs all = false → exec (.batchClose model cls chunkMs) s = .next s)
    ∧ (∀ bid aff, s.freeBatch = some bid → s.closes model.val (b2n cls) chunkMs all = true →
        bestSquare ((s.useBlocks model.val).finishEstimate mem) (s.useBlocks model.val).placeSquares = some aff →
        Completes (.batchClose model cls chunkMs) s fun t => ∃ b, Tbl.get? t.str.batches bid = some b ∧ b.model = model.val
          ∧ b.cls = b2n cls ∧ b.chunkMs = chunkMs ∧ b.members = mem ∧ b.level = 0 ∧ b.closedAt = s.now))
  ∧ (∀ (bid : BatchId) (parts : List RxReg) (s : State),
      (Tbl.get? s.str.batches bid.val = none → exec (.batchReserve bid parts) s = .next s)
      ∧ ∀ b, Tbl.get? s.str.batches bid.val = some b →
        (b.level = 0 → exec (.batchReserve bid parts) s = exec (.batchReserve bid parts) (s.levelOne bid.val))
        ∧ (b.level = 1 → s.mustYield bid.val b 1 = true ∨ s.workFits b = false → exec (.batchReserve bid parts) s = .next s)
        ∧ (b.level = 1 → s.mustYield bid.val b 1 = false → s.workFits b = true →
            exec (.batchReserve bid parts) s = exec (.batchReserve bid parts) (s.putBatch bid.val { b with level := 2, handles := (s.model b.model).table.workHandles, rows := (s.model b.model).table.workRows }))
        ∧ (b.level = 4 → s.mustYield bid.val b 4 = true ∨ (s.slotLedger b.cls).2 < (s.slotLedger b.cls).1 + s.inForce 0x4018 4 →
            exec (.batchReserve bid parts) s = .next s)
        ∧ (b.level = 4 → s.mustYield bid.val b 4 = false → (s.slotLedger b.cls).1 + s.inForce 0x4018 4 ≤ (s.slotLedger b.cls).2 →
            exec (.batchReserve bid parts) s = .next (s.putBatch bid.val { b with level := 5, slots := s.inForce 0x4018 4 }))
        ∧ (b.level = 5 → exec (.batchReserve bid parts) s = .next s))
  ∧ (∀ (slot : ModelNo) (block : Nat) (s : State),
      (s.residency slot.val = 2 ∨ s.modelBusy slot.val = true → exec (.residencyEvict slot block) s = .next s)
      ∧ (s.residency slot.val ≠ 2 → s.modelBusy slot.val = false → Completes (.residencyEvict slot block) s fun t =>
          (t.model slot.val).isResident block = false
          ∧ ∀ k, k ≠ block → (t.model slot.val).isResident k = (s.model slot.val).isResident k))

/-- SWAP_OUT does nothing for a stream that is not resident or has a commit in progress, and for one with a queued chunk
that is not the victim of R410; for one without a queued chunk it does nothing unless a queued chunk of another stream has
no slot (the model's reading of pressure) and this stream is the least recently used of those without one; then, where the
current state buffer can be read, it frees the slot and keeps its state and its commit record. SWAP_IN does nothing for a
stream that is resident, is not ACTIVE, PARKED or DRAINING, or whose operand is no place for its two buffers; else, when
the stream survives the check of its mirror buffers, the stream has its slot at the row given and a PARKED stream is
ACTIVE. -/
def Obligations.SwapsMoveState : Prop :=
  (∀ (sid : Sid) (s : State) (st : Stream), s.stream? sid.val = some st →
    (st.slot = none ∨ st.cr.step ≠ 0 → exec (.swapOut sid) s = .next s)
    ∧ (st.slot ≠ none → st.cr.step = 0 → s.queuedChunk sid.val ≠ none → s.victim sid.val st = false →
        exec (.swapOut sid) s = .next s)
    ∧ (st.slot ≠ none → st.cr.step = 0 → s.queuedChunk sid.val = none → s.slotPressure = false ∨ s.coldState sid.val st = false →
        exec (.swapOut sid) s = .next s)
    ∧ (st.slot ≠ none → st.cr.step = 0 → s.queuedChunk sid.val = none → s.slotPressure = true → s.coldState sid.val st = true →
        s.bufBad st st.cr.cur = false → st.state ≠ .lost →
        Completes (.swapOut sid) s fun t => ∃ x, t.stream? sid.val = some x ∧ x.slot = none ∧ x.state = st.state ∧ x.cr = st.cr)
    ∧ (st.slot ≠ none → st.cr.step = 0 → s.queuedChunk sid.val ≠ none → s.victim sid.val st = true →
        exec (.swapOut sid) s = .next (((s.swapOutState sid.val).modStream sid.val fun x =>
          if x.state = .active then { x with state := .parked } else x).incObj 0x4018 8)))
  ∧ (∀ (sid : Sid) (base bad : Nat) (s : State) (st : Stream), s.stream? sid.val = some st →
    (st.slot ≠ none ∨ (st.state ≠ .active ∧ st.state ≠ .parked ∧ st.state ≠ .draining)
        ∨ s.stateSlotFits sid.val base (2 * s.stateRowsOf st) = false → exec (.swapIn sid base bad) s = .next s)
    ∧ (st.slot = none → st.state = .active ∨ st.state = .parked ∨ st.state = .draining →
        s.stateSlotFits sid.val base (2 * s.stateRowsOf st) = true → st.mirrorBad st.cr.cur = false → bits bad 0 2 = 0 →
        Completes (.swapIn sid base bad) s fun t => ∃ x, t.stream? sid.val = some x ∧ x.slot = some base
          ∧ x.state = if st.state = .parked then .active else st.state))

/-- CHUNK_COMMIT of a stream without a chunk that may commit, or under another beam than the winning one, does nothing.
Where one may, and the new state, with the stream's buffered narrow writes landed, can be read, the chunk reaches its
commit point and then goes on as far as it can; while step 3 must wait, the stream has CUR flipped, STEP 2 and COMMIT_SEQ
the chunk's number, and the mirror buffer of the new state holds it. CHUNK_ABORT of a chunk past its commit point does
nothing; else the chunk is taken through R427. CHUNK_REPLAY of a chunk that was aborted and has its model places it again,
at its REPLAY_LIMIT-th abort only after REPLAY_BACKOFF. CHUNK_CANCEL removes the queued and parked commands of the pair
with the shadow copies of their numbers, and no other command, and then ends the aborts that waited for them alone. -/
def Obligations.ChunksCommitAndReplay : Prop :=
  (∀ (sid : Sid) (beam : BeamNo) (s : State) (st : Stream), s.stream? sid.val = some st →
    (st.cr.step = 0 → (∀ c, s.chunk? sid.val st.nextSeq = some c → s.mayCommit st c = false ∨ beam.val ≠ s.winnerOf st c) →
      exec (.chunkCommit sid beam) s = .next s)
    ∧ (st.cr.step ≠ 0 → exec (.chunkCommit sid beam) s = .next (s.carryCommit sid.val))
    ∧ ∀ c, st.cr.step = 0 → s.chunk? sid.val st.nextSeq = some c → s.mayCommit st c = true → beam.val = s.winnerOf st c →
        let f := s.flushOwn sid.val ((s.bufRows st (!st.cr.cur)).contains ·)
        f.bufBad st (!st.cr.cur) = false →
        let u := (f.copyToMirror sid.val st (!st.cr.cur) (!st.cr.cur)).commitPoint sid.val beam.val st c
        exec (.chunkCommit sid beam) s = .next (u.carryCommit sid.val)
        ∧ ((∀ y, u.chunk? sid.val c.no = some y → u.stepThree sid.val beam.val y = none) →
            Completes (.chunkCommit sid beam) s fun t => ∃ x, t.stream? sid.val = some x ∧ x.cr.cur = !st.cr.cur ∧ x.cr.step = 2
              ∧ x.cr.commitSeq = c.no ∧ x.cr.committed = true ∧ x.nextSeq = st.nextSeq))
  ∧ (∀ (sid : Sid) (no : Nat) (s : State) (c : Chunk), s.chunk? sid.val no = some c →
      (c.phase = .committing → exec (.chunkAbort sid no) s = .next s)
      ∧ (exec (.chunkAbort sid no) s = .next (s.abortChunk sid.val no 0 false none))
      ∧ (c.phase ≠ .ready ∨ c.aborts = 0 ∨ c.model = none → exec (.chunkReplay sid no) s = .next s)
      ∧ (c.phase = .ready → 0 < c.aborts → c.model ≠ none → s.obj 0x4010 1 ≤ c.aborts → c.backoffUntil = 0 →
          Completes (.chunkReplay sid no) s fun t => ∃ x, t.chunk? sid.val no = some x ∧ x.phase = .backoff
            ∧ x.backoffUntil = s.now + s.obj 0x4010 2 * 1000000)
      ∧ (c.phase = .ready → 0 < c.aborts → c.model ≠ none → c.aborts < s.obj 0x4010 1 ∨ c.backoffUntil ≠ 0 →
          exec (.chunkReplay sid no) s = .next ((s.restoreInput sid.val no).modChunk sid.val no fun x =>
            { x with phase := .placed, placedAt := s.now, square := s.replaySquare c, backoffUntil := 0 }))
      ∧ (Completes (.replayBackoffExpiry sid no) s fun t =>
          t.chunk? sid.val no = some (if c.phase = .backoff then { c with phase := .ready } else c)))
  ∧ (∀ (sid : Sid) (chunk : BitVec 16) (s : State),
      let u := s.cancelChunk sid.val chunk.toNat
      exec (.chunkCancel sid chunk) s = .next u.settleAborts
      ∧ u.rb.cmds = s.rb.cmds.filter fun x => !(s.rb.cmds.any fun y => (y.phase == .queued || y.phase == .parked)
          && s.lists y.desc sid.val chunk.toNat && (x.seq == y.seq && (x.shadow || x.shadow == y.shadow))))

/-- Submissions of one cycle are taken one per core in round-robin order from the core after the last one accepted, and a
core that is down or gated submits nothing. While no command slot of the class is free, or the queue of an engine is full,
the port reports RETRY and nothing else changes. Otherwise a descriptor that fails a check of R352 is reported refused
with the code of the first check that fails, a completion entry with KIND REFUSED is posted to the submitting core's
mailbox, the count 0x4004:4 rises unless the code is 0x43, and no command is added. A descriptor that fails none is
accepted: it is the last of the command list under the next number, waiting since now, and its core is the last one
accepted. An unknown opcode gives code 0x40 whatever else holds. -/
def Obligations.DescriptorsAreAcceptedOrRefused : Prop :=
  (∀ (core : Core) (d : Words8) (others : List (Core × Words8)) (s : State),
    exec (.descSubmit core d others) s = .next
      (((turnOrder s.rb.lastCore ((core, d) :: others)).filter fun x => s.coreRuns x.1.val).foldl (fun t x => t.submit x.1.val x.2) s))
  ∧ (∀ (core : Core) (d : Words8) (s : State), s.coreRuns core.val = false → exec (.descSubmit core d []) s = .next s)
  ∧ (∀ (core : Core) (d : Words8) (s : State), s.coreRuns core.val = true →
    let full := s.slotFree (Desc.isBe d) = false ∨ ((unitOf (Desc.engine d)).isSome = true ∧ s.queueFull (Desc.engine d) (Desc.isBe d) = true)
    (full → exec (.descSubmit core d []) s = .next (s.setReport core.val .retry))
    ∧ (∀ code, ¬full → s.refusal core.val d = some code →
        (let u := (s.setReport core.val (.refused code)).postMail core.val (Desc.engine d) ⟨0, compWords d .refused code 0 s.now 0, some d⟩ none none
         exec (.descSubmit core d []) s = .next (if code = 0x43 then u else u.incObj 0x4004 4))
        ∧ Completes (.descSubmit core d []) s fun t => t.rb.cmds = s.rb.cmds ∧ t.rb.nextSeq = s.rb.nextSeq
            ∧ Tbl.get? t.rb.report core.val = some (.refused code))
    ∧ (¬full → s.refusal core.val d = none → Completes (.descSubmit core d []) s fun t =>
        t.rb.cmds = s.rb.cmds ++ [{ seq := s.rb.nextSeq, desc := d, core := core.val, waitSince := s.now }] ∧ t.rb.nextSeq = s.rb.nextSeq + 1
        ∧ Tbl.get? t.rb.report core.val = some .accepted ∧ t.rb.mail = s.rb.mail ∧ t.rb.lastCore = core.val))
  ∧ (∀ (s : State) (core : Nat) (d : Words8), opInfo d = none → s.refusal core d = some 0x40)

/-- An engine that holds a command which neither waits nor is a shadow copy takes no other; an engine without power, and
every engine in the part of a microsecond that the issue duty leaves out, takes none. A free engine takes the command that
the order of R375 chooses among its eligible queued commands, a parked one only when none is queued; where only LC
commands are eligible that is the one with the earliest deadline, and none is earlier. TAG_CLAIM leaves an engine without
a command, and a claim whose tag is not in the state that its mode expects, as they are; else the tag takes the state and
counts of the claim and names the command as its last changer, and every other tag stays. -/
def Obligations.CommandsAreChosenAndClaim : Prop :=
  (∀ (eng : Eng) (s : State),
    let e := eng.toNat
    let fresh := s.rb.cmds.filter fun c => c.desc.engine == e && c.phase == .queued && s.eligible c
    let old := s.rb.cmds.filter fun c => c.desc.engine == e && c.phase == .parked && s.eligible c
    (∀ c, s.atEngine? e = some c → (c.shadow = true ∨ s.waits c = false ∨ c.wrote = true ∨ fresh = []) →
      exec (.roundaboutIssue eng) s = .next s)
    ∧ (s.atEngine? e = none → s.engineFree e = false ∨ s.dutyOpen = false → exec (.roundaboutIssue eng) s = .next s)
    ∧ (∀ c u, s.atEngine? e = none → s.engineFree e = true → s.dutyOpen = true →
        s.choose e (if fresh.isEmpty then old else fresh) = some (c, u) → exec (.roundaboutIssue eng) s = .next (u.issue c))
    ∧ (s.atEngine? e = none → fresh = [] → old = [] → exec (.roundaboutIssue eng) s = .next s)
    ∧ (∀ l c u, (∀ x ∈ l, x.desc.isBe = false) → s.choose e l = some (c, u) →
        c ∈ l ∧ ∀ x ∈ l, c.desc.deadline ≤ x.desc.deadline))
  ∧ (∀ (eng : Eng) (s : State),
      (s.atEngine? eng.toNat = none → exec (.tagClaim eng) s = .next s)
      ∧ ∀ c, s.atEngine? eng.toNat = some c →
        (c.wanted = [] → exec (.tagClaim eng) s = .next (s.advance c.seq c.shadow))
        ∧ ∀ cl rest, c.wanted = cl :: rest →
          ((s.claimTag cl).claim cl.mode = none → exec (.tagClaim eng) s = .next s)
          ∧ (∀ tag, (s.claimTag cl).claim cl.mode = some tag → Completes (.tagClaim eng) s fun t =>
              t.claimTag cl = tag.by c.desc
              ∧ (cl.isTile = false → (∀ n, n ≠ cl.key → t.tag n = s.tag n) ∧ ∀ n, t.tileTag n = s.tileTag n)
              ∧ (cl.isTile = true → (∀ n, n ≠ cl.key → t.tileTag n = s.tileTag n) ∧ ∀ n, t.tag n = s.tag n)))

/-- An issued NOP that may run ends, and no other command changes. COMMAND_COMPLETE does nothing while no command stands
at the engine, or its effect is not done; nor while a record of the command itself waits for a full mailbox; a command
whose effect is done without an abort flag and without a lost control word, with its shadow copies done, leaves the
command list with them, every other command stays, and, where a completion must be posted, its completion entry with its
code, flags and detail lies in the mailbox of the core that COMP_CC names or waits for it; aborts that waited for it alone
then end. CMD_TIMEOUT ends an issued command that does not wait with TIMEOUT and completes it; a command that waits does
not time out. -/
def Obligations.CommandsComplete : Prop :=
  (∀ (eng : Eng) (s : State) (c : Cmd), s.ready? eng.toNat 0x00 = some c → Completes (.nopCmd eng) s fun t =>
      t.rb.cmds = s.rb.cmds.map fun x => if x.seq = c.seq ∧ x.shadow = c.shadow then { c with phase := .ended } else x)
  ∧ (∀ (eng : Eng) (busy : Nat) (s : State),
      (s.atEngine? eng.toNat = none → exec (.commandComplete eng busy) s = .next s ∧ exec (.cmdTimeout eng) s = .next s)
      ∧ ∀ c, s.atEngine? eng.toNat = some c →
        (c.phase ≠ .ended ∨ c.shadow = true → exec (.commandComplete eng busy) s = .next s)
        ∧ (c.phase = .ended → c.shadow = false → (∀ x ∈ s.rb.cmds, x.shadow = true → x.seq = c.seq → x.phase = .ended) →
            (∀ h ∈ s.rb.heldMail, h.cmd ≠ some c.seq) → hasAbortFlag c.flags = false → c.ctl = none →
            ∃ u : State, exec (.commandComplete eng busy) s = .next u.settleAborts
              ∧ u.rb.cmds = s.rb.cmds.filter (fun x => x.seq != c.seq)
              ∧ (mustPost c.desc .done c.flags = true →
                  let m : Mail := ⟨0, compWords c.desc .done c.code c.flags s.now c.detail, some c.desc⟩
                  m ∈ Tbl.getD u.rb.mail [] c.desc.compCc ∨ ∃ h ∈ u.rb.heldMail, h.core = c.desc.compCc ∧ h.mail = m))
        ∧ (c.phase = .ended → c.shadow = false → (∃ h ∈ s.rb.heldMail, h.cmd = some c.seq) →
            exec (.commandComplete eng busy) s = .next s)
        ∧ (c.phase ≠ .issued ∨ s.waits c = true ∨ s.waitsForRoom c = true → exec (.cmdTimeout eng) s = .next s)
        ∧ (c.phase = .issued → s.waits c = false → s.waitsForRoom c = false →
            let c1 := { c with phase := .ended, flags := withFlag c.flags flTimeout, wanted := [] }
            exec (.cmdTimeout eng) s = .next (if c.shadow then s.putCmd c1 else (s.putCmd c1).completeCmd c1 0)))

/-- A core that runs takes the oldest entry of its mailbox, and the entry held longest for that mailbox, if any, then
lands behind the others; taking a message makes what the core sees of control memory equal to control memory (the model's
reading of R150). The end of a second clears its misses and sets STORM_ACTIVE where they exceed the limit, and clears it
where they do not. A wait is reported once, and a wait that ended or was reported changes nothing: the report carries the
payload of R408; with WD_ACTION not 1 the fault log gains exactly that entry; with WD_ACTION 1 the waiter is cancelled,
and unless it is NOSTR its chunks are aborted under R409; the report of a held record does the same for the chunks that
its descriptor names. -/
def Obligations.ReportsMailboxesAndStorms : Prop :=
  (∀ (core : Core) (bad : Bool) (s : State),
      let box := Tbl.getD s.rb.mail [] core.val
      (s.coreRuns core.val = false ∨ box = [] → exec (.mailboxFreed core bad) s = .next s)
      ∧ ∀ m rest, s.coreRuns core.val = true → box = m :: rest → ∃ u : State, exec (.mailboxFreed core bad) s = .next (u.takeMail core.val m bad)
          ∧ Tbl.getD u.rb.mail [] core.val = rest ++ ((s.rb.heldMail.find? fun h => h.core == core.val).map (·.mail)).toList
          ∧ (∀ k, k ≠ core.val → Tbl.getD u.rb.mail [] k = Tbl.getD s.rb.mail [] k)
          ∧ (u.takeMail core.val m false).rb.mail = u.rb.mail
          ∧ (m.kind = 2 → ∀ a, Mem.read (Tbl.getD (u.takeMail core.val m false).st.ctlView [] core.val) a = Mem.read s.st.ctl a))
  ∧ (∀ s : State, Completes .stormSecond s fun t => t.str.missSecond = 0
      ∧ (s.inForce 0x2500 9 < s.str.missSecond → t.obj 0x2500 0xA = 1)
      ∧ (s.str.missSecond ≤ s.inForce 0x2500 9 → t.obj 0x2500 0xA = if s.obj 0x2500 0xA = 1 then 0 else s.obj 0x2500 0xA))
  ∧ (∀ (seq : Nat) (s : State),
      (s.rb.cmds.find? (fun c => c.seq == seq && !c.shadow) = none → exec (.waitReport (.cmd seq)) s = .next s)
      ∧ ∀ c, s.rb.cmds.find? (fun c => c.seq == seq && !c.shadow) = some c →
        (c.waitReported = true ∨ (c.wanted = [] ∧ c.remoteLeft = 0) → exec (.waitReport (.cmd seq)) s = .next s)
        ∧ (c.waitReported = false → (c.phase = .issued ∨ c.phase = .parked) → (c.wanted ≠ [] ∨ 0 < c.remoteLeft) →
            s.inForce 0x4018 2 ≠ 1 → Completes (.waitReport (.cmd seq)) s fun t =>
              ∃ e : FaultEntry, e.words.drop 4 = s.waitPayload c ∧ t.ctl.faultLog = pushRing 4096 s.ctl.faultLog e
                ∧ t.rb.cmds = s.rb.cmds.map (fun x => if x.seq = c.seq ∧ x.shadow = c.shadow then { c with waitReported := true } else x))
        ∧ (c.waitReported = false → (c.phase = .issued ∨ c.phase = .parked) → (c.wanted ≠ [] ∨ 0 < c.remoteLeft) →
            s.inForce 0x4018 2 = 1 →
              let u := (s.putCmd { c with waitReported := true }).incObj 0x4018 3
              exec (.waitReport (.cmd seq)) s = .next (if c.desc.nostr = true then
                (u.logWait c.desc.engine none (s.waitPayload c)).cancelCmd c
                else (u.cancelCmd c).faultCommand c.desc c.desc.engine 6 0 0 0 (s.waitPayload c))))
  ∧ (∀ (n : Nat) (s : State),
      (s.rb.heldMail[n]? = none → exec (.waitReport (.mail n)) s = .next s)
      ∧ ∀ h, s.rb.heldMail[n]? = some h →
        (h.reported = true → exec (.waitReport (.mail n)) s = .next s)
        ∧ (h.reported = false →
            let u := ({ s with rb := { s.rb with heldMail := s.rb.heldMail.set n { h with reported := true } } } : State).incObj 0x4018 3
            exec (.waitReport (.mail n)) s = .next (match h.mail.desc with
              | some d => if s.inForce 0x4018 2 = 1 ∧ d.nostr = false then u.faultCommand d h.src 6 0 0 0 (s.holdPayload h)
                  else u.logWait h.src (some d) (s.holdPayload h)
              | none => u.logWait h.src none (s.holdPayload h))))

/-- A command that does not hold an engine and may run changes nothing; one whose control word is lost ends without an
access. Any other ends in one of four ways. A poisoned row that it reads, or an uncorrectable word of a tile, ends it with
ECC_UNCORR and the row (for a tile, with the MX whose tile it is), and nothing is written. A start check that fails ends
it with that result before later rows are read. Else it ends with the flags, code and detail of its datapath: with an
abort flag nothing is written, except the uncommitted rows of a state residue; without, every row of the result reads back
from the row it names, and no scratchpad byte outside the rows of the result changes (for results without narrow writes or
cache pages; where the command reads what it writes, the values are free). What the opcode does beside its writes follows
only where no abort, data or page-table flag stands and the command is no shadow copy. Tags and HBM stay. AT_SCORE and
AT_VALUE that walk an unreadable spilled page end with its fault; else they run in the same way, and for a peer they first
ask for tables, then for pages. -/
def Obligations.DatapathsRunAndLand : Prop :=
  (∀ (c : Instr) (e : Eng) (hw : Hw) (p : Datapath) (s : State), datapath c = some (e, hw, p) →
      (s.ready? e.toNat p.op = none → exec c s = .next s)
      ∧ ∀ k0, s.ready? e.toNat p.op = some k0 →
        let k := { k0 with ctl := k0.ctl.or (ctlLost hw) }
        let u := (s.upset e.toNat hw).putCmd k
        (k.ctl ≠ none → exec c s = .next (u.putCmd { k with phase := .ended }))
        ∧ (k.ctl = none → exec c s = .next (u.runOn p k)))
  ∧ (∀ (p : Datapath) (u : State) (k : Cmd) (i : OpInfo), opInfo k.desc = some i →
      let t := u.runOn p k
      match u.pathEnd p k i with
      | .row n => SameStores u t
          ∧ t.rb.cmds = u.cmdsWith { k with phase := .ended, flags := withFlag k.flags flEccUncorr, addr := n, wanted := [] }
      | .tile key row => SameStores u t
          ∧ t.rb.cmds = u.cmdsWith { k with phase := .ended, flags := withFlag k.flags flEccUncorr, inTile := true, addr := key % 8 * 33 + row,
                                            source := some (mxEngine (key / 8)) }
      | .check now r => t = now.finish k r ∧ now.st = u.st ∧ now.rb.cmds = u.rb.cmds
      | .data now r =>
        let sp := u.spans k.desc k.ops
        let far := fun (x : Result) => k.farOf (p.allRows now k i sp ++ x.rowsWritten k)
        let stays := hasAbortFlag r.flags || (hasCheckFlag r.flags && !r.writes) || hasPtFlag r.flags || k.shadow
        let done := fun (w : State) => if stays then w else p.after (now.viewOf k.desc.engine) k w
        now.st = u.st ∧ now.rb.cmds = u.rb.cmds
        ∧ (overlaps k i.roles sp r = true →
            t = done ((now.havoc r).2.finish { k with far := far (now.havoc r).1 } (now.havoc r).1))
        ∧ (overlaps k i.roles sp r = false →
            let w := now.finish { k with far := far r } r
            t = done w
            ∧ w.rb.cmds = u.cmdsWith (Cmd.endedWith { k with far := far r } r)
            ∧ w.st.tags = u.st.tags ∧ w.st.tileTags = u.st.tileTags ∧ w.st.hbm = u.st.hbm
            ∧ (hasAbortFlag r.flags = true → bitAt r.flags flSeResidue = false → SameStores u w)
            ∧ (hasAbortFlag r.flags = false → k.shadow = false → r.narrow = [] → r.pages = [] →
                let at_ := fun (x : Nat × Nat × List Byte) => (k.ops.getD x.1 {}).base + x.2.1
                ((r.rows.map at_).Nodup → ∀ x ∈ r.rows, w.readRow (at_ x) = slice x.2.2 0 512)
                ∧ ∀ a, (∀ x ∈ r.rows, a < at_ x * 512 ∨ at_ x * 512 + 512 ≤ a) → Mem.read w.st.sp a = Mem.read u.st.sp a)))
  ∧ (∀ (e : Eng) (hw : Hw) (owner : Option PortNo) (s : State) (c : Instr) (p : Datapath),
      ((c = .atScore e hw owner ∧ p = atScorePath hw) ∨ (c = .atValue e hw owner ∧ p = atValuePath hw)) →
      (s.ready? e.toNat p.op = none → exec c s = .next s)
      ∧ ∀ k0, s.ready? e.toNat p.op = some k0 →
        let k := { k0 with ctl := k0.ctl.or (ctlLost hw) }
        let u := (s.upset e.toNat hw).putCmd k
        (k.ctl ≠ none → exec c s = .next (u.putCmd { k with phase := .ended }))
        ∧ (k.ctl = none → owner = none →
            let m := (u.atModel k.desc).cache
            let spilled := (u.walkPages k m.tokensPerPage).filter isSpill
            let k1 := { k with spillReads := spilled.length * (m.tokensPerPage * m.latBytes) }
            (∀ page, spilled.find? u.pageBad = some page → exec c s = .next ((u.putCmd k1).spillFault k1 page))
            ∧ (spilled.find? u.pageBad = none → exec c s = .next ((u.putCmd k1).runOn p k1)))
        ∧ ∀ port, k.ctl = none → owner = some port →
            let m := (u.atModel k.desc).cache
            let seqs := (dedup (k.atMembers.map (·.1))).filter fun q => !(u.partTables k).any fun t => t.1 == q
            let pages := (u.partPages k m.tokensPerPage).filter fun x => !u.xr.peerPages.any fun y => y.cmd == k.seq && y.page == x.2
            ((u.port port.val).state ≠ .up → exec c s = .next (u.failPeer k))
            ∧ ((u.port port.val).state = .up → seqs ≠ [] →
                exec c s = .next ((seqs.foldl (fun t q => t.askTable port.val k q) u).awaitPeer k seqs.length false))
            ∧ ((u.port port.val).state = .up → seqs = [] → pages ≠ [] →
                exec c s = .next ((pages.foldl (fun t x => t.askPage port.val k m x.1 x.2) u).awaitPeer k pages.length false))
            ∧ ((u.port port.val).state = .up → seqs = [] → pages = [] → exec c s = .next (u.computePart p k)))

/-- When the datapath of one of these commands has landed without a flag that stops it, over what the command sees (stated
for a command of one chunk, stream or sequence): AT_APPEND puts the edited table into the copy that it took and leaves the
other copy, and REBUILD stands only while the rebuilt length is below the committed one; TK_SELECT advances the decoding
of its chunk by the labels selected, and leaves a drafting head's labels as drafts; TK_TOPK expands the beams of a beam
decoder; TK_VERIFY leaves the drafts that the chunk may have and the number of leading ones that the selections confirm;
TK_PREFIX leaves the best prefix's tokens and its last label; TK_DETOK leaves the committed tokens and the staged records;
EG_PROV publishes for its chunk as R320 says; EG_OLA appends its encoded samples, counts the frames left out in TRUNC and
writes OUT_POS; FE_CTX gives the stream the context that the rows of STATE hold. No chunk but the one of the command
changes under the TK commands. -/
def Obligations.TokenAttentionAndEgressCommands : Prop :=
  ∀ (eng : Eng) (hw : Hw) (s : State) (k : Cmd) (v w : State),
    let token := fun (m : Nat × Chunk) => (w.model (m.2.model.getD (((w.stream? m.1).map (·.cfg.model)).getD 0))).table.token
    let only := fun (t : State) (m : Nat × Chunk) (f : Chunk → Chunk) => t.chunk? m.1 m.2.no = (w.chunk? m.1 m.2.no).map f
      ∧ ∀ q n, ¬(q = m.1 ∧ n = m.2.no) → t.chunk? q n = w.chunk? q n
    (∀ q tb x wk, s.landed? eng.toNat hw (atAppendPath hw) = some (k, v, w) →
      v.appendAll k (v.atModel k.desc).cache.tokensPerPage k.atMembers = .ok [(q, tb)] → Tbl.get? w.pg.seqs q = some x →
      k.walks.find? (·.1 == q) = some wk → Completes (.atAppend eng hw) s fun t => ∃ y, Tbl.get? t.pg.seqs q = some y
        ∧ (if wk.2 then y.copyB = tb ∧ y.copyA = x.copyA else y.copyA = tb ∧ y.copyB = x.copyB) ∧ y.cur = x.cur ∧ y.gen = x.gen
        ∧ y.rebuild = (x.rebuild && y.table.rebuilding) ∧ ∀ j, j ≠ q → Tbl.get? t.pg.seqs j = Tbl.get? w.pg.seqs j)
    ∧ (∀ m, s.landed? eng.toNat hw tkSelectPath = some (k, v, w) → w.cmdChunks k.desc = [m] →
      Completes (.tkSelect eng hw) s fun t => only t m fun x =>
        { x with dec := x.dec.select (token m) k.desc (v.selectLabels k)
                 drafts := if (token m).draftHead ∧ k.desc.param 30 1 = 1 then x.limitDrafts (token m) (collapseOf k.desc (v.selectLabels k)).1
                   else x.drafts })
    ∧ (∀ m, s.landed? eng.toNat hw tkTopkPath = some (k, v, w) → w.cmdChunks k.desc = [m] →
      Completes (.tkTopk eng hw) s fun t => only t m fun x =>
        if (token m).select = .attnBeam ∧ k.desc.param 30 7 = (token m).beams
        then { x with dec := x.dec.expand (token m) ((v.selectRows k).map (topPairs (k.desc.param 30 7))) } else x)
    ∧ (∀ m, s.landed? eng.toNat hw tkVerifyPath = some (k, v, w) → w.cmdChunks k.desc = [m] →
      Completes (.tkVerify eng hw) s fun t => only t m fun x =>
        let ds := x.limitDrafts (token m) (v.tokens16 (k.ops.getD 1 {}) (k.desc.param 17 5))
        let cs := (v.verifyRows k).2.map fun y => y.getD (k.desc.param 22 16)
        { x with drafts := ds, accepted := acceptedCount cs ds, dec := x.dec.verify (token m) ds cs })
    ∧ (∀ m p ps, s.landed? eng.toNat hw tkPrefixPath = some (k, v, w) → w.cmdChunks k.desc = [m] → (v.prefixesOut k).1 = p :: ps →
      Completes (.tkPrefix eng hw) s fun t => only t m fun x =>
        if (token m).select = .ctcPrefix
        then { x with dec := { x.dec with tokens := p.ids, label := some (if flt p.b p.nb then p.last else (token m).blankId) } } else x)
    ∧ (∀ m, s.landed? eng.toNat hw tkDetokPath = some (k, v, w) → v.cmdChunks k.desc = [m] →
      Completes (.tkDetok eng hw) s fun t => only t m fun x =>
        { x with committedTokens := v.detokTokens k, staged := (v.detokOf k m).recs, replaced := (v.detokOf k m).replaced })
    ∧ (∀ m, s.landed? eng.toNat hw egProvPath = some (k, v, w) → v.cmdChunks k.desc = [m] →
      let drafts := v.tokens16 (k.ops.getD 0 {}) (k.desc.param 0 5)
      let slot := m.2.model.getD (((v.stream? m.1).map (·.cfg.model)).getD 0)
      exec (.egProv eng hw) s = .next (w.provisional (k.seq + 1) m.1 m.2 (v.model (k.desc.param 5 6))
        (m.2.limitDrafts (v.model slot).table.token drafts) (TokenCtx.of (v.opRow (k.ops.getD 1 {}) (k.ops.getD 1 {}).off))))
    ∧ (∀ m, s.landed? eng.toNat hw egOlaPath = some (k, v, w) → v.cmdChunks k.desc = [m] →
      let r := v.olaRun k (v.olaLimit k m)
      let run := encodeRun (v.outFormat m.1) r.1
      let n := m.2.audioSamples + r.1.length
      exec (.egOla eng hw) s = .next ((w.modChunk m.1 m.2.no fun x =>
        { x with audio := x.audio ++ run.1, audioClipped := x.audioClipped + run.2, audioSamples := n
                 trunc := x.trunc + r.2.2 }).writeOutPos v m.1 n))
    ∧ (∀ m, s.landed? eng.toNat hw feCtxPath = some (k, v, w) → v.members k.desc = [m] →
      let row := fun r => v.opRow (k.ops.getD 0 {}) ((k.ops.getD 0 {}).off + r)
      Completes (.feCtx eng hw) s fun t =>
        t.stream? m.1 = (w.stream? m.1).map (fun y => { y with
          fe := FeContext.ofRows (v.model (v.cmdModelNo k.desc)) row
          ing := { y.ing with dcIn := leAt (row 2) 4 4, dcOut := leAt (row 2) 8 4 } })
        ∧ ∀ q, q ≠ m.1 → t.stream? q = w.stream? q)

/-- A TAG_SET that may run sets the tag of its slot, or of the tile that it names, to its state and READERS (to DRAINING
with READERS 0 where it asks for EMPTY while claims are held), names itself as the last changer, leaves every other tag as
it was, and ends. MB_POST lands the writes of its poster in control memory, delivers its 32 bytes as a KIND 2 entry to the
mailbox of the core that ENGINE names, or holds it for that mailbox, and ends. Either changes no command while it may not
run; where its control word is lost it ends without touching a store. -/
def Obligations.CoresSetTagsAndPost : Prop :=
  (∀ (eng : Eng) (hw : Hw) (s : State),
      (s.ready? eng.toNat 0x7C = none → exec (.tagSet eng hw) s = .next s)
      ∧ (∀ c, s.ready? eng.toNat 0x7C = some c → c.ctl.or (ctlLost hw) ≠ none → Completes (.tagSet eng hw) s fun t => SameStores s t
          ∧ t.rb.cmds = s.cmdsWith { c with ctl := c.ctl.or (ctlLost hw), phase := .ended })
      ∧ ∀ c, s.ready? eng.toNat 0x7C = some c → c.ctl = none → ctlLost hw = none →
        let o := c.ops.getD 0 {}
        let st := TagState.ofCode (c.desc.param 0 2)
        let cmds := s.cmdsWith { c with phase := .ended }
        (c.desc.param 6 1 ≠ 1 → o.slotRows = 0 → Completes (.tagSet eng hw) s fun t => t.rb.cmds = cmds ∧ t.st.tags = s.st.tags
            ∧ t.st.tileTags = s.st.tileTags)
        ∧ (c.desc.param 6 1 ≠ 1 → o.slotRows ≠ 0 → Completes (.tagSet eng hw) s fun t => t.rb.cmds = cmds
            ∧ t.tag (slotTag o o.off) = ((s.tag (slotTag o o.off)).set st (c.desc.param 2 4)).by c.desc
            ∧ (∀ n, n ≠ slotTag o o.off → t.tag n = s.tag n) ∧ t.st.tileTags = s.st.tileTags)
        ∧ (c.desc.param 6 1 = 1 → (∀ d, engineDomain (c.desc.param 7 8) = some d → s.domain d ≠ 3) →
            let key := mxIndex (c.desc.param 7 8) * 8 + c.desc.param 15 3
            Completes (.tagSet eng hw) s fun t => t.rb.cmds = cmds
            ∧ t.tileTag key = ((s.tileTag key).set st (c.desc.param 2 4)).by c.desc
            ∧ (∀ n, n ≠ key → t.tileTag n = s.tileTag n) ∧ t.st.tags = s.st.tags))
  ∧ (∀ (g : Tag) (st : TagState) (r : Nat),
      (g.set st r).state = (if st = .empty ∧ g.claims ≠ 0 then TagState.draining else st)
      ∧ (g.set st r).readers = (if st = .empty ∧ g.claims ≠ 0 then 0 else r) ∧ (g.set st r).claims = g.claims)
  ∧ (∀ (eng : Eng) (hw : Hw) (ws : List (Nat × Byte)) (s : State),
      (s.ready? eng.toNat 0x7D = none → exec (.mbPost eng hw ws) s = .next s)
      ∧ (∀ c, s.ready? eng.toNat 0x7D = some c → c.ctl.or (ctlLost hw) ≠ none → Completes (.mbPost eng hw ws) s fun t => SameStores s t
          ∧ t.rb.cmds = s.cmdsWith { c with ctl := c.ctl.or (ctlLost hw), phase := .ended })
      ∧ ∀ c, s.ready? eng.toNat 0x7D = some c → c.ctl = none → ctlLost hw = none → Completes (.mbPost eng hw ws) s fun t =>
          let m : Mail := ⟨2, [c.desc.word 3, c.desc.word 4, c.desc.word 5, c.desc.word 6], some c.desc⟩
          t.rb.cmds = s.cmdsWith { c with phase := .ended }
          ∧ t.st.ctl = ws.foldl (fun x w => Tbl.setD x 0 (w.1 % 2 ^ 20) w.2) s.st.ctl
          ∧ (m ∈ Tbl.getD t.rb.mail [] (eng.toNat - 0x50) ∨ ∃ h ∈ t.rb.heldMail, h.core = eng.toNat - 0x50 ∧ h.mail = m))

/-- IN_RELEASE sets the tag of its slot to EMPTY, frees for every committing chunk that the command acts on (each member
of a batch) the input slot, whose tag becomes EMPTY, and the extent half, changes no other chunk and no other tag, and
ends. EG_PUBLISH runs step 4 for every chunk that it acts on whose commit stands at step 3, and ends only where the
records of all of them were placed. Either does nothing while it may not run, and ends without touching a store where its
control word is lost. EGRESS_DRAIN does nothing while the ring is disabled, Bus Master Enable is 0, a regulator of the
partition is below zero, or nothing can move; else as many records leave the queue as the ring has room for, and the
producer index advances by their number. -/
def Obligations.InputIsReleasedAndEgressMoves : Prop :=
  (∀ (eng : Eng) (hw : Hw) (s : State),
      (s.ready? eng.toNat 0x60 = none → exec (.inRelease eng hw) s = .next s)
      ∧ (∀ c, s.ready? eng.toNat 0x60 = some c → c.ctl.or (ctlLost hw) ≠ none → Completes (.inRelease eng hw) s fun t => SameStores s t
          ∧ t.rb.cmds = s.cmdsWith { c with ctl := c.ctl.or (ctlLost hw), phase := .ended })
      ∧ ∀ c, s.ready? eng.toNat 0x60 = some c → c.ctl = none → ctlLost hw = none →
        let o := c.ops.getD 0 {}
        let ms := (((s.upset eng.toNat hw).putCmd c).cmdChunks c.desc).filter fun m => m.2.phase = .committing
        let mine := fun n => (o.slotRows ≠ 0 ∧ n = slotTag o o.off) ∨ ∃ m ∈ ms, m.2.slotHeld = true ∧ n = m.2.base / 4
        Completes (.inRelease eng hw) s fun t => t.rb.cmds = s.cmdsWith { c with phase := .ended }
          ∧ (∀ n, mine n → (t.tag n).state = (if (s.tag n).claims = 0 then .empty else .draining) ∧ (t.tag n).claims = (s.tag n).claims)
          ∧ (∀ n, ¬mine n → t.tag n = s.tag n)
          ∧ ∀ q n, t.chunk? q n = if ∃ m ∈ ms, q = m.1 ∧ n = m.2.no then (s.chunk? q n).map fun k => { k with slotHeld := false, extentHeld := false }
              else s.chunk? q n)
  ∧ (∀ (eng : Eng) (hw : Hw) (s : State),
      (s.ready? eng.toNat 0x5A = none → exec (.egPublish eng hw) s = .next s)
      ∧ (∀ c, s.ready? eng.toNat 0x5A = some c → c.ctl.or (ctlLost hw) ≠ none → Completes (.egPublish eng hw) s fun t => SameStores s t
          ∧ t.rb.cmds = s.cmdsWith { c with ctl := c.ctl.or (ctlLost hw), phase := .ended })
      ∧ ∀ c, s.ready? eng.toNat 0x5A = some c → c.ctl = none → ctlLost hw = none →
        let s0 := (s.upset eng.toNat hw).putCmd c
        ((∀ m ∈ s0.members c.desc, s0.atStepThree m = false) → exec (.egPublish eng hw) s = .next (s0.endCmd c))
        ∧ ∀ m, s0.members c.desc = [m] → s0.atStepThree m = true →
            let s1 := s0.stepFour (c.seq + 1) m.1
            exec (.egPublish eng hw) s = .next (if (s1.members c.desc).any s1.atStepThree then s1 else s1.endCmd c))
  ∧ (∀ (p : Part) (ring : Ring) (s : State),
      let o := s.oq p.val ring.val
      let n := Nat.min o.queue.length o.room
      (o.enable = false ∨ (s.fn p.val).bme = false ∨ s.overdrawn p.val = true ∨ n = 0 → exec (.egressDrain p ring) s = .next s)
      ∧ (o.enable = true → (s.fn p.val).bme = true → s.overdrawn p.val = false → n ≠ 0 → s.str.waiting = [] →
          Completes (.egressDrain p ring) s fun t =>
            (t.oq p.val ring.val).queue = o.queue.drop n ∧ (t.oq p.val ring.val).prod % 2 ^ 32 = (o.prod + n) % 2 ^ 32
            ∧ (t.oq p.val ring.val).cons = o.cons ∧ (t.oq p.val ring.val).enable = true))

/-- A Lane command that does not hold its Lane changes nothing, and one whose control word is lost ends without touching a
store. LN_COPY with DIR 1 and LN_HOST with DIR 1 write the rows of their operand to HBM and to host memory, byte for byte,
and no other byte of it, where no row is poisoned; LN_HOST with DIR 2 writes the bytes that the host read returned to HBM,
with DIR 3 the HBM bytes to host memory. LN_COPY with DIR 0, whose source line stays unreadable, ends with ECC_UNCORR and
the line; else its rows take the HBM bytes by the common rules of a datapath; DIR 2 copies rows to rows by the same rules.
A LN_HOST whose partition has Bus Master Enable 0 waits; one whose host read failed ends with TIMEOUT and the bytes
returned before the failed request. -/
def Obligations.LanesMoveData : Prop :=
  (∀ (eng : Eng) (hw : Hw) (s : State) (x : Instr) (op : Nat),
      ((x = .lnCopy eng hw ∧ op = 0x70) ∨ (∃ f data, x = .lnHost eng hw f data ∧ op = 0x71) ∨ (x = .lnRwrite eng hw ∧ op = 0x72)
        ∨ (x = .lnRtag eng hw ∧ op = 0x73) ∨ (x = .lnRread eng hw ∧ op = 0x74)) →
      (s.ready? eng.toNat op = none → exec x s = .next s)
      ∧ ∀ c, s.ready? eng.toNat op = some c → c.ctl.or (ctlLost hw) ≠ none → Completes x s fun t => SameStores s t
          ∧ t.rb.cmds = s.cmdsWith { c with ctl := c.ctl.or (ctlLost hw), phase := .ended })
  ∧ (∀ (eng : Eng) (hw : Hw) (s : State) (c : Cmd), s.ready? eng.toNat 0x70 = some c → c.ctl = none → ctlLost hw = none →
      let u := (s.upset eng.toNat hw).putCmd c
      let rows := c.desc.param 2 17
      let a := bits (c.desc.word 4) 0 36
      let r := u.laneRead c.desc.engine a (rows * 512)
      (c.desc.param 0 2 = 0 → r.2.2 = none → exec (.lnCopy eng hw) s = .next (r.2.1.runOn (rowsInPath 0x70 0 rows fun _ _ => r.1) c))
      ∧ (∀ line, c.desc.param 0 2 = 0 → r.2.2 = some line → Completes (.lnCopy eng hw) s fun t =>
          t.rb.cmds = r.2.1.cmdsWith { c with phase := .ended, flags := withFlag c.flags flEccUncorr, addr := line, inHbm := true }
          ∧ t.st = r.2.1.st)
      ∧ (∀ i now x put, c.desc.param 0 2 = 1 → opInfo c.desc = some i → c.shadow = false →
          put = (fun (w : State) (_ : Cmd) (bs : List Byte) => w.writeHbm a bs) → u.pathEnd (rowsOutPath 0x70 rows put) c i = .data now x →
          let bs := (now.viewOf c.desc.engine).opRows (c.ops.getD 0 {}) (c.ops.getD 0 {}).off rows
          Completes (.lnCopy eng hw) s fun t => Mem.readBytes t.st.hbm a bs.length = bs
            ∧ (∀ j, j < a ∨ a + bs.length ≤ j → Mem.read t.st.hbm j = Mem.read u.st.hbm j)
            ∧ t.st.sp = u.st.sp ∧ ∃ f, t.rb.cmds = u.cmdsWith (Cmd.endedWith { c with far := f } {}))
      ∧ (2 ≤ c.desc.param 0 2 → exec (.lnCopy eng hw) s = .next (u.runOn (rowsInPath 0x70 1 rows fun v x =>
          v.opRows (x.ops.getD 0 {}) (x.ops.getD 0 {}).off rows) c)))
  ∧ (∀ (eng : Eng) (hw : Hw) (fault : Option ReadFault) (data : List Byte) (s : State) (c : Cmd),
      s.ready? eng.toNat 0x71 = some c → c.ctl = none → ctlLost hw = none →
      let u := (s.upset eng.toNat hw).putCmd c
      let n := c.desc.param 2 32
      let a := c.desc.word 4
      let h := bits (c.desc.word 5) 0 36
      let dir := c.desc.param 0 2
      ((u.fn (u.tablePart c.desc)).bme = false → exec (.lnHost eng hw fault data) s = .next s)
      ∧ ((u.fn (u.tablePart c.desc)).bme = true →
        (∀ f, fault = some f → dir = 0 ∨ dir = 2 → Completes (.lnHost eng hw fault data) s fun t => SameStores s t
            ∧ t.rb.cmds = u.cmdsWith { c with phase := .ended, flags := withFlag c.flags flTimeout, detail := data.length, hostRead := true })
        ∧ (fault = none → dir = 0 → exec (.lnHost eng hw fault data) s =
            .next (u.runOn (rowsInPath 0x71 0 ((n + 511) / 512) fun _ _ => slice data 0 n) c))
        ∧ (fault = none → dir = 2 → Completes (.lnHost eng hw fault data) s fun t => t.rb.cmds = u.cmdsWith { c with phase := .ended }
            ∧ Mem.readBytes t.st.hbm h n = slice data 0 n ∧ t.st.sp = u.st.sp
            ∧ ∀ j, j < h ∨ h + n ≤ j → Mem.read t.st.hbm j = Mem.read u.st.hbm j)
        ∧ (∀ i now x put, dir = 1 → opInfo c.desc = some i → c.shadow = false →
            put = (fun (w : State) (_ : Cmd) (bs : List Byte) => w.hostWrite a (bs.take n)) →
            u.pathEnd (rowsOutPath 0x71 ((n + 511) / 512) put) c i = .data now x →
            let bs := ((now.viewOf c.desc.engine).opRows (c.ops.getD 0 {}) (c.ops.getD 0 {}).off ((n + 511) / 512)).take n
            Completes (.lnHost eng hw fault data) s fun t => Mem.readBytes t.host.mem a bs.length = bs
              ∧ (∀ j, j < a ∨ a + bs.length ≤ j → Mem.read t.host.mem j = Mem.read u.host.mem j)
              ∧ SameStores u t ∧ ∃ f, t.rb.cmds = u.cmdsWith (Cmd.endedWith { c with far := f } {}))
        ∧ (dir = 3 →
            let r := u.laneRead c.desc.engine h n
            (r.2.2 = none → Completes (.lnHost eng hw fault data) s fun t => Mem.readBytes t.host.mem a r.1.length = r.1
              ∧ t.rb.cmds = r.2.1.cmdsWith { c with phase := .ended })
            ∧ ∀ line, r.2.2 = some line → Completes (.lnHost eng hw fault data) s fun t => t.st = r.2.1.st
              ∧ t.rb.cmds = r.2.1.cmdsWith { c with phase := .ended, flags := withFlag c.flags flEccUncorr, addr := line, inHbm := true })))

/-- Where no port reaches the peer the command ends with PEER_DOWN; a remote write without a grant for its range ends with
HANDLE_ACCESS; nothing is sent. Otherwise LN_RWRITE, where no row is poisoned, sends the WRITE frames of its rows and
WRITE_END and waits for LANDED, LN_RTAG sends one RTAG under the next transaction number of the port and waits for LANDED,
and LN_RREAD sends a read request for every 256 rows and waits for their data. Each leaves one operation for every answer
that it waits for. -/
def Obligations.LanesReachPeers : Prop :=
  ∀ (eng : Eng) (hw : Hw) (s : State) (c : Cmd), c.ctl = none → ctlLost hw = none →
      let u := (s.upset eng.toNat hw).putCmd c
      let peer := c.desc.param 0 3
      let part := u.tablePart c.desc
      (u.portTo peer = none →
          let down := fun (t : State) => t.rb.cmds = u.cmdsWith { c with phase := .ended, flags := withFlag c.flags flPeerDown, wanted := [] } ∧ t.xr = u.xr
          (s.ready? eng.toNat 0x72 = some c → Completes (.lnRwrite eng hw) s down)
          ∧ (s.ready? eng.toNat 0x73 = some c → Completes (.lnRtag eng hw) s down)
          ∧ (s.ready? eng.toNat 0x74 = some c → Completes (.lnRread eng hw) s down))
      ∧ (∀ p, s.ready? eng.toNat 0x72 = some c → u.portTo peer = some p →
          let rows := c.desc.param 3 17
          let grant := u.grantFor peer part (c.desc.param 20 8) (c.desc.param 28 16) rows
          (grant = none → Completes (.lnRwrite eng hw) s fun t =>
              t.rb.cmds = u.cmdsWith { c with phase := .ended, flags := withFlag c.flags flHandleAccess } ∧ t.xr = u.xr)
          ∧ ∀ g i now x put, grant = some g → opInfo c.desc = some i → c.shadow = false →
              put = (fun (w : State) (y : Cmd) (bs : List Byte) => w.sendRows p g y (chunksOf rows 512 bs)) →
              u.pathEnd (rowsOutPath 0x72 rows put) c i = .data now x → Completes (.lnRwrite eng hw) s fun t =>
                let rs := chunksOf rows 512 ((now.viewOf c.desc.engine).opRows (c.ops.getD 0 {}) (c.ops.getD 0 {}).off rows)
                let last : Frame := { vc := 0, type := 0x2, part := part, txn := g.number, payload := addrBlock (c.desc.param 20 8) (c.desc.param 44 3) (c.desc.param 47 4) (c.desc.param 28 16) rs.length 0 }
                let data := (List.range rs.length).flatMap fun i => writeFrames part g.number (c.desc.param 28 16 - g.first + i) (rs.getD i [])
                t.xr.ports = (u.sendAll p (data ++ [last])).xr.ports
                ∧ t.xr.ops = u.xr.ops ++ [{ port := p, txn := g.number, cmd := c.seq, req := last }]
                ∧ t.rb.cmds = u.cmdsWith { c with phase := .issued, wrote := true, remoteLeft := 1, waitSince := u.now, waitReported := false })
      ∧ (∀ p, s.ready? eng.toNat 0x73 = some c → u.portTo peer = some p → Completes (.lnRtag eng hw) s fun t =>
          let f : Frame := { vc := 3, type := 0x4, part := part, txn := (u.port p).nextTxn, payload := addrBlock (c.desc.param 3 8) 0 (c.desc.param 29 4) (c.desc.param 11 16) 1 (c.desc.param 27 2) }
          t.xr.ports = ((u.setPort p { (u.port p) with nextTxn := ((u.port p).nextTxn + 1) % 1024 }).send p f).xr.ports
          ∧ t.xr.ops = u.xr.ops ++ [{ port := p, txn := (u.port p).nextTxn, cmd := c.seq, req := f }]
          ∧ t.rb.cmds = u.cmdsWith { c with phase := .issued, wrote := true, remoteLeft := 1, waitSince := u.now, waitReported := false })
      ∧ (∀ p, s.ready? eng.toNat 0x74 = some c → u.portTo peer = some p → Completes (.lnRread eng hw) s fun t =>
          let n := (c.desc.param 3 17 + 255) / 256
          t.rb.cmds = u.cmdsWith { c with phase := .issued, remoteLeft := n, waitSince := u.now, waitReported := false }
          ∧ t.xr.ops.length = u.xr.ops.length + n ∧ ∀ o ∈ t.xr.ops, o ∈ u.xr.ops ∨ (o.port = p ∧ o.cmd = c.seq))

/-- An entry that HANDLE_WRITE stores satisfies the conditions of R102: BASE + BOUND - 1 lies in the Square of BASE,
SQUARE_MASK is not 0, and with SLOT_ROWS not 0 BASE is a multiple of 4 and BOUND a multiple of SLOT_ROWS. An entry that
breaks one is not written: every handle entry stays, and REJECTS (0x4001:05) rises by one. An accepted entry becomes the
entry, with its reserved bits 0, and no other entry changes. Handle 0xFF is never valid: its entry reads as an invalid one
whatever was written, a descriptor record that names it is no operand, and a narrow write through it is not made. -/
def Obligations.HandleUnitAcceptsOrKeeps : Prop :=
  (∀ (p : Part) (h : Byte) (w0 w1 : Word) (s : State),
    let e := HandleEntry.of (w0, w1)
    (handleAccepts (w0, w1) = true → e.base / 65536 = (e.base + e.bound - 1) / 65536 ∧ e.mask ≠ 0
      ∧ (e.slotRows ≠ 0 → e.base % 4 = 0 ∧ e.bound % e.slotRows = 0))
    ∧ (e.base / 65536 ≠ (e.base + e.bound - 1) / 65536 ∨ e.mask = 0 ∨ (e.slotRows ≠ 0 ∧ (e.base % 4 ≠ 0 ∨ e.bound % e.slotRows ≠ 0)) →
        Completes (.handleWrite p h w0 w1) s fun t => t.st.handles = s.st.handles ∧ t.obj 0x4001 5 = (s.obj 0x4001 5 + 1) % 2 ^ 32)
    ∧ (handleAccepts (w0, w1) = true → Completes (.handleWrite p h w0 w1) s fun t =>
        t.handle p.val h.toNat = (if h.toNat = 0xFF then (0, 0) else handleStored (w0, w1)) ∧ ∀ q k, q * 256 + k ≠ p.val * 256 + h.toNat → t.handle q k = s.handle q k))
  ∧ (∀ r : Nat, (Operand.ofRec r).handle = 0xFF → (Operand.ofRec r).used = false)
  ∧ (∀ (s : State) (p off : Nat), s.narrowOk p 0xFF off = false)

/-- A narrow write that is malformed, that only a control core may make, or that its handle does not permit changes
nothing; one that must wait for its slot changes at most the counter of corrected reads; a record whose source row is
poisoned is not formed, and no store changes. Otherwise the port holds a buffer of the row with the written bytes (those
of the record, where it forms one) at their places; through a tagged handle the tag is FILLING by this unit, or, where the
write ends the FILL or CLOSE, FULL with the declared reads. An idle flush takes the buffer of the row out of the port,
leaves every other buffer, and, where the row can be read, the row then holds the buffered bytes over what it held. A
batch entry takes its valid members, every other entry stays, and an entry with no member or more than 256 is not taken. A
transposed read of 32 source rows delivers 32 rows: element p of row j is element j x (16 / e) + p div 32 of source row p
mod 32, its bytes in order. -/
def Obligations.NarrowWritesAndBatchTable : Prop :=
  (∀ (port : NarrowNo) (p : Part) (sid : Sid) (h : Byte) (off : BitVec 16) (at_ : Nat) (data : NarrowData) (mode : Nat) (fin : Option Nat) (s : State),
      let e := HandleEntry.of (s.handle p.val h.toNat)
      let row := e.base + off.toNat
      let c : Instr := .narrowWrite port p sid h off at_ data mode fin
      let bytes := s.narrowBytes port.val sid.val data
      let tag := slotTag { used := true, base := e.base, slotRows := e.slotRows } off.toNat
      let reads := s.countReads (narrowReads data)
      let holds := fun (t : State) => ∃ b ∈ t.gatherPort port.val, b.row = row ∧ ∀ i x, bytes[i]? = some x → Tbl.get? b.bytes (at_ + i) = some x
      (bytes.length = 0 ∨ 64 < bytes.length ∨ 512 < at_ + bytes.length ∨ (narrowReads data ≠ [] ∧ port.val < 4)
        ∨ s.narrowOk p.val h.toNat off.toNat = false → exec c s = .next s)
      ∧ (0 < bytes.length → bytes.length ≤ 64 → at_ + bytes.length ≤ 512 → narrowReads data = [] ∨ 4 ≤ port.val →
          s.narrowOk p.val h.toNat off.toNat = true →
          (∀ bad, reads.2 = some bad → Completes c s fun t => t.st = s.st ∧ t.rb = s.rb)
          ∧ (reads.2 = none →
            (e.slotRows = 0 → Completes c s holds)
            ∧ (e.slotRows ≠ 0 → narrowClaim (s.tag tag) (gatherSource port.val) mode = none → exec c s = .next reads.1)
            ∧ (∀ g, e.slotRows ≠ 0 → narrowClaim (s.tag tag) (gatherSource port.val) mode = some g →
                (fin = none → Completes c s fun t => holds t ∧ t.tag tag = g)
                ∧ ∀ n, fin = some n → Completes c s fun t => t.tag tag = g.fill (n % 16)))))
  ∧ (∀ (port : GatherNo) (row : Nat) (s : State), Completes (.gatherIdleFlush port row) s fun t =>
      t.gatherPort port.val = (s.gatherPort port.val).filter (fun b => !(b.row == row)) ∧ (∀ k, k ≠ port.val → t.gatherPort k = s.gatherPort k)
      ∧ ∀ b, (s.gatherPort port.val).filter (fun b => b.row == row) = [b] → b.bytes.length ≠ 512 → s.rowPoisoned row = false →
          t.readRow row = slice (mergeBytes (s.readRow row) b.bytes) 0 512)
  ∧ (∀ (bid : BatchId) (valid : Bool) (members : List Nat) (s : State),
      (valid = true → members = [] ∨ 256 < members.length → exec (.batchTableWrite bid valid members) s = .next s)
      ∧ (valid = false ∨ (members ≠ [] ∧ members.length ≤ 256) → Completes (.batchTableWrite bid valid members) s fun t =>
          t.batchEntry bid.val = (if valid then { valid := true, members := members.map fun w => w % 8192 + bits w 16 16 * 65536 } else {})
          ∧ ∀ n, n ≠ bid.val → t.batchEntry n = s.batchEntry n))
  ∧ (∀ (s : State) (o stride e j p : Nat), e = 1 ∨ e = 2 ∨ e = 4 → j < 32 → p < 512 / e →
      (s.transposedTile o stride e).length = 32 ∧ ((s.transposedTile o stride e).getD j []).length = 512
      ∧ slice ((s.transposedTile o stride e).getD j []) (p * e) e = slice (s.readRow (o + p % 32 * stride)) ((j * (16 / e) + p / 32) * e) e)

/-- When a MODEL_LOAD or MODEL_UNLOAD entry is consumed from a ring of a VF (a partition other than 0), the entry is
passed, one DESC_ERROR record of its opcode with code 0x07 (a PF-only opcode on a VF ring) goes to output ring 0 of the
partition, and that is all that happens. -/
def Obligations.OnlyThePfLoadsAndUnloads : Prop :=
  ∀ (p : Part) (ring : Ring) (e : Words8) (s : State), p.val ≠ 0 → s.consumes p.val ring.val false = true →
    (entOp e = 0x30 → exec (.modelLoad p ring e) s =
      .next ((s.advanceHead p.val ring.val).descError p.val none 0x30 (entTag e) 0x07 ring.val 0 0))
    ∧ (entOp e = 0x31 → exec (.modelUnload p ring e) s =
      .next ((s.advanceHead p.val ring.val).descError p.val none 0x31 (entTag e) 0x07 ring.val 0 0))

/-- When, for every submission of a cycle, the queue of the target engine for the class of the descriptor is full, or no
command slot of its class is free, the port reports RETRY to each core that runs and submitted, and nothing else of the
state changes: no command is accepted, no number is taken, no record and no completion entry is produced. A core may
submit again: the state admits it as before. -/
def Obligations.FullSubmissionsAreRetried : Prop :=
  ∀ (core : Core) (d : Words8) (others : List (Core × Words8)) (s : State),
    (∀ x ∈ (core, d) :: others, ((unitOf (Desc.engine x.2)).isSome = true ∧ s.queueFull (Desc.engine x.2) (Desc.isBe x.2) = true)
      ∨ s.slotFree (Desc.isBe x.2) = false) →
    Completes (.descSubmit core d others) s fun t => t = { s with rb := { s.rb with report := t.rb.report } }
      ∧ (∀ x ∈ turnOrder s.rb.lastCore ((core, d) :: others), s.coreRuns x.1.val = true → Tbl.get? t.rb.report x.1.val = some .retry)
      ∧ ∀ c, (∀ x ∈ turnOrder s.rb.lastCore ((core, d) :: others), x.1.val ≠ c) → Tbl.get? t.rb.report c = Tbl.get? s.rb.report c

/-- At a refill every regulator of every partition becomes its count plus RATE, clipped at BURST x 1,024, less the charges
of the microsecond, with no lower limit; one with RATE 0 is never below zero. A charge of a regulator that has a byte
counter raises that counter by its bytes whatever RATE is, and adds them to the charges of the present microsecond. -/
def Obligations.RegulatorsTickAsStated : Prop :=
  (∀ s : State, Completes .regulatorRefill s fun t => t.rb.charges = [] ∧ ∀ p r, p < 16 → r < 5 →
      let rate := s.obj (0x2400 + p) (6 + 2 * r)
      let burst := s.obj (0x2400 + p) (7 + 2 * r)
      let clipped : Int := min (Tbl.getD s.rb.bucket 0 (p * 8 + r) + rate) (burst * 1024 : Nat)
      let n := clipped - Tbl.getD s.rb.charges 0 (p * 8 + r)
      (rate ≠ 0 → Tbl.getD t.rb.bucket 0 (p * 8 + r) = n)
      ∧ (rate = 0 → Tbl.getD t.rb.bucket 0 (p * 8 + r) = max n 0 ∧ 0 ≤ Tbl.getD t.rb.bucket 0 (p * 8 + r)))
  ∧ (∀ (s : State) (p r x : Nat), Tbl.getD (s.chargePart p r x).rb.charges 0 (p * 8 + r) = Tbl.getD s.rb.charges 0 (p * 8 + r) + x
      ∧ ∀ c, regCounter r = some c → (s.chargePart p r x).obj (0x3000 + p) c = (s.obj (0x3000 + p) c + x) % 2 ^ 64)

/-- QUARTER_POWER_DOWN of an ON quarter makes it CLOSING and leaves no gather buffer of its rows; of any other it does
nothing. QUARTER_DRAINED of a CLOSING quarter, once no command holds a resolution into it, flushes the narrow writes of
its rows and switches it off: every tag of it is EMPTY with READERS 0, every row of it reads 0, tags and bytes of the
other quarters stay; otherwise nothing. DRAIN_ABANDON returns a CLOSING quarter into which a parked command holds a
resolution to ON and counts DRAIN_ABANDONED. QUARTER_POWER_UP of an OFF quarter makes it WAKING; QUARTER_WAKE_DONE makes
it ON, zeroed and EMPTY. MX_POWER_DOWN switches an idle MX off with its store zero and its tags EMPTY, makes a busy one
CLOSING, and does nothing to one that is neither ON nor CLOSING. No other domain changes. -/
def Obligations.QuartersAndMxDomainsSwitch : Prop :=
  (∀ (q : QuarterNo) (s : State),
      let d := quarterDomain q.val
      let others := fun (t : State) => ∀ k, k ≠ d → t.domain k = s.domain k
      let blank := fun (t : State) => (∀ n, n / 4096 = q.val → t.tag n = {}) ∧ (∀ n, n / 4096 ≠ q.val → t.tag n = s.tag n)
        ∧ (∀ a, a / 8388608 = q.val → Mem.read t.st.sp a = 0) ∧ (∀ a, a / 8388608 ≠ q.val → Mem.read t.st.sp a = Mem.read s.st.sp a)
      let cleared := fun (t : State) => (∀ n, n / 4096 = q.val → t.tag n = {}) ∧ (∀ n, n / 4096 ≠ q.val → t.tag n = s.tag n)
        ∧ (∀ a, a / 8388608 = q.val → Mem.read t.st.sp a = 0) ∧ (∀ a, a / 8388608 % 32 ≠ q.val → Mem.read t.st.sp a = Mem.read s.st.sp a)
      (s.quarterOn q.val = false → exec (.quarterPowerDown q) s = .next s)
      ∧ (s.quarterOn q.val = true → Completes (.quarterPowerDown q) s fun t => t.domain d = 3 ∧ others t
          ∧ ∀ g, g < 9 → ∀ b ∈ t.gatherPort g, rowQuarter b.row ≠ q.val)
      ∧ (s.domain d ≠ 3 ∨ (s.rb.cmds.any fun c => s.holdsQuarter q.val c) = true → exec (.quarterDrained q) s = .next s)
      ∧ (s.domain d = 3 → (s.rb.cmds.any fun c => s.holdsQuarter q.val c) = false → Completes (.quarterDrained q) s fun t =>
          t.domain d = 0 ∧ others t ∧ cleared t)
      ∧ (s.domain d ≠ 3 ∨ (s.rb.cmds.any fun c => c.phase == .parked && s.holdsQuarter q.val c) = false → exec (.drainAbandon q) s = .next s)
      ∧ (s.domain d = 3 → (s.rb.cmds.any fun c => c.phase == .parked && s.holdsQuarter q.val c) = true → Completes (.drainAbandon q) s fun t =>
          t.domain d = 2 ∧ others t ∧ t.obj 0x4001 6 = (s.obj 0x4001 6 + 1) % 2 ^ 32 ∧ t.st.sp = s.st.sp ∧ t.st.tags = s.st.tags)
      ∧ (s.domain d ≠ 0 → exec (.quarterPowerUp q) s = .next s)
      ∧ (s.domain d = 0 → Completes (.quarterPowerUp q) s fun t => t.domain d = 1 ∧ others t)
      ∧ (s.domain d ≠ 1 → exec (.quarterWakeDone q) s = .next s)
      ∧ (s.domain d = 1 → Completes (.quarterWakeDone q) s fun t => t.domain d = 2 ∧ others t ∧ blank t))
  ∧ (∀ (mx : MxNo) (s : State) (d : Nat), engineDomain (mxEngine mx.val) = some d →
      (s.domain d ≠ 2 → s.domain d ≠ 3 → exec (.mxPowerDown mx) s = .next s)
      ∧ (s.domain d = 2 ∨ s.domain d = 3 → s.mxIdle mx.val = false → Completes (.mxPowerDown mx) s fun t =>
          t.domain d = 3 ∧ (∀ k, k ≠ d → t.domain k = s.domain k) ∧ t.st = s.st)
      ∧ (s.domain d = 2 ∨ s.domain d = 3 → s.mxIdle mx.val = true → Completes (.mxPowerDown mx) s fun t =>
          t.domain d = 0 ∧ (∀ k, k ≠ d → t.domain k = s.domain k)
          ∧ (∀ a, a / 135168 = mx.val → Mem.read t.st.acc a = 0) ∧ (∀ a, a / 135168 ≠ mx.val → Mem.read t.st.acc a = Mem.read s.st.acc a)
          ∧ (∀ n, n / 8 = mx.val → t.tileTag n = {}) ∧ (∀ n, n / 8 ≠ mx.val → t.tileTag n = s.tileTag n)))

/-- A scratchpad scrubber of a Square with no quarter ON does nothing; else it visits the next row of an ON quarter and
moves on by one. A row without error stays; one that the decoder corrects reads as before and holds no error any more,
with CORRECTED and SCRUBBED counted; an uncorrectable one raises the uncorrectable counters, writes a fault-log entry with
class 2 and the row, and what it held is repaired. An HBM line without error stays; a corrected one has no error any more
and is counted; an uncorrectable line of a weight copy takes the bytes of the replica where that can be read, any other is
reported; a mirror, spilled page, input extent, egress record or commit-log line without error changes nothing, one with a
correctable error only raises the corrected counters of the device and of its stack, and an uncorrectable one is reported
and treated under R433: the mirror is rewritten from the other copies, the page of a spill frame is lost, an extent takes
the bytes of its slot where the chunk still holds a good one and else is bad, an egress record is read from its other
copy, a log line is counted only. -/
def Obligations.ScrubbersVisitAndRepair : Prop :=
  (∀ (sq : SquareNo) (ups : List (Nat × Nat × Nat)) (s : State),
      let s0 := s.upset 0xFF { sp := ups }
      (s0.scrubRow sq.val (Tbl.getD s.st.scrubNext 0 sq.val) = none → exec (.scrubVisit sq ups) s = .next s0)
      ∧ ∀ r, s0.scrubRow sq.val (Tbl.getD s.st.scrubNext 0 sq.val) = some r →
        let row := sq.val * 65536 + r
        let v := rowVerdict (s0.rowErr row)
        (v = 0 → Completes (.scrubVisit sq ups) s fun t => Tbl.getD t.st.scrubNext 0 sq.val = (r + 1) % 65536
            ∧ t.st.sp = s.st.sp ∧ t.st.spErr = s0.st.spErr)
        ∧ (v = 1 → Completes (.scrubVisit sq ups) s fun t => Tbl.getD t.st.scrubNext 0 sq.val = (r + 1) % 65536
            ∧ t.rowErr row = [] ∧ (∀ q, q ≠ row → t.rowErr q = s0.rowErr q ∧ t.readRow q = s0.readRow q)
            ∧ t.readRow row = slice (s0.readRow row) 0 512 ∧ t.obj 0x4001 3 = (s.obj 0x4001 3 + 1) % 2 ^ 32)
        ∧ (2 ≤ v → exec (.scrubVisit sq ups) s =
            .next (((((s0.scrubTo sq.val ((r + 1) % 65536)).spUncorrected row 0xFF).logFault
              { cls := 2, action := 3, addr := row }).repairRow row).incObj 0x4010 0x0A)))
  ∧ (∀ (n : Nat) (ups : List (Nat × Nat)) (s : State),
      let s0 := s.upset 0xFF { hbm := ups.map fun u => (n, u.1, u.2) }
      let v := lineVerdict (Tbl.getD s0.st.hbmErr [] n)
      let bad := (s0.hbmUncorrected n 0xFF).logFault { cls := 3, action := 3, addr := n * 64 }
      (v = 0 → exec (.hbmScrubVisit (.line n) ups) s = .next s0)
      ∧ (v = 1 → Completes (.hbmScrubVisit (.line n) ups) s fun t => Tbl.getD t.st.hbmErr [] n = [] ∧ t.st.hbm = s.st.hbm
          ∧ t.obj 0x4003 1 = (s.obj 0x4003 1 + 1) % 2 ^ 32)
      ∧ (2 ≤ v → s0.weightAt n = none → exec (.hbmScrubVisit (.line n) ups) s =
          .next (((s0.hbmUncorrected n 0xFF).logFault { cls := 3, action := 8, addr := n * 64 }).incObj 0x4010 0x0A))
      ∧ (∀ m other, 2 ≤ v → s0.weightAt n = some (m, other) → Completes (.hbmScrubVisit (.line n) ups) s fun t =>
          (bad.replicaGood other = true → Mem.readBytes t.st.hbm (n * 64) 64 = Mem.readBytes s.st.hbm (other * 64) 64
            ∧ Tbl.getD t.st.hbmErr [] n = [])
          ∧ (bad.replicaGood other = false → t.st.hbm = s.st.hbm)))
  ∧ (∀ (use : HbmUse) (ups : List (Nat × Nat)) (s : State), (∀ n, use ≠ .line n) →
      (lineVerdict ups = 0 → exec (.hbmScrubVisit use ups) s = .next s)
      ∧ (lineVerdict ups = 1 → Completes (.hbmScrubVisit use ups) s fun t => t.obj 0x4003 1 = (s.obj 0x4003 1 + 1) % 2 ^ 32
          ∧ t.obj 0x4003 (3 + useStack use) = (s.obj 0x4003 (3 + useStack use) + 1) % 2 ^ 32 ∧ t.st = s.st ∧ t.pg = s.pg ∧ t.str = s.str)
      ∧ (2 ≤ lineVerdict ups → use = .egress → exec (.hbmScrubVisit use ups) s = .next (((s.hbmEvent use 3).incObj 0x4004 3).incObj 0x4010 0x0A))
      ∧ (2 ≤ lineVerdict ups → use = .log → exec (.hbmScrubVisit use ups) s = .next ((s.hbmEvent use 8).incObj 0x4010 0x0A))
      ∧ (∀ f, 2 ≤ lineVerdict ups → use = .spill f → exec (.hbmScrubVisit use ups) s =
          .next ((({ s.hbmEvent use 3 with pg := { (s.hbmEvent use 3).pg with spillBad := (s.hbmEvent use 3).pg.spillBad ++ [f] } } : State).pageLost (spillPage f)).incObj 0x4010 0x0A))
      ∧ (∀ sid no, 2 ≤ lineVerdict ups → use = .extent sid no → exec (.hbmScrubVisit use ups) s =
          .next (((s.hbmEvent use 3).modChunk sid.val no fun c =>
            if c.slotHeld && !s.slotBad c then { c with extent := s.slotBytes c, extentBad := false } else { c with extentBad := true }).incObj 0x4010 0x0A))
      ∧ (∀ sid m1, 2 ≤ lineVerdict ups → use = .mirror sid m1 → exec (.hbmScrubVisit use ups) s =
          .next ((((s.hbmEvent use 3).modStream sid.val fun x => { x with badMirror := setBit x.badMirror (b2n m1) true }).restoreM sid.val 3).incObj 0x4010 0x0A)))

/-- CORE_MEMORY_UNCORRECTABLE of a core that is down changes nothing, nor does CC_WATCHDOG of one that is down or gated in
Snowdrop. Of a core that serves they have one effect: the core is down, every byte of its memory reads 0 and those of the
other cores read as before, with CC0 no USDO transfer is left, and when no chunk runs on the core nothing else happens but
one fault-log entry of class 8 with source 0x50 + core. CONTROL_CORE_RESTARTED of a core other than CC0 that is not down
changes nothing; of one that is down, the core is no longer down, the others stay as they were, and one EMCY event 0x5000
of kind 3 is raised. After a restart of CC0 the mailboxes of all partitions are served in order. -/
def Obligations.CoresAreResetAndServeAgain : Prop :=
  (∀ (c : Core) (s : State), (s.ctl.coresDown.contains c.val = true → exec (.coreMemoryUncorrectable c) s = .next s)
      ∧ (s.coreRuns c.val = false → exec (.ccWatchdog c) s = .next s))
  ∧ (∀ (c : Core) (s : State) (x : Instr), (x = .ccWatchdog c ∧ s.coreRuns c.val = true)
        ∨ (x = .coreMemoryUncorrectable c ∧ s.ctl.coresDown.contains c.val = false) →
      Completes x s fun t =>
        (∀ k, k ∈ t.ctl.coresDown ↔ k = c.val ∨ k ∈ s.ctl.coresDown)
        ∧ (∀ a, a / 262144 = c.val → Mem.read t.st.core a = 0) ∧ (∀ a, a / 262144 ≠ c.val → Mem.read t.st.core a = Mem.read s.st.core a)
        ∧ (c.val = 0 → t.ctl.usdo = []) ∧ (c.val ≠ 0 → t.ctl.usdo = s.ctl.usdo)
        ∧ ((∀ x ∈ s.str.chunks, s.runsOn x c.val = false) →
            t.str = s.str ∧ t.rb = s.rb ∧ t.host = s.host ∧ t.st.sp = s.st.sp ∧ t.st.tags = s.st.tags
            ∧ t.ctl.faultLog = pushRing 4096 s.ctl.faultLog
                ⟨[8 + 256 * (0x50 + c.val) + 65536 * 7 + 2 ^ 32 * s.obj 0x4000 1, s.now, 0, 0, 0, 0, 0, 0]⟩))
  ∧ (∀ (c : Core) (s : State), c.val ≠ 0 →
      (s.ctl.coresDown.contains c.val = false → exec (.controlCoreRestarted c) s = .next s)
      ∧ (s.ctl.coresDown.contains c.val = true → Completes (.controlCoreRestarted c) s fun t =>
          (∀ k, k ∈ t.ctl.coresDown ↔ k ≠ c.val ∧ k ∈ s.ctl.coresDown) ∧ t.st = s.st ∧ t.str = s.str ∧ t.rb = s.rb
          ∧ (s.ctl.emcy.length < 32 → t.ctl.emcy = s.ctl.emcy ++
              [⟨0x5000, [3, c.val], setBit (errorRegister s.ctl.conditions) (emcyBit 0x5000) true⟩])))
  ∧ (∀ (c : Core) (s : State), c.val = 0 → exec (.controlCoreRestarted c) s =
      .next ((List.finRange 16).foldl (fun u p => u.serveMail p) (s.coreServes 0)))

/-- At a step boundary with no sequence nothing changes; when the one sequence that exists belongs to an admitted chunk,
has not joined, its table may be edited, no page of its tail needs a copy, its headroom slot is empty and a frame may be
taken, it joins now, with the lowest free frame as headroom, in an edited copy of its table. PAGE_DEMOTE changes nothing
without an idle sequence with a page to demote, when that sequence is another stream or when enough frames are free;
without a free spill frame nothing; else the page moves to the next spill frame: the entry names it, its bytes are those
of the page, and the other sequences stay (stated for a page that one sequence names); a page that cannot be read is lost
instead. PAGE_WAIT_LIMIT changes nothing while no sequence waits, or the one that has waited longest has not waited
WAIT_LIMIT ms; else it pre-empts the youngest other BE sequence. REBUILD_MARK of a sequence whose pages can all be read
changes nothing; else, once no walker reads the other copy, the first committed page that cannot and all after it leave
the table, the root is marked REBUILD exactly while committed positions have no page, and REBUILDS is counted; until then
the edit waits. -/
def Obligations.StepBoundariesJoinAndShortageDemotes : Prop :=
  (∀ s : State, s.seqIds = [] → exec .stepBoundary s = .next s)
  ∧ (∀ (s : State) (q : Nat) (x : Sequence) (c : Chunk), s.seqIds = [q] → s.seq? q = some x → x.joined = none →
      s.placedChunk (q / 8) = some c → c.phase = .placed → s.mayEdit q = true → s.tailsToCopy x = [] → x.table.headroom = none →
      s.mayTake q 1 = true → Completes .stepBoundary s fun t => ∃ y, t.seq? q = some y ∧ y.joined = some c.no ∧ y.admittedAt = s.now
        ∧ y.table = { x.table with headroom := some (lowestFree s.usedOnchip), gen := (x.gen + 1) % 65536 })
  ∧ (∀ (sid : Sid) (s : State),
      (s.demoteOrder = [] → exec (.pageDemote sid) s = .next s)
      ∧ ∀ q rest, s.demoteOrder = q :: rest →
        (s.obj 0x2900 4 ≤ s.freeOnchip ∨ q / 8 ≠ sid.val → exec (.pageDemote sid) s = .next s)
        ∧ (s.freeOnchip < s.obj 0x2900 4 → q / 8 = sid.val → s.nextSpill = none → exec (.pageDemote sid) s = .next s)
        ∧ ∀ i x fr, s.freeOnchip < s.obj 0x2900 4 → q / 8 = sid.val → s.demotable q = some i → s.seq? q = some x → s.nextSpill = some fr →
          s.obj 0x2900 2 ≤ 524288 →
          let page := (x.table.entries.getD i {}).page
          (∀ u, s.lanePage page = (u, none) → exec (.pageDemote sid) s = .next u)
          ∧ ∀ u bs, s.lanePage page = (u, some bs) → s.seqsNaming page = [q] → Completes (.pageDemote sid) s fun t =>
            (∃ y, t.seq? q = some y ∧ y.table = { x.table.renamePage page (spillPage fr) with gen := (x.gen + 1) % 65536 })
            ∧ (∀ k, k ≠ q → Tbl.get? t.pg.seqs k = Tbl.get? s.pg.seqs k)
            ∧ t.pg.spill = Mem.writeBytes s.pg.spill (pageFrame (spillPage fr) * 32768) (slice bs 0 32768))
  ∧ (∀ s : State,
      let order := sortBy (fun q => ((s.seq? q).map (·.waitSince)).getD 0)
        (s.seqIds.filter fun q => ((s.seq? q).map (·.pageWait)).getD false)
      (order = [] → exec .pageWaitLimit s = .next s)
      ∧ ∀ q rest, order = q :: rest →
        let since := ((s.seq? q).map (·.waitSince)).getD 0
        (s.now < since + s.obj 0x2900 5 * 1000000 → exec .pageWaitLimit s = .next s)
        ∧ (since + s.obj 0x2900 5 * 1000000 ≤ s.now → s.youngestBe (some q) = none → exec .pageWaitLimit s = .next s)
        ∧ ∀ v, since + s.obj 0x2900 5 * 1000000 ≤ s.now → s.youngestBe (some q) = some v → exec .pageWaitLimit s = .next (s.preempt v))
  ∧ (∀ (q : SeqNo) (s : State),
      (s.seq? q.val = none → exec (.rebuildMark q) s = .next s)
      ∧ ∀ x, s.seq? q.val = some x →
        ((x.table.entries.find? fun e => e.valid && s.pageBad e.page) = none → exec (.rebuildMark q) s = .next s)
        ∧ ∀ e, (x.table.entries.find? fun e => e.valid && s.pageBad e.page) = some e →
          (x.editable = false → Completes (.rebuildMark q) s fun t => ∃ y, t.seq? q.val = some y ∧ y.due = x.due ++ [.lost e.page]
              ∧ y.table = x.table ∧ t.st = s.st)
          ∧ ∀ i, x.editable = true → x.due = [] → x.table.entries.findIdx? (fun k => k.valid && k.page == e.page) = some i →
              i * s.seqTp x < x.table.committedLen → Completes (.rebuildMark q) s fun t => (∃ y, t.seq? q.val = some y
              ∧ y.table = { x.table with entries := x.table.entries.take i, rebuiltLen := Nat.min x.table.rebuiltLen (i * s.seqTp x)
                                         gen := (x.gen + 1) % 65536 }
              ∧ (y.rebuild = true ↔ y.table.rebuilding = true))
            ∧ t.obj 0x2900 0x0B = (s.obj 0x2900 0x0B + 1) % 2 ^ 32 ∧ t.st = s.st)

/-- A fork to beam 0, or of a beam to itself, or of one that does not exist changes nothing; else a beam that is new, when
no AT command of the stream is accepted, takes every entry of the other beam with SHARED set, an empty headroom slot and
REBUILD as the other beam has it, in a first table, and the other sequences stay; an existing beam whose other copy is
free takes the same in an edited copy, and one whose other copy walkers read stays. A reset of a table that may not be
edited changes nothing; else the table is empty, of length 0, and neither REBUILD nor PAGE_WAIT. RECLAIM_FREE empties the
list of a copy without walkers, leaves one with walkers, and then makes the edits that waited, as far as the other copy is
free. PREFIX_LOOKUP of a sequence that does not exist, holds entries, has a committed length or may not be edited changes
nothing. With the tree disabled it only sets PREFIX_END to the number of tokens; with an empty tree it also counts one
miss; a prefix of one page that a node holds, shared by every key, is entered as a SHARED page and counted as a hit. -/
def Obligations.TablesAreEditedAndLookedUp : Prop :=
  (∀ (q : SeqNo) (b : Fin 8) (s : State),
      let par := q.val / 8 * 8 + b.val
      (q.val % 8 = 0 ∨ par = q.val ∨ s.seq? par = none → exec (.tableEdit q (.fork b)) s = .next s)
      ∧ ∀ x, q.val % 8 ≠ 0 → par ≠ q.val → s.seq? par = some x → Tbl.get? s.pg.seqs q.val = none →
        (s.atBusy (q.val / 8) = true → exec (.tableEdit q (.fork b)) s = .next s)
        ∧ (s.atBusy (q.val / 8) = false → Completes (.tableEdit q (.fork b)) s fun t =>
          (∃ y, t.seq? q.val = some y ∧ y.table = { x.table with headroom := none, gen := 0, entries := (x.table.entries.map fun e => { e with shared := true }) } ∧ y.rebuild = x.rebuild)
          ∧ ∀ k, k ≠ q.val → Tbl.get? t.pg.seqs k = Tbl.get? s.pg.seqs k))
  ∧ (∀ (q : SeqNo) (b : Fin 8) (s : State) (x y : Sequence), q.val % 8 ≠ 0 → q.val / 8 * 8 + b.val ≠ q.val → s.seq? (q.val / 8 * 8 + b.val) = some x →
      s.seq? q.val = some y → s.atBusy (q.val / 8) = false →
      (y.editable = false → exec (.tableEdit q (.fork b)) s = .next s)
      ∧ (y.editable = true → Completes (.tableEdit q (.fork b)) s fun t =>
          (∃ z, t.seq? q.val = some z ∧ z.rebuild = x.rebuild ∧ z.table = { x.table with headroom := none, entries := (x.table.entries.map fun e => { e with shared := true }), gen := (y.gen + 1) % 65536 })
          ∧ ∀ k, k ≠ q.val → Tbl.get? t.pg.seqs k = Tbl.get? s.pg.seqs k))
  ∧ (∀ (q : SeqNo) (s : State),
      (s.mayEdit q.val = false → exec (.tableEdit q .reset) s = .next s)
      ∧ ∀ x, s.mayEdit q.val = true → s.seq? q.val = some x → Completes (.tableEdit q .reset) s fun t =>
          (∃ y, t.seq? q.val = some y ∧ y.rebuild = false ∧ y.pageWait = false
            ∧ y.table = { model := x.table.model, part := x.table.part, workChunk := x.table.workChunk, gen := (x.gen + 1) % 65536 })
          ∧ ∀ k, k ≠ q.val → Tbl.get? t.pg.seqs k = Tbl.get? s.pg.seqs k)
  ∧ (∀ (q : SeqNo) (s : State),
      (∀ b, exec (.reclaimFree q b) s = .next ((s.reclaim q.val b).settleSeq q.val 8))
      ∧ (∀ b, Tbl.get? s.pg.seqs q.val = none → exec (.reclaimFree q b) s = .next s)
      ∧ ∀ x, s.seq? q.val = some x → x.due = [] →
        (x.walkersA = 0 → Completes (.reclaimFree q false) s fun t => t.seq? q.val = some { x with reclaimA := [] })
        ∧ (x.walkersA ≠ 0 → Completes (.reclaimFree q false) s fun t => t.seq? q.val = some x)
        ∧ (x.walkersB = 0 → Completes (.reclaimFree q true) s fun t => t.seq? q.val = some { x with reclaimB := [] })
        ∧ (x.walkersB ≠ 0 → Completes (.reclaimFree q true) s fun t => t.seq? q.val = some x))
  ∧ (∀ (q : SeqNo) (toks : List Nat) (s : State),
      (s.seq? q.val = none → exec (.prefixLookup q toks) s = .next s)
      ∧ ∀ x, s.seq? q.val = some x →
        (x.table.entries ≠ [] ∨ x.table.committedLen ≠ 0 ∨ s.mayEdit q.val = false → exec (.prefixLookup q toks) s = .next s)
        ∧ (x.table.entries = [] → x.table.committedLen = 0 → s.mayEdit q.val = true →
          let became := fun (t : State) (l : List PageEntry) => ∃ y, t.seq? q.val = some y
            ∧ y.table = { x.table with entries := l, prefixEnd := toks.length, gen := (x.gen + 1) % 65536 }
          (s.obj 0x2A00 1 = 0 → Completes (.prefixLookup q toks) s fun t => became t [] ∧ t.pg.nodes = s.pg.nodes)
          ∧ (s.obj 0x2A00 1 ≠ 0 → toks ≠ [] → s.seqTp x ≠ 0 → s.pg.nodes = [] → Completes (.prefixLookup q toks) s fun t =>
              became t [] ∧ t.obj 0x2A00 4 = (s.obj 0x2A00 4 + 1) % 2 ^ 32)
          ∧ (∀ id node, s.obj 0x2A00 1 ≠ 0 → toks.length = s.seqTp x → toks ≠ [] → s.pg.nodes = [(id, node)] → node.slot = x.table.model →
              node.part = s.treePart x.table.part → node.parent = 0xFFFFFFFF → node.tokens = toks → Completes (.prefixLookup q toks) s fun t =>
              became t [{ page := node.page, valid := true, shared := true }] ∧ t.obj 0x2A00 3 = (s.obj 0x2A00 3 + 1) % 2 ^ 32)))

/-- For each of the 24 commands that act on a received frame: with no frame of its type at the head of its channel on a
port that is UP it changes nothing. When there is one the command completes; the frame is of the type and comes from the
port buffer, where no earlier frame of the same channel waits before it; it leaves the buffer, its credit is owed to the
peer, and the other ports keep theirs. -/
def Obligations.FramesWaitForTheirCommand : Prop :=
  ∀ (c : Instr) (port : PortNo) (sel : Frame → Bool) (s : State), frameCmd c = some (port, sel) →
    (s.takeFrame port.val sel = none → exec c s = .next s)
    ∧ ∀ f u, s.takeFrame port.val sel = some (f, u) →
      (∃ t, exec c s = .next t)
      ∧ (s.port port.val).state = .up ∧ sel f = true
      ∧ (∃ before after, (s.port port.val).rx = before ++ f :: after ∧ ∀ g ∈ before, g.vc ≠ f.vc)
      ∧ u.port port.val = { s.port port.val with rx := dropFirst f (s.port port.val).rx
                                                 owed := setNth (s.port port.val).owed f.vc (nthD (s.port port.val).owed f.vc + 1) }
      ∧ ∀ p, p ≠ port.val → u.port p = s.port p

/-- A WRITE or WRITE_END frame of a descriptor that the peer does not own, and a WRITE beyond its rows, is discarded and
answered. Else a WRITE of a descriptor without a waiting end records the quarter and leaves every other row: when the run
of its row then holds all four frames the row is written whole and holds no error, else 128 bytes of the row are replaced,
but not of one with an uncorrectable error. A WRITE_END whose rows have not all landed waits in the descriptor; the one of
a FILL or CLOSE whose rows have landed makes the claimed tag FULL with its READERS and ends the descriptor, that of
another mode leaves the tags and keeps the descriptor. LANDED of no operation changes nothing more; else the operation
goes, a FILL or CLOSE takes its grant away, and the command has one answer less to wait for and takes the flag of a
refusal; with the last one it ends, or, parked, is marked answered, but a part run for a peer goes on unless it carries a
flag. RTAG on a handle that does not resolve is refused with the flag of R104; on untagged rows it is only answered; else
it sets the tag of the slot and no other. -/
def Obligations.RemoteWritesLandAndTagsAreSet : Prop :=
  (∀ (port : PortNo) (s u : State) (f : Frame), s.takeFrame port.val (ofType 0x1) = some (f, u) →
      (u.descOf port.val f = none → exec (.write port) s = .next (u.discardRx port.val f))
      ∧ ∀ d, u.descOf port.val f = some d →
        (d.rows ≤ f.frame / 4 → exec (.write port) s = .next (u.discardRx port.val f))
        ∧ (f.frame / 4 < d.rows → d.ends = [] →
            let row := d.base + f.frame / 4
            let run := (d.run.filter fun x => x.1 / 4 == f.frame / 4 && x.1 != f.frame) ++ [(f.frame, slice f.payload 0 128)]
            let part := fun q => run.find? fun x => x.1 % 4 == q
            ((∃ q < 4, part q = none) → Completes (.write port) s fun t =>
              Tbl.get? t.xr.rxDescs f.txn = some { d with landed := dedup (d.landed ++ [f.frame]), run := run }
              ∧ (∀ r, r ≠ row → t.readRow r = u.readRow r)
              ∧ (u.rowPoisoned row = false → t.readRow row = slice (spliceBytes (u.readRow row) (128 * (f.frame % 4)) (slice f.payload 0 128)) 0 512)
              ∧ (u.rowPoisoned row = true → t.st.sp = u.st.sp ∧ t.st.spErr = u.st.spErr))
            ∧ ∀ w x y z, part 0 = some w → part 1 = some x → part 2 = some y → part 3 = some z → Completes (.write port) s fun t =>
              Tbl.get? t.xr.rxDescs f.txn = some { d with landed := dedup (d.landed ++ [f.frame]), run := [] }
              ∧ (∀ r, r ≠ row → t.readRow r = u.readRow r)
              ∧ t.readRow row = slice (w.2 ++ x.2 ++ y.2 ++ z.2) 0 512 ∧ t.rowPoisoned row = false))
  ∧ (∀ (port : PortNo) (s u : State) (f : Frame), s.takeFrame port.val (ofType 0x2) = some (f, u) →
      (u.descOf port.val f = none → exec (.writeEnd port) s = .next (u.discardRx port.val f))
      ∧ ∀ d, u.descOf port.val f = some d → d.ends = [] →
        let a := Addr.of f.payload
        let e := (a.off - d.first, a.rows, a.mode, a.readers)
        (d.done e = false → Completes (.writeEnd port) s fun t =>
            Tbl.get? t.xr.rxDescs f.txn = some { d with run := [], ends := [e] } ∧ t.st = u.st)
        ∧ (d.done e = true → a.mode = 1 ∨ a.mode = 4 → Completes (.writeEnd port) s fun t =>
            Tbl.get? t.xr.rxDescs f.txn = none
            ∧ (∀ k, d.tag = some k → t.tag k = (u.tag k).fill a.readers)
            ∧ (∀ k, d.tag ≠ some k → t.tag k = u.tag k) ∧ t.st.sp = u.st.sp)
        ∧ (d.done e = true → ¬(a.mode = 1 ∨ a.mode = 4) → Completes (.writeEnd port) s fun t =>
            (∃ l, Tbl.get? t.xr.rxDescs f.txn = some { d with run := [], landed := l, ends := [] }) ∧ t.st = u.st))
  ∧ (∀ (port : PortNo) (s u : State) (f : Frame), s.takeFrame port.val (ofType 0x3) = some (f, u) →
      (u.opOf port.val f.txn [0x2, 0x4, 0x5, 0x8] = none → exec (.landed port) s = .next u)
      ∧ ∀ o, u.opOf port.val f.txn [0x2, 0x4, 0x5, 0x8] = some o → Completes (.landed port) s fun t =>
          let mode := (Addr.of o.req.payload).mode
          t.xr.ops = u.xr.ops.erase o
          ∧ t.xr.grants = (if o.req.type = 0x2 ∧ (mode = 1 ∨ mode = 4) then
              u.xr.grants.filter fun g => !(g.peer == (u.port port.val).peerDev && g.number == f.txn) else u.xr.grants)
          ∧ ∀ c, (u.rb.cmds.find? fun x => x.seq == o.cmd) = some c →
              let flags := if leAt f.payload 0 1 = 2 then withFlag c.flags (leAt f.payload 1 1) else c.flags
              let c1 := { c with remoteLeft := c.remoteLeft - 1, flags := flags }
              let last := c.remoteLeft - 1 = 0 ∧ (o.forPart = false ∨ flags ≠ 0)
              (¬last → t.rb.cmds = u.cmdsWith c1)
              ∧ (last → c.phase = .parked → t.rb.cmds = u.cmdsWith { c1 with answered := true })
              ∧ (last → c.phase ≠ .parked → t.rb.cmds = u.cmdsWith { c1 with phase := .ended }))
  ∧ (∀ (port : PortNo) (s u : State) (f : Frame), s.takeFrame port.val (ofType 0x4) = some (f, u) →
      let a := Addr.of f.payload
      (∀ b, u.resolveRemote f.part a.handle a.off 1 false false = .error b →
        exec (.rtag port) s = .next (u.send port.val (landedFrame f 2 b)))
      ∧ ∀ o, u.resolveRemote f.part a.handle a.off 1 false false = .ok o →
        (o.slotRows = 0 → exec (.rtag port) s = .next (u.send port.val (landedFrame f 0 0)))
        ∧ (o.slotRows ≠ 0 → Completes (.rtag port) s fun t =>
            t.tag (slotTag o a.off) = (u.tag (slotTag o a.off)).set (TagState.ofCode (a.tstate % 4)) a.readers
            ∧ (∀ k, k ≠ slotTag o a.off → t.tag k = u.tag k) ∧ t.st.sp = u.st.sp))

/-- A read of page rows that no walk grants is refused with its flag, one that is granted is answered with the rows in
128-byte frames; a read of slot rows that do not resolve is refused, one of a slot whose tags cannot be claimed for
reading is answered RETRY_RSP, one that meets an uncorrectable row is refused with ECC_UNCORR, any other is answered with
the rows, each tag claimed and released. RREAD_DATA of no operation changes nothing more; else the operation has one frame
less to wait for and goes with the last, and 128 bytes are replaced: of a sound row of the requester, no other row
changing, or, for a part run for a peer, of the copy of the page that its command reads. RETRY_RSP marks the operations
that it answers; the retry timer unmarks the operation and sends its request again. WALK_REQ of an absent sequence is
refused with PT_MISSING, with 255 walkers on the copy it is answered RETRY_RSP, else the copy has one walker more and the
walk is kept; WALK_END ends the walk on its copy; while no chunk aborts it takes the walk away and changes no row.
WALK_DATA of no operation changes nothing more; else it adds to the table that the command collects, and the operation
goes when the table is whole. CANCEL drops the descriptors of the part that the peer registered and keeps the others, and
with no command of the part left empties the tags that it filled. RX_REG keeps a grant, ignores a denial, and answers a
request with the descriptor it registers or a denial. -/
def Obligations.RemoteReadsWalksAndRegistrations : Prop :=
  (∀ (port : PortNo) (s u : State) (f : Frame), s.takeFrame port.val (ofType 0x5) = some (f, u) →
      let a := Addr.of f.payload
      let tags := fun (o : Operand) => if o.slotRows = 0 then [] else dedup ((List.range a.rows).map fun i => slotTag o (a.off + i))
      (∀ b, a.paged = true → u.pageGrant port.val a = some b → exec (.rreadReq port) s = .next (u.send port.val (landedFrame f 2 b)))
      ∧ (a.paged = true → u.pageGrant port.val a = none → exec (.rreadReq port) s = .next (u.sendAll port.val
          (readFrames f ((List.range a.rows).map fun i => slice (u.pageBytes a.page) (512 * (a.off + i)) 512))))
      ∧ (∀ b, a.paged = false → u.resolveRemote f.part a.handle a.off a.rows true false = .error b →
          exec (.rreadReq port) s = .next (u.send port.val (landedFrame f 2 b)))
      ∧ ∀ o, a.paged = false → u.resolveRemote f.part a.handle a.off a.rows true false = .ok o →
        let rows := (List.range a.rows).map fun i => o.base + a.off + i
        let rd := u.countReads rows
        ((∃ k ∈ tags o, (u.tag k).claim 0 = none) → exec (.rreadReq port) s =
            .next (u.send port.val { vc := 1, type := 0x7, part := f.part, txn := f.txn }))
        ∧ ((∀ k ∈ tags o, (u.tag k).claim 0 ≠ none) →
          (∀ row, rd.2 = some row → exec (.rreadReq port) s = .next
            ((((rd.1.spUncorrected row 0xFF).logFault { cls := 2, action := 8, addr := row }).repairRow row).send port.val (landedFrame f 2 flEccUncorr)))
          ∧ (rd.2 = none → o.slotRows = 0 → exec (.rreadReq port) s = .next (rd.1.sendAll port.val (readFrames f (rows.map u.readRow))))
          ∧ (rd.2 = none → Completes (.rreadReq port) s fun t => t.st.sp = u.st.sp
            ∧ (∀ k, k ∉ tags o → t.tag k = u.tag k)
            ∧ ∀ k ∈ tags o, ∃ g, (u.tag k).claim 0 = some g ∧ t.tag k = g.release)))
  ∧ (∀ (port : PortNo) (s u : State) (f : Frame), s.takeFrame port.val (ofType 0x6) = some (f, u) →
      (u.opOf port.val f.txn [0x5] = none → exec (.rreadData port) s = .next u)
      ∧ ∀ o, u.opOf port.val f.txn [0x5] = some o → Completes (.rreadData port) s fun t =>
          let row := o.base + f.frame / 4
          let o1 := { o with left := o.left - 1 }
          let ops := u.xr.ops.map fun x => if x = o then o1 else x
          let page := (Addr.of o.req.payload).page
          t.xr.ops = (if o.left - 1 = 0 then ops.erase o1 else ops)
          ∧ (o.forPart = false → (∀ r, r ≠ row → t.readRow r = u.readRow r) ∧ t.xr.peerPages = u.xr.peerPages
            ∧ (u.rowPoisoned row = false → t.readRow row = slice (spliceBytes (u.readRow row) (128 * (f.frame % 4)) (slice f.payload 0 128)) 0 512))
          ∧ (o.forPart = true → t.st = u.st
            ∧ (∀ x, x.cmd ≠ o.cmd ∨ x.page ≠ page → (x ∈ t.xr.peerPages ↔ x ∈ u.xr.peerPages))
            ∧ ∃ x ∈ t.xr.peerPages, x.cmd = o.cmd ∧ x.page = page ∧ x.bytes = spliceBytes
                (match u.xr.peerPages.find? fun y => y.cmd == o.cmd && y.page == page with
                 | some y => y.bytes
                 | none => List.replicate 32768 0) (512 * (Addr.of o.req.payload).off + 128 * f.frame) (slice f.payload 0 128)))
  ∧ (∀ (port : PortNo) (s u : State) (f : Frame), s.takeFrame port.val (ofType 0x7) = some (f, u) →
      Completes (.retryRsp port) s fun t => t.st = u.st ∧ t.rb = u.rb ∧ t.xr.ops = u.xr.ops.map fun o =>
        if o.port = port.val ∧ o.txn = f.txn ∧ (o.req.type = 0x5 ∨ o.req.type = 0x8) then { o with retrying := true } else o)
  ∧ (∀ (port : PortNo) (txn : Nat) (s : State),
      let hit := s.xr.ops.find? fun o => o.port == port.val && o.txn == txn && o.retrying
      (hit = none → exec (.rreadRetryTimer port txn) s = .next s)
      ∧ ∀ o, hit = some o → Completes (.rreadRetryTimer port txn) s fun t =>
          t.xr.ops = (s.xr.ops.map fun x => if x = o then { x with retrying := false } else x)
          ∧ t.port port.val = (s.send port.val o.req).port port.val)
  ∧ (∀ (port : PortNo) (s u : State) (f : Frame), s.takeFrame port.val (ofType 0x8) = some (f, u) →
      let q := leAt f.payload 0 2
      (u.seq? q = none → exec (.walkReq port) s = .next (u.send port.val (landedFrame f 2 flPtMissing)))
      ∧ ∀ x, u.seq? q = some x →
        let walkers := fun (y : Sequence) => if x.cur then y.walkersB else y.walkersA
        (255 ≤ walkers x → exec (.walkReq port) s = .next (u.send port.val { vc := 1, type := 0x7, part := f.part, txn := f.txn }))
        ∧ (walkers x < 255 → Completes (.walkReq port) s fun t =>
            (∃ y, t.seq? q = some y ∧ walkers y = walkers x + 1 ∧ y.copyA = x.copyA ∧ y.copyB = x.copyB ∧ y.cur = x.cur)
            ∧ t.xr.walks = u.xr.walks ++ [{ port := port.val, seq := q, copy := x.cur, chunk := leAt f.payload 2 2 }]))
  ∧ (∀ (port : PortNo) (s u : State) (f : Frame), s.takeFrame port.val (ofType 0x9) = some (f, u) →
      (u.opOf port.val f.txn [0x8] = none → exec (.walkData port) s = .next u)
      ∧ ∀ o, u.opOf port.val f.txn [0x8] = some o →
        let q := leAt o.req.payload 0 2
        let mine := fun (x : PeerTable) => x.cmd == o.cmd && x.seq == q
        let new : PeerTable := { port := port.val, cmd := o.cmd, seq := q, bytes := (u.xr.peerTables.filter mine).flatMap (·.bytes) ++ f.payload }
        Completes (.walkData port) s fun t => t.st = u.st
          ∧ t.xr.peerTables = (u.xr.peerTables.filter fun x => !mine x) ++ [new]
          ∧ t.xr.ops = (if new.complete then u.xr.ops.erase o else u.xr.ops))
  ∧ (∀ (port : PortNo) (s u : State) (f : Frame), s.takeFrame port.val (ofType 0xA) = some (f, u) →
      let q := leAt f.payload 0 2
      let copy := bitAt (leAt f.payload 2 1) 0
      let hit := u.xr.walks.find? fun w => w.port == port.val && w.seq == q && w.copy == copy
      (hit = none → exec (.walkEnd port) s = .next u)
      ∧ ∀ w, hit = some w → Completes (.walkEnd port) s fun t => ((∀ c ∈ u.str.chunks, c.abort = none) → t.xr.walks = u.xr.walks.erase w)
          ∧ ((∀ c ∈ u.str.chunks, c.abort = none) → t.st.sp = u.st.sp)
          ∧ t = (({ u with xr := { u.xr with walks := u.xr.walks.erase w } } : State).endWalk q copy).settleAborts)
  ∧ (∀ (port : PortNo) (s u : State) (f : Frame), s.takeFrame port.val (ofType 0xB) = some (f, u) →
      let w := leAt f.payload 0 4
      let stream := bits w 0 13
      let chunk := bits w 13 16
      let batch := bitAt w 29
      let mine := fun (d : RxDesc) => !d.home && d.src == (u.port port.val).peerDev && d.batch == batch && d.stream == stream && d.chunk == chunk
      Completes (.cancel port) s fun t => t.xr.rxDescs = (u.xr.rxDescs.filter fun d => !mine d.2) ∧ t.st.sp = u.st.sp
        ∧ ((∀ c ∈ u.rb.cmds, c.desc.isPart stream chunk batch = false) →
            t = ({ u.cancelRx mine with rb := { u.rb with cancelled := u.rb.cancelled ++ [(stream, chunk, batch)] } }).settleGone))
  ∧ (∀ (port : PortNo) (s u : State) (f : Frame), s.takeFrame port.val (ofType 0xC) = some (f, u) →
      let dev := (u.port port.val).peerDev
      let answer := fun (m : RxMsg) (t : State) => t.send port.val { vc := 2, type := 0xC, part := f.part, txn := f.txn, payload := Config.rxMsgBytes m }
      exec (.rxReg port) s = match Config.rxMsgOf f.payload with
        | .request handle first rows stream batch chunk mode =>
          (match u.register dev f.part handle first rows stream batch chunk mode with
           | some (n, t) => .next (answer (.grant handle first rows n) t)
           | none => .next (answer .denial u))
        | .grant handle first rows number => .next { u with xr := { u.xr with grants := u.xr.grants ++
            [{ peer := dev, part := f.part, handle := handle, first := first, rows := rows, number := number }] } }
        | .denial => .next u)

/-- OFFER that no OPENING entry names is answered NOT_READY, one of a blob that cannot be staged REFUSE with an
IMPORT_REFUSED event, any other ACCEPT, and the target then receives. ACCEPT sends the blob once, NOT_READY marks the
offer, REFUSE fails the migration; each without effect on a migration that does not exist or has moved on. DATA out of
order changes nothing; in order it is staged, and the last bytes start the checks. ACK of a migration that waits for it
closes the copy of the source; one without the stream or its export drops the migration. RELEASE makes a held copy ACTIVE,
ABORT discards it, and both drop the migration. The reoffer timer offers again once the offer was refused, and fails the
migration 100 ms after the first; the ACK timer fails a migration that waits for its ACK; the held timer reports
MIGRATE_HELD once; MIGRATE_IN without an OFFER is refused. A failed migration is gone, its stream ACTIVE without exports.
-/
def Obligations.MigrationsMoveOrFail : Prop :=
  (∀ (port : PortNo) (s u : State) (f : Frame), s.takeFrame port.val (ofSub 0xD 1) = some (f, u) →
      let src := leAt f.payload 1 2
      let entry := u.str.tab.find? fun e => e.2.state == .opening && e.2.fromPeer && e.2.peerDev == (u.port port.val).peerDev
        && e.2.peerStream == src && (u.mig? e.1).isNone
      (entry = none → exec (.offer port) s = .next (u.send port.val (migFrame 1 f.txn 0x03 [])))
      ∧ ∀ e, entry = some e →
        (blobMost < leAt f.payload 11 4 → exec (.offer port) s = .next
          ((u.send port.val (migFrame 1 f.txn 0x06 (leBytes 1 0x07))).refuseOpen e.2.cfg.part 0x23 e.2.hostTag 0x07 (some e.1)))
        ∧ (leAt f.payload 11 4 ≤ blobMost → Completes (.offer port) s fun t => t.str = u.str ∧ t.pg = u.pg
          ∧ t.port port.val = (u.send port.val (migFrame 1 f.txn 0x02 [])).port port.val ∧ t.xr.migs = u.xr.migs ++
            [{ sid := e.1, source := false, port := port.val, txn := f.txn, peerStream := src, stage := 2, blobLen := leAt f.payload 11 4 }]))
  ∧ (∀ (port : PortNo) (s u : State) (f : Frame), s.takeFrame port.val (ofSub 0xD 2) = some (f, u) →
      (u.migOf port.val f.txn true = none → exec (.accept port) s = .next u)
      ∧ ∀ m, u.migOf port.val f.txn true = some m →
        (2 ≤ m.stage → exec (.accept port) s = .next u)
        ∧ (m.stage ≤ 1 → Completes (.accept port) s fun t => t.str = u.str
          ∧ t.xr.migs = (u.xr.migs.map fun x => if x.sid = m.sid then { m with stage := 3 } else x)
          ∧ t.port port.val = (u.sendAll port.val (dataFrames f.txn m.blob)).port port.val))
  ∧ (∀ (port : PortNo) (s u : State) (f : Frame), s.takeFrame port.val (ofSub 0xD 3) = some (f, u) →
      (u.migOf port.val f.txn true = none → exec (.notReady port) s = .next u)
      ∧ ∀ m, u.migOf port.val f.txn true = some m →
        (m.stage ≠ 0 → exec (.notReady port) s = .next u)
        ∧ (m.stage = 0 → Completes (.notReady port) s fun t => t.str = u.str
          ∧ t.xr.migs = u.xr.migs.map fun x => if x.sid = m.sid then { m with stage := 1 } else x))
  ∧ (∀ (port : PortNo) (s u : State) (f : Frame), s.takeFrame port.val (ofSub 0xD 4) = some (f, u) →
      (u.migOf port.val f.txn false = none → exec (.migData port) s = .next u)
      ∧ ∀ m, u.migOf port.val f.txn false = some m →
        let m1 := { m with blob := m.blob ++ f.payload.drop 5 }
        (m.stage ≠ 2 ∨ leAt f.payload 1 4 ≠ m.blob.length → exec (.migData port) s = .next u)
        ∧ (m.stage = 2 → leAt f.payload 1 4 = m.blob.length →
          (m1.blob.length < m.blobLen → exec (.migData port) s = .next (u.putMig m1))
          ∧ (m.blobLen ≤ m1.blob.length → exec (.migData port) s = .next ((u.putMig m1).admitMig m1))))
  ∧ (∀ (port : PortNo) (s u : State) (f : Frame), s.takeFrame port.val (ofSub 0xD 5) = some (f, u) →
      (u.migOf port.val f.txn true = none → exec (.migAck port) s = .next u)
      ∧ ∀ m, u.migOf port.val f.txn true = some m →
        (m.stage ≠ 3 → exec (.migAck port) s = .next u)
        ∧ (m.stage = 3 → (u.stream? m.sid = none ∨ (u.stream? m.sid).map (·.exports) = some [] →
            exec (.migAck port) s = .next (u.dropMig m.sid))
          ∧ ∀ st e rest, u.stream? m.sid = some st → st.exports = e :: rest → exec (.migAck port) s = .next
            (((u.dropMig m.sid).detach m.sid e (exportDoneRec m.sid st.lastChunk e.hostTag m.blobLen st.nextSeq st.samplePos)).send
              m.port (migFrame 3 m.txn 0x07 []))))
  ∧ (∀ (port : PortNo) (s u : State) (f : Frame), s.takeFrame port.val (ofSub 0xD 6) = some (f, u) →
      (u.migOf port.val f.txn true = none → exec (.refuse port) s = .next u)
      ∧ ∀ m, u.migOf port.val f.txn true = some m → exec (.refuse port) s = .next (u.failMig m))
  ∧ (∀ (port : PortNo) (s u : State) (f : Frame), s.takeFrame port.val (ofSub 0xD 7) = some (f, u) →
      (u.migOf port.val f.txn false = none → exec (.release port) s = .next u)
      ∧ ∀ m, u.migOf port.val f.txn false = some m →
        ((∀ st, u.stream? m.sid = some st → st.state ≠ .held) → exec (.release port) s = .next (u.dropMig m.sid))
        ∧ ∀ st, u.stream? m.sid = some st → st.state = .held → Completes (.release port) s fun t =>
            t.mig? m.sid = none ∧ ∃ n, t.stream? m.sid = some { st with state := .active, eg := { st.eg with pubNext := n } })
  ∧ (∀ (port : PortNo) (s u : State) (f : Frame), s.takeFrame port.val (ofSub 0xD 8) = some (f, u) →
      (u.migOf port.val f.txn false = none → exec (.migAbort port) s = .next u)
      ∧ ∀ m, u.migOf port.val f.txn false = some m →
        ((∀ st, u.stream? m.sid = some st → st.state ≠ .held) → exec (.migAbort port) s = .next (u.dropMig m.sid))
        ∧ ∀ st, u.stream? m.sid = some st → st.state = .held →
          exec (.migAbort port) s = .next ((u.dropMig m.sid).abortStream m.sid 0x23 st.hostTag))
  ∧ (∀ (sid : Sid) (s : State),
      (s.mig? sid.val = none → exec (.reofferTimer sid) s = .next s ∧ exec (.migrateAckTimeout sid) s = .next s ∧ exec (.migrateHeldTimeout sid) s = .next s)
      ∧ (∀ m, s.mig? sid.val = some m →
          (m.source = false ∨ 2 ≤ m.stage → exec (.reofferTimer sid) s = .next s)
          ∧ (m.source = true → m.stage ≤ 1 → m.firstOffer + 100000000 ≤ s.now → exec (.reofferTimer sid) s = .next (s.failMig m))
          ∧ (m.source = true → m.stage = 0 → s.now < m.firstOffer + 100000000 → exec (.reofferTimer sid) s = .next s)
          ∧ (m.source = true → m.stage = 1 → s.now < m.firstOffer + 100000000 → exec (.reofferTimer sid) s = .next ((s.putMig { m with stage := 0 }).sendOffer m))
          ∧ (m.source = false ∨ m.stage ≠ 3 → exec (.migrateAckTimeout sid) s = .next s)
          ∧ (m.source = true → m.stage = 3 → exec (.migrateAckTimeout sid) s = .next (s.failMig m))
          ∧ (m.source = true ∨ m.stage ≠ 3 → exec (.migrateHeldTimeout sid) s = .next s)
          ∧ ∀ st, m.source = false → m.stage = 3 → s.stream? sid.val = some st → st.state = .held → Completes (.migrateHeldTimeout sid) s fun t =>
              t.xr.migs = (s.xr.migs.map fun x => if x.sid = m.sid then { m with stage := 4 } else x)
              ∧ ∃ n, t.stream? sid.val = some { st with eg := { st.eg with pubNext := n } })
      ∧ (∀ st, s.stream? sid.val = some st →
          (st.state ≠ .opening ∨ st.fromPeer = false ∨ (s.mig? sid.val).isSome = true → exec (.migrateInTimeout sid) s = .next s)
          ∧ (st.state = .opening → st.fromPeer = true → s.mig? sid.val = none → exec (.migrateInTimeout sid) s =
              .next (s.refuseOpen st.cfg.part 0x23 st.hostTag 0x0F (some sid.val))))
      ∧ (s.stream? sid.val = none → exec (.migrateInTimeout sid) s = .next s))
  ∧ (∀ (s : State) (m : Migration) (st : Stream), s.stream? m.sid = some st → (s.failMig m).mig? m.sid = none
      ∧ ∃ n, (s.failMig m).stream? m.sid = some { st with state := .active, exports := [], eg := { st.eg with pubNext := n } })

/-- A port that is not UP takes no frame. A frame whose CRC or LEN is bad raises CRC_ERRORS and its discard is signalled
once; nothing else changes. Of a good frame the acknowledgement and credits are taken; a NULL or IDENT does no more; a
frame with the expected SEQ is accepted: the next SEQ is expected, FRAMES_RX counts it, and it waits if the block acts on
its type; one of VC0 or VC1 also wakes the device; any other SEQ is discarded. Idle and marker blocks between and within a
line do not count, and the blocks of a frame give its bytes. ACK_TIMER with nothing to say changes nothing; else one NULL
frame goes out. RETRY_TIMEOUT with nothing outstanding changes nothing; else the port goes back N, or goes down with
reason 1 at the sixteenth retry. PORT_DOWN_TIMEOUT with nothing outstanding changes nothing; else an UP port falls with
reason 2; with no command accepted and no chunk aborting it is then DOWN, its buffers and counters at their training
values, and the other ports are as they were. ESCAPE_TIMEOUT sends the oldest waiting frame of the channel on VC3 when
that has a credit and the channel has none, and counts it. -/
def Obligations.LinkFramesAreAcceptedAndResent : Prop :=
  (∀ (port : PortNo) (blocks : List Block) (s : State),
      let bytes := lineBytes blocks
      let p := port.val
      let x := s.port p
      let f := frameOf bytes s.tm.t
      let u := s.takeHeader p (headWord bytes)
      (x.state ≠ .up → exec (.linkFrameRx port blocks) s = .next s)
      ∧ (x.state = .up → frameGood bytes = false → Completes (.linkFrameRx port blocks) s fun t =>
          (t.port p).crcErrors = (x.crcErrors + 1) % 2 ^ 32 ∧ (t.port p).rxSeq = x.rxSeq ∧ (t.port p).rx = x.rx ∧ (t.port p).nakSent = true
          ∧ ((t.port p).nakDue = if x.nakSent then x.nakDue else true) ∧ (∀ k, k ≠ p → t.port k = s.port k) ∧ t.st = s.st ∧ t.rb = s.rb)
      ∧ (x.state = .up → frameGood bytes = true → f.type = 0 ∨ f.type = 0xF ∨ (u.port p).state ≠ .up → exec (.linkFrameRx port blocks) s = .next u)
      ∧ (x.state = .up → frameGood bytes = true → f.type ≠ 0 → f.type ≠ 0xF → (u.port p).state = .up →
          (f.seq ≠ (u.port p).rxSeq → exec (.linkFrameRx port blocks) s = .next (u.setPort p (u.port p).discard))
          ∧ (f.seq = (u.port p).rxSeq → f.vc ≤ 1 → exec (.linkFrameRx port blocks) s = .next (u.setPort p ((u.port p).accept f)).wakeTrigger)
          ∧ (f.seq = (u.port p).rxSeq → 2 ≤ f.vc → Completes (.linkFrameRx port blocks) s fun t =>
              (t.port p).rxSeq = ((u.port p).rxSeq + 1) % 256 ∧ (t.port p).framesRx = ((u.port p).framesRx + 1) % 2 ^ 32
              ∧ (t.port p).rx = (if f.known then (u.port p).rx ++ [f] else (u.port p).rx)))
      ∧ (x.state = .up → frameGood bytes = true → f.type = 0 → exec (.null port blocks) s = .next u)
      ∧ (x.state ≠ .up ∨ frameGood bytes = false ∨ bits (headWord bytes) 2 4 ≠ 0 → exec (.null port blocks) s = .next s)
      ∧ exec (.linkFrameRx port (blocks.filter fun b => !betweenFrames b)) s = exec (.linkFrameRx port blocks) s
      ∧ (∀ body, lineBytes (frameBlocks body ++ [Block.idle]) = body))
  ∧ (∀ (port : PortNo) (s : State),
      let p := port.val
      let x := s.port p
      let due := 0 < x.unacked ∨ x.nakDue = true ∨ x.owed.any (0 < ·) = true
      (x.state ≠ .up ∨ ¬due → exec (.ackTimer port) s = .next s)
      ∧ (x.state = .up → due → Completes (.ackTimer port) s fun t => (∃ b, (t.port p).lanes = sendBlocks x.lanes (frameBlocks b ++ [Block.idle])) ∧ (t.port p).unacked = 0
          ∧ (t.port p).nakDue = false ∧ (t.port p).txSeq = x.txSeq ∧ (t.port p).retry = x.retry ∧ (∀ k, k ≠ p → t.port k = s.port k))
      ∧ (x.state ≠ .up ∨ x.retry = [] → exec (.retryTimeout port) s = .next s ∧ exec (.portDownTimeout port) s = .next s)
      ∧ (x.state = .up → x.retry ≠ [] → x.markFollow.goBack.retryCount < 16 → Completes (.retryTimeout port) s fun t =>
          t.port p = XPort.pump 64 x.markFollow.goBack ∧ (∀ k, k ≠ p → t.port k = s.port k) ∧ t.st = s.st ∧ t.rb = s.rb)
      ∧ (x.state = .up → x.retry ≠ [] → 16 ≤ x.markFollow.goBack.retryCount → s.rb.cmds = [] → (∀ c ∈ s.str.chunks, c.abort = none) → Completes (.retryTimeout port) s fun t => t.port p = x.markFollow.goBack.fall .down 1)
      ∧ (x.retry ≠ [] → exec (.portDownTimeout port) s = .next (s.portDown p 2))
      ∧ (x.state = .up → x.retry ≠ [] → s.rb.cmds = [] → (∀ c ∈ s.str.chunks, c.abort = none) → Completes (.portDownTimeout port) s fun t => t.port p = x.fall .down 2
          ∧ (∀ k, k ≠ p → t.port k = s.port k) ∧ (t.port p).downEvents = (x.downEvents + 1) % 2 ^ 32 ∧ (t.port p).rx = [] ∧ (t.port p).peerDev = 0xFF))
  ∧ (∀ (port : PortNo) (vc1 : Bool) (s : State),
      let p := port.val
      let x := s.port p
      let v := b2n vc1
      (x.state ≠ .up ∨ 0 < nthD x.credit v ∨ nthD x.credit 3 = 0 ∨ 64 ≤ x.retry.length ∨ (x.txQueue.find? (·.vc == v)) = none →
          exec (.escapeTimeout port vc1) s = .next s)
      ∧ ∀ f, x.state = .up → nthD x.credit v = 0 → 0 < nthD x.credit 3 → x.retry.length < 64 → (x.txQueue.find? (·.vc == v)) = some f →
          Completes (.escapeTimeout port vc1) s fun t =>
            (t.port p).txQueue = dropFirst f x.txQueue ∧ (t.port p).retry = x.retry ++ [{ f with vc := 3, seq := x.txSeq }]
            ∧ (t.port p).credit = setNth x.credit 3 (nthD x.credit 3 - 1) ∧ (t.port p).txSeq = (x.txSeq + 1) % 256
            ∧ t.obj 0x4018 6 = (s.obj 0x4018 6 + 1) % 2 ^ 32)

/-- DOWN_WAIT_EXPIRY, SIGNAL_DETECT, LANES_LOCKED and LANES_DESKEWED move a port from DOWN to DETECT, on to LOCK, DESKEW
and IDENT, and do nothing in any other state; the last sends an IDENT. IDENT does nothing outside IDENT; a bad frame or
one of another type starts the count again; a frame of a peer that R461 excludes makes the port HELD with its reason; a
good one is counted and answered, and the third in a row with PEER_OK seen makes the port UP with the peer and its
credits. BLOCK_LOCK_LOST takes an UP port down with reason 3; with no command accepted and no chunk aborting its state is
then the training one. TRAINING_TIMEOUT takes a port in DETECT, LOCK, DESKEW or IDENT DOWN, counts an attempt in DETECT,
and does nothing elsewhere. The other ports never change. PEER_REQUEST_TIMEOUT ends the request it names. -/
def Obligations.PortsTrainStepByStep : Prop :=
  (∀ (port : PortNo) (s : State),
      let p := port.val
      let x := s.port p
      let others := fun (t : State) => (∀ k, k ≠ p → t.port k = s.port k) ∧ t.st = s.st ∧ t.rb = s.rb
      let moves := fun (c : Instr) (a b : PortState) =>
        (x.state ≠ a → exec c s = .next s) ∧ (x.state = a → Completes c s fun t => others t ∧ (t.port p).state = b ∧ (t.port p).identGood = 0)
      moves (.downWaitExpiry port) .down .detect ∧ moves (.signalDetect port) .detect .lock ∧ moves (.lanesLocked port) .lock .deskew
      ∧ moves (.lanesDeskewed port) .deskew .ident
      ∧ (x.state = .deskew → Completes (.lanesDeskewed port) s fun t => ∃ b, (t.port p).lanes = sendBlocks x.lanes (frameBlocks b ++ [Block.idle]))
      ∧ (x.state = .up ∨ x.state = .down ∨ x.state = .held ∨ x.state = .disabled → exec (.trainingTimeout port) s = .next s)
      ∧ (x.state = .detect ∨ x.state = .lock ∨ x.state = .deskew ∨ x.state = .ident → Completes (.trainingTimeout port) s fun t =>
          others t ∧ (t.port p).state = .down ∧ (t.port p).downReason = 8
          ∧ (t.port p).attempts = if x.state = .detect then (x.attempts + 1) % 2 ^ 32 else x.attempts)
      ∧ (x.state ≠ .up → exec (.blockLockLost port) s = .next s)
      ∧ (exec (.blockLockLost port) s = .next (s.portDown p 3))
      ∧ (x.state = .up → s.rb.cmds = [] → (∀ c ∈ s.str.chunks, c.abort = none) → Completes (.blockLockLost port) s fun t => (∀ k, k ≠ p → t.port k = s.port k) ∧ t.port p = x.fall .down 3))
  ∧ (∀ (port : PortNo) (blocks : List Block) (s : State),
      let p := port.val
      let x := s.port p
      let ok := frameGood (lineBytes blocks) = true ∧ bits (headWord (lineBytes blocks)) 2 4 = 0xF
      let m := Config.identOf (frameOf (lineBytes blocks) s.tm.t).payload
      (x.state ≠ .ident → exec (.ident port blocks) s = .next s)
      ∧ (x.state = .ident → ¬ok → exec (.ident port blocks) s = .next (s.setPort p { x with identGood := 0 }))
      ∧ (x.state = .ident → ok → Completes (.ident port blocks) s fun t => (∀ k, k ≠ p → t.port k = s.port k) ∧
          match s.identFault p m with
          | some reason => t.port p = { x with state := .held, downReason := reason, identGood := 0, peerOk := false }
          | none => (t.port p).identGood = x.identGood + 1 ∧ (t.port p).peerOk = (x.peerOk || m.peerOk)
              ∧ (∃ b, (t.port p).lanes = sendBlocks x.lanes (frameBlocks b ++ [Block.idle]))
              ∧ (if 2 ≤ x.identGood ∧ (x.peerOk || m.peerOk) = true then (t.port p).state = .up ∧ (t.port p).peerDev = m.dev ∧ (t.port p).credit = m.credits
                 else (t.port p).state = .ident)))
  ∧ (∀ (port : PortNo) (txn : Nat) (s : State), Completes (.peerRequestTimeout port txn) s fun t =>
      (∀ n, n ∈ (t.port port.val).open_ ↔ n ≠ txn ∧ n ∈ (s.port port.val).open_) ∧ ∀ k, k ≠ port.val → t.port k = s.port k)

/-- A PPS edge within 200 cycles of the last one changes nothing; before acquisition an edge is only remembered unless it
comes 1 s after the last one; once PPS is valid an edge outside the expected instants is counted as rejected; every other
edge is accepted and corrects the timebase of a master. PPS_LOSS forgets the acquisition and elects. An election takes the
smallest pair of class and DEV_ID; where that is the master it changes nothing, else the master is the one elected, a
running exchange is dropped, and a LOCKED device that is elected itself is SOURCED. HOLDOVER_ENTRY of a device that can
hold freezes the rate at the estimate and remembers when; of another it changes nothing. HOLDOVER_LIMIT_EXPIRY makes a
HOLDOVER device UNTRUSTED. ELECTION_WINDOW_EXPIRY forgets the candidate, and the master is then a candidate than which
none has a smaller pair of class and DEV_ID. An offset that is refused leaves time, rate and state, but for an election,
and is counted; one accepted in FREE or UNTRUSTED steps the time by it, with rate 0 and a step counted; any other only
changes the rate, never beyond 500 ppm, and the state. -/
def Obligations.TimeIsCorrectedHeldAndElected : Prop :=
  (∀ s : State,
      let near := fun (since : Option Nat) (ks : List Nat) => match since with
        | some c => ks.any fun k => nearSeconds (s.tm.cycles - c) k
        | none => false
      let soon := ∃ c, s.tm.ppsLastEdge = some c ∧ s.tm.cycles - c < 200
      let s1 := s.modTm fun x => { x with ppsLastEdge := some x.cycles }
      (soon → exec .ppsEdge s = .next s)
      ∧ (¬soon → s.tm.ppsValid = false → near s.tm.ppsLastEdge [1] = false → exec .ppsEdge s = .next s1)
      ∧ (¬soon → s.tm.ppsValid = true → near s.tm.ppsAccepted [1, 2, 3] = false → Completes .ppsEdge s fun t =>
          t.tm = s1.tm ∧ t.obj 0x2213 0xB = (s.obj 0x2213 0xB + 1) % 2 ^ 32)
      ∧ (¬soon → (s.tm.ppsValid = true ∧ near s.tm.ppsAccepted [1, 2, 3] = true) ∨ (s.tm.ppsValid = false ∧ near s.tm.ppsLastEdge [1] = true) →
          exec .ppsEdge s = .next s1.acceptEdge
          ∧ (s.isMaster = false → Completes .ppsEdge s fun t => t.tm.ppsValid = true ∧ t.tm.ppsAccepted = some s.tm.cycles ∧ t.tm.t = s.tm.t
              ∧ t.obj 0x2213 0xA = (s.obj 0x2213 0xA + 1) % 2 ^ 32)))
  ∧ (∀ s : State, exec .ppsLoss s = .next ({ s with tm := { s.tm with ppsValid := false, ppsAccepted := none, ppsLastEdge := none } }).elect)
  ∧ (∀ s : State, (∃ c, (c, s.elect.tm.master) ∈ (s.timeClass, s.xr.devId) :: s.tm.heard.map (fun h => (h.2, h.1))
        ∧ ∀ x ∈ (s.timeClass, s.xr.devId) :: s.tm.heard.map (fun h => (h.2, h.1)), c * 8 + s.elect.tm.master ≤ x.1 * 8 + x.2)
      ∧ (s.elect.tm.master = s.tm.master → s.elect = s)
      ∧ (s.elect.tm.master ≠ s.tm.master → s.elect = { s with tm := { s.tm with master := s.elect.tm.master, exch := none, masterHold := false
                                                                                state := if s.elect.tm.master = s.xr.devId ∧ s.tm.state = .locked then .sourced else s.tm.state } }))
  ∧ (∀ s : State, (s.mayHold = false → exec .holdoverEntry s = .next s) ∧ (s.mayHold = true → Completes .holdoverEntry s fun t =>
      t.tm.state = .holdover ∧ t.tm.r = clampRate (-s.tm.e) ∧ t.tm.holdSince = s.tm.cycles ∧ t.tm.t = s.tm.t ∧ t.tm.e = s.tm.e ∧ t.st = s.st ∧ t.str = s.str))
  ∧ (∀ s : State, (s.tm.state ≠ .holdover → exec .holdoverLimitExpiry s = .next s) ∧ (s.tm.state = .holdover → Completes .holdoverLimitExpiry s fun t =>
      t.tm.state = .untrusted ∧ t.tm.t = s.tm.t ∧ t.tm.r = s.tm.r ∧ t.ctl.conditions = (s.ctl.conditions.filter fun c => c.1 != 0xFF31) ++ [(0xFF31, [s.tm.master, 1])]))
  ∧ (∀ (dev : DevNo) (s : State), Completes (.electionWindowExpiry dev) s fun t =>
      let all := (s.timeClass, s.xr.devId) :: t.tm.heard.map fun h => (h.2, h.1)
      t.tm.heard = Tbl.erase s.tm.heard dev.val ∧ t.tm.t = s.tm.t
      ∧ ∃ c, (c, t.tm.master) ∈ all ∧ ∀ x ∈ all, c * 8 + t.tm.master ≤ x.1 * 8 + x.2)
  ∧ (∀ (s : State) (o : Rat) (src : OffsetSource),
      let t := s.takeOffset o src
      let fresh := s.tm.state = .free ∨ s.tm.state = .untrusted
      let became := fun (n : TimeState) => t.tm.state = n ∨ (n = .locked ∧ t.tm.state = .sourced ∧ t.tm.master = s.xr.devId ∧ s.tm.master ≠ s.xr.devId)
      (s.offsetOk o = false → t.tm.t = s.tm.t ∧ t.tm.r = s.tm.r ∧ t.tm.e = s.tm.e ∧ became s.tm.state ∧ t.obj 0x2213 5 = (s.obj 0x2213 5 + 1) % 2 ^ 32)
      ∧ (s.offsetOk o = true → became (s.tm.state.after src s.tm.masterHold))
      ∧ (s.offsetOk o = true → ¬fresh → t.tm.t = s.tm.t ∧ -(1 / 2000 : Rat) ≤ t.tm.r ∧ t.tm.r ≤ 1 / 2000 ∧ t.tm.refSince = some s.tm.cycles)
      ∧ (fresh → t.tm.r = 0 ∧ t.tm.stepped = true ∧ t.obj 0x2213 6 = (s.obj 0x2213 6 + 1) % 2 ^ 32
          ∧ t.tm.t = (((s.tm.ns - o) * ((nsUnit : Nat) : Rat)).floor % ((2 ^ 96 : Nat) : Int)).toNat))

/-- SYNC_TIMER takes the next exchange number and sends SYNC and FOLLOW_UP on each port that is UP, and nothing on
another. SYNC records its sender and its class and elects the master. One that is not of the master does no more; one of a
master that this SYNC elected, and that is not in HOLDOVER, only records that; one of the master of before begins an
exchange whose t2 is its arrival and t3 the present time. FOLLOW_UP of no exchange with the master changes nothing; of the
exchange in progress, in time and for this port version, it gives t1; else the exchange is lost. DELAY_REQ is answered
with the time of its arrival. DELAY_RESP of no exchange changes nothing; with t1 and t3 known, in time and not resent, the
exchange ends and the offset ((t2 - t1) - (t4 - t3)) / 2 is taken; else it is lost. -/
def Obligations.ExchangesMeasureTheOffset : Prop :=
  (∀ s : State,
      let n := (s.tm.exchNo + 1) % 65536
      let sync := timeFrame (leBytes 1 1 ++ leBytes 1 s.timeClass ++ leBytes 1 s.tm.state.code ++ leBytes 1 s.tm.master ++ leBytes 2 n
        ++ leBytes 2 0 ++ leBytes 4 s.holdS)
      let follow := timeFrame (leBytes 1 2 ++ leBytes 1 0 ++ leBytes 2 0 ++ leBytes 2 n ++ leBytes 2 0 ++ timeBytes s.tm.t)
      Completes .syncTimer s fun t => t.tm = { s.tm with exchNo := n } ∧ t.st = s.st ∧ t.str = s.str
        ∧ (∀ p, p < 7 → t.port p = (s.sendAll p [sync, follow]).port p)
        ∧ (∀ p, (s.port p).state ≠ .up → t.port p = s.port p))
  ∧ (∀ (port : PortNo) (s u : State) (f : Frame), s.takeFrame port.val (ofSub 0xE 1) = some (f, u) →
      let dev := (u.port port.val).peerDev
      let t1 := (u.modTm fun x => { x with heard := Tbl.put x.heard dev (leAt f.payload 1 1) }).elect
      let t2 := t1.modTm fun x => { x with masterHold := leAt f.payload 2 1 == 3, holdS := leAt f.payload 8 4 }
      (t1.tm.master ≠ dev → Completes (.sync port) s fun t => t = t1 ∧ Tbl.get? t.tm.heard dev = some (leAt f.payload 1 1))
      ∧ (t1.tm.master = dev → u.tm.master ≠ dev → leAt f.payload 2 1 ≠ 3 → exec (.sync port) s = .next t2)
      ∧ (t1.tm.master = dev → u.tm.master ≠ dev → leAt f.payload 2 1 = 3 → exec (.sync port) s = .next (if t2.mayHold then t2.enterHoldover else t2))
      ∧ (t1.tm.master = dev → u.tm.master = dev → leAt f.payload 2 1 ≠ 3 → Completes (.sync port) s fun t =>
          t.tm.exch = some { exch := leAt f.payload 4 2, t2 := f.at_, t3 := some u.tm.t, since := u.tm.cycles } ∧ t.tm.masterHold = false
          ∧ t.port port.val = (u.send port.val (timeFrame (leBytes 1 3 ++ leBytes 3 0 ++ leBytes 2 (leAt f.payload 4 2) ++ leBytes 2 0))).port port.val))
  ∧ (∀ (port : PortNo) (s u : State) (f : Frame), s.takeFrame port.val (ofSub 0xE 2) = some (f, u) →
      (u.exchangeOk port.val f = none → exec (.followUp port) s = .next u)
      ∧ ∀ e ok, u.exchangeOk port.val f = some (e, ok) →
        (ok = true → leAt f.payload 1 1 = 0 → exec (.followUp port) s =
            .next { u with tm := { u.tm with exch := some { e with t1 := some (timeAt f.payload 8) } } })
        ∧ (ok = false ∨ leAt f.payload 1 1 ≠ 0 → exec (.followUp port) s = .next u.loseExchange))
  ∧ (∀ (port : PortNo) (s u : State) (f : Frame), s.takeFrame port.val (ofSub 0xE 3) = some (f, u) →
      exec (.delayReq port) s = .next (u.send port.val (timeFrame (leBytes 1 4 ++ leBytes 3 0 ++ leBytes 2 (leAt f.payload 4 2) ++ leBytes 2 0
        ++ timeBytes f.at_))))
  ∧ (∀ (port : PortNo) (s u : State) (f : Frame), s.takeFrame port.val (ofSub 0xE 4) = some (f, u) →
      (u.exchangeOk port.val f = none → exec (.delayResp port) s = .next u)
      ∧ ∀ e ok, u.exchangeOk port.val f = some (e, ok) →
        (ok = false ∨ e.retx = true ∨ e.t1 = none ∨ e.t3 = none → exec (.delayResp port) s = .next u.loseExchange)
        ∧ ∀ a b, ok = true → e.retx = false → e.t1 = some a → e.t3 = some b → exec (.delayResp port) s =
            .next (({ u with tm := { u.tm with exch := none } } : State).takeOffset
              ((((((e.t2 : Int) - a) - ((timeAt f.payload 8 : Int) - b)) : Int) : Rat) / ((2 * nsUnit : Nat) : Rat)) .exchange))
  ∧ (∀ s : State, s.loseExchange.tm.exch = none ∧ (s.tm.exch.isSome = true → s.loseExchange.obj 0x2213 0xC = (s.obj 0x2213 0xC + 1) % 2 ^ 32)
      ∧ (s.tm.exch = none → s.loseExchange = s))

/-- An NMT command that the field port does not serve, or that is for another node, changes nothing; during a freeze it
waits in order. START makes the device operational. STOP and ENTER_PREOP begin a freeze out of operational and act at once
otherwise; a stopped device has HBM in SELF_REFRESH. RESET_NODE begins a freeze out of operational; otherwise it is a
reset that reaches the die: no stream and no NMT state remain, the cause is 3 and start-up goes on from step 2. RESET_COMM
ends USDO sessions, forgets sent TPDOs and leaves the NMT state. In initialisation START, STOP and ENTER_PREOP have no
effect. FREEZE_DONE changes nothing while no freeze lasts or a chunk past forming is left; else the state frozen for holds
and the commands that waited follow, or the node is reset. HEARTBEAT of the watched node ends the loss and the condition
0x8130, that of another is counted as ignored. HEARTBEAT_TIMEOUT raises 0x8130 once. HEARTBEAT_PRODUCE sends the state
code while a producer time is set. -/
def Obligations.NetworkStatesAndHeartbeats : Prop :=
  (∀ (node : Byte) (s : State),
      let mine := s.fieldServed = true ∧ (node = 0 ∨ node.toNat = s.ctl.nodeId)
      let cmds : List (Instr × NmtCmd) := [(.nmtStart node, .start), (.nmtStop node, .stop), (.nmtEnterPreop node, .preop), (.nmtResetNode node, .resetNode), (.nmtResetComm node, .resetComm)]
      (¬mine → ∀ x ∈ cmds, exec x.1 s = .next s)
      ∧ (mine → s.freezing = true → ∀ x ∈ cmds, exec x.1 s = .next { s with ctl := { s.ctl with nmtWait := s.ctl.nmtWait ++ [x.2] } })
      ∧ (mine → s.freezing = false →
          (s.ctl.nmt = .init → ∀ x ∈ cmds.take 3, exec x.1 s = .next { s with ctl := { s.ctl with nmtWait := [] } })
          ∧ (s.ctl.nmt ≠ .init → Completes (.nmtStart node) s fun t => t.ctl = { s.ctl with nmt := .operational, freezeTo := none, resetPending := false, nmtWait := [] }
              ∧ t.str = s.str ∧ t.pg = s.pg ∧ (s.ctl.nmt = .stopped → s.pw.powerState < 3 → ∀ k, k < 4 → t.domain (86 + k) = 2))
          ∧ (s.ctl.nmt = .operational →
              exec (.nmtStop node) s = .next { s with ctl := { s.ctl with freezeTo := some .stopped, resetPending := false, nmtWait := [] } }
              ∧ exec (.nmtEnterPreop node) s = .next { s with ctl := { s.ctl with freezeTo := some .preop, resetPending := false, nmtWait := [] } }
              ∧ exec (.nmtResetNode node) s = .next { s with ctl := { s.ctl with freezeTo := some .stopped, resetPending := true, nmtWait := [] } })
          ∧ (s.ctl.nmt ≠ .operational → s.ctl.nmt ≠ .init →
              (Completes (.nmtStop node) s fun t => t.ctl = { s.ctl with nmt := .stopped, freezeTo := none, resetPending := false, nmtWait := [] }
                ∧ t.str = s.str ∧ ∀ k, k < 4 → t.domain (86 + k) = 4)
              ∧ Completes (.nmtEnterPreop node) s fun t => t.ctl = { s.ctl with nmt := .preop, freezeTo := none, resetPending := false, nmtWait := [] } ∧ t.str = s.str)
          ∧ (s.ctl.nmt ≠ .operational → Completes (.nmtResetNode node) s fun t => t.str.tab = [] ∧ t.rb.cmds = [] ∧ t.ctl.nmt = .init ∧ t.boot.step = 2 ∧ t.boot.resetCause = 3
              ∧ t.boot.fails = 0 ∧ t.ctl.flashA = s.ctl.flashA ∧ t.ctl.od = s.ctl.flashA)
          ∧ Completes (.nmtResetComm node) s fun t => t.ctl.usdo = [] ∧ t.ctl.tpdo = [] ∧ t.ctl.nmt = s.ctl.nmt ∧ t.ctl.od = reloadComm s.ctl.od s.ctl.flashA
              ∧ t.str = s.str ∧ (t.busOff = false → t.ctl.canOut = s.ctl.canOut ++ [⟨0x700 + t.ctl.nodeId, [0]⟩])))
  ∧ (∀ s : State,
      (¬(s.freezing = true ∧ s.frozenOut = true) → exec .freezeDone s = .next s)
      ∧ (s.freezing = true → s.frozenOut = true →
          (s.ctl.resetPending = false → s.ctl.nmtWait = [] → Completes .freezeDone s fun t => t.ctl.nmt = s.ctl.freezeTo.getD .preop ∧ t.freezing = false ∧ t.str = s.str)
          ∧ (s.ctl.resetPending = false → exec .freezeDone s = .next (State.runNmt s.ctl.nmtWait (s.setNmt (s.ctl.freezeTo.getD .preop))))
          ∧ (s.ctl.resetPending = true → Completes .freezeDone s fun t => t.str.tab = [] ∧ t.ctl.nmt = .init ∧ t.boot.step = 2 ∧ t.boot.resetCause = 3 ∧ t.freezing = false)))
  ∧ (∀ (node st : Byte) (s : State),
      (s.fieldServed = false → exec (.heartbeat node st) s = .next s)
      ∧ (s.fieldServed = true → s.watched = 0 ∨ node.toNat ≠ s.watched → Completes (.heartbeat node st) s fun t =>
          t.obj 0x4005 1 = (s.obj 0x4005 1 + 1) % 2 ^ 32 ∧ t.ctl.hbLost = s.ctl.hbLost ∧ t.ctl.conditions = s.ctl.conditions)
      ∧ (s.fieldServed = true → s.watched ≠ 0 → node.toNat = s.watched → Completes (.heartbeat node st) s fun t =>
          t.ctl.hbLost = false ∧ (∀ m, (0x8130, m) ∉ t.ctl.conditions) ∧ t.obj 0x4005 1 = s.obj 0x4005 1))
  ∧ (∀ s : State, let lost := s.fieldServed = true ∧ s.watched ≠ 0 ∧ s.ctl.hbLost = false
      (¬lost → exec .heartbeatTimeout s = .next s)
      ∧ (lost → Completes .heartbeatTimeout s fun t => t.ctl.hbLost = true ∧ (0x8130, [s.watched]) ∈ t.ctl.conditions ∧ t.obj 0x4005 4 = (s.obj 0x4005 4 + 1) % 2 ^ 32))
  ∧ (∀ s : State, let on := s.fieldServed = true ∧ s.obj 0x1017 0 ≠ 0
      (¬on ∨ s.busOff = true → exec .heartbeatProduce s = .next s)
      ∧ (on → s.busOff = false → exec .heartbeatProduce s = .next
          { s with ctl := { s.ctl with canOut := s.ctl.canOut ++ [⟨0x700 + s.ctl.nodeId, [match s.ctl.nmt with | .operational => 5 | .stopped => 4 | _ => 0x7F]⟩] } }))

/-- A USDO request to a field port that does not answer changes nothing. An abort ends the session of the client, an
invalid request ends it with 0x0504_0001, a segment without a session is answered so; a segment that is not the last is
kept behind those before it, the last makes the write. A read or a whole write is answered with its result, a segmented
write opens a session when its first checks pass; with four other sessions open a new one is answered 0x0504_0005.
USDO_TIMEOUT ends the session with 0x0504_0000. RPDO 1 out of operational does nothing; with another length than 3 it
queues EMCY 0x8210; it makes both writes, or neither and is counted as rejected. A TPDO that is due goes out with its
mapped values, which are kept; one that is not does not. The oldest emergency message goes out when one may, and not in
stopped, in bus-off or within 1 ms of the last. Error passive and bus-off set the state of the bus, and its end ends the
condition 0x8120; a rejoin is counted. An overrun is counted. A frame on a COB-ID that the device does not take is counted
as ignored. -/
def Obligations.FieldPortSessionsAndPdos : Prop :=
  (∀ (client : Byte) (req : UsdoReq) (s : State), s.gate .field = .silent → exec (.usdoRequest client req) s = .next s ∧ exec (.usdoTimeout client) s = .next s)
  ∧ (∀ (client : Byte) (s : State), s.gate .field ≠ .silent →
      let c := client.toNat
      let s0 := s.endSession c
      s0.session? c = none
      ∧ exec (.usdoRequest client .abort) s = .next s0
      ∧ exec (.usdoRequest client .invalid) s = .next (s0.answer (usdoKey c) 0x05040001 [])
      ∧ (∀ bs last, s.session? c = none → exec (.usdoRequest client (.segment bs last)) s = .next (s.answer (usdoKey c) 0x05040001 []))
      ∧ (∀ bs x, s.session? c = some x → Completes (.usdoRequest client (.segment bs false)) s fun t =>
          t.session? c = some { x with data := x.data ++ bs } ∧ t.ctl.od = s.ctl.od ∧ t.ctl.answers = s.ctl.answers ∧ t.str = s.str)
      ∧ (∀ bs x code t, s.session? c = some x → s0.writeObject .field x.index x.sub (x.data ++ bs) = some (code, t) →
          exec (.usdoRequest client (.segment bs true)) s = .next (t.answer (usdoKey c) code []))
      ∧ (s.sessionRoom c = false → ∀ (i : BitVec 16) (n : Byte) bs,
          exec (.usdoRequest client (.read i n)) s = .next (s.answer (usdoKey c) 0x05040005 [])
          ∧ exec (.usdoRequest client (.write i n bs)) s = .next (s.answer (usdoKey c) 0x05040005 [])
          ∧ exec (.usdoRequest client (.begin i n bs)) s = .next (s.answer (usdoKey c) 0x05040005 []))
      ∧ (s.sessionRoom c = true → ∀ (i : BitVec 16) (n : Byte) bs,
          (∀ code d t, s0.readObject .field i.toNat n.toNat = some ((code, d), t) → exec (.usdoRequest client (.read i n)) s = .next (t.answer (usdoKey c) code d))
          ∧ (∀ code t, s0.writeObject .field i.toNat n.toNat bs = some (code, t) → exec (.usdoRequest client (.write i n bs)) s = .next (t.answer (usdoKey c) code []))
          ∧ (∀ code t, code ≠ 0 → s0.beginWrite .field i.toNat n.toNat = some (code, t) → exec (.usdoRequest client (.begin i n bs)) s = .next (t.answer (usdoKey c) code []))
          ∧ (∀ t, s0.beginWrite .field i.toNat n.toNat = some (0, t) → t.session? c = none → t.ctl.usdo.length < 4 → Completes (.usdoRequest client (.begin i n bs)) s fun u =>
              u.session? c = some ⟨c, i.toNat, n.toNat, true, bs⟩ ∧ u.ctl.od = t.ctl.od ∧ u.boot = t.boot))
      ∧ (s.session? c = none → exec (.usdoTimeout client) s = .next s)
      ∧ ((s.session? c).isSome = true → exec (.usdoTimeout client) s = .next (s0.answer (usdoKey c) 0x05040000 [])))
  ∧ (∀ (data : List Byte) (s : State),
      let on := s.ctl.nmt = .operational ∧ s.fieldServed = true
      let req := slice data 2 1
      let a := s.writeServed .field 0x2111 0 (slice data 0 2)
      let b := a.2.writeServed .field 0x2112 0 req
      (¬on → exec (.rpdo1 data) s = .next s)
      ∧ (on → data.length ≠ 3 → exec (.rpdo1 data) s = .next (s.emcyEvent 0x8210 [data.length % 256]))
      ∧ (on → data.length = 3 →
          (leNat req = 0 → a.1 = 0 → exec (.rpdo1 data) s = .next a.2)
          ∧ (leNat req ≠ 0 → a.1 = 0 → b.1 = 0 → exec (.rpdo1 data) s = .next b.2)
          ∧ (a.1 ≠ 0 ∨ (leNat req ≠ 0 ∧ b.1 ≠ 0) → Completes (.rpdo1 data) s fun t =>
              t.obj 0x4005 5 = (s.obj 0x4005 5 + 1) % 2 ^ 32 ∧ t.pw = s.pw ∧ t.obj 0x2111 0 = s.obj 0x2111 0 ∧ t.obj 0x2112 0 = s.obj 0x2112 0)))
  ∧ (∀ (n : TpdoNo) (s : State),
      let due := s.ctl.nmt = .operational ∧ s.fieldServed = true ∧ s.busOff = false ∧ s.tpdoDue n.val = true
      (¬due → exec (.tpdoSend n) s = .next s)
      ∧ (due → exec (.tpdoSend n) s = .next { s with ctl := { s.ctl with canOut := s.ctl.canOut ++ [⟨s.tpdoCob n.val, s.tpdoData n.val⟩], tpdo := Tbl.put s.ctl.tpdo n.val ⟨s.tpdoData n.val, s.now⟩ } }))
  ∧ (∀ s : State,
      let held := s.pw.auxPg = false ∨ s.ctl.nmt = .stopped ∨ s.busOff = true ∨ ∃ x, s.ctl.emcyAt = some x ∧ s.tm.cycles < x + 200000
      (s.ctl.emcy = [] ∨ held → exec .emcySend s = .next s)
      ∧ ∀ m ms, s.ctl.emcy = m :: ms → ¬held → exec .emcySend s = .next { s with ctl := { s.ctl with canOut := s.ctl.canOut ++ [⟨0x80 + s.ctl.nodeId, m.data⟩], emcy := ms, emcyAt := some s.tm.cycles } })
  ∧ (∀ (tec rec : Byte) (enter : Bool) (s : State),
      (s.busOff = true → exec (.canErrorPassive enter tec rec) s = .next s)
      ∧ (s.busOff = false → Completes (.canErrorPassive enter tec rec) s fun t => t.obj 0x4005 7 = tec.toNat ∧ t.obj 0x4005 8 = rec.toNat
          ∧ t.obj 0x4005 9 = (if enter then 1 else 0) ∧ t.ctl.nmt = s.ctl.nmt ∧ t.str = s.str
          ∧ (enter = false → ∀ m, (0x8120, m) ∉ t.ctl.conditions)
          ∧ (enter = true → s.obj 0x4005 9 ≠ 1 → (0x8120, [tec.toNat, rec.toNat]) ∈ t.ctl.conditions)))
  ∧ (∀ s : State, Completes .busOff s fun t => t.busOff = true ∧ t.str = s.str ∧ t.ctl.nmt = s.ctl.nmt ∧ t.ctl.canOut = s.ctl.canOut)
  ∧ (∀ s : State, (s.busOff = false → exec .busOffRecovered s = .next s)
      ∧ (s.busOff = true → Completes .busOffRecovered s fun t => t.obj 0x4005 9 = 0 ∧ t.obj 0x4005 7 = 0 ∧ t.obj 0x4005 8 = 0
          ∧ t.obj 0x4005 2 = (s.obj 0x4005 2 + 1) % 2 ^ 32 ∧ (∀ m, (0x8120, m) ∉ t.ctl.conditions) ∧ t.str = s.str ∧ t.ctl.nmt = s.ctl.nmt))
  ∧ (∀ s : State, Completes .canOverrun s fun t => t.obj 0x4005 3 = (s.obj 0x4005 3 + 1) % 2 ^ 32 ∧ t.str = s.str ∧ t.ctl.nmt = s.ctl.nmt ∧ t.ctl.conditions = s.ctl.conditions)
  ∧ (∀ (cob : BitVec 29) (s : State), let taken := cob = 0 ∨ (s.watched ≠ 0 ∧ cob.toNat = 0x700 + s.watched) ∨ cob.toNat = 0x200 + s.ctl.nodeId ∨ cob.toNat = 0x600 + s.ctl.nodeId
      (s.fieldServed = false ∨ taken → exec (.canFrameIgnored cob) s = .next s)
      ∧ (s.fieldServed = true → ¬taken → Completes (.canFrameIgnored cob) s fun t => t.obj 0x4005 1 = (s.obj 0x4005 1 + 1) % 2 ^ 32 ∧ t.str = s.str))

/-- GO of a function that the host does not reach changes nothing; while BUSY it only sets GO_IGNORED; else the mailbox
takes the request, is BUSY, and is served where its port is served. A served read leaves DONE, the abort code, the segment
and its lengths; a served write leaves DONE and the abort code of its segment: a segment beyond 2,048 bytes, a first one
with an OFFSET, or a later one that does not continue the transfer aborts; a first segment runs checks 1 to 5; a segment
that is not the last is kept; the last writes the object with all the bytes. MAILBOX_TRANSFER_TIMEOUT drops a transfer and
does nothing without one. A peer request with CC0 down waits; else it is served and answered on its port with the code
and, for a read, the data. A peer response that no open request names is dropped, else it ends the request and is kept.
DEBUG_ACCESS while JTAG is silent changes nothing, else it reads or writes under class D. PROBE_CHANGE moves JTAG and
resets the TAP controller. -/
def Obligations.OtherPortsAreServed : Prop :=
  (∀ (p : Part) (req : MbxReq) (s : State),
      let m := (s.fn p.val).mbx
      let ign := if req.ack then false else m.goIgnored
      (s.hostOk p.val = false → exec (.go p req) s = .next s)
      ∧ (s.hostOk p.val = true → m.busy = true → Completes (.go p req) s fun t => t.ctl = s.ctl ∧ t.st = s.st
          ∧ (t.fn p.val).mbx = { m with goIgnored := true, done := if req.ack then false else m.done })
      ∧ (s.hostOk p.val = true → m.busy = false → Completes (.go p req) s fun t => ∃ u : State, t = u.serveMail p ∧ u.ctl = s.ctl ∧ u.st = s.st
          ∧ (u.fn p.val).mbx = { m with index := req.index.toNat, sub := req.sub.toNat, write := req.write, first := req.first, last := req.last, offset := req.offset.toNat, len := req.len.toNat, busy := true, done := false, goIgnored := ign, data := if req.data = [] then m.data else spliceBytes m.data 0 (req.data.take 2048) }))
  ∧ (∀ (p : Part) (u : State),
      let m := (u.fn p.val).mbx
      let t := u.serveMail p
      (m.busy = false ∨ u.gate (mailPort p) ≠ .served → t = u)
      ∧ (m.busy = true → u.gate (mailPort p) = .served →
        (∀ code bs v, m.write = false → u.readObject (mailPort p) m.index m.sub = some ((code, bs), v) →
          let seg := slice bs m.offset (Nat.min 2048 (bs.length - m.offset))
          let total := if code = 0 then bs.length else 0
          (t.fn p.val).mbx = { (v.fn p.val).mbx with busy := false, done := true, abort := code, respLen := seg.length, total := total, respLast := decide (code = 0 ∧ total ≤ m.offset + seg.length), data := if seg = [] then (v.fn p.val).mbx.data else spliceBytes (v.fn p.val).mbx.data 0 seg })
        ∧ (m.write = true → let r := u.mailSegment p
          (t.fn p.val).mbx = { (r.2.fn p.val).mbx with busy := false, done := true, abort := r.1, respLen := 0, total := 0, respLast := false })))
  ∧ (∀ (p : Part) (u : State),
      let m := (u.fn p.val).mbx
      let bs := slice m.data 0 m.len
      let clear := fun (t : State) => t.modMbx p.val fun x => { x with xfer := none, xferAbort := 0 }
      let keep := fun (t : State) (l : List Byte) => t.modMbx p.val fun x => { x with xfer := some (m.index, m.sub, l), xferAbort := 0 }
      (2048 < m.len → u.mailSegment p = (0x05040001, clear u))
      ∧ (m.len ≤ 2048 → m.first = true → m.offset ≠ 0 → u.mailSegment p = (0x05040001, clear u))
      ∧ (m.len ≤ 2048 → m.first = true → m.offset = 0 → ∀ code v, (clear u).beginWrite (mailPort p) m.index m.sub = some (code, v) →
          (code ≠ 0 → u.mailSegment p = (code, v))
          ∧ (code = 0 → m.last = false → u.mailSegment p = (0, keep v bs))
          ∧ (code = 0 → m.last = true → u.mailSegment p = (clear v).writeServed (mailPort p) m.index m.sub bs))
      ∧ (m.len ≤ 2048 → m.first = false → m.xfer = none → u.mailSegment p = (if m.xferAbort = 0 then 0x05040001 else m.xferAbort, clear u))
      ∧ (m.len ≤ 2048 → m.first = false → ∀ i n old, m.xfer = some (i, n, old) →
          (¬(i = m.index ∧ n = m.sub ∧ m.offset = old.length) → u.mailSegment p = (0x05040001, clear u))
          ∧ (i = m.index ∧ n = m.sub ∧ m.offset = old.length → m.last = false → u.mailSegment p = (0, keep u (old ++ bs)))
          ∧ (i = m.index ∧ n = m.sub ∧ m.offset = old.length → m.last = true →
              u.mailSegment p = (clear u).writeServed (mailPort p) m.index m.sub (old ++ bs))))
  ∧ (∀ (p : Part) (s : State),
      ((s.fn p.val).mbx.xfer = none → exec (.mailboxTransferTimeout p) s = .next s)
      ∧ ((s.fn p.val).mbx.xfer ≠ none → Completes (.mailboxTransferTimeout p) s fun t => t.ctl = s.ctl ∧ t.st = s.st
          ∧ (t.fn p.val).mbx = { (s.fn p.val).mbx with xfer := none, xferAbort := 0x05040000 }))
  ∧ (∀ (port : PortNo) (s : State), s.ctl.coresDown.contains 0 = true → exec (.peerObjectRequest port) s = .next s)
  ∧ (∀ (port : PortNo) (s u : State) (f : Frame), s.ctl.coresDown.contains 0 = false → s.takeFrame port.val (ofSub 0xE 0x10) = some (f, u) →
      let dev : DevNo := Fin.ofNat 8 (u.port port.val).peerDev
      let b := f.payload
      let i := leAt b 2 2
      let n := leAt b 4 1
      let answer := fun (code len : Nat) (bs : List Byte) => accessFrame (leBytes 1 0x11 ++ leBytes 1 0 ++ leBytes 2 i ++ leBytes 1 n ++ leBytes 1 len
        ++ slice b 6 2 ++ leBytes 4 code ++ bs)
      (leAt b 1 1 = 0 → ∀ code bs v, u.readObject (.peer dev) i n = some ((code, bs), v) →
        exec (.peerObjectRequest port) s = .next (v.send port.val (answer code bs.length bs)))
      ∧ (leAt b 1 1 = 1 → ∀ code v, u.writeObject (.peer dev) i n (slice b 8 (leAt b 5 1)) = some (code, v) →
        exec (.peerObjectRequest port) s = .next (v.send port.val (answer code (leAt b 5 1) [])))
      ∧ (1 < leAt b 1 1 → exec (.peerObjectRequest port) s = .next (u.send port.val (answer 0x05040001 (leAt b 5 1) []))))
  ∧ (∀ (port : PortNo) (s u : State) (f : Frame), s.takeFrame port.val (ofSub 0xE 0x11) = some (f, u) →
      let txn := leAt f.payload 6 2
      (txn ∉ (u.port port.val).open_ → exec (.peerObjectResponse port) s = .next u)
      ∧ (txn ∈ (u.port port.val).open_ → Completes (.peerObjectResponse port) s fun t => t.st = u.st
          ∧ (t.port port.val).open_ = (u.port port.val).open_.filter (· != txn) ∧ (∀ k, k ≠ port.val → t.port k = u.port k)
          ∧ Tbl.get? t.ctl.answers (512 + port.val) = some (leAt f.payload 8 4, slice f.payload 0xC (leAt f.payload 5 1))))
  ∧ (∀ (index : BitVec 16) (sub : Byte) (wr : Bool) (data : List Byte) (s : State),
      let s1 := { s with ctl := { s.ctl with tapReset := false } }
      (s.gate .debug = .silent → exec (.debugAccess index sub wr data) s = .next s)
      ∧ (s.gate .debug ≠ .silent → wr = true → exec (.debugAccess index sub wr data) s = .next (s1.portWrite .debug index.toNat sub.toNat data))
      ∧ (s.gate .debug ≠ .silent → wr = false → ∀ code bs v, s1.readObject .debug index.toNat sub.toNat = some ((code, bs), v) →
          Completes (.debugAccess index sub wr data) s fun t => t.st = v.st ∧ Tbl.get? t.ctl.answers 64 = some (code, bs)))
  ∧ (∀ (low : Bool) (s : State),
      (s.ctl.probeJ3 = low → exec (.probeChange low) s = .next s)
      ∧ (s.ctl.probeJ3 ≠ low → exec (.probeChange low) s = .next { s with ctl := { s.ctl with probeJ3 := low, tapReset := true } }))

/-- The eleven write commands write the object they name. A port that is silent gets no answer and nothing changes; one
that refuses answers 0x08000022; a served one answers the code of the write. Checks 1 to 5, then length, range, state and
own condition each end it with their code and the state unchanged. A write that passes: of a SELECT sets what the port has
selected; of a subindex without an effect of its own sets the value; TIME_NS is refused while a trusted master is
followed, else taken or refused as an offset; TRUST_RELEASE makes the time UNTRUSTED and elects; 0x4020 clears every error
counter and the engine counters; CLEAR clears the accounting of its partition only; RESET_POINTS forgets the recorded
points; JTAG_ENABLE 0 resets the TAP controller; a port ENABLE is stored and switches the port; a state request is stored
and acted on; POWER_LIMIT is set. STAGE_IMAGE: a first segment that fails its checks is answered, one that is not the last
is kept, a later one without a first is ignored, else added; the last writes 0x5000:08 with all of them. -/
def Obligations.ObjectsAreWrittenByTheirRules : Prop :=
  (∀ (port : PortClass) (s : State) (data : List Byte),
      (∀ i k, exec (.objectWrite port i k data) s = .next (s.portWrite port i.toNat k.toNat data))
      ∧ exec (.timeNsWrite port data) s = .next (s.portWrite port 0x2210 1 data)
      ∧ exec (.trustRelease port data) s = .next (s.portWrite port 0x2213 0xD data)
      ∧ exec (.counterClear port data) s = .next (s.portWrite port 0x4020 0 data)
      ∧ (∀ p : Part, exec (.clear port p data) s = .next (s.portWrite port (0x3000 + p.val) 0x10 data))
      ∧ exec (.resetPoints port data) s = .next (s.portWrite port 0x4200 0x10 data)
      ∧ exec (.jtagEnableWrite port data) s = .next (s.portWrite port 0x5F01 1 data)
      ∧ (∀ x : PortNo, exec (.portEnableWrite port x data) s = .next (s.portWrite port (0x4100 + x.val) 1 data))
      ∧ exec (.stateRequest port data) s = .next (s.portWrite port 0x2112 0 data)
      ∧ exec (.powerLimit port data) s = .next (s.portWrite port 0x2111 0 data))
  ∧ (∀ (port : PortClass) (s : State) (data : List Byte) (i k : Nat),
      (s.gate port = .silent → s.portWrite port i k data = s)
      ∧ (s.gate port = .refuse → s.portWrite port i k data = s.answer (portKey port) 0x08000022 [])
      ∧ (s.gate port = .served → s.portWrite port i k data = (s.writeServed port i k data).2.answer (portKey port) (s.writeServed port i k data).1 [])
      ∧ (∀ e, s.checkAccess port true i k = .error e → s.writeServed port i k data = (e, s))
      ∧ ∀ r, s.checkAccess port true i k = .ok r →
        let v := if r.len = 0 then 0 else leNat data
        let inRange := (r.rng.holds r.len v && s.ownRange port i k v) = true
        (r.lengthOk data.length = false → s.writeServed port i k data = (0x06070010, s))
        ∧ (r.lengthOk data.length = true → ¬inRange → s.writeServed port i k data = (0x06090030, s))
        ∧ (r.lengthOk data.length = true → inRange → s.stateOk i k = false → s.writeServed port i k data = (0x08000022, s))
        ∧ (r.lengthOk data.length = true → inRange → s.stateOk i k = true → s.ownCondition i k v = false → s.writeServed port i k data = (0x08000020, s))
        ∧ (r.lengthOk data.length = true → inRange → s.stateOk i k = true → s.ownCondition i k v = true →
            s.writeServed port i k data = (s.holdValue i k).applyWrite port i k v data))
  ∧ (∀ (port : PortClass) (s : State) (data : List Byte) (v : Nat),
      (∀ i k, isSelect i k = true → (s.applyWrite port i k v data).1 = 0 ∧ (s.applyWrite port i k v data).2.sel port i k = v)
      ∧ (∀ i k, isSelect i k = false → s.writeSpecial i k v data = none → (s.applyWrite port i k v data).1 = 0 ∧ (s.applyWrite port i k v data).2.obj i k = v)
      ∧ (s.followsTrusted = true → s.applyWrite port 0x2210 1 v data = (0x08000022, s))
      ∧ (s.followsTrusted = false → s.applyWrite port 0x2210 1 v data =
          (if s.offsetOk (s.tm.ns - ((v : Nat) : Rat)) then 0 else 0x08000022, s.takeOffset (s.tm.ns - ((v : Nat) : Rat)) .operator))
      ∧ s.applyWrite port 0x2213 0xD v data = (0, ({ s with tm := { s.tm with state := .untrusted } }).elect)
      ∧ ((s.applyWrite port 0x4020 0 v data).1 = 0 ∧ (s.applyWrite port 0x4020 0 v data).2.rb.engCtr = []
          ∧ ∀ i k, k < 256 → (s.applyWrite port 0x4020 0 v data).2.obj i k = if isErrorCounter i k = true then objDefault i k else s.obj i k)
      ∧ (∀ p : Part, (s.applyWrite port (0x3000 + p.val) 0x10 v data).1 = 0
          ∧ ∀ i k, k < 256 → (s.applyWrite port (0x3000 + p.val) 0x10 v data).2.obj i k = if i = 0x3000 + p.val ∧ 1 ≤ k ∧ k ≤ 0xF then objDefault i k else s.obj i k)
      ∧ s.applyWrite port 0x4200 0x10 v data = (0, { s with boot := { s.boot with recorded := [] } })
      ∧ ((s.applyWrite port 0x5F01 1 v data).1 = 0 ∧ (s.applyWrite port 0x5F01 1 v data).2.obj 0x5F01 1 = v
          ∧ (s.applyWrite port 0x5F01 1 0 data).2.ctl.tapReset = true)
      ∧ (∀ x : PortNo, s.applyWrite port (0x4100 + x.val) 1 v data = (0, (s.persist (0x4100 + x.val) 1 v).writePortEnable x.val (v == 1)))
      ∧ s.applyWrite port 0x2112 0 v data = (0, ({ s with pw := { s.pw with schedSaved := none } }).writeRequest v)
      ∧ ((s.applyWrite port 0x2111 0 v data).1 = 0 ∧ (s.applyWrite port 0x2111 0 v data).2 = s.setObj 0x2111 0 v))
  ∧ (∀ (port : PortClass) (last : Bool) (data : List Byte) (s : State),
      let k := portKey port
      let drop := fun (t : State) => ({ t with ctl := { t.ctl with stage := Tbl.erase t.ctl.stage k } } : State)
      let keep := fun (t : State) (l : List Byte) => ({ t with ctl := { t.ctl with stage := Tbl.put t.ctl.stage k l } } : State)
      (s.beginWrite port 0x5000 8 = none → exec (.stageImage port true last data) s = .next s)
      ∧ (∀ code t, s.beginWrite port 0x5000 8 = some (code, t) →
          (code ≠ 0 → exec (.stageImage port true last data) s = .next ((drop t).answer k code []))
          ∧ (code = 0 → exec (.stageImage port true last data) s = .next (if last then (drop t).portWrite port 0x5000 8 data else keep t data)))
      ∧ (Tbl.get? s.ctl.stage k = none ∨ s.gate port = .silent → exec (.stageImage port false last data) s = .next s)
      ∧ ∀ bs, Tbl.get? s.ctl.stage k = some bs → s.gate port ≠ .silent → exec (.stageImage port false last data) s =
          .next (if last then (drop s).portWrite port 0x5000 8 (bs ++ data) else keep s (bs ++ data)))

/-- A function that the host does not reach discards every access. SQ_DB: on a disabled ring DB_DISABLED, of the same
value nothing, of new entries within the ring TAIL and a wake, else DB_INVALID. OQ_CONS likewise: a count up to PROD is
taken, frees audio and lets records go on. SQ_ENABLE and OQ_ENABLE: of an enabled ring only ENABLE changes, else
CFG_LOCKED; a LOG2 outside 8 to 16 is CFG_INVALID; enabling starts the ring at 0, an output ring only with a PROD_WB.
Other registers: those of an enabled ring raise CFG_LOCKED, misaligned ones CFG_INVALID, else they are set; MBX_VECTOR and
ERR_FLAGS and the MSI-X words are written; any other offset is discarded. HEAD_WB_TIMER writes HEAD once when it has
moved. MSIX_MOD_TIMER sends the vector of a ring whose timer runs. MSIX_UNMASK clears the mask and sends a pending message
once. Bus Master Enable off stops the function; on, the pending unmasked messages go out in order and every HEAD that has
moved is written. -/
def Obligations.RingsTakeDoorbellsAndRegisters : Prop :=
  (∀ (p : Part) (ring : Ring) (v : BitVec 32) (s : State),
      let q := s.sq p.val ring.val
      let o := s.oq p.val ring.val
      let n := v.toNat
      let fits := (n + 2 ^ 32 - q.tail) % 2 ^ 32 < 2 ^ 31 ∧ (n + 2 ^ 32 - q.head) % 2 ^ 32 ≤ 2 ^ q.log2
      let read := (n + 2 ^ 32 - o.cons) % 2 ^ 32 ≤ (o.prod + 2 ^ 32 - o.cons) % 2 ^ 32
      (s.hostOk p.val = false → exec (.sqDb p ring v) s = .next s ∧ exec (.oqCons p ring v) s = .next s ∧ exec (.sqEnableWrite p ring v) s = .next s
          ∧ exec (.oqEnableWrite p ring v) s = .next s)
      ∧ (s.hostOk p.val = true →
        (q.enable = false → exec (.sqDb p ring v) s = .next (s.ringError p.val 1))
        ∧ (q.enable = true → n = q.tail → exec (.sqDb p ring v) s = .next s)
        ∧ (q.enable = true → n ≠ q.tail → fits → exec (.sqDb p ring v) s = .next (s.setSq p.val ring.val { q with tail := n }).wakeTrigger)
        ∧ (q.enable = true → n ≠ q.tail → ¬fits → exec (.sqDb p ring v) s = .next (s.ringError p.val 0))
        ∧ (o.enable = false → exec (.oqCons p ring v) s = .next (s.ringError p.val 1))
        ∧ (o.enable = true → read → exec (.oqCons p ring v) s =
            .next ((s.setOq p.val ring.val ({ o with cons := n }).freeAudio).pumpRing p.val ring.val))
        ∧ (o.enable = true → ¬read → exec (.oqCons p ring v) s = .next (s.ringError p.val 0))
        ∧ (q.enable = true → bits n 0 5 ≠ q.log2 → exec (.sqEnableWrite p ring v) s = .next (s.ringError p.val 2))
        ∧ (q.enable = true → bits n 0 5 = q.log2 → exec (.sqEnableWrite p ring v) s = .next (s.setSq p.val ring.val { q with enable := bitAt n 8 }))
        ∧ (q.enable = false → bits n 0 5 < 8 ∨ 16 < bits n 0 5 → exec (.sqEnableWrite p ring v) s = .next (s.ringError p.val 3))
        ∧ (q.enable = false → 8 ≤ bits n 0 5 → bits n 0 5 ≤ 16 → exec (.sqEnableWrite p ring v) s = .next (s.setSq p.val ring.val
            (if bitAt n 8 = true then { q with log2 := bits n 0 5, enable := true, head := 0, tail := 0, headWritten := 0 } else { q with log2 := bits n 0 5 })))
        ∧ (o.enable = true → bits n 0 5 ≠ o.log2 ∨ bits n 16 4 ≠ o.vector → exec (.oqEnableWrite p ring v) s = .next (s.ringError p.val 2))
        ∧ (o.enable = true → bits n 0 5 = o.log2 → bits n 16 4 = o.vector → exec (.oqEnableWrite p ring v) s = .next (s.setOq p.val ring.val { o with enable := bitAt n 8 }))
        ∧ (o.enable = false → bits n 0 5 < 8 ∨ 16 < bits n 0 5 → exec (.oqEnableWrite p ring v) s = .next (s.ringError p.val 3))
        ∧ (o.enable = false → 8 ≤ bits n 0 5 → bits n 0 5 ≤ 16 → bitAt n 8 = true → o.prodWb = 0 → exec (.oqEnableWrite p ring v) s = .next (s.ringError p.val 2))
        ∧ (o.enable = false → 8 ≤ bits n 0 5 → bits n 0 5 ≤ 16 → bitAt n 8 = false ∨ o.prodWb ≠ 0 → exec (.oqEnableWrite p ring v) s = .next (s.setOq p.val ring.val
            (if bitAt n 8 = true then ({ o with log2 := bits n 0 5, vector := bits n 16 4, enable := true, prod := 0, cons := 0, pSent := 0, timer := false }).freeAudio
             else { o with log2 := bits n 0 5, vector := bits n 16 4 })))))
  ∧ (∀ (p : Part) (off : BitVec 17) (value : BitVec 32) (s : State),
      let a := off.toNat
      let v := value.toNat
      let f := s.fn p.val
      (s.hostOk p.val = false ∨ a % 4 ≠ 0 → exec (.ringRegisterWrite p off value) s = .next s)
      ∧ (s.hostOk p.val = true → a % 4 = 0 →
        (a = 0x100 → exec (.ringRegisterWrite p off value) s = .next (s.setFn p.val { f with mbxVector := v % 16 }))
        ∧ (a = 0x108 → exec (.ringRegisterWrite p off value) s = .next (s.setFn p.val { f with errFlags := f.errFlags - Nat.land f.errFlags v }))
        ∧ (∀ (r : Ring) (k : Nat), a = 0x1000 + 64 * r.val + k → k < 64 →
            let q := s.sq p.val r.val
            let set := fun (bad : Prop) (x : SubRing) => (q.enable = true → exec (.ringRegisterWrite p off value) s = .next (s.ringError p.val 2))
              ∧ (q.enable = false → bad → exec (.ringRegisterWrite p off value) s = .next (s.ringError p.val 3))
              ∧ (q.enable = false → ¬bad → exec (.ringRegisterWrite p off value) s = .next (s.setSq p.val r.val x))
            (k = 0x00 → set (v % 4096 ≠ 0) { q with base := setHalf q.base false v }) ∧ (k = 0x04 → set False { q with base := setHalf q.base true v })
            ∧ (k = 0x08 → exec (.ringRegisterWrite p off value) s = exec (.sqEnableWrite p r value) s)
            ∧ (k = 0x10 → set (v % 8 ≠ 0) { q with headWb := setHalf q.headWb false v }) ∧ (k = 0x14 → set False { q with headWb := setHalf q.headWb true v })
            ∧ (k ∉ [0x00, 0x04, 0x08, 0x10, 0x14] → exec (.ringRegisterWrite p off value) s = .next s))
        ∧ (∀ (r : Ring) (k : Nat), a = 0x2000 + 64 * r.val + k → k < 64 →
            let o := s.oq p.val r.val
            let set := fun (bad : Prop) (x : OutRing) => (o.enable = true → exec (.ringRegisterWrite p off value) s = .next (s.ringError p.val 2))
              ∧ (o.enable = false → bad → exec (.ringRegisterWrite p off value) s = .next (s.ringError p.val 3))
              ∧ (o.enable = false → ¬bad → exec (.ringRegisterWrite p off value) s = .next (s.setOq p.val r.val x))
            (k = 0x00 → set (v % 4096 ≠ 0) { o with base := setHalf o.base false v }) ∧ (k = 0x04 → set False { o with base := setHalf o.base true v })
            ∧ (k = 0x08 → exec (.ringRegisterWrite p off value) s = exec (.oqEnableWrite p r value) s)
            ∧ (k = 0x10 → set (v % 8 ≠ 0) { o with prodWb := setHalf o.prodWb false v }) ∧ (k = 0x14 → set False { o with prodWb := setHalf o.prodWb true v })
            ∧ (k = 0x18 → set (v % 65536 = 0) { o with modRecords := v % 65536 }) ∧ (k = 0x1C → set False { o with modUs := v % 65536 })
            ∧ (k = 0x20 → set (v % 64 ≠ 0) { o with audioBase := setHalf o.audioBase false v }) ∧ (k = 0x24 → set False { o with audioBase := setHalf o.audioBase true v })
            ∧ (k = 0x28 → set (v % 64 ≠ 0) { o with audioBytes := v })
            ∧ (k ∉ [0x00, 0x04, 0x08, 0x10, 0x14, 0x18, 0x1C, 0x20, 0x24, 0x28] → exec (.ringRegisterWrite p off value) s = .next s))
        ∧ (∀ i, a = 0x10000 + 4 * i → i < 64 →
            (i % 4 = 3 → exec (.ringRegisterWrite p off value) s =
              .next ((s.setFn p.val { f with masked := setBit f.masked (i / 4) (bitAt v 0) }).releaseVector p.val (i / 4)))
            ∧ (i % 4 ≠ 3 → exec (.ringRegisterWrite p off value) s = .next (s.setFn p.val { f with msixTable := Tbl.setD f.msixTable 0 i v })))
        ∧ (a ≠ 0x100 → a ≠ 0x108 → ¬(0x1000 ≤ a ∧ a < 0x1400) → ¬(0x2000 ≤ a ∧ a < 0x2400) → ¬(0x10000 ≤ a ∧ a < 0x10100) →
            exec (.ringRegisterWrite p off value) s = .next s)))
  ∧ (∀ (p : Part) (ring : Ring) (s : State),
      let q := s.sq p.val ring.val
      let o := s.oq p.val ring.val
      let held := q.headWb = 0 ∨ q.head = q.headWritten ∨ (s.fn p.val).bme = false ∨ (s.fn p.val).resetting = true
      (held → exec (.headWbTimer p ring) s = .next s)
      ∧ (¬held → exec (.headWbTimer p ring) s = .next ((s.hostWrite q.headWb (leBytes 8 q.head)).setSq p.val ring.val { q with headWritten := q.head }))
      ∧ (o.timer = false → exec (.msixModTimer p ring) s = .next s)
      ∧ (o.timer = true → exec (.msixModTimer p ring) s = .next ((s.setOq p.val ring.val { o with pSent := o.prod, timer := false }).sendMsix p.val o.vector)))
  ∧ (∀ (p : Part) (v : VectorNo) (s : State),
      let g := { s.fn p.val with masked := setBit (s.fn p.val).masked v.val false }
      let ready := bitAt g.pending v.val = true ∧ bitAt g.masked v.val = false ∧ g.bme = true
      (s.hostOk p.val = false → exec (.msixUnmask p v) s = .next s)
      ∧ (s.hostOk p.val = true → Completes (.msixUnmask p v) s fun t => t.st = s.st ∧ (∀ k, k ≠ p.val → t.fn k = s.fn k)
          ∧ t.fn p.val = if ready then { g with pending := setBit g.pending v.val false, sent := g.sent ++ [v.val] } else g))
  ∧ (∀ (p : Part) (on : Bool) (cfg : PcieConfig) (s : State),
      let f := s.fn p.val
      (s.hostOk p.val = false → exec (.busMasterEnableChange p on cfg) s = .next s)
      ∧ (s.hostOk p.val = true → on = false → exec (.busMasterEnableChange p on cfg) s = .next (s.setFn p.val { f.configure cfg with bme := false }))
      ∧ (s.hostOk p.val = true → on = true → Completes (.busMasterEnableChange p on cfg) s fun t =>
          (t.fn p.val).bme = true ∧ (t.fn p.val).payload = cfg.payload.val ∧ (t.fn p.val).readReq = cfg.readReq.val ∧ (t.fn p.val).aspmL1 = cfg.aspmL1
          ∧ (t.fn p.val).sent = f.sent ++ (List.range 16).filter (fun v => bitAt f.pending v && !bitAt f.masked v)
          ∧ ∀ r : Ring, (s.sq p.val r.val).headWb ≠ 0 → f.resetting = false → (t.sq p.val r.val).headWritten = (s.sq p.val r.val).head))

/-- BAR4_ACCESS without the link changes nothing; disabled or beyond the scratchpad a write is discarded and a read
returns zeros; else it writes or reads up to 64 bytes of one row or two through the gather port of the window, an access
to a quarter that is not ON being counted, with zeros read. FLR of the PF or of a function that the host does not reach
changes nothing; else the function is resetting with its registers at their defaults, its handles and tree nodes are gone,
and the controls of the other functions stay. A silent close leaves the stream CLOSED without a slot or exports. FLR_DONE
frees the streams of the partition, keeps the others, and ends the reset. VF_ENABLE_SET beyond 15 or below NumVFs changes
nothing, else the functions up to the number are present; VF_ENABLE_CLEAR takes those above it away and resets them.
HOT_RESET takes every VF away and has every partition resetting; unless it is an FLR of the PF the link goes down and its
domain, when ON, trains again; PERST_N asserted is remembered. PERST_N_RELEASE and PCIE_LINK_UP bring it back with its
rate and width. -/
def Obligations.FunctionsResetAndTheDebugWindow : Prop :=
  (∀ (off : Nat) (wr : Bool) (len : Nat) (data : List Byte) (s : State),
      let n := Nat.min len 64
      let limit := s.obj 0x2010 0 * 512
      let first := Nat.min n (512 - off % 512)
      let more := if off + n ≤ limit then n - first else 0
      let off_ := s.obj 0x5F01 2 = 0 ∨ limit ≤ off
      (s.hostOk 0 = false → exec (.bar4Access off wr len data) s = .next s)
      ∧ (s.hostOk 0 = true → off_ → exec (.bar4Access off true len data) s = .next s
          ∧ exec (.bar4Access off false len data) s = .next { s with host := { s.host with windowData := List.replicate n 0 } })
      ∧ (s.hostOk 0 = true → ¬off_ → exec (.bar4Access off true len data) s =
          .next ((s.windowWrite (off / 512) (off % 512) ((slice data 0 n).take first)).windowWrite (off / 512 + 1) 0 (((slice data 0 n).drop first).take more)))
      ∧ (s.hostOk 0 = true → ¬off_ → Completes (.bar4Access off false len data) s fun t =>
          let a := s.windowRead (off / 512) (off % 512) first
          let b := a.2.windowRead (off / 512 + 1) 0 more
          t.host.windowData = a.1 ++ b.1 ++ List.replicate (n - first - more) 0 ∧ t.st = b.2.st ∧ t.ctl = b.2.ctl))
  ∧ (∀ (row o n : Nat) (bs : List Byte) (s : State),
      s.windowWrite row o [] = s ∧ s.windowRead row o 0 = ([], s)
      ∧ (bs ≠ [] → s.quarterOn (rowQuarter row) = true → s.windowWrite row o bs = s.narrowWrite 8 row o bs [])
      ∧ (bs ≠ [] → s.quarterOn (rowQuarter row) = false → s.windowWrite row o bs = s.incObj 0x4001 7)
      ∧ (n ≠ 0 → s.quarterOn (rowQuarter row) = true → (s.windowRead row o n).1 = s.narrowRead 8 row o n ∧ (s.windowRead row o n).2.st.sp = s.st.sp)
      ∧ (n ≠ 0 → s.quarterOn (rowQuarter row) = false → (s.windowRead row o n).1 = List.replicate n 0
          ∧ (s.windowRead row o n).2.obj 0x4001 9 = (s.obj 0x4001 9 + 1) % 2 ^ 32))
  ∧ (∀ (p : Part) (s : State),
      (p.val = 0 ∨ s.hostOk p.val = false → exec (.flr p) s = .next s)
      ∧ (p.val ≠ 0 → s.hostOk p.val = true → Completes (.flr p) s fun t => t = s.resetPart p.val
          ∧ t.fn p.val = { present := (s.fn p.val).present, resetting := true, payload := (s.fn p.val).payload, aspmL1 := (s.fn p.val).aspmL1, aerTimeout := (s.fn p.val).aerTimeout }
          ∧ (∀ q, q ≠ p.val → (t.fn q).controls = (s.fn q).controls)
          ∧ (∀ e ∈ t.st.handles, e.1 / 256 ≠ p.val) ∧ (∀ e ∈ t.pg.nodes, e.2.part ≠ p.val))
      ∧ ((s.fn p.val).resetting = false → exec (.flrDone p) s = .next s)
      ∧ ((s.fn p.val).resetting = true → Completes (.flrDone p) s fun t => (t.fn p.val).resetting = false
          ∧ (∀ sid ∈ s.streamsOf p.val, t.stream? sid = none) ∧ ∀ sid, sid ∉ s.streamsOf p.val → t.stream? sid = s.stream? sid))
  ∧ (∀ (sid : Nat) (s : State) (st : Stream), (s.closeSilently sid).stream? sid = some st → st.state = .closed ∧ st.slot = none ∧ st.exports = [])
  ∧ (∀ (num : Nat) (s : State),
      (s.hostOk 0 = false ∨ 15 < num ∨ num < s.host.numVfs → exec (.vfEnableSet num) s = .next s)
      ∧ (s.hostOk 0 = true → num ≤ 15 → s.host.numVfs ≤ num → Completes (.vfEnableSet num) s fun t => t.host.numVfs = num ∧ t.st = s.st
          ∧ (∀ k, 1 ≤ k → k ≤ num → t.fn k = if (s.fn k).present = true then s.fn k else { present := true, resetting := (s.fn k).resetting })
          ∧ ∀ k, k = 0 ∨ num < k → t.fn k = s.fn k)
      ∧ (s.hostOk 0 = false ∨ s.host.numVfs < num → exec (.vfEnableClear num) s = .next s)
      ∧ (s.hostOk 0 = true → num ≤ s.host.numVfs → Completes (.vfEnableClear num) s fun t => t.host.numVfs = num
          ∧ (∀ k, num < k → k < 16 → (t.fn k).present = false ∧ ((s.fn k).present = true → (t.fn k).resetting = true))
          ∧ ∀ k, k ≤ num → (t.fn k).controls = (s.fn k).controls))
  ∧ (∀ (cause : Nat) (s : State), Completes (.hotReset cause) s fun t =>
      t.host.numVfs = 0 ∧ (∀ k, 1 ≤ k → k < 16 → (t.fn k).present = false) ∧ (∀ k, k < 16 → (t.fn k).resetting = true)
      ∧ (cause = 0 → t.host.linkUp = s.host.linkUp ∧ t.host.perstReleased = s.host.perstReleased)
      ∧ (cause ≠ 0 → t.host.linkUp = false ∧ (t.fn 0).payload = 0 ∧ t.host.perstReleased = (s.host.perstReleased && cause != 2)
          ∧ t.domain 90 = if s.resetAllParts.domain 90 = 2 then 5 else s.resetAllParts.domain 90))
  ∧ (∀ (rate : LinkRate) (width : LinkWidth) (s : State), exec .perstNRelease s = .next { s with host := { s.host with perstReleased := true } }
      ∧ (s.domain 90 = 0 ∨ s.host.perstReleased = false → exec (.pcieLinkUp rate width) s = .next s)
      ∧ (s.domain 90 ≠ 0 → s.host.perstReleased = true → Completes (.pcieLinkUp rate width) s fun t =>
          t.host = { s.host with linkUp := true, linkRate := rate, linkWidth := width } ∧ t.domain 90 = 2 ∧ ∀ d, d ≠ 90 → t.domain d = s.domain d))

/-- VAUX_GOOD on a device with AUX_PG changes nothing; else AUX_PG is high, the whole device is at its reset with cause 1
but for fuses, flash and kept objects, the straps whose samples agree give the node-ID and DEV_ID, and a VIN start that
waits begins start-up. VAUX_LOST on a device without AUX_PG changes nothing; else it is powered down, AUX_PG is low and no
message is kept. VIN_START on a powered device is a sample; without AUX_PG the start waits; held off by rail faults and
with no fall of VIN since, it is a sample; else the sequencer is at step 1 and start-up at its step 1. VIN_OUT_OF_RANGE
sets or ends the condition 0x3100 of its kind and a beginning counts. UNDERVOLTAGE_LOCKOUT starts the ride-through with
the store in order, and powers down without it; VIN_RETURN within the ride-through ends it and counts; its expiry powers
down, and so does an OVERVOLTAGE_LOCKOUT, each with its condition 0x3100. -/
def Obligations.SuppliesStartAndStopTheDevice : Prop :=
  (∀ (mv : Nat) (straps : List StrapSample) (s : State),
      (s.pw.auxPg = true → exec (.vauxGood mv straps) s = .next s)
      ∧ (s.pw.auxPg = false → Completes (.vauxGood mv straps) s fun t =>
          t.pw.auxPg = true ∧ t.pw.pgMod = false ∧ t.pw.railsUp = [1] ∧ (t.monitor 10).mv = mv ∧ t.boot.resetCause = 1 ∧ t.str = {} ∧ t.st = {}
          ∧ t.boot.step = (if s.pw.vinWaits then 1 else 0) ∧ t.ctl.flashA = s.ctl.flashA ∧ t.boot.bankA = s.boot.bankA
          ∧ (∀ v, strapValue (fun x => x.node % 128) straps = some v → v ≠ 0 → t.ctl.nodeId = v ∧ t.ctl.nodeSource = 1)
          ∧ (∀ v, strapValue (fun x => x.dev % 8) straps = some v → t.xr.devId = v)))
  ∧ (∀ (mv : Nat) (s : State),
      (s.pw.auxPg = false → exec (.vauxLost mv) s = .next s)
      ∧ (s.pw.auxPg = true → Completes (.vauxLost mv) s fun t => t.pw.auxPg = false ∧ t.pw.pgMod = false ∧ t.pw.railsUp = [] ∧ t.pw.downCause = .vaux
          ∧ t.powered = false ∧ t.ctl.emcy = [] ∧ t.ctl.conditions = [] ∧ (s.powered = true → t.str = {} ∧ t.st = {} ∧ t.boot.resetCause = 2)))
  ∧ (∀ (r mv : Nat) (s : State), let m := s.monitor r
      (s.sampleMv r mv).monitor r = { m with mv := mv, min := if m.seen then Nat.min m.min mv else mv, max := if m.seen then Nat.max m.max mv else mv, seen := true })
  ∧ (∀ (mv : Nat) (s : State),
      (s.powered = true → exec (.vinStart mv) s = .next (s.sampleMv 9 mv))
      ∧ (s.powered = false → s.pw.auxPg = false → exec (.vinStart mv) s = .next ((s.sampleMv 9 mv).modPw fun x => { x with vinWaits := true }))
      ∧ (s.powered = false → s.pw.auxPg = true → s.pw.heldOff = true → s.pw.vinFell = false → exec (.vinStart mv) s = .next (s.sampleMv 9 mv))
      ∧ (s.powered = false → s.pw.auxPg = true → (s.pw.heldOff = false ∨ s.pw.vinFell = true) → Completes (.vinStart mv) s fun t =>
          t.pw.seqStep = 1 ∧ t.boot.step = 1 ∧ t.boot.fails = 0 ∧ t.boot.failedStep = 0 ∧ t.powered = true ∧ t.pw.down = false ∧ t.pw.railFaults = 0
          ∧ t.pw.heldOff = false ∧ (t.monitor 9).mv = mv ∧ t.str = s.str ∧ t.ctl = s.ctl))
  ∧ (∀ (above : Bool) (mv : Nat) (s : State), let kind := if above then 2 else 1
      (Completes (.vinOutOfRange above true mv) s fun t => (0x3100, [kind, 0]) ∈ t.ctl.conditions ∧ (t.monitor 9).mv = mv
          ∧ (t.monitor 9).events = ((s.monitor 9).events + 1) % 2 ^ 32 ∧ t.str = s.str ∧ t.boot = s.boot)
      ∧ (Completes (.vinOutOfRange above false mv) s fun t => (0x3100, [kind, 0]) ∉ t.ctl.conditions ∧ (t.monitor 9).mv = mv
          ∧ (t.monitor 9).events = (s.monitor 9).events ∧ t.str = s.str ∧ t.boot = s.boot))
  ∧ (∀ (mv : Nat) (s : State),
      (s.powered = false → exec (.vinUndervoltageLockout mv) s = .next ((s.sampleMv 9 mv).modPw fun x => { x with vinFell := true, vinWaits := false }))
      ∧ (s.powered = true → s.pw.holdupOk = true → Completes (.vinUndervoltageLockout mv) s fun t =>
          t.pw.ride = true ∧ t.pw.vinFell = true ∧ t.powered = true ∧ t.pw.pgMod = s.pw.pgMod ∧ t.str = s.str ∧ t.st = s.st ∧ t.ctl = s.ctl)
      ∧ (s.powered = true → s.pw.holdupOk = false → Completes (.vinUndervoltageLockout mv) s fun t =>
          s.poweredDown t .vin 2 ∧ (0x3100, [1, 0]) ∈ t.ctl.conditions ∧ t.pw.vinFell = true)
      ∧ (s.pw.ride = false → exec (.vinReturn mv) s = .next (s.sampleMv 9 mv) ∧ exec .rideThroughExpiry s = .next s)
      ∧ (s.pw.ride = true → Completes (.vinReturn mv) s fun t => t.pw.ride = false ∧ t.obj 0x2116 6 = (s.obj 0x2116 6 + 1) % 2 ^ 32
          ∧ t.str = s.str ∧ t.st = s.st ∧ t.powered = s.powered ∧ t.ctl.conditions = s.ctl.conditions)
      ∧ (s.pw.ride = true → s.powered = true → Completes .rideThroughExpiry s fun t => s.poweredDown t .vin 2 ∧ (0x3100, [1, 0]) ∈ t.ctl.conditions)
      ∧ (s.powered = false → exec (.vinOvervoltageLockout mv) s = .next (s.sampleMv 9 mv))
      ∧ (s.powered = true → Completes (.vinOvervoltageLockout mv) s fun t => s.poweredDown t .vin 2 ∧ (0x3100, [2, 0]) ∈ t.ctl.conditions))

/-- A sequencer at rest takes no step; else its rails are in their windows and the next step begins, and step 6 ends with
PG_MOD high and no rail condition. A fault of a rail that is neither up nor rising, or of no rail, changes nothing; else
the device powers down with 0x3100 kind 3 and the rail, a start-up fault being counted and the second holding the device
off. The retry timer starts the sequencer after a first start-up fault only. A loss of lock powers the device down with
cause 5 and counts. STARTUP_STEP_DONE does its step: the store is judged once PG_MOD is high; the PLL is locked and Square
0 has its quarters; the first accepted bank runs, none failing the step; each Square takes its recorded or fused point at
divider 4; the HBM pairs are on; Squares that fail leave service, fewer than four failing the step; Crossing ports and
PCIe follow; and at the end the device is at step 10 in pre-operational, or operational with AUTO_START. Outside start-up
it changes nothing. A failed step is recorded; the first one resets the die with cause 4 to step 2, and a second one ends
in boot hold; STARTUP_STEP_FAIL does so in steps 2 to 6 and 9 alone. -/
def Obligations.SequencerAndStartUpSteps : Prop :=
  (∀ (mv : List Nat) (s : State), let n := s.pw.seqStep
      (n = 0 → exec (.sequencerStepDone mv) s = .next s)
      ∧ (n ≠ 0 → Completes (.sequencerStepDone mv) s fun t =>
          t.pw.seqStep = (if n = 6 then 0 else n + 1) ∧ t.pw.pgMod = (s.pw.pgMod || n == 6) ∧ (∀ r, r ∈ t.pw.railsUp ↔ r ∈ s.pw.railsUp ∨ r ∈ stepRails n)
          ∧ (n = 6 → ∀ m, nthD m 0 = 3 → (0x3100, m) ∉ t.ctl.conditions) ∧ t.str = s.str ∧ t.boot = s.boot))
  ∧ (∀ (code mv : Nat) (s : State),
      let none_ := s.powered = false ∨ code = 0 ∨ 8 < code ∨ (code ∉ s.pw.railsUp ∧ code ∉ stepRails s.pw.seqStep)
      let starting := s.boot.step < 10 ∧ s.boot.hold = false
      (none_ → exec (.railFault code mv) s = .next s)
      ∧ (¬none_ → Completes (.railFault code mv) s fun t => s.poweredDown t .rail 2 ∧ (0x3100, [3, code]) ∈ t.ctl.conditions
          ∧ (starting → t.pw.railFaults = s.pw.railFaults + 1 ∧ t.pw.heldOff = decide (1 ≤ s.pw.railFaults))
          ∧ (¬starting → t.pw.railFaults = 0 ∧ t.pw.heldOff = false) ∧ t.pw.vinFell = false ∧ (t.monitor code).events = ((s.monitor code).events + 1) % 2 ^ 32))
  ∧ (∀ s : State, let due := s.pw.auxPg = true ∧ s.powered = false ∧ s.pw.downCause = .rail ∧ s.pw.railFaults = 1
      (¬due → exec .railRetryTimer s = .next s)
      ∧ (due → Completes .railRetryTimer s fun t => t.pw.seqStep = 1 ∧ t.boot.step = 1 ∧ t.powered = true ∧ t.pw.railFaults = 1 ∧ t.pw.down = false ∧ t.str = s.str)
      ∧ (s.pw.auxPg = false → exec .pllLockLoss s = .next s)
      ∧ (s.pw.auxPg = true → Completes .pllLockLoss s fun t => t.boot.pllLocked = false ∧ t.boot.lockLosses = (s.boot.lockLosses + 1) % 2 ^ 32 ∧ t.powered = false
          ∧ (s.powered = true → t.pw.downCause = .pll ∧ t.boot.resetCause = 5 ∧ t.str = {} ∧ t.st = {} ∧ t.pw.pgMod = false)))
  ∧ (∀ s : State, let n := s.boot.step; let t := s.failStep
      t.boot.failedStep = n ∧ t.boot.fails = s.boot.fails + 1
      ∧ (s.boot.fails = 0 → t.boot.step = 2 ∧ t.boot.resetCause = 4 ∧ t.str = {} ∧ t.st = {} ∧ t.boot.hold = false)
      ∧ (s.boot.fails ≠ 0 → t.boot.step = 0 ∧ t.boot.hold = true ∧ t.str = s.str)
      ∧ (((2 ≤ n ∧ n ≤ 6) ∨ n = 9) → exec .startupStepFail s = .next t)
      ∧ (¬((2 ≤ n ∧ n ≤ 6) ∨ n = 9) → exec .startupStepFail s = .next s))
  ∧ (∀ (qs : List Nat) (s : State), (s.dropSquares qs).boot = s.boot ∧ (s.dropSquares qs).str = s.str
      ∧ ∀ q, (q ∈ qs → Tbl.getD (s.dropSquares qs).rb.sqOut 0 q = 1 ∧ (0x5000, [2, q]) ∈ (s.dropSquares qs).ctl.conditions)
        ∧ (q ∉ qs → Tbl.getD (s.dropSquares qs).rb.sqOut 0 q = Tbl.getD s.rb.sqOut 0 q))
  ∧ (∀ (r : StepResult) (s : State), let n := s.boot.step; let bad := (dedup r.badSquares).filter (· < 8)
      (n = 0 ∨ 10 ≤ n → exec (.startupStepDone r) s = .next s)
      ∧ (n = 1 → s.pw.pgMod = false → exec (.startupStepDone r) s = .next s)
      ∧ (n = 1 → s.pw.pgMod = true → Completes (.startupStepDone r) s fun t => t.boot.step = 2 ∧ t.pw.holdupOk = r.holdup
          ∧ (r.holdup = false → (0x3100, [5, 0]) ∈ t.ctl.conditions) ∧ (r.holdup = true → (0x3100, [5, 0]) ∉ t.ctl.conditions))
      ∧ (n = 2 → Completes (.startupStepDone r) s fun t => t.boot.step = 3 ∧ t.boot.pllLocked = true ∧ ∀ q, q < 4 → t.quarterOn q = true)
      ∧ (n = 3 → let u := s.modBoot fun b => { b with bankA := s.judgeBank b.bankA, bankB := s.judgeBank b.bankB }
          (u.chooseBank = none → exec (.startupStepDone r) s = .next u.failStep)
          ∧ ∀ k, u.chooseBank = some k → Completes (.startupStepDone r) s fun t => t.boot.step = 4 ∧ t.boot.runningBank = k ∧ t.boot.runningDigest = (u.bank k).digest
              ∧ u.bankAccepted (u.bank k) = true ∧ t.boot.bankA = s.judgeBank s.boot.bankA ∧ t.boot.bankB = s.judgeBank s.boot.bankB)
      ∧ (n = 4 → Completes (.startupStepDone r) s fun t => t.boot.step = 5 ∧ t.boot.engDiv = 4
          ∧ ∀ q, q < 8 → (t.cal q).point = (match Tbl.get? s.boot.recorded q with | some x => x.1 | none => (s.cal q).fusePoint))
      ∧ (n = 5 → Completes (.startupStepDone r) s fun t => t.boot.step = 6 ∧ ∀ k, k < 4 → t.domain (86 + k) = 2)
      ∧ (n = 6 → let u := s.dropSquares bad
          (u.squaresLeft.length < 4 → exec (.startupStepDone r) s = .next u.failStep)
          ∧ (4 ≤ u.squaresLeft.length → Completes (.startupStepDone r) s fun t => t.boot.step = 7 ∧ (∀ q, q < 32 → t.quarterOn q = true)
              ∧ (∀ q ∈ u.squaresLeft, Tbl.getD t.rb.sqOut 0 q = 2) ∧ ∀ q ∈ bad, Tbl.getD t.rb.sqOut 0 q = 1))
      ∧ (n = 7 → Completes (.startupStepDone r) s fun t => t.boot.step = 8 ∧ t.domain 90 = 5)
      ∧ (n = 8 → Completes (.startupStepDone r) s fun t => t.boot.step = 9)
      ∧ (n = 9 → let failed := bad.filter fun q => s.squaresLeft.contains q; let u := (s.dropSquares failed).addObj 0x4200 6 failed.length
          (u.squaresLeft.length < 4 → exec (.startupStepDone r) s = .next u.failStep)
          ∧ (4 ≤ u.squaresLeft.length → Completes (.startupStepDone r) s fun t => t.boot.step = 10 ∧ t.boot.startupMs = r.ms % 2 ^ 32
              ∧ (t.ctl.nmt = .operational ∨ t.ctl.nmt = .preop) ∧ (t.ctl.nmt = .operational ↔ t.obj 0x2001 4 = 1) ∧ t.pw.railFaults = 0
              ∧ (∀ q ∈ u.squaresLeft, Tbl.getD t.rb.sqOut 0 q = 0) ∧ ∀ q ∈ failed, Tbl.getD t.rb.sqOut 0 q = 1)))

/-- SENSOR_READ without 21 readings changes nothing; else every sensor takes its reading, an implausible one leaves
acceptance, one that is accepted stays so, and one that is not comes back after 10,000 plausible readings; an exclusion
counts. THERMAL_TICK raises the thermal level by one, to 6 at most, where θ is at THROTTLE_START or a stack at 95 °C;
takes it down after 100 ms below both release points; sets it to 6 at 100 °C; chooses the stacks that refresh at twice the
rate; sets CK_ENG to the level; and holds or ends the two conditions 0x4200. THERMAL_TRIP at 105 °C powers a powered
device down, and else changes nothing. POWER_LOOP_TICK stores the average and raises the power level above POWER_LIMIT,
lowers it after 100 ms below 95 % of it, and leaves it between; CK_ENG follows the greater level. LIMIT_UNMET_EXPIRY sets
and counts LIMIT_UNMET at level 6 above the limit, and else changes nothing. -/
def Obligations.TemperatureAndPowerSetTheLevel : Prop :=
  (∀ (temps : List Int) (s : State),
      (temps.length ≠ 21 → exec (.sensorRead temps) s = .next s)
      ∧ (temps.length = 21 → Completes (.sensorRead temps) s fun t => (∀ i, i < 21 →
          let old := s.sensor i
          let v := temps.getD i 0
          t.sensor i = if implausible (fun k => temps.getD k 0) i old = true then { last := v, seen := true, ok := false, good := 0 }
            else if old.ok = true then { last := v, seen := true, ok := true, good := 0 }
            else { last := v, seen := true, ok := decide (9999 ≤ old.good), good := if 9999 ≤ old.good then 0 else old.good + 1 }) ∧ t.str = s.str ∧ t.boot = s.boot))
  ∧ (∀ (f : Nat → Int) (i : Nat) (s : State), (implausible f i (s.sensor i) = true ∧ (s.sensor i).ok = true → (s.readSensor f i).obj 0x2300 0xA = (s.obj 0x2300 0xA + 1) % 2 ^ 32)
      ∧ (implausible f i (s.sensor i) = false ∨ (s.sensor i).ok = false → (s.readSensor f i).obj 0x2300 0xA = s.obj 0x2300 0xA))
  ∧ (∀ s : State,
      let θ := s.theta
      let start : Int := signedOf 16 (s.obj 0x2300 5)
      let hot := atLeast θ start = true ∨ ∃ k, k < 4 ∧ atLeast (s.stackTemp k) 950 = true
      let cool := atLeast θ (start - 30) = false ∧ ∀ k, k < 4 → atLeast (s.stackTemp k) 920 = false
      Completes .thermalTick s fun t =>
        (atLeast θ 1000 = true → t.pw.levelT = 6) ∧ (atLeast θ 1000 = false → hot → t.pw.levelT = Nat.min 6 (s.pw.levelT + 1))
        ∧ (atLeast θ 1000 = false → ¬hot → cool ∧ 99 ≤ s.pw.coolMs → t.pw.levelT = s.pw.levelT - 1)
        ∧ (atLeast θ 1000 = false → ¬hot → ¬(cool ∧ 99 ≤ s.pw.coolMs) → t.pw.levelT = s.pw.levelT)
        ∧ t.pw.levelP = s.pw.levelP ∧ (4 < s.boot.step → t.boot.engDiv = levelDiv (Nat.max s.pw.levelP t.pw.levelT)) ∧ (s.boot.step ≤ 4 → t.boot = s.boot)
        ∧ (0 < t.pw.levelT → (0x4200, [1, 0]) ∈ t.ctl.conditions) ∧ (t.pw.levelT = 0 → ∀ m, nthD m 0 = 1 → (0x4200, m) ∉ t.ctl.conditions)
        ∧ (atLeast θ 1000 = true → (0x4200, [2, 0]) ∈ t.ctl.conditions) ∧ (atLeast θ 970 = false → ∀ m, nthD m 0 = 2 → (0x4200, m) ∉ t.ctl.conditions) ∧ t.str = s.str)
  ∧ (∀ s : State, (s.powered = true ∧ atLeast s.theta 1050 = true → Completes .thermalTrip s fun t => s.poweredDown t .thermal 2 ∧ (0x4200, [2, 0]) ∈ t.ctl.conditions)
      ∧ (s.powered = false ∨ atLeast s.theta 1050 = false → exec .thermalTrip s = .next s))
  ∧ (∀ (dw : Nat) (s : State), let limit := s.obj 0x2111 0
      Completes (.powerLoopTick dw) s fun t => t.pw.powerDw = dw ∧ t.pw.levelT = s.pw.levelT
        ∧ (10 * limit < dw → t.pw.levelP = Nat.min 6 (s.pw.levelP + 1) ∧ t.pw.lowMs = 0)
        ∧ (dw ≤ 10 * limit → 950 * limit ≤ 100 * dw → t.pw.levelP = s.pw.levelP ∧ t.pw.lowMs = 0)
        ∧ (dw ≤ 10 * limit → 100 * dw < 950 * limit → 99 ≤ s.pw.lowMs → t.pw.levelP = s.pw.levelP - 1 ∧ t.pw.lowMs = 0)
        ∧ (dw ≤ 10 * limit → 100 * dw < 950 * limit → s.pw.lowMs < 99 → t.pw.levelP = s.pw.levelP ∧ t.pw.lowMs = s.pw.lowMs + 1)
        ∧ (4 < s.boot.step → t.boot.engDiv = levelDiv (Nat.max t.pw.levelP s.pw.levelT)) ∧ (s.boot.step ≤ 4 → t.boot = s.boot) ∧ t.str = s.str ∧ t.ctl = s.ctl)
  ∧ (∀ s : State, let unmet := Nat.max s.pw.levelP s.pw.levelT = 6 ∧ 10 * s.obj 0x2111 0 < s.pw.powerDw
      (unmet → Completes .limitUnmetExpiry s fun t => t.obj 0x2116 3 = setBit (s.obj 0x2116 3) 0 true ∧ t.obj 0x2116 4 = (s.obj 0x2116 4 + 1) % 2 ^ 32 ∧ t.pw = s.pw ∧ t.str = s.str)
      ∧ (¬unmet → exec .limitUnmetExpiry s = .next s))

/-- CROCUS_IDLE_EXPIRY starts the change to an automatic Crocus where the device serves under request 0 or 2 with a timer
set, no change under way, no LC stream open, no entry unread and no chunk, and else changes nothing. A wake trigger
outside an automatic Crocus changes nothing; during entry it is remembered, and after entry the device moves to the
requested state. TULIP_ENTRY first takes up a pending request that fits; while the Squares of the mask are busy it changes
nothing more, and then no engine domain of the mask stays ON. SNOWDROP_ENTRY, on the way to Snowdrop with everything
frozen and no command left, takes the PCIe link and domain down, puts HBM in self-refresh, switches every quarter off,
drops resident blocks and remembers the ports; else it changes nothing. SNOWDROP_EXIT brings them back, PCIe in training.
POWER_STATE_CHANGE_DONE without a change does nothing, gates what may be gated and waits while not ready, and else enters
the target, counts, and takes up a waiting request or a remembered wake. SCHEDULE_START saves STATE_REQUEST and writes 4
once a day; SCHEDULE_END writes the saved one back. -/
def Obligations.PowerStatesChangeAsAsked : Prop :=
  (∀ s : State,
      let r := s.obj 0x2112 0
      let lcOpen := ∃ e ∈ s.str.tab, e.2.cfg.cls = 0 ∧ e.2.state ≠ .opening ∧ e.2.state ≠ .closed ∧ e.2.state ≠ .lost
      let unread := ∃ f ∈ s.host.fns, ∃ q ∈ f.2.sq, q.2.enable = true ∧ q.2.head ≠ q.2.tail
      let idle := s.boot.step = 10 ∧ (r = 0 ∨ r = 2) ∧ s.obj 0x2113 0 ≠ 0 ∧ s.pw.changing = false ∧ s.pw.powerState < 3 ∧ s.ctl.nmt ≠ .stopped ∧ ¬lcOpen ∧ ¬unread ∧ s.str.chunks = []
      (¬idle → exec .crocusIdleExpiry s = .next s)
      ∧ (idle → Completes .crocusIdleExpiry s fun t => t.pw.target = 3 ∧ t.pw.changing = true ∧ t.pw.autoCrocus = true ∧ t.pw.wake = false
          ∧ t.pw.powerState = s.pw.powerState ∧ t.str = s.str ∧ t.rb = s.rb))
  ∧ (∀ s : State, (s.pw.autoCrocus = false → exec .crocusWake s = .next s)
      ∧ (s.pw.autoCrocus = true → s.pw.changing = true → Completes .crocusWake s fun t => t.pw.wake = true ∧ t.pw.target = s.pw.target ∧ t.pw.changing = true)
      ∧ (s.pw.autoCrocus = true → s.pw.changing = false → Completes .crocusWake s fun t => t.pw.autoCrocus = false ∧ t.pw.target = requestState (s.obj 0x2112 0)
          ∧ t.pw.changing = decide (s.pw.powerState ≠ requestState (s.obj 0x2112 0)) ∧ t.str = s.str ∧ t.rb = s.rb))
  ∧ (∀ s : State, let takes := s.pw.tulipPending = true ∧ s.pw.changing = false ∧ s.fitsTulip = true
      let may := s.pw.target = 2 ∧ s.pw.changing = true ∧ s.squaresBusy s.pw.tulipMask = false
      (takes → exec .tulipEntry s = exec .tulipEntry (s.toPower 2) ∧ (s.toPower 2).pw.target = 2 ∧ (s.toPower 2).pw.tulipMask = s.obj 0x2114 0)
      ∧ (¬takes → ¬may → exec .tulipEntry s = .next s)
      ∧ (¬takes → may → Completes .tulipEntry s fun t => (∀ e ∈ engineIds s.pw.tulipMask, ∀ d, engineDomain e = some d → t.domain d ≠ 2) ∧ t.str = s.str ∧ t.pw = s.pw))
  ∧ (∀ s : State, let may := s.pw.target = 4 ∧ s.pw.changing = true ∧ s.frozenOut = true ∧ s.rb.cmds = []
      (¬may → exec .snowdropEntry s = .next s)
      ∧ (may → Completes .snowdropEntry s fun t => t.host.linkUp = false ∧ t.domain 90 = 0 ∧ (∀ k, k < 4 → t.domain (86 + k) = 4) ∧ (∀ q, q < 32 → t.domain (quarterDomain q) = 0)
          ∧ (∀ m ∈ t.str.models, m.2.resident = []) ∧ t.pw.snowPorts = ((List.range 7).filter fun p => (s.port p).state != .disabled)
          ∧ t.pw.target = 4 ∧ t.pw.changing = true))
  ∧ (∀ s : State, let may := s.pw.powerState = 4 ∧ s.pw.changing = true ∧ s.pw.target ≠ 4
      (¬may → exec .snowdropExit s = .next s)
      ∧ (may → Completes .snowdropExit s fun t => t.domain 90 = 5 ∧ (∀ k, k < 4 → t.domain (86 + k) = 2) ∧ t.pw.snowPorts = [] ∧ t.pw.target = s.pw.target ∧ t.pw.changing = true
          ∧ ∀ p ∈ s.pw.snowPorts, t.domain (91 + p) = 5))
  ∧ (∀ s : State, let u := s.beginGating
      (s.pw.changing = false → exec .powerStateChangeDone s = .next s)
      ∧ (s.pw.changing = true → u.changeReady = false → exec .powerStateChangeDone s = .next u)
      ∧ (s.pw.changing = true → u.changeReady = true → ∃ t : State, t.pw.powerState = s.pw.target ∧ t.pw.changing = false ∧ t.obj 0x2116 5 = (s.obj 0x2116 5 + 1) % 2 ^ 32 ∧ t.str = s.str
          ∧ (s.pw.waiting = none → s.pw.wake = false → exec .powerStateChangeDone s = .next t)
          ∧ (s.pw.waiting = none → s.pw.wake = true → exec .powerStateChangeDone s = .next t.wakeTrigger)
          ∧ ∀ r, s.pw.waiting = some r → exec .powerStateChangeDone s = .next ((t.modPw fun x => { x with waiting := none }).actRequest r)))
  ∧ (∀ s : State,
      let due := s.boot.step = 10 ∧ s.obj 0x2115 1 = 1 ∧ (s.tm.state = .sourced ∨ s.tm.state = .locked ∨ s.tm.state = .holdover) ∧ s.pw.schedSaved = none ∧ s.pw.schedDay ≠ some s.schedDayNow
      (¬due → exec .scheduleStart s = .next s)
      ∧ (due → Completes .scheduleStart s fun t => t.obj 0x2112 0 = 4 ∧ t.pw.schedSaved = some (s.obj 0x2112 0) ∧ t.pw.schedDay = some s.schedDayNow
          ∧ (s.pw.changing = true → t.pw.waiting = some 4) ∧ (s.pw.changing = false → t.pw.target = 4 ∧ t.pw.changing = decide (s.pw.powerState ≠ 4)))
      ∧ (s.pw.schedSaved = none → exec .scheduleEnd s = .next s)
      ∧ (∀ r, s.pw.schedSaved = some r → Completes .scheduleEnd s fun t => t.obj 0x2112 0 = r ∧ t.pw.schedSaved = none ∧ (s.pw.changing = true → t.pw.waiting = some r)))

/-- WALK_START changes nothing while a condition of R600 fails; else it takes the next Square out at 5 mV less for
qualification, or, at the floor, records its point and ends the walk. QUALIFICATION_DONE changes nothing for a Square
without a qualification or with neither a mismatch nor its counts; a mismatch counts and, in a walk step, is recorded with
the point 15 mV higher, capped, and qualified, and otherwise leaves the Square out with the attempt counted; counts met
take a walk 5 mV further, or record the point after a walk, and return the Square. WALK_ABANDON without a walk changes
nothing, and else ends it and qualifies the Square at the last point that passed, a mismatch being taken first.
QUAL_WINDOW_EXPIRY marks an unmet qualification for the reference set. QUAL_RETRY_TIMER changes nothing for a Square that
is not out, is at the cap or still runs commands; else it qualifies again, 15 mV higher after three attempts.
TEMP_GUARD_EXPIRY raises the point of a cooled Square in service by 15 mV, records it and qualifies it, and else changes
nothing. -/
def Obligations.SquaresQualifyAndWalk : Prop :=
  (∀ s : State, let q := s.boot.walkNext; let c := s.cal q
      (s.mayWalk = false → exec .walkStart s = .next s)
      ∧ (s.mayWalk = true → s.obj 0x4200 3 + 5 ≤ c.point → Completes .walkStart s fun t => t.boot.walkSquare = some q ∧ (t.cal q).point = c.point - 5 ∧ (t.cal q).lastPassed = c.point
          ∧ (t.cal q).stage = .walkStep ∧ (t.cal q).qual = some {} ∧ Tbl.getD t.rb.sqOut 0 q = 2 ∧ (∀ k, k ≠ q → t.cal k = s.cal k) ∧ t.str = s.str)
      ∧ (s.mayWalk = true → c.point < s.obj 0x4200 3 + 5 → Completes .walkStart s fun t => t.boot.walkSquare = none ∧ t.boot.walkNext = (q + 1) % 8 ∧ (t.cal q).point = c.point
          ∧ Tbl.getD t.rb.sqOut 0 q = 0 ∧ Tbl.get? t.boot.recorded q = some (c.point, s.squareTemp q, c.lastFail)))
  ∧ (∀ (square : SquareNo) (s : State), let q := square.val; let c := s.cal q
      (c.qual = none → exec (.qualificationDone square) s = .next s)
      ∧ ∀ x, c.qual = some x → (x.mismatch = false → x.met = false → exec (.qualificationDone square) s = .next s)
        ∧ (x.mismatch = true → Completes (.qualificationDone square) s fun t => t = s.qualFail q ∧ t.obj 0x4200 6 = (s.obj 0x4200 6 + 1) % 2 ^ 32
            ∧ (c.stage = .walkStep → (t.cal q).lastFail = c.point ∧ (t.cal q).point = Nat.min 850 (c.point + 15) ∧ (t.cal q).stage = .walkFinal ∧ (t.cal q).qual = some {} ∧ Tbl.getD t.rb.sqOut 0 q = 2)
            ∧ (c.stage ≠ .walkStep → (t.cal q).qual = none ∧ (t.cal q).point = c.point ∧ (t.cal q).attempts = c.attempts + 1 ∧ (t.cal q).capped = decide (850 ≤ c.point)
                ∧ Tbl.getD t.rb.sqOut 0 q = 1 ∧ (0x5000, [2, q]) ∈ t.ctl.conditions) ∧ (c.stage = .walkFinal → t.boot.walkSquare = none))
        ∧ (x.mismatch = false → x.met = true → Completes (.qualificationDone square) s fun t =>
            (c.stage = .walkStep → s.obj 0x4200 3 + 5 ≤ c.point → (t.cal q).point = c.point - 5 ∧ (t.cal q).lastPassed = c.point ∧ (t.cal q).qual = some {} ∧ Tbl.getD t.rb.sqOut 0 q = 2)
            ∧ (c.stage = .walkStep → c.point < s.obj 0x4200 3 + 5 → (t.cal q).point = c.point ∧ Tbl.getD t.rb.sqOut 0 q = 0 ∧ t.boot.walkSquare = none)
            ∧ (c.stage = .walkFinal → Tbl.getD t.rb.sqOut 0 q = 0 ∧ t.boot.walkSquare = none ∧ Tbl.get? t.boot.recorded q = some (c.point, s.squareTemp q, c.lastFail))
            ∧ (c.stage = .qualifying → Tbl.getD t.rb.sqOut 0 q = 0 ∧ (t.cal q).qual = none ∧ (t.cal q).point = c.point ∧ t.boot.walkSquare = s.boot.walkSquare ∧ (0x5000, [2, q]) ∉ t.ctl.conditions)))
  ∧ (∀ s : State, (s.boot.walkSquare = none → exec .walkAbandon s = .next s)
      ∧ ∀ q, s.boot.walkSquare = some q → let u := if ((s.cal q).qual.map (·.mismatch)).getD false = true then s.qualFail q else s
          (u.boot.walkSquare ≠ some q → exec .walkAbandon s = .next u)
          ∧ (u.boot.walkSquare = some q → Completes .walkAbandon s fun t => t.boot.walkSquare = none ∧ t.boot.walkNext = (q + 1) % 8 ∧ (t.cal q).stage = .qualifying ∧ (t.cal q).qual = some {}
              ∧ Tbl.getD t.rb.sqOut 0 q = 2 ∧ (t.cal q).point = if (u.cal q).stage = .walkFinal then (u.cal q).point else (u.cal q).lastPassed))
  ∧ (∀ (square : SquareNo) (s : State), let q := square.val; let c := s.cal q
      (Completes (.qualWindowExpiry square) s fun t => t.cal q = { c with qual := c.qual.map fun x => if x.met then x else { x with refSet := true } } ∧ (∀ k, k ≠ q → t.cal k = s.cal k) ∧ t.rb = s.rb)
      ∧ (Tbl.getD s.rb.sqOut 0 q ≠ 1 ∨ c.capped = true ∨ s.boot.step ≠ 10 ∨ s.squaresBusy (2 ^ q) = true → exec (.qualRetryTimer square) s = .next s)
      ∧ (Tbl.getD s.rb.sqOut 0 q = 1 → c.capped = false → s.boot.step = 10 → s.squaresBusy (2 ^ q) = false → Completes (.qualRetryTimer square) s fun t =>
          (t.cal q).stage = .qualifying ∧ (t.cal q).qual = some {} ∧ Tbl.getD t.rb.sqOut 0 q = 2
          ∧ (t.cal q).point = (if 3 ≤ c.attempts then Nat.min 850 (c.point + 15) else c.point) ∧ (t.cal q).attempts = (if 3 ≤ c.attempts then 0 else c.attempts))
      ∧ (let due := s.boot.step = 10 ∧ Tbl.getD s.rb.sqOut 0 q = 0 ∧ s.cooled q = true
         (¬due → exec (.tempGuardExpiry square) s = .next s)
         ∧ (due → Completes (.tempGuardExpiry square) s fun t => (t.cal q).point = Nat.min 850 (c.point + 15) ∧ (t.cal q).lastPassed = Nat.min 850 (c.point + 15) ∧ (t.cal q).stage = .qualifying
             ∧ (t.cal q).qual = some {} ∧ Tbl.getD t.rb.sqOut 0 q = 2 ∧ Tbl.get? t.boot.recorded q = some (Nat.min 850 (c.point + 15), s.squareTemp q, c.lastFail))))
end

