-- ==== Sys2Proof/Laws/Frame.lean ====
section
/-! SUPPORT. Footprints: the parts of the state that an operation may change, as a mask with one bit per `StatePart`, in the order
of its constructors. -/

namespace Sys2Proof.Machine

-- One proof at a time: proofs elaborated side by side wait on shared realisations, one thread each, and run out of threads.
set_option Elab.async false

/-- Every part of the mask `k` is in the mask `m`. -/
abbrev Covers (k m : Nat) : Prop := k &&& m = k

theorem Covers.refl (k : Nat) : Covers k k := Nat.and_self k

theorem Covers.off {k m i : Nat} (h : Covers k m) (e : m.testBit i = false) : k.testBit i = false := by
  rw [← h, Nat.testBit_and, e, Bool.and_false]

theorem Covers.mono {j k m : Nat} (h : Covers k m) (e : Covers j k) : Covers j m := by
  unfold Covers at *
  rw [← e, Nat.and_assoc, h]

/-- `Store` outside a mask stands as it was. -/
structure StoreFrame (k : Nat) (a b : Store) : Prop where
  sp : k.testBit 1 = false → b.sp = a.sp
  spErr : k.testBit 2 = false → b.spErr = a.spErr
  tags : k.testBit 3 = false → b.tags = a.tags
  handles : k.testBit 4 = false → b.handles = a.handles
  gather : k.testBit 5 = false → b.gather = a.gather
  acc : k.testBit 6 = false → b.acc = a.acc
  accErr : k.testBit 2 = false → b.accErr = a.accErr
  tileTags : k.testBit 7 = false → b.tileTags = a.tileTags
  hbm : k.testBit 8 = false → b.hbm = a.hbm
  hbmErr : k.testBit 2 = false → b.hbmErr = a.hbmErr
  ctl : k.testBit 9 = false → b.ctl = a.ctl
  ctlView : k.testBit 9 = false → b.ctlView = a.ctlView
  core : k.testBit 10 = false → b.core = a.core
  scrubNext : k.testBit 11 = false → b.scrubNext = a.scrubNext
  closingSince : k.testBit 11 = false → b.closingSince = a.closingSince

@[refl] theorem StoreFrame.refl (k : Nat) (a : Store) : StoreFrame k a a := by
  constructor <;> exact fun _ => rfl

theorem StoreFrame.trans {k : Nat} {a b c : Store} (h : StoreFrame k a b) (g : StoreFrame k b c) : StoreFrame k a c :=
  ⟨fun e => (g.sp e).trans (h.sp e), fun e => (g.spErr e).trans (h.spErr e), fun e => (g.tags e).trans (h.tags e),
    fun e => (g.handles e).trans (h.handles e), fun e => (g.gather e).trans (h.gather e),
    fun e => (g.acc e).trans (h.acc e), fun e => (g.accErr e).trans (h.accErr e),
    fun e => (g.tileTags e).trans (h.tileTags e), fun e => (g.hbm e).trans (h.hbm e),
    fun e => (g.hbmErr e).trans (h.hbmErr e), fun e => (g.ctl e).trans (h.ctl e),
    fun e => (g.ctlView e).trans (h.ctlView e), fun e => (g.core e).trans (h.core e),
    fun e => (g.scrubNext e).trans (h.scrubNext e), fun e => (g.closingSince e).trans (h.closingSince e)⟩

theorem StoreFrame.mono {j k : Nat} {a b : Store} (h : StoreFrame j a b) (q : Covers j k) : StoreFrame k a b :=
  ⟨fun e => h.sp (q.off e), fun e => h.spErr (q.off e), fun e => h.tags (q.off e), fun e => h.handles (q.off e),
    fun e => h.gather (q.off e), fun e => h.acc (q.off e), fun e => h.accErr (q.off e), fun e => h.tileTags (q.off e),
    fun e => h.hbm (q.off e), fun e => h.hbmErr (q.off e), fun e => h.ctl (q.off e), fun e => h.ctlView (q.off e),
    fun e => h.core (q.off e), fun e => h.scrubNext (q.off e), fun e => h.closingSince (q.off e)⟩

/-- `Roundabout` outside a mask stands as it was. -/
structure RoundaboutFrame (k : Nat) (a b : Roundabout) : Prop where
  live : k.testBit 13 = false → b.live = a.live
  cmds : k.testBit 12 = false → b.cmds = a.cmds
  nextSeq : k.testBit 12 = false → b.nextSeq = a.nextSeq
  lastCore : k.testBit 15 = false → b.lastCore = a.lastCore
  report : k.testBit 15 = false → b.report = a.report
  run : k.testBit 16 = false → b.run = a.run
  ptr : k.testBit 16 = false → b.ptr = a.ptr
  deficit : k.testBit 16 = false → b.deficit = a.deficit
  batches : k.testBit 17 = false → b.batches = a.batches
  mail : k.testBit 18 = false → b.mail = a.mail
  heldMail : k.testBit 18 = false → b.heldMail = a.heldMail
  mailCap : k.testBit 18 = false → b.mailCap = a.mailCap
  bucket : k.testBit 19 = false → b.bucket = a.bucket
  charges : k.testBit 19 = false → b.charges = a.charges
  engCtr : k.testBit 20 = false → b.engCtr = a.engCtr
  domain : k.testBit 21 = false → b.domain = a.domain
  sqFaults : k.testBit 22 = false → b.sqFaults = a.sqFaults
  sqOut : k.testBit 22 = false → b.sqOut = a.sqOut
  orphans : k.testBit 14 = false → b.orphans = a.orphans
  cancelled : k.testBit 14 = false → b.cancelled = a.cancelled

@[refl] theorem RoundaboutFrame.refl (k : Nat) (a : Roundabout) : RoundaboutFrame k a a := by
  constructor <;> exact fun _ => rfl

theorem RoundaboutFrame.trans {k : Nat} {a b c : Roundabout} (h : RoundaboutFrame k a b) (g : RoundaboutFrame k b c) : RoundaboutFrame k a c :=
  ⟨fun e => (g.live e).trans (h.live e), fun e => (g.cmds e).trans (h.cmds e),
    fun e => (g.nextSeq e).trans (h.nextSeq e), fun e => (g.lastCore e).trans (h.lastCore e),
    fun e => (g.report e).trans (h.report e), fun e => (g.run e).trans (h.run e), fun e => (g.ptr e).trans (h.ptr e),
    fun e => (g.deficit e).trans (h.deficit e), fun e => (g.batches e).trans (h.batches e),
    fun e => (g.mail e).trans (h.mail e), fun e => (g.heldMail e).trans (h.heldMail e),
    fun e => (g.mailCap e).trans (h.mailCap e), fun e => (g.bucket e).trans (h.bucket e),
    fun e => (g.charges e).trans (h.charges e), fun e => (g.engCtr e).trans (h.engCtr e),
    fun e => (g.domain e).trans (h.domain e), fun e => (g.sqFaults e).trans (h.sqFaults e),
    fun e => (g.sqOut e).trans (h.sqOut e), fun e => (g.orphans e).trans (h.orphans e),
    fun e => (g.cancelled e).trans (h.cancelled e)⟩

theorem RoundaboutFrame.mono {j k : Nat} {a b : Roundabout} (h : RoundaboutFrame j a b) (q : Covers j k) : RoundaboutFrame k a b :=
  ⟨fun e => h.live (q.off e), fun e => h.cmds (q.off e), fun e => h.nextSeq (q.off e), fun e => h.lastCore (q.off e),
    fun e => h.report (q.off e), fun e => h.run (q.off e), fun e => h.ptr (q.off e), fun e => h.deficit (q.off e),
    fun e => h.batches (q.off e), fun e => h.mail (q.off e), fun e => h.heldMail (q.off e),
    fun e => h.mailCap (q.off e), fun e => h.bucket (q.off e), fun e => h.charges (q.off e),
    fun e => h.engCtr (q.off e), fun e => h.domain (q.off e), fun e => h.sqFaults (q.off e),
    fun e => h.sqOut (q.off e), fun e => h.orphans (q.off e), fun e => h.cancelled (q.off e)⟩

/-- `Pages` outside a mask stands as it was. -/
structure PagesFrame (k : Nat) (a b : Pages) : Prop where
  poolBase : k.testBit 23 = false → b.poolBase = a.poolBase
  spill : k.testBit 24 = false → b.spill = a.spill
  spillBad : k.testBit 24 = false → b.spillBad = a.spillBad
  spillStack : k.testBit 24 = false → b.spillStack = a.spillStack
  seqs : k.testBit 23 = false → b.seqs = a.seqs
  reserveFrames : k.testBit 23 = false → b.reserveFrames = a.reserveFrames
  nodes : k.testBit 25 = false → b.nodes = a.nodes
  nextNode : k.testBit 25 = false → b.nextNode = a.nextNode

@[refl] theorem PagesFrame.refl (k : Nat) (a : Pages) : PagesFrame k a a := by
  constructor <;> exact fun _ => rfl

theorem PagesFrame.trans {k : Nat} {a b c : Pages} (h : PagesFrame k a b) (g : PagesFrame k b c) : PagesFrame k a c :=
  ⟨fun e => (g.poolBase e).trans (h.poolBase e), fun e => (g.spill e).trans (h.spill e),
    fun e => (g.spillBad e).trans (h.spillBad e), fun e => (g.spillStack e).trans (h.spillStack e),
    fun e => (g.seqs e).trans (h.seqs e), fun e => (g.reserveFrames e).trans (h.reserveFrames e),
    fun e => (g.nodes e).trans (h.nodes e), fun e => (g.nextNode e).trans (h.nextNode e)⟩

theorem PagesFrame.mono {j k : Nat} {a b : Pages} (h : PagesFrame j a b) (q : Covers j k) : PagesFrame k a b :=
  ⟨fun e => h.poolBase (q.off e), fun e => h.spill (q.off e), fun e => h.spillBad (q.off e),
    fun e => h.spillStack (q.off e), fun e => h.seqs (q.off e), fun e => h.reserveFrames (q.off e),
    fun e => h.nodes (q.off e), fun e => h.nextNode (q.off e)⟩

/-- `Streams` outside a mask stands as it was. -/
structure StreamsFrame (k : Nat) (a b : Streams) : Prop where
  tab : k.testBit 26 = false → b.tab = a.tab
  epoch : k.testBit 26 = false → b.epoch = a.epoch
  chunks : k.testBit 27 = false → b.chunks = a.chunks
  mirror : k.testBit 28 = false → b.mirror = a.mirror
  models : k.testBit 29 = false → b.models = a.models
  batches : k.testBit 30 = false → b.batches = a.batches
  log : k.testBit 31 = false → b.log = a.log
  waiting : k.testBit 32 = false → b.waiting = a.waiting
  missSecond : k.testBit 33 = false → b.missSecond = a.missSecond
  workRowsFree : k.testBit 30 = false → b.workRowsFree = a.workRowsFree
  useClock : k.testBit 33 = false → b.useClock = a.useClock

@[refl] theorem StreamsFrame.refl (k : Nat) (a : Streams) : StreamsFrame k a a := by
  constructor <;> exact fun _ => rfl

theorem StreamsFrame.trans {k : Nat} {a b c : Streams} (h : StreamsFrame k a b) (g : StreamsFrame k b c) : StreamsFrame k a c :=
  ⟨fun e => (g.tab e).trans (h.tab e), fun e => (g.epoch e).trans (h.epoch e),
    fun e => (g.chunks e).trans (h.chunks e), fun e => (g.mirror e).trans (h.mirror e),
    fun e => (g.models e).trans (h.models e), fun e => (g.batches e).trans (h.batches e),
    fun e => (g.log e).trans (h.log e), fun e => (g.waiting e).trans (h.waiting e),
    fun e => (g.missSecond e).trans (h.missSecond e), fun e => (g.workRowsFree e).trans (h.workRowsFree e),
    fun e => (g.useClock e).trans (h.useClock e)⟩

theorem StreamsFrame.mono {j k : Nat} {a b : Streams} (h : StreamsFrame j a b) (q : Covers j k) : StreamsFrame k a b :=
  ⟨fun e => h.tab (q.off e), fun e => h.epoch (q.off e), fun e => h.chunks (q.off e), fun e => h.mirror (q.off e),
    fun e => h.models (q.off e), fun e => h.batches (q.off e), fun e => h.log (q.off e), fun e => h.waiting (q.off e),
    fun e => h.missSecond (q.off e), fun e => h.workRowsFree (q.off e), fun e => h.useClock (q.off e)⟩

/-- `HostIf` outside a mask stands as it was. -/
structure HostIfFrame (k : Nat) (a b : HostIf) : Prop where
  fsq : k.testBit 34 = false → ∀ p, (Tbl.getD b.fns {} p).sq = (Tbl.getD a.fns {} p).sq
  foq : k.testBit 35 = false → ∀ p, (Tbl.getD b.fns {} p).oq = (Tbl.getD a.fns {} p).oq
  fmbx : k.testBit 36 = false → ∀ p, (Tbl.getD b.fns {} p).mbx = (Tbl.getD a.fns {} p).mbx
  ffnctl : k.testBit 37 = false → ∀ p, (Tbl.getD b.fns {} p).controls = (Tbl.getD a.fns {} p).controls
  numVfs : k.testBit 39 = false → b.numVfs = a.numVfs
  linkUp : k.testBit 39 = false → b.linkUp = a.linkUp
  linkRate : k.testBit 39 = false → b.linkRate = a.linkRate
  linkWidth : k.testBit 39 = false → b.linkWidth = a.linkWidth
  perstReleased : k.testBit 39 = false → b.perstReleased = a.perstReleased
  mem : k.testBit 38 = false → b.mem = a.mem
  windowData : k.testBit 40 = false → b.windowData = a.windowData

@[refl] theorem HostIfFrame.refl (k : Nat) (a : HostIf) : HostIfFrame k a a := by
  constructor <;> first | exact fun _ => rfl | exact fun _ _ => rfl

theorem HostIfFrame.trans {k : Nat} {a b c : HostIf} (h : HostIfFrame k a b) (g : HostIfFrame k b c) : HostIfFrame k a c :=
  ⟨fun e p => (g.fsq e p).trans (h.fsq e p), fun e p => (g.foq e p).trans (h.foq e p),
    fun e p => (g.fmbx e p).trans (h.fmbx e p), fun e p => (g.ffnctl e p).trans (h.ffnctl e p),
    fun e => (g.numVfs e).trans (h.numVfs e), fun e => (g.linkUp e).trans (h.linkUp e),
    fun e => (g.linkRate e).trans (h.linkRate e), fun e => (g.linkWidth e).trans (h.linkWidth e),
    fun e => (g.perstReleased e).trans (h.perstReleased e), fun e => (g.mem e).trans (h.mem e),
    fun e => (g.windowData e).trans (h.windowData e)⟩

theorem HostIfFrame.mono {j k : Nat} {a b : HostIf} (h : HostIfFrame j a b) (q : Covers j k) : HostIfFrame k a b :=
  ⟨fun e => h.fsq (q.off e), fun e => h.foq (q.off e), fun e => h.fmbx (q.off e), fun e => h.ffnctl (q.off e),
    fun e => h.numVfs (q.off e), fun e => h.linkUp (q.off e), fun e => h.linkRate (q.off e),
    fun e => h.linkWidth (q.off e), fun e => h.perstReleased (q.off e), fun e => h.mem (q.off e),
    fun e => h.windowData (q.off e)⟩

/-- `Crossings` outside a mask stands as it was. -/
structure CrossingsFrame (k : Nat) (a b : Crossings) : Prop where
  devId : k.testBit 41 = false → b.devId = a.devId
  strapBad : k.testBit 41 = false → b.strapBad = a.strapBad
  ports : k.testBit 42 = false → b.ports = a.ports
  rxDescs : k.testBit 43 = false → b.rxDescs = a.rxDescs
  grants : k.testBit 44 = false → b.grants = a.grants
  ops : k.testBit 45 = false → b.ops = a.ops
  migs : k.testBit 46 = false → b.migs = a.migs
  walks : k.testBit 47 = false → b.walks = a.walks
  peerTables : k.testBit 47 = false → b.peerTables = a.peerTables
  peerPages : k.testBit 47 = false → b.peerPages = a.peerPages

@[refl] theorem CrossingsFrame.refl (k : Nat) (a : Crossings) : CrossingsFrame k a a := by
  constructor <;> exact fun _ => rfl

theorem CrossingsFrame.trans {k : Nat} {a b c : Crossings} (h : CrossingsFrame k a b) (g : CrossingsFrame k b c) : CrossingsFrame k a c :=
  ⟨fun e => (g.devId e).trans (h.devId e), fun e => (g.strapBad e).trans (h.strapBad e),
    fun e => (g.ports e).trans (h.ports e), fun e => (g.rxDescs e).trans (h.rxDescs e),
    fun e => (g.grants e).trans (h.grants e), fun e => (g.ops e).trans (h.ops e),
    fun e => (g.migs e).trans (h.migs e), fun e => (g.walks e).trans (h.walks e),
    fun e => (g.peerTables e).trans (h.peerTables e), fun e => (g.peerPages e).trans (h.peerPages e)⟩

theorem CrossingsFrame.mono {j k : Nat} {a b : Crossings} (h : CrossingsFrame j a b) (q : Covers j k) : CrossingsFrame k a b :=
  ⟨fun e => h.devId (q.off e), fun e => h.strapBad (q.off e), fun e => h.ports (q.off e),
    fun e => h.rxDescs (q.off e), fun e => h.grants (q.off e), fun e => h.ops (q.off e), fun e => h.migs (q.off e),
    fun e => h.walks (q.off e), fun e => h.peerTables (q.off e), fun e => h.peerPages (q.off e)⟩

/-- `Timebase` outside a mask stands as it was. -/
structure TimebaseFrame (k : Nat) (a b : Timebase) : Prop where
  t : k.testBit 48 = false → b.t = a.t
  cycles : k.testBit 48 = false → b.cycles = a.cycles
  state : k.testBit 49 = false → b.state = a.state
  e : k.testBit 49 = false → b.e = a.e
  r : k.testBit 49 = false → b.r = a.r
  oPrev : k.testBit 49 = false → b.oPrev = a.oPrev
  refSince : k.testBit 49 = false → b.refSince = a.refSince
  refSource : k.testBit 49 = false → b.refSource = a.refSource
  stepped : k.testBit 49 = false → b.stepped = a.stepped
  ppsValid : k.testBit 49 = false → b.ppsValid = a.ppsValid
  ppsLastEdge : k.testBit 49 = false → b.ppsLastEdge = a.ppsLastEdge
  ppsAccepted : k.testBit 49 = false → b.ppsAccepted = a.ppsAccepted
  ppsPhase : k.testBit 49 = false → b.ppsPhase = a.ppsPhase
  heard : k.testBit 49 = false → b.heard = a.heard
  master : k.testBit 49 = false → b.master = a.master
  exchNo : k.testBit 49 = false → b.exchNo = a.exchNo
  exch : k.testBit 49 = false → b.exch = a.exch
  holdSince : k.testBit 49 = false → b.holdSince = a.holdSince
  masterHold : k.testBit 49 = false → b.masterHold = a.masterHold
  holdS : k.testBit 49 = false → b.holdS = a.holdS
  refusedReported : k.testBit 49 = false → b.refusedReported = a.refusedReported
  offsetNs : k.testBit 49 = false → b.offsetNs = a.offsetNs
  lastStepNs : k.testBit 49 = false → b.lastStepNs = a.lastStepNs

@[refl] theorem TimebaseFrame.refl (k : Nat) (a : Timebase) : TimebaseFrame k a a := by
  constructor <;> exact fun _ => rfl

theorem TimebaseFrame.trans {k : Nat} {a b c : Timebase} (h : TimebaseFrame k a b) (g : TimebaseFrame k b c) : TimebaseFrame k a c :=
  ⟨fun e => (g.t e).trans (h.t e), fun e => (g.cycles e).trans (h.cycles e), fun e => (g.state e).trans (h.state e),
    fun e => (g.e e).trans (h.e e), fun e => (g.r e).trans (h.r e), fun e => (g.oPrev e).trans (h.oPrev e),
    fun e => (g.refSince e).trans (h.refSince e), fun e => (g.refSource e).trans (h.refSource e),
    fun e => (g.stepped e).trans (h.stepped e), fun e => (g.ppsValid e).trans (h.ppsValid e),
    fun e => (g.ppsLastEdge e).trans (h.ppsLastEdge e), fun e => (g.ppsAccepted e).trans (h.ppsAccepted e),
    fun e => (g.ppsPhase e).trans (h.ppsPhase e), fun e => (g.heard e).trans (h.heard e),
    fun e => (g.master e).trans (h.master e), fun e => (g.exchNo e).trans (h.exchNo e),
    fun e => (g.exch e).trans (h.exch e), fun e => (g.holdSince e).trans (h.holdSince e),
    fun e => (g.masterHold e).trans (h.masterHold e), fun e => (g.holdS e).trans (h.holdS e),
    fun e => (g.refusedReported e).trans (h.refusedReported e), fun e => (g.offsetNs e).trans (h.offsetNs e),
    fun e => (g.lastStepNs e).trans (h.lastStepNs e)⟩

theorem TimebaseFrame.mono {j k : Nat} {a b : Timebase} (h : TimebaseFrame j a b) (q : Covers j k) : TimebaseFrame k a b :=
  ⟨fun e => h.t (q.off e), fun e => h.cycles (q.off e), fun e => h.state (q.off e), fun e => h.e (q.off e),
    fun e => h.r (q.off e), fun e => h.oPrev (q.off e), fun e => h.refSince (q.off e), fun e => h.refSource (q.off e),
    fun e => h.stepped (q.off e), fun e => h.ppsValid (q.off e), fun e => h.ppsLastEdge (q.off e),
    fun e => h.ppsAccepted (q.off e), fun e => h.ppsPhase (q.off e), fun e => h.heard (q.off e),
    fun e => h.master (q.off e), fun e => h.exchNo (q.off e), fun e => h.exch (q.off e),
    fun e => h.holdSince (q.off e), fun e => h.masterHold (q.off e), fun e => h.holdS (q.off e),
    fun e => h.refusedReported (q.off e), fun e => h.offsetNs (q.off e), fun e => h.lastStepNs (q.off e)⟩

/-- `Ctl` outside a mask stands as it was. -/
structure CtlFrame (k : Nat) (a b : Ctl) : Prop where
  od : k.testBit 50 = false → b.od = a.od
  flashA : k.testBit 51 = false → b.flashA = a.flashA
  flashB : k.testBit 51 = false → b.flashB = a.flashB
  sel : k.testBit 52 = false → b.sel = a.sel
  timeFrac : k.testBit 52 = false → b.timeFrac = a.timeFrac
  faultLog : k.testBit 53 = false → b.faultLog = a.faultLog
  nmt : k.testBit 54 = false → b.nmt = a.nmt
  freezeTo : k.testBit 54 = false → b.freezeTo = a.freezeTo
  nmtWait : k.testBit 54 = false → b.nmtWait = a.nmtWait
  resetPending : k.testBit 54 = false → b.resetPending = a.resetPending
  emcy : k.testBit 55 = false → b.emcy = a.emcy
  conditions : k.testBit 55 = false → b.conditions = a.conditions
  canOut : k.testBit 56 = false → b.canOut = a.canOut
  nodeId : k.testBit 57 = false → b.nodeId = a.nodeId
  nodeSource : k.testBit 57 = false → b.nodeSource = a.nodeSource
  nominalRate : k.testBit 57 = false → b.nominalRate = a.nominalRate
  dataRate : k.testBit 57 = false → b.dataRate = a.dataRate
  emcyAt : k.testBit 58 = false → b.emcyAt = a.emcyAt
  usdo : k.testBit 59 = false → b.usdo = a.usdo
  stage : k.testBit 60 = false → b.stage = a.stage
  tpdo : k.testBit 58 = false → b.tpdo = a.tpdo
  hbLost : k.testBit 61 = false → b.hbLost = a.hbLost
  dbgStrap : k.testBit 62 = false → b.dbgStrap = a.dbgStrap
  tapReset : k.testBit 62 = false → b.tapReset = a.tapReset
  probeJ3 : k.testBit 62 = false → b.probeJ3 = a.probeJ3
  coresDown : k.testBit 63 = false → b.coresDown = a.coresDown
  answers : k.testBit 64 = false → b.answers = a.answers

@[refl] theorem CtlFrame.refl (k : Nat) (a : Ctl) : CtlFrame k a a := by
  constructor <;> exact fun _ => rfl

theorem CtlFrame.trans {k : Nat} {a b c : Ctl} (h : CtlFrame k a b) (g : CtlFrame k b c) : CtlFrame k a c :=
  ⟨fun e => (g.od e).trans (h.od e), fun e => (g.flashA e).trans (h.flashA e),
    fun e => (g.flashB e).trans (h.flashB e), fun e => (g.sel e).trans (h.sel e),
    fun e => (g.timeFrac e).trans (h.timeFrac e), fun e => (g.faultLog e).trans (h.faultLog e),
    fun e => (g.nmt e).trans (h.nmt e), fun e => (g.freezeTo e).trans (h.freezeTo e),
    fun e => (g.nmtWait e).trans (h.nmtWait e), fun e => (g.resetPending e).trans (h.resetPending e),
    fun e => (g.emcy e).trans (h.emcy e), fun e => (g.conditions e).trans (h.conditions e),
    fun e => (g.canOut e).trans (h.canOut e), fun e => (g.nodeId e).trans (h.nodeId e),
    fun e => (g.nodeSource e).trans (h.nodeSource e), fun e => (g.nominalRate e).trans (h.nominalRate e),
    fun e => (g.dataRate e).trans (h.dataRate e), fun e => (g.emcyAt e).trans (h.emcyAt e),
    fun e => (g.usdo e).trans (h.usdo e), fun e => (g.stage e).trans (h.stage e),
    fun e => (g.tpdo e).trans (h.tpdo e), fun e => (g.hbLost e).trans (h.hbLost e),
    fun e => (g.dbgStrap e).trans (h.dbgStrap e), fun e => (g.tapReset e).trans (h.tapReset e),
    fun e => (g.probeJ3 e).trans (h.probeJ3 e), fun e => (g.coresDown e).trans (h.coresDown e),
    fun e => (g.answers e).trans (h.answers e)⟩

theorem CtlFrame.mono {j k : Nat} {a b : Ctl} (h : CtlFrame j a b) (q : Covers j k) : CtlFrame k a b :=
  ⟨fun e => h.od (q.off e), fun e => h.flashA (q.off e), fun e => h.flashB (q.off e), fun e => h.sel (q.off e),
    fun e => h.timeFrac (q.off e), fun e => h.faultLog (q.off e), fun e => h.nmt (q.off e),
    fun e => h.freezeTo (q.off e), fun e => h.nmtWait (q.off e), fun e => h.resetPending (q.off e),
    fun e => h.emcy (q.off e), fun e => h.conditions (q.off e), fun e => h.canOut (q.off e),
    fun e => h.nodeId (q.off e), fun e => h.nodeSource (q.off e), fun e => h.nominalRate (q.off e),
    fun e => h.dataRate (q.off e), fun e => h.emcyAt (q.off e), fun e => h.usdo (q.off e), fun e => h.stage (q.off e),
    fun e => h.tpdo (q.off e), fun e => h.hbLost (q.off e), fun e => h.dbgStrap (q.off e),
    fun e => h.tapReset (q.off e), fun e => h.probeJ3 (q.off e), fun e => h.coresDown (q.off e),
    fun e => h.answers (q.off e)⟩

/-- `Power` outside a mask stands as it was. -/
structure PowerFrame (k : Nat) (a b : Power) : Prop where
  auxPg : k.testBit 65 = false → b.auxPg = a.auxPg
  pgMod : k.testBit 65 = false → b.pgMod = a.pgMod
  vinOk : k.testBit 65 = false → b.vinOk = a.vinOk
  vinWaits : k.testBit 65 = false → b.vinWaits = a.vinWaits
  seqStep : k.testBit 65 = false → b.seqStep = a.seqStep
  railsUp : k.testBit 65 = false → b.railsUp = a.railsUp
  down : k.testBit 65 = false → b.down = a.down
  downCause : k.testBit 65 = false → b.downCause = a.downCause
  railFaults : k.testBit 65 = false → b.railFaults = a.railFaults
  heldOff : k.testBit 65 = false → b.heldOff = a.heldOff
  vinFell : k.testBit 65 = false → b.vinFell = a.vinFell
  holdupOk : k.testBit 65 = false → b.holdupOk = a.holdupOk
  ride : k.testBit 65 = false → b.ride = a.ride
  mon : k.testBit 66 = false → b.mon = a.mon
  powerState : k.testBit 67 = false → b.powerState = a.powerState
  target : k.testBit 67 = false → b.target = a.target
  changing : k.testBit 67 = false → b.changing = a.changing
  waiting : k.testBit 67 = false → b.waiting = a.waiting
  autoCrocus : k.testBit 67 = false → b.autoCrocus = a.autoCrocus
  wake : k.testBit 67 = false → b.wake = a.wake
  tulipPending : k.testBit 67 = false → b.tulipPending = a.tulipPending
  tulipMask : k.testBit 67 = false → b.tulipMask = a.tulipMask
  snowPorts : k.testBit 67 = false → b.snowPorts = a.snowPorts
  powerDw : k.testBit 68 = false → b.powerDw = a.powerDw
  levelP : k.testBit 68 = false → b.levelP = a.levelP
  levelT : k.testBit 68 = false → b.levelT = a.levelT
  lowMs : k.testBit 68 = false → b.lowMs = a.lowMs
  coolMs : k.testBit 68 = false → b.coolMs = a.coolMs
  sensors : k.testBit 69 = false → b.sensors = a.sensors
  fastRefresh : k.testBit 69 = false → b.fastRefresh = a.fastRefresh
  schedSaved : k.testBit 70 = false → b.schedSaved = a.schedSaved
  schedDay : k.testBit 70 = false → b.schedDay = a.schedDay

@[refl] theorem PowerFrame.refl (k : Nat) (a : Power) : PowerFrame k a a := by
  constructor <;> exact fun _ => rfl

theorem PowerFrame.trans {k : Nat} {a b c : Power} (h : PowerFrame k a b) (g : PowerFrame k b c) : PowerFrame k a c :=
  ⟨fun e => (g.auxPg e).trans (h.auxPg e), fun e => (g.pgMod e).trans (h.pgMod e),
    fun e => (g.vinOk e).trans (h.vinOk e), fun e => (g.vinWaits e).trans (h.vinWaits e),
    fun e => (g.seqStep e).trans (h.seqStep e), fun e => (g.railsUp e).trans (h.railsUp e),
    fun e => (g.down e).trans (h.down e), fun e => (g.downCause e).trans (h.downCause e),
    fun e => (g.railFaults e).trans (h.railFaults e), fun e => (g.heldOff e).trans (h.heldOff e),
    fun e => (g.vinFell e).trans (h.vinFell e), fun e => (g.holdupOk e).trans (h.holdupOk e),
    fun e => (g.ride e).trans (h.ride e), fun e => (g.mon e).trans (h.mon e),
    fun e => (g.powerState e).trans (h.powerState e), fun e => (g.target e).trans (h.target e),
    fun e => (g.changing e).trans (h.changing e), fun e => (g.waiting e).trans (h.waiting e),
    fun e => (g.autoCrocus e).trans (h.autoCrocus e), fun e => (g.wake e).trans (h.wake e),
    fun e => (g.tulipPending e).trans (h.tulipPending e), fun e => (g.tulipMask e).trans (h.tulipMask e),
    fun e => (g.snowPorts e).trans (h.snowPorts e), fun e => (g.powerDw e).trans (h.powerDw e),
    fun e => (g.levelP e).trans (h.levelP e), fun e => (g.levelT e).trans (h.levelT e),
    fun e => (g.lowMs e).trans (h.lowMs e), fun e => (g.coolMs e).trans (h.coolMs e),
    fun e => (g.sensors e).trans (h.sensors e), fun e => (g.fastRefresh e).trans (h.fastRefresh e),
    fun e => (g.schedSaved e).trans (h.schedSaved e), fun e => (g.schedDay e).trans (h.schedDay e)⟩

theorem PowerFrame.mono {j k : Nat} {a b : Power} (h : PowerFrame j a b) (q : Covers j k) : PowerFrame k a b :=
  ⟨fun e => h.auxPg (q.off e), fun e => h.pgMod (q.off e), fun e => h.vinOk (q.off e), fun e => h.vinWaits (q.off e),
    fun e => h.seqStep (q.off e), fun e => h.railsUp (q.off e), fun e => h.down (q.off e),
    fun e => h.downCause (q.off e), fun e => h.railFaults (q.off e), fun e => h.heldOff (q.off e),
    fun e => h.vinFell (q.off e), fun e => h.holdupOk (q.off e), fun e => h.ride (q.off e), fun e => h.mon (q.off e),
    fun e => h.powerState (q.off e), fun e => h.target (q.off e), fun e => h.changing (q.off e),
    fun e => h.waiting (q.off e), fun e => h.autoCrocus (q.off e), fun e => h.wake (q.off e),
    fun e => h.tulipPending (q.off e), fun e => h.tulipMask (q.off e), fun e => h.snowPorts (q.off e),
    fun e => h.powerDw (q.off e), fun e => h.levelP (q.off e), fun e => h.levelT (q.off e),
    fun e => h.lowMs (q.off e), fun e => h.coolMs (q.off e), fun e => h.sensors (q.off e),
    fun e => h.fastRefresh (q.off e), fun e => h.schedSaved (q.off e), fun e => h.schedDay (q.off e)⟩

/-- `Boot` outside a mask stands as it was. -/
structure BootFrame (k : Nat) (a b : Boot) : Prop where
  pllLocked : k.testBit 71 = false → b.pllLocked = a.pllLocked
  engDiv : k.testBit 71 = false → b.engDiv = a.engDiv
  step : k.testBit 72 = false → b.step = a.step
  fails : k.testBit 72 = false → b.fails = a.fails
  hold : k.testBit 72 = false → b.hold = a.hold
  resetCause : k.testBit 72 = false → b.resetCause = a.resetCause
  failedStep : k.testBit 72 = false → b.failedStep = a.failedStep
  lockLosses : k.testBit 71 = false → b.lockLosses = a.lockLosses
  startupMs : k.testBit 72 = false → b.startupMs = a.startupMs
  runningBank : k.testBit 73 = false → b.runningBank = a.runningBank
  bankA : k.testBit 73 = false → b.bankA = a.bankA
  bankB : k.testBit 73 = false → b.bankB = a.bankB
  runningDigest : k.testBit 73 = false → b.runningDigest = a.runningDigest
  serial : k.testBit 73 = false → b.serial = a.serial
  squares : k.testBit 74 = false → b.squares = a.squares
  globalPoint : k.testBit 74 = false → b.globalPoint = a.globalPoint
  walkSquare : k.testBit 74 = false → b.walkSquare = a.walkSquare
  walkNext : k.testBit 74 = false → b.walkNext = a.walkNext
  recorded : k.testBit 74 = false → b.recorded = a.recorded

@[refl] theorem BootFrame.refl (k : Nat) (a : Boot) : BootFrame k a a := by
  constructor <;> exact fun _ => rfl

theorem BootFrame.trans {k : Nat} {a b c : Boot} (h : BootFrame k a b) (g : BootFrame k b c) : BootFrame k a c :=
  ⟨fun e => (g.pllLocked e).trans (h.pllLocked e), fun e => (g.engDiv e).trans (h.engDiv e),
    fun e => (g.step e).trans (h.step e), fun e => (g.fails e).trans (h.fails e),
    fun e => (g.hold e).trans (h.hold e), fun e => (g.resetCause e).trans (h.resetCause e),
    fun e => (g.failedStep e).trans (h.failedStep e), fun e => (g.lockLosses e).trans (h.lockLosses e),
    fun e => (g.startupMs e).trans (h.startupMs e), fun e => (g.runningBank e).trans (h.runningBank e),
    fun e => (g.bankA e).trans (h.bankA e), fun e => (g.bankB e).trans (h.bankB e),
    fun e => (g.runningDigest e).trans (h.runningDigest e), fun e => (g.serial e).trans (h.serial e),
    fun e => (g.squares e).trans (h.squares e), fun e => (g.globalPoint e).trans (h.globalPoint e),
    fun e => (g.walkSquare e).trans (h.walkSquare e), fun e => (g.walkNext e).trans (h.walkNext e),
    fun e => (g.recorded e).trans (h.recorded e)⟩

theorem BootFrame.mono {j k : Nat} {a b : Boot} (h : BootFrame j a b) (q : Covers j k) : BootFrame k a b :=
  ⟨fun e => h.pllLocked (q.off e), fun e => h.engDiv (q.off e), fun e => h.step (q.off e),
    fun e => h.fails (q.off e), fun e => h.hold (q.off e), fun e => h.resetCause (q.off e),
    fun e => h.failedStep (q.off e), fun e => h.lockLosses (q.off e), fun e => h.startupMs (q.off e),
    fun e => h.runningBank (q.off e), fun e => h.bankA (q.off e), fun e => h.bankB (q.off e),
    fun e => h.runningDigest (q.off e), fun e => h.serial (q.off e), fun e => h.squares (q.off e),
    fun e => h.globalPoint (q.off e), fun e => h.walkSquare (q.off e), fun e => h.walkNext (q.off e),
    fun e => h.recorded (q.off e)⟩

/-- Every part outside a mask stands as it was. -/
structure Footprint (k : Nat) (s t : State) : Prop where
  free : k.testBit 0 = false → t.free = s.free
  st : StoreFrame k s.st t.st
  rb : RoundaboutFrame k s.rb t.rb
  pg : PagesFrame k s.pg t.pg
  str : StreamsFrame k s.str t.str
  host : HostIfFrame k s.host t.host
  xr : CrossingsFrame k s.xr t.xr
  tm : TimebaseFrame k s.tm t.tm
  ctl : CtlFrame k s.ctl t.ctl
  pw : PowerFrame k s.pw t.pw
  boot : BootFrame k s.boot t.boot

theorem Footprint.refl (k : Nat) (s : State) : Footprint k s s :=
  ⟨fun _ => rfl, .refl k _, .refl k _, .refl k _, .refl k _, .refl k _, .refl k _, .refl k _, .refl k _, .refl k _, .refl k _⟩

theorem Footprint.trans {k : Nat} {s t u : State} (h : Footprint k s t) (g : Footprint k t u) : Footprint k s u :=
  ⟨fun e => (g.free e).trans (h.free e), h.st.trans g.st, h.rb.trans g.rb, h.pg.trans g.pg, h.str.trans g.str, h.host.trans g.host, h.xr.trans g.xr, h.tm.trans g.tm, h.ctl.trans g.ctl, h.pw.trans g.pw, h.boot.trans g.boot⟩

theorem Footprint.mono {j k : Nat} {s t : State} (h : Footprint j s t) (q : Covers j k) : Footprint k s t :=
  ⟨fun e => h.free (q.off e), h.st.mono q, h.rb.mono q, h.pg.mono q, h.str.mono q, h.host.mono q, h.xr.mono q, h.tm.mono q, h.ctl.mono q, h.pw.mono q, h.boot.mono q⟩

/-- What a frame says of one part. -/
theorem Footprint.same {k : Nat} {s t : State} (h : Footprint k s t) (p : StatePart) (e : k.testBit p.ctorIdx = false) : p.same s t := by
  cases p with
  | free => exact h.free e
  | sp => exact h.st.sp e
  | errors => exact ⟨h.st.spErr e, h.st.accErr e, h.st.hbmErr e⟩
  | tags => exact h.st.tags e
  | handles => exact h.st.handles e
  | gather => exact h.st.gather e
  | acc => exact h.st.acc e
  | tileTags => exact h.st.tileTags e
  | hbm => exact h.st.hbm e
  | ctlMem => exact ⟨h.st.ctl e, h.st.ctlView e⟩
  | core => exact h.st.core e
  | scrub => exact ⟨h.st.scrubNext e, h.st.closingSince e⟩
  | cmds => exact ⟨h.rb.cmds e, h.rb.nextSeq e⟩
  | live => exact h.rb.live e
  | ended => exact ⟨h.rb.orphans e, h.rb.cancelled e⟩
  | reports => exact ⟨h.rb.lastCore e, h.rb.report e⟩
  | turns => exact ⟨h.rb.run e, h.rb.ptr e, h.rb.deficit e⟩
  | batchTable => exact h.rb.batches e
  | mail => exact ⟨h.rb.mail e, h.rb.heldMail e, h.rb.mailCap e⟩
  | regulators => exact ⟨h.rb.bucket e, h.rb.charges e⟩
  | engCtr => exact h.rb.engCtr e
  | domains => exact h.rb.domain e
  | squares => exact ⟨h.rb.sqFaults e, h.rb.sqOut e⟩
  | seqs => exact ⟨h.pg.poolBase e, h.pg.seqs e, h.pg.reserveFrames e⟩
  | spill => exact ⟨h.pg.spill e, h.pg.spillBad e, h.pg.spillStack e⟩
  | tree => exact ⟨h.pg.nodes e, h.pg.nextNode e⟩
  | streams => exact ⟨h.str.tab e, h.str.epoch e⟩
  | chunks => exact h.str.chunks e
  | mirror => exact h.str.mirror e
  | models => exact h.str.models e
  | batches => exact ⟨h.str.batches e, h.str.workRowsFree e⟩
  | commitLog => exact h.str.log e
  | waiting => exact h.str.waiting e
  | clocks => exact ⟨h.str.missSecond e, h.str.useClock e⟩
  | subRings => exact h.host.fsq e
  | outRings => exact h.host.foq e
  | mailboxes => exact h.host.fmbx e
  | functions => exact h.host.ffnctl e
  | hostMem => exact h.host.mem e
  | hostLink => exact ⟨h.host.numVfs e, h.host.linkUp e, h.host.perstReleased e, h.host.linkRate e, h.host.linkWidth e⟩
  | window => exact h.host.windowData e
  | straps => exact ⟨h.xr.devId e, h.xr.strapBad e⟩
  | ports => exact h.xr.ports e
  | rxDescs => exact h.xr.rxDescs e
  | grants => exact h.xr.grants e
  | remoteOps => exact h.xr.ops e
  | migrations => exact h.xr.migs e
  | peerWalks => exact ⟨h.xr.walks e, h.xr.peerTables e, h.xr.peerPages e⟩
  | time => exact ⟨h.tm.t e, h.tm.cycles e⟩
  | timeState => exact
      ⟨h.tm.state e, h.tm.e e, h.tm.r e, h.tm.oPrev e, h.tm.refSince e, h.tm.refSource e, h.tm.stepped e,
        h.tm.ppsValid e, h.tm.ppsLastEdge e, h.tm.ppsAccepted e, h.tm.ppsPhase e, h.tm.heard e, h.tm.master e,
        h.tm.exchNo e, h.tm.exch e, h.tm.holdSince e, h.tm.masterHold e, h.tm.holdS e, h.tm.refusedReported e,
        h.tm.offsetNs e, h.tm.lastStepNs e⟩
  | objects => exact h.ctl.od e
  | flash => exact ⟨h.ctl.flashA e, h.ctl.flashB e⟩
  | select => exact ⟨h.ctl.sel e, h.ctl.timeFrac e⟩
  | faultLog => exact h.ctl.faultLog e
  | nmt => exact ⟨h.ctl.nmt e, h.ctl.freezeTo e, h.ctl.nmtWait e, h.ctl.resetPending e⟩
  | emcy => exact ⟨h.ctl.emcy e, h.ctl.conditions e⟩
  | canOut => exact h.ctl.canOut e
  | node => exact ⟨h.ctl.nodeId e, h.ctl.nodeSource e, h.ctl.nominalRate e, h.ctl.dataRate e⟩
  | sendTimes => exact ⟨h.ctl.emcyAt e, h.ctl.tpdo e⟩
  | usdo => exact h.ctl.usdo e
  | stage => exact h.ctl.stage e
  | hbLost => exact h.ctl.hbLost e
  | debug => exact ⟨h.ctl.dbgStrap e, h.ctl.tapReset e, h.ctl.probeJ3 e⟩
  | coresDown => exact h.ctl.coresDown e
  | answers => exact h.ctl.answers e
  | supply => exact
      ⟨h.pw.auxPg e, h.pw.pgMod e, h.pw.vinOk e, h.pw.vinWaits e, h.pw.seqStep e, h.pw.railsUp e, h.pw.down e,
        h.pw.downCause e, h.pw.railFaults e, h.pw.heldOff e, h.pw.vinFell e, h.pw.holdupOk e, h.pw.ride e⟩
  | monitors => exact h.pw.mon e
  | powerState => exact
      ⟨h.pw.powerState e, h.pw.target e, h.pw.changing e, h.pw.waiting e, h.pw.autoCrocus e, h.pw.wake e,
        h.pw.tulipPending e, h.pw.tulipMask e, h.pw.snowPorts e⟩
  | throttle => exact ⟨h.pw.powerDw e, h.pw.levelP e, h.pw.levelT e, h.pw.lowMs e, h.pw.coolMs e⟩
  | sensors => exact ⟨h.pw.sensors e, h.pw.fastRefresh e⟩
  | schedule => exact ⟨h.pw.schedSaved e, h.pw.schedDay e⟩
  | clock => exact ⟨h.boot.pllLocked e, h.boot.engDiv e, h.boot.lockLosses e⟩
  | startup => exact
      ⟨h.boot.step e, h.boot.fails e, h.boot.hold e, h.boot.resetCause e, h.boot.failedStep e, h.boot.startupMs e⟩
  | banks => exact ⟨h.boot.runningBank e, h.boot.bankA e, h.boot.bankB e, h.boot.runningDigest e, h.boot.serial e⟩
  | calibration => exact
      ⟨h.boot.squares e, h.boot.globalPoint e, h.boot.walkSquare e, h.boot.walkNext e, h.boot.recorded e⟩

/-- The mask of a list of parts. -/
def maskOf : List StatePart → Nat
  | [] => 0
  | p :: l => 2 ^ p.ctorIdx ||| maskOf l

theorem testBit_maskOf (l : List StatePart) (p : StatePart) (h : p ∉ l) : (maskOf l).testBit p.ctorIdx = false := by
  induction l with
  | nil => exact Nat.zero_testBit _
  | cons q l ih =>
    have ne : q.ctorIdx ≠ p.ctorIdx := fun e => h (by
      have k := congrArg StatePart.ofNat e
      rw [StatePart.ofNat_ctorIdx, StatePart.ofNat_ctorIdx] at k
      rw [k]
      exact List.mem_cons_self)
    rw [maskOf, Nat.testBit_or, ih fun m => h (List.mem_cons_of_mem _ m), Nat.testBit_two_pow_of_ne ne]
    rfl

/-- What a frame says of the parts outside a list. -/
theorem Footprint.outside {s t : State} {l : List StatePart} (h : Footprint (maskOf l) s t) (p : StatePart) (e : p ∉ l) :
    p.same s t := h.same p (testBit_maskOf l p e)

/-- A change of one function's block. -/
structure FnFrame (k : Nat) (a b : Function) : Prop where
  sq : k.testBit 34 = false → b.sq = a.sq
  oq : k.testBit 35 = false → b.oq = a.oq
  mbx : k.testBit 36 = false → b.mbx = a.mbx
  controls : k.testBit 37 = false → b.controls = a.controls

end Sys2Proof.Machine
end

