-- ==== Sys2Proof/Laws/Tbl.lean ====
section
/-! SUPPORT. Laws of sparse tables and of byte memory: what a read answers after a write, and that every operation keeps the
canonical form. -/

namespace Sys2Proof.Machine

variable {α : Type}

/-! ### Reading after writing -/

@[simp] theorem Tbl.get?_nil (k : Nat) : Tbl.get? ([] : Tbl α) k = none := rfl

theorem Tbl.get?_cons (x : Nat × α) (t : Tbl α) (k : Nat) :
    Tbl.get? (x :: t) k = if x.1 = k then some x.2 else Tbl.get? t k := by
  cases x; rfl

theorem Tbl.get?_erase_self (t : Tbl α) (k : Nat) : Tbl.get? (Tbl.erase t k) k = none := by
  induction t with
  | nil => rfl
  | cons x t ih =>
    by_cases h : x.1 = k
    · simpa [Tbl.erase, h] using ih
    · simpa [Tbl.erase, h, Tbl.get?_cons] using ih

theorem Tbl.get?_erase_ne (t : Tbl α) {k j : Nat} (h : j ≠ k) : Tbl.get? (Tbl.erase t k) j = Tbl.get? t j := by
  induction t with
  | nil => rfl
  | cons x t ih =>
    by_cases hx : x.1 = k
    · have : x.1 ≠ j := fun e => h (e ▸ hx)
      simpa [Tbl.erase, hx, Tbl.get?_cons, this, Ne.symm h] using ih
    · by_cases hj : x.1 = j <;> simp_all [Tbl.erase, Tbl.get?_cons]

theorem Tbl.get?_insertSorted_self (t : Tbl α) (k : Nat) (v : α) (h : Tbl.get? t k = none) :
    Tbl.get? (Tbl.insertSorted t k v) k = some v := by
  induction t with
  | nil => simp [Tbl.insertSorted, Tbl.get?_cons]
  | cons x t ih =>
    by_cases hx : x.1 = k
    · simp [Tbl.get?_cons, hx] at h
    · rw [Tbl.get?_cons, if_neg hx] at h
      by_cases hlt : k < x.1
      · simp [Tbl.insertSorted, hlt, Tbl.get?_cons]
      · simp [Tbl.insertSorted, hlt, Tbl.get?_cons, hx, ih h]

theorem Tbl.get?_insertSorted_ne (t : Tbl α) {k j : Nat} (v : α) (h : j ≠ k) :
    Tbl.get? (Tbl.insertSorted t k v) j = Tbl.get? t j := by
  induction t with
  | nil => simp [Tbl.insertSorted, Tbl.get?_cons, Ne.symm h]
  | cons x t ih =>
    by_cases hlt : k < x.1
    · simp [Tbl.insertSorted, hlt, Tbl.get?_cons, Ne.symm h]
    · simp only [Tbl.insertSorted, hlt, if_false, Tbl.get?_cons, ih]

@[simp] theorem Tbl.get?_put_self (t : Tbl α) (k : Nat) (v : α) : Tbl.get? (Tbl.put t k v) k = some v :=
  Tbl.get?_insertSorted_self _ _ _ (Tbl.get?_erase_self t k)

theorem Tbl.get?_put_ne (t : Tbl α) {k j : Nat} (v : α) (h : j ≠ k) : Tbl.get? (Tbl.put t k v) j = Tbl.get? t j := by
  rw [Tbl.put, Tbl.get?_insertSorted_ne _ _ h, Tbl.get?_erase_ne _ h]

theorem Tbl.get?_put (t : Tbl α) (k j : Nat) (v : α) :
    Tbl.get? (Tbl.put t k v) j = if j = k then some v else Tbl.get? t j := by
  by_cases h : j = k
  · subst h; simp
  · simp [h, Tbl.get?_put_ne]

@[simp] theorem Tbl.getD_put_self (t : Tbl α) (d : α) (k : Nat) (v : α) : Tbl.getD (Tbl.put t k v) d k = v := by
  simp [Tbl.getD]

theorem Tbl.getD_put (t : Tbl α) (d : α) (k j : Nat) (v : α) :
    Tbl.getD (Tbl.put t k v) d j = if j = k then v else Tbl.getD t d j := by
  by_cases h : j = k <;> simp [Tbl.getD, Tbl.get?_put, h]

theorem Tbl.getD_setD [DecidableEq α] (t : Tbl α) (d : α) (k j : Nat) (v : α) :
    Tbl.getD (Tbl.setD t d k v) d j = if j = k then v else Tbl.getD t d j := by
  unfold Tbl.setD
  split
  · next hv =>
    by_cases h : j = k
    · subst h; simp [Tbl.getD, Tbl.get?_erase_self, hv]
    · simp [Tbl.getD, Tbl.get?_erase_ne _ h, h]
  · exact Tbl.getD_put t d k j v

@[simp] theorem Tbl.getD_setD_self [DecidableEq α] (t : Tbl α) (d : α) (k : Nat) (v : α) :
    Tbl.getD (Tbl.setD t d k v) d k = v := by simp [Tbl.getD_setD]

theorem Tbl.get?_modify_self (t : Tbl α) (k : Nat) (f : α → α) :
    Tbl.get? (Tbl.modify t k f) k = (Tbl.get? t k).map f := by
  unfold Tbl.modify
  split <;> simp_all

theorem Tbl.get?_modify_ne (t : Tbl α) {k j : Nat} (f : α → α) (h : j ≠ k) :
    Tbl.get? (Tbl.modify t k f) j = Tbl.get? t j := by
  unfold Tbl.modify
  split
  · exact Tbl.get?_put_ne _ _ h
  · rfl

/-! ### Keys -/

theorem Tbl.mem_erase {t : Tbl α} {k : Nat} {x : Nat × α} (h : x ∈ Tbl.erase t k) : x ∈ t := by
  induction t with
  | nil => exact h
  | cons y t ih =>
    by_cases hy : y.1 = k
    · simp only [Tbl.erase, hy, if_true] at h
      exact List.mem_cons_of_mem _ (ih h)
    · simp only [Tbl.erase, hy, if_false, List.mem_cons] at h
      rcases h with h | h
      · exact h ▸ List.mem_cons_self
      · exact List.mem_cons_of_mem _ (ih h)

theorem Tbl.mem_insertSorted {t : Tbl α} {k : Nat} {v : α} {x : Nat × α} (h : x ∈ Tbl.insertSorted t k v) :
    x = (k, v) ∨ x ∈ t := by
  induction t with
  | nil => simpa [Tbl.insertSorted] using h
  | cons y t ih =>
    by_cases hy : k < y.1
    · simpa [Tbl.insertSorted, hy] using h
    · simp only [Tbl.insertSorted, hy, if_false, List.mem_cons] at h
      rcases h with h | h
      · exact .inr (h ▸ List.mem_cons_self)
      · exact (ih h).imp id (List.mem_cons_of_mem _)

theorem Tbl.mem_put {t : Tbl α} {k : Nat} {v : α} {x : Nat × α} (h : x ∈ Tbl.put t k v) : x = (k, v) ∨ x ∈ t :=
  (Tbl.mem_insertSorted h).imp id Tbl.mem_erase

theorem Tbl.mem_of_get? {t : Tbl α} {k : Nat} {v : α} (h : Tbl.get? t k = some v) : (k, v) ∈ t := by
  induction t with
  | nil => simp at h
  | cons y t ih =>
    rw [Tbl.get?_cons] at h
    split at h
    · next e => cases h; exact e ▸ List.mem_cons_self
    · exact List.mem_cons_of_mem _ (ih h)

/-! ### The canonical form -/

theorem Tbl.sorted_erase {t : Tbl α} (h : Tbl.sorted t) (k : Nat) : Tbl.sorted (Tbl.erase t k) := by
  induction t with
  | nil => exact h
  | cons y t ih =>
    obtain ⟨h1, h2⟩ := List.pairwise_cons.1 h
    by_cases hy : y.1 = k
    · simpa [Tbl.erase, hy] using ih h2
    · simp only [Tbl.erase, hy, if_false]
      exact List.pairwise_cons.2 ⟨fun x hx => h1 x (Tbl.mem_erase hx), ih h2⟩

theorem Tbl.erase_ne {t : Tbl α} {k : Nat} {x : Nat × α} (h : x ∈ Tbl.erase t k) : x.1 ≠ k := by
  induction t with
  | nil => cases h
  | cons y t ih =>
    by_cases hy : y.1 = k
    · simp only [Tbl.erase, hy, if_true] at h; exact ih h
    · simp only [Tbl.erase, hy, if_false, List.mem_cons] at h
      rcases h with h | h
      · exact h ▸ hy
      · exact ih h

theorem Tbl.sorted_insertSorted {t : Tbl α} (h : Tbl.sorted t) {k : Nat} (hk : ∀ x ∈ t, x.1 ≠ k) (v : α) :
    Tbl.sorted (Tbl.insertSorted t k v) := by
  induction t with
  | nil => simp [Tbl.insertSorted]
  | cons y t ih =>
    obtain ⟨h1, h2⟩ := List.pairwise_cons.1 h
    by_cases hy : k < y.1
    · simp only [Tbl.insertSorted, hy, if_true]
      refine List.pairwise_cons.2 ⟨fun x hx => ?_, h⟩
      rcases List.mem_cons.1 hx with e | hx
      · exact e ▸ hy
      · exact Nat.lt_trans hy (h1 x hx)
    · simp only [Tbl.insertSorted, hy, if_false]
      refine List.pairwise_cons.2 ⟨fun x hx => ?_, ih h2 fun x hx => hk x (List.mem_cons_of_mem _ hx)⟩
      rcases Tbl.mem_insertSorted hx with e | hx
      · have := hk y List.mem_cons_self
        subst e; show y.1 < k; omega
      · exact h1 x hx

theorem Tbl.sorted_put {t : Tbl α} (h : Tbl.sorted t) (k : Nat) (v : α) : Tbl.sorted (Tbl.put t k v) :=
  Tbl.sorted_insertSorted (Tbl.sorted_erase h k) (fun _ hx => Tbl.erase_ne hx) v

theorem Tbl.sorted_modify {t : Tbl α} (h : Tbl.sorted t) (k : Nat) (f : α → α) : Tbl.sorted (Tbl.modify t k f) := by
  unfold Tbl.modify
  split
  · exact Tbl.sorted_put h _ _
  · exact h

theorem Tbl.mem_modify {t : Tbl α} {k : Nat} {f : α → α} {x : Nat × α} (h : x ∈ Tbl.modify t k f) :
    ∃ y ∈ t, y.1 = x.1 := by
  unfold Tbl.modify at h
  split at h
  · next v hv =>
    rcases Tbl.mem_put h with e | h
    · exact ⟨_, Tbl.mem_of_get? hv, by rw [e]⟩
    · exact ⟨x, h, rfl⟩
  · exact ⟨x, h, rfl⟩

theorem Tbl.sorted_map {t : Tbl α} (h : Tbl.sorted t) (f : Nat → α → α) : Tbl.sorted (t.map fun e => (e.1, f e.1 e.2)) :=
  List.pairwise_map.2 h

theorem Tbl.wf_setD [DecidableEq α] {d : α} {t : Tbl α} (h : Tbl.wf d t) (k : Nat) (v : α) : Tbl.wf d (Tbl.setD t d k v) := by
  unfold Tbl.setD
  split
  · exact ⟨Tbl.sorted_erase h.1 k, fun x hx => h.2 x (Tbl.mem_erase hx)⟩
  · next hv =>
    refine ⟨Tbl.sorted_put h.1 k v, fun x hx => ?_⟩
    rcases Tbl.mem_put hx with e | hx
    · rw [e]; exact hv
    · exact h.2 x hx

theorem Tbl.all_setD [DecidableEq α] {d : α} {t : Tbl α} {p : α → Prop} (h : ∀ e ∈ t, p e.2) (k : Nat) {v : α} (hv : p v) :
    ∀ e ∈ Tbl.setD t d k v, p e.2 := by
  unfold Tbl.setD
  split
  · exact fun e he => h e (Tbl.mem_erase he)
  · intro e he
    rcases Tbl.mem_put he with rfl | he
    · exact hv
    · exact h e he

theorem Tbl.all_getD {d : α} {t : Tbl α} {p : α → Prop} (h : ∀ e ∈ t, p e.2) (hd : p d) (k : Nat) : p (Tbl.getD t d k) := by
  unfold Tbl.getD
  cases e : Tbl.get? t k with
  | none => exact hd
  | some v => exact h _ (Tbl.mem_of_get? e)

theorem Tbl.wf_filter {d : α} {t : Tbl α} (h : Tbl.wf d t) (p : Nat × α → Bool) : Tbl.wf d (t.filter p) :=
  ⟨List.Pairwise.filter _ h.1, fun x hx => h.2 x (List.mem_of_mem_filter hx)⟩

/-! ### Byte memory -/

theorem Mem.wf_nil : Mem.wf [] := ⟨List.Pairwise.nil, by simp⟩

theorem Mem.wf_write {m : Mem} (h : Mem.wf m) (a : Nat) (b : Byte) : Mem.wf (Mem.write m a b) := Tbl.wf_setD h a b

theorem Mem.wf_writeBytes (bs : List Byte) {m : Mem} (h : Mem.wf m) (a : Nat) : Mem.wf (Mem.writeBytes m a bs) := by
  induction bs generalizing m a with
  | nil => exact h
  | cons b bs ih => exact ih (Mem.wf_write h a b) (a + 1)

theorem Mem.wf_clearRange {m : Mem} (h : Mem.wf m) (a n : Nat) : Mem.wf (Mem.clearRange m a n) := Tbl.wf_filter h _

/-- A read after a write of one byte. -/
theorem Mem.read_write (m : Mem) (a j : Nat) (b : Byte) : Mem.read (Mem.write m a b) j = if j = a then b else Mem.read m j :=
  Tbl.getD_setD m 0 a j b

/-- A read outside the bytes written reads as before. -/
theorem Mem.read_writeBytes_out (bs : List Byte) (m : Mem) (a j : Nat) (h : j < a ∨ a + bs.length ≤ j) :
    Mem.read (Mem.writeBytes m a bs) j = Mem.read m j := by
  induction bs generalizing m a with
  | nil => rfl
  | cons b bs ih =>
    simp only [List.length_cons] at h
    rw [Mem.writeBytes, ih _ _ (by omega), Mem.read_write, if_neg (by omega)]

/-- A read of byte `i` of a run just written. -/
theorem Mem.read_writeBytes_in (bs : List Byte) (m : Mem) (a i : Nat) (h : i < bs.length) :
    Mem.read (Mem.writeBytes m a bs) (a + i) = bs.getD i 0 := by
  induction bs generalizing m a i with
  | nil => simp at h
  | cons b bs ih =>
    cases i with
    | zero => rw [Mem.writeBytes, Mem.read_writeBytes_out _ _ _ _ (by omega), Nat.add_zero, Mem.read_write, if_pos rfl]; rfl
    | succ i =>
      simp only [List.length_cons] at h
      rw [Mem.writeBytes, show a + (i + 1) = (a + 1) + i by omega, ih _ _ _ (by omega)]
      rfl

theorem Mem.read_nil (j : Nat) : Mem.read [] j = 0 := rfl

theorem Mem.read_clearRange (m : Mem) (a n j : Nat) :
    Mem.read (Mem.clearRange m a n) j = if a ≤ j ∧ j < a + n then 0 else Mem.read m j := by
  have key : ∀ t : Mem, Tbl.get? (Mem.clearRange t a n) j = if a ≤ j ∧ j < a + n then none else Tbl.get? t j := by
    intro t
    induction t with
    | nil => simp [Mem.clearRange]
    | cons x t ih =>
      unfold Mem.clearRange at ih ⊢
      by_cases hx : x.1 < a ∨ a + n ≤ x.1
      · rw [List.filter_cons_of_pos (by simpa using hx)]
        by_cases hj : x.1 = j
        · subst hj
          have : ¬(a ≤ x.1 ∧ x.1 < a + n) := by omega
          simp [Tbl.get?_cons, this]
        · rw [Tbl.get?_cons, Tbl.get?_cons, if_neg hj, if_neg hj, ih]
      · rw [List.filter_cons_of_neg (by simpa using hx), ih]
        by_cases hj : x.1 = j
        · subst hj
          have : a ≤ x.1 ∧ x.1 < a + n := by omega
          simp [this]
        · rw [Tbl.get?_cons, if_neg hj]
  simp only [Mem.read, Tbl.getD, key]
  split <;> rfl

end Sys2Proof.Machine
end

