-- ==== Sys2Proof/Laws/Moves.lean ====
section
/-! SUPPORT. What any operation of the block may do to its state, said once: the queue of waiting commands stays, the invariant is
kept, and every part outside the operation's footprint stands as it was. Each operation has one lemma, `<operation>_moves`,
that says so; its footprint is the mask that it asks to be covered. -/

namespace Sys2Proof.Machine

-- One proof at a time: proofs elaborated side by side wait on shared realisations, one thread each, and run out of threads.
set_option Elab.async false

/-- `t` comes of `s` by operations of the block whose footprints lie in the mask `m`. -/
structure Moves (m : Nat) (s t : State) : Prop where
  pending : t.pending = s.pending
  inv : s.Inv → t.Inv
  frame : Footprint m s t

theorem Moves.rfl' (m : Nat) (s : State) : Moves m s s := ⟨rfl, id, .refl m s⟩

theorem Moves.trans {m : Nat} {s t u : State} (h : Moves m s t) (k : Moves m t u) : Moves m s u :=
  ⟨k.pending.trans h.pending, fun i => k.inv (h.inv i), h.frame.trans k.frame⟩

/-- The parts of a new state that the invariant names stand as they were. -/
structure Stands (s : State) (st : Store) (rb : Roundabout) (pg : Pages) (str : Streams) (host : HostIf) (ctl : Ctl) : Prop where
  sp : st.sp = s.st.sp
  acc : st.acc = s.st.acc
  hbm : st.hbm = s.st.hbm
  ctlMem : st.ctl = s.st.ctl
  ctlView : st.ctlView = s.st.ctlView
  core : st.core = s.st.core
  spill : pg.spill = s.pg.spill
  mirror : str.mirror = s.str.mirror
  hostMem : host.mem = s.host.mem
  faultLog : ctl.faultLog = s.ctl.faultLog
  emcy : ctl.emcy = s.ctl.emcy
  usdo : ctl.usdo = s.ctl.usdo
  commitLog : str.log = s.str.log
  flashA : ctl.flashA = s.ctl.flashA
  flashB : ctl.flashB = s.ctl.flashB
  table : str.tab = s.str.tab
  cmds : rb.cmds = s.rb.cmds
  nextSeq : rb.nextSeq = s.rb.nextSeq

/-- A change of parts that neither the queue nor the invariant names. -/
theorem Moves.leaf {m k : Nat} {s0 s : State} {free st rb pg str host xr tm ctl pw boot} (h : Moves m s0 s) (q : Covers k m)
    (e : Stands s st rb pg str host ctl := by constructor <;> first | with_reducible rfl | rfl)
    (f : Footprint k s ⟨s.pending, free, st, rb, pg, str, host, xr, tm, ctl, pw, boot⟩ := by
      constructor <;> first
        | with_reducible rfl
        | (constructor <;> first | exact fun e => absurd e (by decide) | exact fun _ => rfl | exact fun _ _ => rfl)
        | exact fun e => absurd e (by decide)
        | exact fun _ => rfl) :
    Moves m s0 ⟨s.pending, free, st, rb, pg, str, host, xr, tm, ctl, pw, boot⟩ := by
  refine ⟨h.pending, fun i => ?_, h.frame.trans (f.mono q)⟩
  obtain ⟨a1, a2, a3, a4, a5, a6, a7, a8, a9, a10, a11, a12, a13, a14, a15, a16⟩ := h.inv i
  exact ⟨e.sp ▸ a1, e.acc ▸ a2, e.hbm ▸ a3, e.ctlMem ▸ a4, e.core ▸ a5, e.spill ▸ a6, e.mirror ▸ a7, e.hostMem ▸ a8,
    e.faultLog ▸ a9, e.emcy ▸ a10, e.usdo ▸ a11, e.commitLog ▸ a12, (e.flashA.trans a13).trans e.flashB.symm, e.table ▸ a14,
    e.ctlView ▸ a15, fun c hc hs => by simpa only [e.nextSeq] using a16 c (e.cmds ▸ hc) hs⟩

/-- A change of the parts that the invariant names. -/
theorem Moves.step {m k : Nat} {s0 s t : State} (h : Moves m s0 s) (q : Covers k m) (i : s.Inv → t.Inv)
    (e0 : t.pending = s.pending := by rfl)
    (f : Footprint k s t := by
      constructor <;> first
        | with_reducible rfl
        | (constructor <;> first | exact fun e => absurd e (by decide) | exact fun _ => rfl | exact fun _ _ => rfl)
        | exact fun e => absurd e (by decide)
        | exact fun _ => rfl) : Moves m s0 t :=
  ⟨e0.trans h.pending, fun j => i (h.inv j), h.frame.trans (f.mono q)⟩

theorem length_pushRing {α : Type} {n : Nat} {l : List α} (h : l.length ≤ n) (k : 0 < n) (x : α) :
    (pushRing n l x).length ≤ n := by
  unfold pushRing
  split
  · simp only [List.length_append, List.length_singleton]
    omega
  · simp only [List.length_append, List.length_singleton, List.length_drop]
    omega

/-- A change of the control plane that keeps its limits. -/
structure CtlKeeps (c d : Ctl) : Prop where
  faultLog : d.faultLog = c.faultLog
  emcy : c.emcy.length ≤ 32 → d.emcy.length ≤ 32
  usdo : c.usdo.length ≤ 4 → d.usdo.length ≤ 4
  flashA : d.flashA = c.flashA
  flashB : d.flashB = c.flashB

theorem Moves.foldl {α : Type} {m : Nat} {s0 : State} {f : State → α → State} (l : List α) {s : State} (h : Moves m s0 s)
    (hf : ∀ t x, Moves m s0 t → Moves m s0 (f t x)) : Moves m s0 (l.foldl f s) := by
  induction l generalizing s with
  | nil => exact h
  | cons x l ih => exact ih (hf s x h)

/-! ### Operations that answer more, or less, than a state -/

/-- An operation that may answer no state. -/
structure OptMoves (m : Nat) (s0 : State) (o : Option State) : Prop where
  get : ∀ t, o = some t → Moves m s0 t

theorem OptMoves.some {m : Nat} {s0 t : State} (h : Moves m s0 t) : OptMoves m s0 (Option.some t) := by
  refine ⟨fun u e => ?_⟩
  cases e
  exact h

theorem OptMoves.none {m : Nat} {s0 : State} : OptMoves m s0 Option.none := by
  refine ⟨fun u e => ?_⟩
  cases e

theorem OptMoves.use {m : Nat} {s0 t : State} {o : Option State} (h : OptMoves m s0 o) (e : o = Option.some t) : Moves m s0 t := h.get t e

theorem OptMoves.getD {m : Nat} {s0 d : State} {o : Option State} (h : OptMoves m s0 o) (hd : Moves m s0 d) : Moves m s0 (o.getD d) := by
  cases o with
  | none => exact hd
  | some t => exact h.get t rfl

/-- An operation that answers a value and a state. -/
structure PairMoves {α : Type} (m : Nat) (s0 : State) (o : α × State) : Prop where
  snd : Moves m s0 o.2

theorem PairMoves.of {α : Type} {m : Nat} {s0 t : State} {a : α} (h : Moves m s0 t) : PairMoves m s0 (a, t) := ⟨h⟩

theorem PairMoves.use {α : Type} {m : Nat} {s0 t : State} {a : α} {o : α × State} (h : PairMoves m s0 o) (e : o = (a, t)) : Moves m s0 t := by
  subst e
  exact h.snd

/-- An operation that answers a state and a value. -/
structure StatePair {α : Type} (m : Nat) (s0 : State) (o : State × α) : Prop where
  fst : Moves m s0 o.1

theorem StatePair.of {α : Type} {m : Nat} {s0 t : State} {a : α} (h : Moves m s0 t) : StatePair m s0 (t, a) := ⟨h⟩

theorem StatePair.use {α : Type} {m : Nat} {s0 t : State} {a : α} {o : State × α} (h : StatePair m s0 o) (e : o = (t, a)) : Moves m s0 t := by
  subst e
  exact h.fst

/-- An operation that answers a value, a state and a value. -/
structure TripleMoves {α β : Type} (m : Nat) (s0 : State) (o : α × State × β) : Prop where
  mid : Moves m s0 o.2.1

theorem TripleMoves.of {α β : Type} {m : Nat} {s0 t : State} {a : α} {b : β} (h : Moves m s0 t) : TripleMoves m s0 (a, t, b) := ⟨h⟩

theorem TripleMoves.use {α β : Type} {m : Nat} {s0 t : State} {a : α} {b : β} {o : α × State × β} (h : TripleMoves m s0 o)
    (e : o = (a, t, b)) : Moves m s0 t := by
  subst e
  exact h.mid

/-- An operation that may answer a value and a state. -/
structure OptPair {α : Type} (m : Nat) (s0 : State) (o : Option (α × State)) : Prop where
  get : ∀ a t, o = some (a, t) → Moves m s0 t

theorem OptPair.some {α : Type} {m : Nat} {s0 t : State} {a : α} (h : Moves m s0 t) : OptPair m s0 (Option.some (a, t)) := by
  refine ⟨fun b u e => ?_⟩
  cases e
  exact h

theorem OptPair.none {α : Type} {m : Nat} {s0 : State} : OptPair m s0 (Option.none : Option (α × State)) := by
  refine ⟨fun b u e => ?_⟩
  cases e

theorem OptPair.use {α : Type} {m : Nat} {s0 t : State} {a : α} {o : Option (α × State)} (h : OptPair m s0 o) (e : o = Option.some (a, t)) :
    Moves m s0 t := h.get a t e

theorem OptPair.pair {α : Type} {m : Nat} {s0 : State} {o : Option (α × State)} {p : α × State} (h : OptPair m s0 o) (e : o = Option.some p) :
    PairMoves m s0 p := ⟨h.get p.1 p.2 e⟩

theorem OptPair.ofPair {α : Type} {m : Nat} {s0 : State} {p : α × State} (h : PairMoves m s0 p) : OptPair m s0 (Option.some p) := by
  refine ⟨fun b u e => ?_⟩
  cases e
  exact h.snd

/-- What `Moves` says of an outcome: it holds of the next state, if there is one. -/
structure Out.moves (m : Nat) (s0 : State) (o : Out) : Prop where
  get : ∀ t, o = .next t → Moves m s0 t

theorem Out.moves_next {m : Nat} {s0 t : State} (h : Moves m s0 t) : Out.moves m s0 (.next t) := by
  refine ⟨fun u e => ?_⟩
  cases e
  exact h

end Sys2Proof.Machine
end

