-- ==== Sys2Proof/Laws/MovesCommon.lean ====
section
/-! SUPPORT. The operations of the shared operations: objects, scratchpad, pages, records keep the queue, the invariant and what lies outside their footprints: one lemma each. -/

set_option linter.unusedTactic false
set_option linter.unreachableTactic false

namespace Sys2Proof.Machine

-- One proof at a time: proofs elaborated side by side wait on shared realisations, one thread each, and run out of threads.
set_option Elab.async false

/-! ### Machine/Ops.lean -/

theorem State.addEng_moves {fp : Nat} {s0 s : State} (h : Moves fp s0 s) (hm : Covers 0x100000 fp) (x1 : Nat) (x2 : Nat) (x3 : Nat) : Moves fp s0 (State.addEng s x1 x2 x3) := by
  unfold State.addEng
  try dsimp only
  with_reducible repeat' first | assumption | exact hm.mono (by decide) | (refine Moves.leaf ?_ hm)

theorem State.setObj_moves {fp : Nat} {s0 s : State} (h : Moves fp s0 s) (hm : Covers 0x4000000000000 fp) (x1 : Nat) (x2 : Nat) (x3 : Nat) : Moves fp s0 (State.setObj s x1 x2 x3) := by
  unfold State.setObj
  try dsimp only
  with_reducible repeat' first | assumption | exact hm.mono (by decide) | (refine Moves.leaf ?_ hm)

theorem State.addObj_moves {fp : Nat} {s0 s : State} (h : Moves fp s0 s) (hm : Covers 0x4000000000000 fp) (x1 : Nat) (x2 : Nat) (x3 : Nat) : Moves fp s0 (State.addObj s x1 x2 x3) := by
  unfold State.addObj
  try dsimp only
  with_reducible repeat' first | assumption | exact hm.mono (by decide) | apply State.setObj_moves

theorem State.addObj64_moves {fp : Nat} {s0 s : State} (h : Moves fp s0 s) (hm : Covers 0x4000000000000 fp) (x1 : Nat) (x2 : Nat) (x3 : Nat) : Moves fp s0 (State.addObj64 s x1 x2 x3) := by
  unfold State.addObj64
  try dsimp only
  with_reducible repeat' first | assumption | exact hm.mono (by decide) | apply State.setObj_moves

theorem State.draw_moves {fp : Nat} {s0 s : State} (h : Moves fp s0 s) (hm : Covers 0x1 fp)  : PairMoves fp s0 (State.draw s) := by
  unfold State.draw
  try dsimp only
  with_reducible repeat' first
    | assumption
    | exact hm.mono (by decide)
    | apply PairMoves.of
    | (refine PairMoves.use ?_ (by assumption))
    | apply PairMoves.snd
    | (refine Moves.leaf ?_ hm)

theorem State.dropChunk_moves {fp : Nat} {s0 s : State} (h : Moves fp s0 s) (hm : Covers 0x8000000 fp) (x1 : Nat) (x2 : Nat) : Moves fp s0 (State.dropChunk s x1 x2) := by
  unfold State.dropChunk
  try dsimp only
  with_reducible repeat' first
    | assumption
    | exact hm.mono (by decide)
    | (intro _; try dsimp only)
    | (refine Moves.leaf ?_ hm)

theorem State.incObj_moves {fp : Nat} {s0 s : State} (h : Moves fp s0 s) (hm : Covers 0x4000000000000 fp) (x1 : Nat) (x2 : Nat) : Moves fp s0 (State.incObj s x1 x2) := by
  unfold State.incObj
  try dsimp only
  with_reducible repeat' first | assumption | exact hm.mono (by decide) | apply State.addObj_moves

theorem State.queueEmcy_moves {fp : Nat} {s0 s : State} (h : Moves fp s0 s) (hm : Covers 0x84000000000000 fp) (m : Emcy) : Moves fp s0 (s.queueEmcy m) := by
  unfold State.queueEmcy
  dsimp only
  split
  · refine h.step hm fun i => { i with emcy := ?_ }
    simp only [List.length_append, List.length_singleton]
    omega
  · refine State.incObj_moves ?_ (hm.mono (by decide)) ..
    refine h.step hm fun i => { i with emcy := ?_ }
    have := i.emcy
    simp only [List.length_append, List.length_drop, List.length_singleton]
    omega

theorem State.emcyEnd_moves {fp : Nat} {s0 s : State} (h : Moves fp s0 s) (hm : Covers 0x84000000000000 fp) (code : Nat) (p : List Nat → Bool) :
    Moves fp s0 (s.emcyEnd code p) := by
  unfold State.emcyEnd
  apply Moves.foldl
  · dsimp only
    exact Moves.leaf h hm
  · exact fun _ _ ht => State.queueEmcy_moves ht (hm.mono (by decide)) _

theorem State.emcyEvent_moves {fp : Nat} {s0 s : State} (h : Moves fp s0 s) (hm : Covers 0x84000000000000 fp) (x1 : Nat) (x2 : List Nat) : Moves fp s0 (State.emcyEvent s x1 x2) := by
  unfold State.emcyEvent
  try dsimp only
  with_reducible repeat' first | assumption | exact hm.mono (by decide) | apply State.queueEmcy_moves

theorem State.emcyRaise_moves {fp : Nat} {s0 s : State} (h : Moves fp s0 s) (hm : Covers 0x84000000000000 fp) (x1 : Nat) (x2 : List Nat) : Moves fp s0 (State.emcyRaise s x1 x2) := by
  unfold State.emcyRaise
  try dsimp only
  with_reducible repeat' first
    | assumption
    | exact hm.mono (by decide)
    | (intro _; try dsimp only)
    | apply State.queueEmcy_moves
    | split
    | (refine Moves.leaf ?_ hm)

theorem State.setFn_moves {fp k : Nat} {s0 s : State} (h : Moves fp s0 s) (hm : Covers k fp) (p : Nat) (f : Function)
    (g : FnFrame k (s.fn p) f := by
      constructor <;> first | exact fun e => absurd e (by decide) | exact fun _ => rfl) : Moves fp s0 (s.setFn p f) := by
  refine ⟨h.pending, fun i => { h.inv i with }, h.frame.trans (Footprint.mono ?_ hm)⟩
  refine { Footprint.refl k s with host := { HostIfFrame.refl k s.host with fsq := ?_, foq := ?_, fmbx := ?_, ffnctl := ?_ } }
  · exact fun e q => by
      rw [show Tbl.getD (s.setFn p f).host.fns {} q = if q = p then f else s.fn q from Tbl.getD_put _ _ _ _ _]
      split
      · next c => subst c; exact g.sq e
      · rfl
  · exact fun e q => by
      rw [show Tbl.getD (s.setFn p f).host.fns {} q = if q = p then f else s.fn q from Tbl.getD_put _ _ _ _ _]
      split
      · next c => subst c; exact g.oq e
      · rfl
  · exact fun e q => by
      rw [show Tbl.getD (s.setFn p f).host.fns {} q = if q = p then f else s.fn q from Tbl.getD_put _ _ _ _ _]
      split
      · next c => subst c; exact g.mbx e
      · rfl
  · exact fun e q => by
      rw [show Tbl.getD (s.setFn p f).host.fns {} q = if q = p then f else s.fn q from Tbl.getD_put _ _ _ _ _]
      split
      · next c => subst c; exact g.controls e
      · rfl

theorem State.hostReadFault_moves {fp : Nat} {s0 s : State} (h : Moves fp s0 s) (hm : Covers 0x2000000000 fp) (x1 : Nat) (x2 : ReadFault) : Moves fp s0 (State.hostReadFault s x1 x2) := by
  unfold State.hostReadFault
  try dsimp only
  with_reducible repeat' first
    | assumption
    | exact hm.mono (by decide)
    | (refine State.setFn_moves ?_ hm _ _)
    | split
    | (refine Moves.leaf ?_ hm)

theorem State.hostWrite_moves {fp : Nat} {s0 s : State} (h : Moves fp s0 s) (hm : Covers 0x4000000000 fp) (a : Nat) (bs : List Byte) : Moves fp s0 (s.hostWrite a bs) :=
  h.step hm fun i => { i with hostMem := Mem.wf_writeBytes _ i.hostMem _ }

theorem State.logFault_moves {fp : Nat} {s0 s : State} (h : Moves fp s0 s) (hm : Covers 0x24000000000000 fp) (f : FaultInfo) : Moves fp s0 (s.logFault f) := by
  unfold State.logFault
  refine State.incObj_moves ?_ (hm.mono (by decide)) ..
  exact h.step hm fun i => { i with faultLog := length_pushRing i.faultLog (by decide) _ }

theorem State.modChunk_moves {fp : Nat} {s0 s : State} (h : Moves fp s0 s) (hm : Covers 0x8000000 fp) (x1 : Nat) (x2 : Nat) (x3 : Chunk → Chunk) : Moves fp s0 (State.modChunk s x1 x2 x3) := by
  unfold State.modChunk
  try dsimp only
  with_reducible repeat' first
    | assumption
    | exact hm.mono (by decide)
    | (intro _; try dsimp only)
    | split
    | (refine Moves.leaf ?_ hm)

theorem State.modStream_moves {fp : Nat} {s0 s : State} (h : Moves fp s0 s) (hm : Covers 0x4000000 fp) (sid : Nat) (f : Stream → Stream) :
    Moves fp s0 (s.modStream sid f) := by
  refine h.step hm fun i => { i with table := ⟨Tbl.sorted_modify i.table.1 _ _, fun e he => ?_⟩ }
  obtain ⟨y, hy, e'⟩ := Tbl.mem_modify he
  exact e' ▸ i.table.2 y hy

theorem State.putStream_moves {fp : Nat} {s0 s : State} (h : Moves fp s0 s) (hm : Covers 0x4000000 fp) (sid : Nat) (st : Stream) (k : sid < 8192) :
    Moves fp s0 (s.putStream sid st) := by
  refine h.step hm fun i => { i with table := ⟨Tbl.sorted_put i.table.1 _ _, fun e he => ?_⟩ }
  rcases Tbl.mem_put he with e' | he
  · exact e' ▸ k
  · exact i.table.2 e he

theorem State.setDomain_moves {fp : Nat} {s0 s : State} (h : Moves fp s0 s) (hm : Covers 0x200000 fp) (x1 : Nat) (x2 : Nat) : Moves fp s0 (State.setDomain s x1 x2) := by
  unfold State.setDomain
  try dsimp only
  with_reducible repeat' first | assumption | exact hm.mono (by decide) | (refine Moves.leaf ?_ hm)

theorem State.setModel_moves {fp : Nat} {s0 s : State} (h : Moves fp s0 s) (hm : Covers 0x20000000 fp) (x1 : Nat) (x2 : ModelSlot) : Moves fp s0 (State.setModel s x1 x2) := by
  unfold State.setModel
  try dsimp only
  with_reducible repeat' first | assumption | exact hm.mono (by decide) | (refine Moves.leaf ?_ hm)

theorem State.setOq_moves {fp : Nat} {s0 s : State} (h : Moves fp s0 s) (hm : Covers 0x800000000 fp) (p r : Nat) (x : OutRing) :
    Moves fp s0 (s.setOq p r x) := State.setFn_moves h hm p _

theorem State.setSq_moves {fp : Nat} {s0 s : State} (h : Moves fp s0 s) (hm : Covers 0x400000000 fp) (p r : Nat) (x : SubRing) :
    Moves fp s0 (s.setSq p r x) := State.setFn_moves h hm p _


/-! ### Machine/Scratch.lean -/

theorem State.countReads_moves {fp : Nat} {s0 s : State} (h : Moves fp s0 s) (hm : Covers 0x4000000000000 fp) (x1 : List Nat) : StatePair fp s0 (State.countReads s x1) := by
  unfold State.countReads
  try dsimp only
  with_reducible repeat' first
    | assumption
    | exact hm.mono (by decide)
    | (intro _; try dsimp only)
    | apply State.incObj_moves
    | apply StatePair.of
    | (refine StatePair.use ?_ (by assumption))
    | apply StatePair.fst
    | apply Moves.foldl

theorem State.spUncorrected_moves {fp : Nat} {s0 s : State} (h : Moves fp s0 s) (hm : Covers 0x84000000000000 fp) (x1 : Nat) (x2 : Nat) : Moves fp s0 (State.spUncorrected s x1 x2) := by
  unfold State.spUncorrected
  try dsimp only
  with_reducible repeat' first
    | assumption
    | exact hm.mono (by decide)
    | apply State.incObj_moves
    | apply State.emcyEvent_moves

theorem State.writeRow_moves {fp : Nat} {s0 s : State} (h : Moves fp s0 s) (hm : Covers 0x6 fp) (r : Nat) (bs : List Byte) : Moves fp s0 (s.writeRow r bs) :=
  h.step hm fun i => { i with sp := Mem.wf_writeBytes _ i.sp _ }

theorem State.flushBuf_moves {fp : Nat} {s0 s : State} (h : Moves fp s0 s) (hm : Covers 0xa4000000000006 fp) (x1 : Nat) (x2 : GatherBuf) : Moves fp s0 (State.flushBuf s x1 x2) := by
  unfold State.flushBuf
  try dsimp only
  with_reducible repeat' first
    | assumption
    | exact hm.mono (by decide)
    | apply State.countReads_moves
    | apply State.spUncorrected_moves
    | apply State.writeRow_moves
    | apply State.logFault_moves
    | apply StatePair.of
    | (refine StatePair.use ?_ (by assumption))
    | apply StatePair.fst
    | split
    | (refine Moves.leaf ?_ hm)

theorem State.setGather_moves {fp : Nat} {s0 s : State} (h : Moves fp s0 s) (hm : Covers 0x20 fp) (x1 : Nat) (x2 : List GatherBuf) : Moves fp s0 (State.setGather s x1 x2) := by
  unfold State.setGather
  try dsimp only
  with_reducible repeat' first | assumption | exact hm.mono (by decide) | (refine Moves.leaf ?_ hm)

theorem State.flushPort_moves {fp : Nat} {s0 s : State} (h : Moves fp s0 s) (hm : Covers 0xa4000000000026 fp) (x1 : Nat) (x2 : GatherBuf → Bool) : Moves fp s0 (State.flushPort s x1 x2) := by
  unfold State.flushPort
  try dsimp only
  with_reducible repeat' first
    | assumption
    | exact hm.mono (by decide)
    | (intro _; try dsimp only)
    | apply State.flushBuf_moves
    | apply State.setGather_moves
    | apply Moves.foldl

theorem State.flushAll_moves {fp : Nat} {s0 s : State} (h : Moves fp s0 s) (hm : Covers 0xa4000000000026 fp) (x1 : Nat → GatherBuf → Bool) : Moves fp s0 (State.flushAll s x1) := by
  unfold State.flushAll
  try dsimp only
  with_reducible repeat' first
    | assumption
    | exact hm.mono (by decide)
    | (intro _; try dsimp only)
    | apply State.flushPort_moves
    | apply Moves.foldl

theorem State.hbmUncorrected_moves {fp : Nat} {s0 s : State} (h : Moves fp s0 s) (hm : Covers 0x84000000000000 fp) (x1 : Nat) (x2 : Nat) : Moves fp s0 (State.hbmUncorrected s x1 x2) := by
  unfold State.hbmUncorrected
  try dsimp only
  with_reducible repeat' first
    | assumption
    | exact hm.mono (by decide)
    | apply State.incObj_moves
    | apply State.emcyEvent_moves

theorem State.narrowWrite_moves {fp : Nat} {s0 s : State} (h : Moves fp s0 s) (hm : Covers 0xa4000000000026 fp) (x1 : Nat) (x2 : Nat) (x3 : Nat) (x4 : List Byte) (x5 : List (Nat × Nat)) : Moves fp s0 (State.narrowWrite s x1 x2 x3 x4 x5) := by
  unfold State.narrowWrite
  try dsimp only
  with_reducible repeat' first
    | assumption
    | exact hm.mono (by decide)
    | (intro _; try dsimp only)
    | apply State.flushBuf_moves
    | apply State.setGather_moves
    | apply Moves.foldl
    | split
    | (refine Moves.leaf ?_ hm)

theorem State.readHbm_moves {fp : Nat} {s0 s : State} (h : Moves fp s0 s) (hm : Covers 0x4000000000000 fp) (x1 : Nat) (x2 : Nat) : TripleMoves fp s0 (State.readHbm s x1 x2) := by
  unfold State.readHbm
  try dsimp only
  with_reducible repeat' first
    | assumption
    | exact hm.mono (by decide)
    | (intro _; try dsimp only)
    | apply State.incObj_moves
    | apply TripleMoves.of
    | (refine TripleMoves.use ?_ (by assumption))
    | apply TripleMoves.mid
    | apply Moves.foldl
    | split

theorem State.setTag_moves {fp : Nat} {s0 s : State} (h : Moves fp s0 s) (hm : Covers 0x8 fp) (x1 : Nat) (x2 : Tag) : Moves fp s0 (State.setTag s x1 x2) := by
  unfold State.setTag
  try dsimp only
  with_reducible repeat' first | assumption | exact hm.mono (by decide) | (refine Moves.leaf ?_ hm)

theorem State.setTileTag_moves {fp : Nat} {s0 s : State} (h : Moves fp s0 s) (hm : Covers 0x80 fp) (x1 : Nat) (x2 : Tag) : Moves fp s0 (State.setTileTag s x1 x2) := by
  unfold State.setTileTag
  try dsimp only
  with_reducible repeat' first | assumption | exact hm.mono (by decide) | (refine Moves.leaf ?_ hm)

theorem State.setClaimTag_moves {fp : Nat} {s0 s : State} (h : Moves fp s0 s) (hm : Covers 0x88 fp) (x1 : Claim) (x2 : Tag) : Moves fp s0 (State.setClaimTag s x1 x2) := by
  unfold State.setClaimTag
  try dsimp only
  with_reducible repeat' first
    | assumption
    | exact hm.mono (by decide)
    | apply State.setTag_moves
    | apply State.setTileTag_moves
    | split

theorem State.writeHbm_moves {fp : Nat} {s0 s : State} (h : Moves fp s0 s) (hm : Covers 0x104 fp) (a : Nat) (bs : List Byte) : Moves fp s0 (s.writeHbm a bs) :=
  h.step hm fun i => { i with hbm := Mem.wf_writeBytes _ i.hbm _ }

theorem State.writeRows_moves {fp : Nat} {s0 s : State} (h : Moves fp s0 s) (hm : Covers 0x6 fp) (r : Nat) (l : List (List Byte)) : Moves fp s0 (s.writeRows r l) := by
  induction l generalizing s r with
  | nil => exact h
  | cons b bs ih => exact ih (State.writeRow_moves h (hm.mono (by decide)) r b) (r + 1)


/-! ### Machine/PowerOps.lean -/

theorem State.followLevel_moves {fp : Nat} {s0 s : State} (h : Moves fp s0 s) (hm : Covers 0x800000000000000000 fp)  : Moves fp s0 (State.followLevel s) := by
  unfold State.followLevel
  try dsimp only
  with_reducible repeat' first | assumption | exact hm.mono (by decide) | split | (refine Moves.leaf ?_ hm)

theorem State.modPw_moves {fp k : Nat} {s0 s : State} (h : Moves fp s0 s) (hm : Covers k fp) (f : Power → Power)
    (g : ∀ c : Power, PowerFrame k c (f c) := by
      intro c
      constructor <;> first | exact fun e => absurd e (by decide) | exact fun _ => rfl) : Moves fp s0 (s.modPw f) :=
  ⟨h.pending, fun i => { h.inv i with },
    h.frame.trans (({ Footprint.refl k s with pw := g s.pw } : Footprint k s (s.modPw f)).mono hm)⟩

theorem State.toPower_moves {fp : Nat} {s0 s : State} (h : Moves fp s0 s) (hm : Covers 0x80000000000000000 fp) (x1 : Nat) : Moves fp s0 (State.toPower s x1) := by
  unfold State.toPower
  try dsimp only
  with_reducible repeat' first
    | assumption
    | exact hm.mono (by decide)
    | (intro _; try dsimp only)
    | (refine State.modPw_moves ?_ hm _)
    | split
    | (refine Moves.leaf ?_ hm)

theorem State.wakeTrigger_moves {fp : Nat} {s0 s : State} (h : Moves fp s0 s) (hm : Covers 0x80000000000000000 fp)  : Moves fp s0 (State.wakeTrigger s) := by
  unfold State.wakeTrigger
  try dsimp only
  with_reducible repeat' first
    | assumption
    | exact hm.mono (by decide)
    | (intro _; try dsimp only)
    | apply State.toPower_moves
    | (refine State.modPw_moves ?_ hm _)
    | split
    | (refine Moves.leaf ?_ hm)


/-! ### Machine/Engine.lean -/

theorem State.accUncorrected_moves {fp : Nat} {s0 s : State} (h : Moves fp s0 s) (hm : Covers 0x84000000100000 fp) (x1 : Nat) : Moves fp s0 (State.accUncorrected s x1) := by
  unfold State.accUncorrected
  try dsimp only
  with_reducible repeat' first
    | assumption
    | exact hm.mono (by decide)
    | apply State.addEng_moves
    | apply State.emcyEvent_moves

theorem State.putCmd_moves {fp : Nat} {s0 s : State} (h : Moves fp s0 s) (hm : Covers 0x1000 fp) (c : Cmd) : Moves fp s0 (s.putCmd c) := by
  refine h.step hm fun i => { i with accepted := fun x hx hs => ?_ }
  obtain ⟨y, hy, e⟩ := List.mem_map.1 hx
  split at e
  · next k => subst e; exact k.1 ▸ i.accepted y hy (k.2.trans hs)
  · subst e; exact i.accepted y hy hs

theorem State.ctlWord_moves {fp : Nat} {s0 s : State} (h : Moves fp s0 s) (hm : Covers 0x4000000000000 fp) (x1 : CtlWord) : Moves fp s0 (State.ctlWord s x1) := by
  unfold State.ctlWord
  try dsimp only
  with_reducible repeat' first | assumption | exact hm.mono (by decide) | apply State.incObj_moves | split

theorem State.upset_moves {fp : Nat} {s0 s : State} (h : Moves fp s0 s) (hm : Covers 0x4000001000004 fp) (x1 : Nat) (x2 : Hw) : Moves fp s0 (State.upset s x1 x2) := by
  unfold State.upset
  try dsimp only
  with_reducible repeat' first
    | assumption
    | exact hm.mono (by decide)
    | (intro _; try dsimp only)
    | apply State.ctlWord_moves
    | apply Moves.foldl
    | split
    | (refine Moves.leaf ?_ hm)

theorem State.atCommand_moves {fp : Nat} {s0 s : State} (h : Moves fp s0 s) (hm : Covers 0x4000001001004 fp) (x1 : Nat) (x2 : Nat) (x3 : Hw) (x4 : State → Cmd → State) (hx4 : ∀ y0 y1, Moves fp s0 y0 → Moves fp s0 (x4 y0 y1)) : Moves fp s0 (State.atCommand s x1 x2 x3 x4) := by
  unfold State.atCommand
  try dsimp only
  with_reducible repeat' first
    | assumption
    | exact hm.mono (by decide)
    | apply hx4
    | apply State.upset_moves
    | apply State.putCmd_moves
    | split
    | (refine Moves.leaf ?_ hm)

theorem State.countAcc_moves {fp : Nat} {s0 s : State} (h : Moves fp s0 s) (hm : Covers 0x100000 fp) (x1 : Nat) (x2 : List Nat) : Moves fp s0 (State.countAcc s x1 x2) := by
  unfold State.countAcc
  try dsimp only
  with_reducible repeat' first
    | assumption
    | exact hm.mono (by decide)
    | (intro _; try dsimp only)
    | apply State.addEng_moves

theorem State.dropCmd_moves {fp : Nat} {s0 s : State} (h : Moves fp s0 s) (hm : Covers 0x1000 fp) (c : Cmd) : Moves fp s0 (s.dropCmd c) :=
  h.step hm fun i => { i with accepted := fun x hx => i.accepted x (List.mem_of_mem_filter hx) }

theorem State.failRow_moves {fp : Nat} {s0 s : State} (h : Moves fp s0 s) (hm : Covers 0x84000000001000 fp) (x1 : Cmd) (x2 : Nat) : Moves fp s0 (State.failRow s x1 x2) := by
  unfold State.failRow
  try dsimp only
  with_reducible repeat' first
    | assumption
    | exact hm.mono (by decide)
    | apply State.spUncorrected_moves
    | apply State.putCmd_moves
    | (refine Moves.leaf ?_ hm)

theorem State.failTile_moves {fp : Nat} {s0 s : State} (h : Moves fp s0 s) (hm : Covers 0x84000000101000 fp) (x1 : Cmd) (x2 : Nat) (x3 : Nat) : Moves fp s0 (State.failTile s x1 x2 x3) := by
  unfold State.failTile
  try dsimp only
  with_reducible repeat' first
    | assumption
    | exact hm.mono (by decide)
    | apply State.accUncorrected_moves
    | apply State.putCmd_moves
    | (refine Moves.leaf ?_ hm)

theorem State.narrowAll_moves {fp : Nat} {s0 s : State} (h : Moves fp s0 s) (hm : Covers 0xa4000000000026 fp) (x1 : Nat) (x2 : Nat) (x3 : Nat) (x4 : List (Nat × Nat)) (x5 : List Byte) : Moves fp s0 (State.narrowAll s x1 x2 x3 x4 x5) := by
  unfold State.narrowAll
  try dsimp only
  with_reducible repeat' first
    | assumption
    | exact hm.mono (by decide)
    | (intro _; try dsimp only)
    | apply State.narrowWrite_moves
    | apply Moves.foldl
    | split

theorem State.writeTile_moves {fp : Nat} {s0 s : State} (h : Moves fp s0 s) (hm : Covers 0x44 fp) (key : Nat) (rows : List (List Byte)) :
    Moves fp s0 (s.writeTile key rows) := by
  have k : ∀ (l : List Nat) (f : Nat → Nat) (g : Nat → List Byte) (m : Mem), Mem.wf m →
      Mem.wf (l.foldl (fun m i => Mem.writeBytes m (f i) (g i)) m) := by
    intro l f g
    induction l with
    | nil => exact fun m hm => hm
    | cons x l ih => exact fun m hm => ih _ (Mem.wf_writeBytes _ hm _)
  exact h.step hm fun i => { i with acc := k _ _ _ _ i.acc }

theorem State.land_moves {fp : Nat} {s0 s : State} (h : Moves fp s0 s) (hm : Covers 0xa4000000000066 fp) (x1 : Cmd) (x2 : Result) : Moves fp s0 (State.land s x1 x2) := by
  unfold State.land
  try dsimp only
  with_reducible repeat' first
    | assumption
    | exact hm.mono (by decide)
    | (intro _; try dsimp only)
    | apply State.writeTile_moves
    | apply State.writeRow_moves
    | apply State.narrowAll_moves
    | apply Moves.foldl
    | split
    | (refine Moves.leaf ?_ hm)

theorem State.postMail_moves {fp : Nat} {s0 s : State} (h : Moves fp s0 s) (hm : Covers 0x40000 fp) (x1 : Nat) (x2 : Nat) (x3 : Mail) (x4 : Option Bool) (x5 : Option Nat) : Moves fp s0 (State.postMail s x1 x2 x3 x4 x5) := by
  unfold State.postMail
  try dsimp only
  with_reducible repeat' first | assumption | exact hm.mono (by decide) | split | (refine Moves.leaf ?_ hm)

theorem State.finish_moves {fp : Nat} {s0 s : State} (h : Moves fp s0 s) (hm : Covers 0xa4000000141066 fp) (x1 : Cmd) (x2 : Result) : Moves fp s0 (State.finish s x1 x2) := by
  unfold State.finish
  try dsimp only
  with_reducible repeat' first
    | assumption
    | exact hm.mono (by decide)
    | (intro _; try dsimp only)
    | apply State.land_moves
    | apply State.postMail_moves
    | apply State.putCmd_moves
    | apply State.addEng_moves
    | apply State.logFault_moves
    | apply Moves.foldl
    | split
    | (refine Moves.leaf ?_ hm)

theorem State.freeWords_moves {fp : Nat} {s0 s : State} (h : Moves fp s0 s) (hm : Covers 0x1 fp) (n : Nat) : PairMoves fp s0 (s.freeWords n) := by
  induction n generalizing s with
  | zero => exact ⟨h⟩
  | succ n ih => exact ⟨(ih (State.draw_moves h (hm.mono (by decide))).snd).snd⟩

theorem State.havoc_moves {fp : Nat} {s0 s : State} (h : Moves fp s0 s) (hm : Covers 0x1 fp) (r : Result) : PairMoves fp s0 (s.havoc r) := by
  have k : ∀ {α β : Type} (l : List α) (f : List β × State → α → List β × State),
      (∀ a x, Moves fp s0 a.2 → Moves fp s0 (f a x).2) → ∀ a, Moves fp s0 a.2 → Moves fp s0 (l.foldl f a).2 := by
    intro α β l f hf
    induction l with
    | nil => exact fun a ha => ha
    | cons x l ih => exact fun a ha => ih _ (hf a x ha)
  unfold State.havoc
  dsimp only
  have a1 := k r.rows (fun (acc : List (Nat × Nat × List Byte) × State) w =>
    (acc.1 ++ [(w.1, w.2.1, (acc.2.freeWords 64).1)], (acc.2.freeWords 64).2))
    (fun a _ ha => (State.freeWords_moves ha (hm.mono (by decide)) 64).snd) ([], s) h
  have a2 := k r.narrow (fun (acc : List (Nat × Nat × Nat × List Byte) × State) w =>
    (acc.1 ++ [(w.1, w.2.1, w.2.2.1, (acc.2.freeWords ((w.2.2.2.length + 7) / 8)).1.take w.2.2.2.length)],
      (acc.2.freeWords ((w.2.2.2.length + 7) / 8)).2))
    (fun a _ ha => (State.freeWords_moves ha (hm.mono (by decide)) _).snd) ([], _) a1
  have a3 := (State.draw_moves a2 (hm.mono (by decide))).snd
  cases r.summary with
  | none => exact ⟨a3⟩
  | some m => exact ⟨(State.freeWords_moves a3 (hm.mono (by decide)) 4).snd⟩

theorem State.viewOf_moves {fp : Nat} {s0 s : State} (h : Moves fp s0 s) (hm : Covers 0x6 fp) (x1 : Nat) : Moves fp s0 (State.viewOf s x1) := by
  unfold State.viewOf
  try dsimp only
  with_reducible repeat' first
    | assumption
    | exact hm.mono (by decide)
    | (intro _; try dsimp only)
    | apply State.writeRow_moves
    | apply Moves.foldl
    | split

theorem State.landPath_moves {fp : Nat} {s0 s : State} (h : Moves fp s0 s) (hm : Covers 0xa4000000141067 fp) (p : Datapath) (c : Cmd) (i : OpInfo)
    (sp : List Span) (ha : ∀ v c t, Moves fp s0 t → Moves fp s0 (p.after v c t)) : Moves fp s0 (s.landPath p c i sp) := by
  have k : ∀ (b : Bool) (r : Result), PairMoves fp s0 (if b = true then s.havoc r else (r, s)) := by
    intro b r
    cases b
    · exact .of h
    · exact State.havoc_moves h (hm.mono (by decide)) r
  unfold State.landPath
  dsimp only
  split
  · exact State.finish_moves (k _ _).snd (hm.mono (by decide)) _ _
  · exact ha _ _ _ (State.finish_moves (k _ _).snd (hm.mono (by decide)) _ _)

theorem State.readOr_moves {fp : Nat} {s0 s : State} (h : Moves fp s0 s) (hm : Covers 0x84000000001000 fp) (x1 : Cmd) (x2 : List Nat) (x3 : State → State) (hx3 : ∀ y0, Moves fp s0 y0 → Moves fp s0 (x3 y0)) : Moves fp s0 (State.readOr s x1 x2 x3) := by
  unfold State.readOr
  try dsimp only
  with_reducible repeat' first
    | assumption
    | exact hm.mono (by decide)
    | apply hx3
    | apply State.countReads_moves
    | apply State.failRow_moves
    | apply StatePair.of
    | (refine StatePair.use ?_ (by assumption))
    | apply StatePair.fst
    | split

theorem State.readTilesOr_moves {fp : Nat} {s0 s : State} (h : Moves fp s0 s) (hm : Covers 0x84000000101000 fp) (x1 : Cmd) (x2 : List (Nat × List Nat)) (x3 : State → State) (hx3 : ∀ y0, Moves fp s0 y0 → Moves fp s0 (x3 y0)) : Moves fp s0 (State.readTilesOr s x1 x2 x3) := by
  unfold State.readTilesOr
  try dsimp only
  with_reducible repeat' first
    | assumption
    | exact hm.mono (by decide)
    | (intro _; try dsimp only)
    | apply hx3
    | apply State.countAcc_moves
    | apply State.failTile_moves
    | apply Moves.foldl
    | split

theorem State.startChecks_moves {fp : Nat} {s0 s : State} (h : Moves fp s0 s) (hm : Covers 0xa4000000141066 fp) (c : Cmd) (i : OpInfo) (sp : List Span)
    (l : List StartCheck) (go : State → State) (hg : ∀ t, Moves fp s0 t → Moves fp s0 (go t)) :
    Moves fp s0 (s.startChecks c i sp l go) := by
  induction l generalizing s with
  | nil => exact hg _ h
  | cons k l ih =>
    rw [State.startChecks]
    refine State.readOr_moves h (hm.mono (by decide)) _ _ _ fun t ht => ?_
    split
    · exact State.finish_moves ht (hm.mono (by decide)) _ _
    · exact ih ht

theorem State.runOn_moves {fp : Nat} {s0 s : State} (h : Moves fp s0 s) (hm : Covers 0xa4000000141067 fp) (x1 : Datapath) (x2 : Cmd) (hx1 : ∀ v c t, Moves fp s0 t → Moves fp s0 (x1.after v c t)) : Moves fp s0 (State.runOn s x1 x2) := by
  unfold State.runOn
  try dsimp only
  with_reducible repeat' first
    | assumption
    | exact hm.mono (by decide)
    | (intro _; try dsimp only)
    | apply hx1
    | apply State.startChecks_moves
    | apply State.readOr_moves
    | apply State.readTilesOr_moves
    | apply State.landPath_moves
    | split

theorem State.runPath_moves {fp : Nat} {s0 s : State} (h : Moves fp s0 s) (hm : Covers 0xa4000001141067 fp) (x1 : Nat) (x2 : Hw) (x3 : Datapath) (hx3 : ∀ v c t, Moves fp s0 t → Moves fp s0 (x3.after v c t)) : Moves fp s0 (State.runPath s x1 x2 x3) := by
  unfold State.runPath
  try dsimp only
  with_reducible repeat' first
    | assumption
    | exact hm.mono (by decide)
    | (intro _; try dsimp only)
    | apply hx3
    | apply State.runOn_moves
    | apply State.atCommand_moves


/-! ### Machine/PageOps.lean -/

theorem State.putSeq_moves {fp : Nat} {s0 s : State} (h : Moves fp s0 s) (hm : Covers 0x800000 fp) (x1 : Nat) (x2 : Sequence) : Moves fp s0 (State.putSeq s x1 x2) := by
  unfold State.putSeq
  try dsimp only
  with_reducible repeat' first | assumption | exact hm.mono (by decide) | (refine Moves.leaf ?_ hm)

theorem State.reclaim_moves {fp : Nat} {s0 s : State} (h : Moves fp s0 s) (hm : Covers 0x800000 fp) (x1 : Nat) (x2 : Bool) : Moves fp s0 (State.reclaim s x1 x2) := by
  unfold State.reclaim
  try dsimp only
  with_reducible repeat' first
    | assumption
    | exact hm.mono (by decide)
    | apply State.putSeq_moves
    | split
    | (refine Moves.leaf ?_ hm)

theorem State.editSeq_moves {fp : Nat} {s0 s : State} (h : Moves fp s0 s) (hm : Covers 0x800000 fp) (x1 : Nat) (x2 : PageTable → PageTable) : Moves fp s0 (State.editSeq s x1 x2) := by
  unfold State.editSeq
  try dsimp only
  with_reducible repeat' first
    | assumption
    | exact hm.mono (by decide)
    | apply State.putSeq_moves
    | apply State.reclaim_moves
    | split

theorem State.abortSeqs_moves {fp : Nat} {s0 s : State} (h : Moves fp s0 s) (hm : Covers 0x800000 fp) (x1 : Nat) : Moves fp s0 (State.abortSeqs s x1) := by
  unfold State.abortSeqs
  try dsimp only
  with_reducible repeat' first
    | assumption
    | exact hm.mono (by decide)
    | (intro _; try dsimp only)
    | apply State.editSeq_moves
    | apply Moves.foldl

theorem State.applyDue_moves {fp : Nat} {s0 s : State} (h : Moves fp s0 s) (hm : Covers 0x4000000800000 fp) (x1 : Nat) (x2 : DueEdit) : Moves fp s0 (State.applyDue s x1 x2) := by
  unfold State.applyDue
  try dsimp only
  with_reducible repeat' first
    | assumption
    | exact hm.mono (by decide)
    | apply State.putSeq_moves
    | apply State.reclaim_moves
    | apply State.incObj_moves
    | split
    | (refine Moves.leaf ?_ hm)

theorem State.beginTable_moves {fp : Nat} {s0 s : State} (h : Moves fp s0 s) (hm : Covers 0x800000 fp) (x1 : Nat) (x2 : Bool) (x3 : PageTable) : Moves fp s0 (State.beginTable s x1 x2 x3) := by
  unfold State.beginTable
  try dsimp only
  with_reducible repeat' first
    | assumption
    | exact hm.mono (by decide)
    | apply State.putSeq_moves
    | split
    | (refine Moves.leaf ?_ hm)

theorem State.cancelRx_moves {fp : Nat} {s0 s : State} (h : Moves fp s0 s) (hm : Covers 0x80000000008 fp) (x1 : RxDesc → Bool) : Moves fp s0 (State.cancelRx s x1) := by
  unfold State.cancelRx
  try dsimp only
  with_reducible repeat' first
    | assumption
    | exact hm.mono (by decide)
    | (intro _; try dsimp only)
    | apply State.setTag_moves
    | apply Moves.foldl
    | split
    | (refine Moves.leaf ?_ hm)

theorem State.claimFrames_moves {fp : Nat} {s0 s : State} (h : Moves fp s0 s) (hm : Covers 0x800006 fp) (x1 : List Nat) (x2 : Bool) : Moves fp s0 (State.claimFrames s x1 x2) := by
  unfold State.claimFrames
  try dsimp only
  with_reducible repeat' first
    | assumption
    | exact hm.mono (by decide)
    | (intro _; try dsimp only)
    | apply State.writeRows_moves
    | apply Moves.foldl
    | split
    | (refine Moves.leaf ?_ hm)

theorem State.claimFrame_moves {fp : Nat} {s0 s : State} (h : Moves fp s0 s) (hm : Covers 0x800006 fp) (x1 : Nat) (x2 : Bool) : Moves fp s0 (State.claimFrame s x1 x2) := by
  unfold State.claimFrame
  try dsimp only
  with_reducible repeat' first | assumption | exact hm.mono (by decide) | apply State.claimFrames_moves

theorem State.claimSpill_moves {fp : Nat} {s0 s : State} (h : Moves fp s0 s) (hm : Covers 0x1000000 fp) (x1 : Nat) : Moves fp s0 (State.claimSpill s x1) := by
  unfold State.claimSpill
  try dsimp only
  with_reducible repeat' first | assumption | exact hm.mono (by decide) | (refine Moves.leaf ?_ hm)

theorem State.dropNodes_moves {fp : Nat} {s0 s : State} (h : Moves fp s0 s) (hm : Covers 0x2000000 fp) (x1 : Nat) : Moves fp s0 (State.dropNodes s x1) := by
  unfold State.dropNodes
  try dsimp only
  with_reducible repeat' first
    | assumption
    | exact hm.mono (by decide)
    | (intro _; try dsimp only)
    | apply Moves.foldl
    | split
    | (refine Moves.leaf ?_ hm)

theorem State.modSeq_moves {fp : Nat} {s0 s : State} (h : Moves fp s0 s) (hm : Covers 0x800000 fp) (x1 : Nat) (x2 : Sequence → Sequence) : Moves fp s0 (State.modSeq s x1 x2) := by
  unfold State.modSeq
  try dsimp only
  with_reducible repeat' first | assumption | exact hm.mono (by decide) | apply State.putSeq_moves | split

theorem State.settleSeq_moves {fp : Nat} {s0 s : State} (h : Moves fp s0 s) (hm : Covers 0x4000000800000 fp) (q n : Nat) :
    Moves fp s0 (s.settleSeq q n) := by
  induction n generalizing s with
  | zero => exact h
  | succ n ih =>
    rw [State.settleSeq]
    split
    · exact h
    · split
      · exact h
      · split
        · exact ih (State.applyDue_moves (State.putSeq_moves h (hm.mono (by decide)) _ _) (hm.mono (by decide)) _ _)
        · exact h

theorem State.editWhenFree_moves {fp : Nat} {s0 s : State} (h : Moves fp s0 s) (hm : Covers 0x4000000800000 fp) (q : Nat) (e : DueEdit) :
    Moves fp s0 (s.editWhenFree q e) :=
  State.settleSeq_moves (State.modSeq_moves h (hm.mono (by decide)) _ _) (hm.mono (by decide)) q 8

theorem State.endSeq_moves {fp : Nat} {s0 s : State} (h : Moves fp s0 s) (hm : Covers 0x800000 fp) (x1 : Nat) : Moves fp s0 (State.endSeq s x1) := by
  unfold State.endSeq
  try dsimp only
  with_reducible repeat' first
    | assumption
    | exact hm.mono (by decide)
    | apply State.putSeq_moves
    | apply State.reclaim_moves
    | split
    | (refine Moves.leaf ?_ hm)

theorem State.endSeqs_moves {fp : Nat} {s0 s : State} (h : Moves fp s0 s) (hm : Covers 0x800000 fp) (x1 : Nat) : Moves fp s0 (State.endSeqs s x1) := by
  unfold State.endSeqs
  try dsimp only
  with_reducible repeat' first
    | assumption
    | exact hm.mono (by decide)
    | (intro _; try dsimp only)
    | apply State.endSeq_moves
    | apply Moves.foldl

theorem State.walk_moves {fp : Nat} {s0 s : State} (h : Moves fp s0 s) (hm : Covers 0x200800000 fp) (x1 : Nat) (x2 : Bool) (x3 : Int) : Moves fp s0 (State.walk s x1 x2 x3) := by
  unfold State.walk
  try dsimp only
  with_reducible repeat' first
    | assumption
    | exact hm.mono (by decide)
    | (intro _; try dsimp only)
    | apply State.putSeq_moves
    | split
    | (refine Moves.leaf ?_ hm)

theorem State.endWalk_moves {fp : Nat} {s0 s : State} (h : Moves fp s0 s) (hm : Covers 0x4000200800000 fp) (q : Nat) (copyB : Bool) :
    Moves fp s0 (s.endWalk q copyB) :=
  State.settleSeq_moves (State.reclaim_moves (State.walk_moves h (hm.mono (by decide)) _ _ _) (hm.mono (by decide)) _ _) (hm.mono (by decide)) q 8

theorem State.evictNode_moves {fp : Nat} {s0 s : State} (h : Moves fp s0 s) (hm : Covers 0x4000002000000 fp) (x1 : TreeNode → Bool) : OptMoves fp s0 (State.evictNode s x1) := by
  unfold State.evictNode
  try dsimp only
  with_reducible repeat' first
    | assumption
    | exact hm.mono (by decide)
    | (intro _; try dsimp only)
    | apply State.incObj_moves
    | apply OptMoves.some
    | apply OptMoves.none
    | (refine OptMoves.use ?_ (by assumption))
    | apply OptMoves.getD
    | split
    | (refine Moves.leaf ?_ hm)

theorem State.markPage_moves {fp : Nat} {s0 s : State} (h : Moves fp s0 s) (hm : Covers 0x4000000800000 fp) (x1 : Nat) : Moves fp s0 (State.markPage s x1) := by
  unfold State.markPage
  try dsimp only
  with_reducible repeat' first
    | assumption
    | exact hm.mono (by decide)
    | (intro _; try dsimp only)
    | apply State.editWhenFree_moves
    | apply Moves.foldl

theorem State.pageLost_moves {fp : Nat} {s0 s : State} (h : Moves fp s0 s) (hm : Covers 0x4000002800000 fp) (x1 : Nat) : Moves fp s0 (State.pageLost s x1) := by
  unfold State.pageLost
  try dsimp only
  with_reducible repeat' first
    | assumption
    | exact hm.mono (by decide)
    | apply State.markPage_moves
    | apply State.dropNodes_moves

theorem State.takeOnchip_moves {fp : Nat} {s0 s : State} (h : Moves fp s0 s) (hm : Covers 0x800006 fp) (x1 : Nat) : OptPair fp s0 (State.takeOnchip s x1) := by
  unfold State.takeOnchip
  try dsimp only
  with_reducible repeat' first
    | assumption
    | exact hm.mono (by decide)
    | (intro _; try dsimp only)
    | apply State.claimFrame_moves
    | apply OptPair.some
    | apply OptPair.none
    | (refine OptPair.use ?_ (by assumption))
    | apply OptPair.ofPair
    | split

theorem State.writePage_moves {fp : Nat} {s0 s : State} (h : Moves fp s0 s) (hm : Covers 0x1000006 fp) (page : Nat) (bs : List Byte) : Moves fp s0 (s.writePage page bs) := by
  unfold State.writePage
  split
  · exact h.step hm fun i => { i with spill := Mem.wf_writeBytes _ i.spill _ }
  · exact State.writeRows_moves h (hm.mono (by decide)) _ _


/-! ### Machine/Publish.lean -/

theorem State.freeStream_moves {fp : Nat} {s0 s : State} (h : Moves fp s0 s) (hm : Covers 0xc800000 fp) (sid : Nat) : Moves fp s0 (s.freeStream sid) :=
  (State.endSeqs_moves h (hm.mono (by decide)) sid).step hm fun i =>
    { i with table := ⟨Tbl.sorted_erase i.table.1 _, fun e he => i.table.2 e (Tbl.mem_erase he)⟩ }

theorem State.place_moves {fp : Nat} {s0 s : State} (h : Moves fp s0 s) (hm : Covers 0x804000000 fp) (x1 : Nat) (x2 : Nat) (x3 : Nat) (x4 : Bool) (x5 : Rec × List Byte) : Moves fp s0 (State.place s x1 x2 x3 x4 x5) := by
  unfold State.place
  try dsimp only
  with_reducible repeat' first
    | assumption
    | exact hm.mono (by decide)
    | (intro _; try dsimp only)
    | apply State.setOq_moves
    | apply State.modStream_moves
    | split
    | (refine Moves.leaf ?_ hm)

theorem State.published_moves {fp : Nat} {s0 s : State} (h : Moves fp s0 s) (hm : Covers 0xc800000 fp) (x1 : Rec) : Moves fp s0 (State.published s x1) := by
  unfold State.published
  try dsimp only
  with_reducible repeat' first | assumption | exact hm.mono (by decide) | apply State.freeStream_moves | split

theorem State.placeAll_moves {fp : Nat} {s0 s : State} (h : Moves fp s0 s) (hm : Covers 0x80c800000 fp) (x1 : Nat) (x2 : Nat) (x3 : Nat) (x4 : Bool) (x5 : List (Rec × List Byte)) : Moves fp s0 (State.placeAll s x1 x2 x3 x4 x5) := by
  unfold State.placeAll
  try dsimp only
  with_reducible repeat' first
    | assumption
    | exact hm.mono (by decide)
    | (intro _; try dsimp only)
    | apply State.place_moves
    | apply State.published_moves
    | apply Moves.foldl

theorem State.placeOwn_moves {fp : Nat} {s0 s : State} (h : Moves fp s0 s) (hm : Covers 0x82c800000 fp) (x1 : Waiting) : Moves fp s0 (State.placeOwn s x1) := by
  unfold State.placeOwn
  try dsimp only
  with_reducible repeat' first
    | assumption
    | exact hm.mono (by decide)
    | apply State.placeAll_moves
    | apply State.setModel_moves
    | apply State.freeStream_moves
    | split

theorem State.publishW_moves {fp : Nat} {s0 s : State} (h : Moves fp s0 s) (hm : Covers 0x92c800000 fp) (x1 : Waiting) : Moves fp s0 (State.publishW s x1) := by
  unfold State.publishW
  try dsimp only
  with_reducible repeat' first
    | assumption
    | exact hm.mono (by decide)
    | apply State.placeOwn_moves
    | split
    | (refine Moves.leaf ?_ hm)

theorem State.publishAt_moves {fp : Nat} {s0 s : State} (h : Moves fp s0 s) (hm : Covers 0x92c800000 fp) (x1 : Nat) (x2 : Nat) (x3 : Nat) (x4 : List (Rec × List Byte)) : Moves fp s0 (State.publishAt s x1 x2 x3 x4) := by
  unfold State.publishAt
  try dsimp only
  with_reducible repeat' first
    | assumption
    | exact hm.mono (by decide)
    | apply State.publishW_moves
    | (refine Moves.leaf ?_ hm)

theorem State.publish_moves {fp : Nat} {s0 s : State} (h : Moves fp s0 s) (hm : Covers 0x92c800000 fp) (x1 : Nat) (x2 : Nat) (x3 : List (Rec × List Byte)) : Moves fp s0 (State.publish s x1 x2 x3) := by
  unfold State.publish
  try dsimp only
  with_reducible repeat' first | assumption | exact hm.mono (by decide) | apply State.publishAt_moves

theorem State.streamEvent_moves {fp : Nat} {s0 s : State} (h : Moves fp s0 s) (hm : Covers 0x92c800000 fp) (x1 : Nat) (x2 : Nat) (x3 : Nat) (x4 : Nat) (x5 : Nat) (x6 : Nat) : Moves fp s0 (State.streamEvent s x1 x2 x3 x4 x5 x6) := by
  unfold State.streamEvent
  try dsimp only
  with_reducible repeat' first | assumption | exact hm.mono (by decide) | apply State.publish_moves | split

theorem State.refuseExports_moves {fp : Nat} {s0 s : State} (h : Moves fp s0 s) (hm : Covers 0x92c800000 fp) (x1 : Nat) (x2 : List ExportReq) : Moves fp s0 (State.refuseExports s x1 x2) := by
  unfold State.refuseExports
  try dsimp only
  with_reducible repeat' first
    | assumption
    | exact hm.mono (by decide)
    | (intro _; try dsimp only)
    | apply State.streamEvent_moves
    | apply Moves.foldl

theorem State.dropExports_moves {fp : Nat} {s0 s : State} (h : Moves fp s0 s) (hm : Covers 0x92c800000 fp) (x1 : Nat) (x2 : ExportReq → Bool) : Moves fp s0 (State.dropExports s x1 x2) := by
  unfold State.dropExports
  try dsimp only
  with_reducible repeat' first
    | assumption
    | exact hm.mono (by decide)
    | (intro _; try dsimp only)
    | apply State.refuseExports_moves
    | apply State.modStream_moves
    | split
    | (refine Moves.leaf ?_ hm)

theorem State.closeStream_moves {fp : Nat} {s0 s : State} (h : Moves fp s0 s) (hm : Covers 0x92c800000 fp) (x1 : Nat) (x2 : Nat) (x3 : Nat) : Moves fp s0 (State.closeStream s x1 x2 x3) := by
  unfold State.closeStream
  try dsimp only
  with_reducible repeat' first
    | assumption
    | exact hm.mono (by decide)
    | (intro _; try dsimp only)
    | apply State.streamEvent_moves
    | apply State.modStream_moves
    | apply State.dropExports_moves
    | split
    | (refine Moves.leaf ?_ hm)

theorem State.retractAt_moves {fp : Nat} {s0 s : State} (h : Moves fp s0 s) (hm : Covers 0x400092c800000 fp) (x1 : Nat) (x2 : Nat) : Moves fp s0 (State.retractAt s x1 x2) := by
  unfold State.retractAt
  try dsimp only
  with_reducible repeat' first
    | assumption
    | exact hm.mono (by decide)
    | (intro _; try dsimp only)
    | apply State.incObj_moves
    | apply State.publishAt_moves
    | apply State.modStream_moves
    | split
    | (refine Moves.leaf ?_ hm)

theorem State.retractLedger_moves {fp : Nat} {s0 s : State} (h : Moves fp s0 s) (hm : Covers 0x400092c800000 fp) (x1 : Nat) : Moves fp s0 (State.retractLedger s x1) := by
  unfold State.retractLedger
  try dsimp only
  with_reducible repeat' first | assumption | exact hm.mono (by decide) | apply State.retractAt_moves

theorem State.ring0Event_moves {fp : Nat} {s0 s : State} (h : Moves fp s0 s) (hm : Covers 0x92c800000 fp) (x1 : Nat) (x2 : Nat) (x3 : Nat) (x4 : Nat) (x5 : Nat) (x6 : Nat) : Moves fp s0 (State.ring0Event s x1 x2 x3 x4 x5 x6) := by
  unfold State.ring0Event
  try dsimp only
  with_reducible repeat' first | assumption | exact hm.mono (by decide) | apply State.publish_moves


/-! ### Machine/LinkOps.lean -/

theorem State.setPort_moves {fp : Nat} {s0 s : State} (h : Moves fp s0 s) (hm : Covers 0x40000000000 fp) (x1 : Nat) (x2 : XPort) : Moves fp s0 (State.setPort s x1 x2) := by
  unfold State.setPort
  try dsimp only
  with_reducible repeat' first | assumption | exact hm.mono (by decide) | (refine Moves.leaf ?_ hm)

theorem State.send_moves {fp : Nat} {s0 s : State} (h : Moves fp s0 s) (hm : Covers 0x40000000000 fp) (x1 : Nat) (x2 : Frame) : Moves fp s0 (State.send s x1 x2) := by
  unfold State.send
  try dsimp only
  with_reducible repeat' first
    | assumption
    | exact hm.mono (by decide)
    | apply State.setPort_moves
    | split
    | (refine Moves.leaf ?_ hm)

theorem State.cancelParts_moves {fp : Nat} {s0 s : State} (h : Moves fp s0 s) (hm : Covers 0xc0000000008 fp) (x1 : Nat) (x2 : Nat) : Moves fp s0 (State.cancelParts s x1 x2) := by
  unfold State.cancelParts
  try dsimp only
  with_reducible repeat' first
    | assumption
    | exact hm.mono (by decide)
    | (intro _; try dsimp only)
    | apply State.cancelRx_moves
    | apply State.send_moves
    | apply Moves.foldl
    | split
    | (refine Moves.leaf ?_ hm)

theorem State.endParts_moves {fp : Nat} {s0 s : State} (h : Moves fp s0 s) (hm : Covers 0x840000000000 fp) (x1 : Nat) : Moves fp s0 (State.endParts s x1) := by
  unfold State.endParts
  try dsimp only
  with_reducible repeat' first
    | assumption
    | exact hm.mono (by decide)
    | (intro _; try dsimp only)
    | apply State.send_moves
    | apply Moves.foldl
    | (refine Moves.leaf ?_ hm)

theorem State.sendAll_moves {fp : Nat} {s0 s : State} (h : Moves fp s0 s) (hm : Covers 0x40000000000 fp) (x1 : Nat) (x2 : List Frame) : Moves fp s0 (State.sendAll s x1 x2) := by
  unfold State.sendAll
  try dsimp only
  with_reducible repeat' first
    | assumption
    | exact hm.mono (by decide)
    | (intro _; try dsimp only)
    | apply State.send_moves
    | apply Moves.foldl


/-! ### Machine/Recovery.lean -/

theorem State.complete_moves {fp : Nat} {s0 s : State} (h : Moves fp s0 s) (hm : Covers 0x40000 fp) (x1 : Desc) (x2 : CompKind) (x3 : Nat) (x4 : Nat) (x5 : Nat) : Moves fp s0 (State.complete s x1 x2 x3 x4 x5) := by
  unfold State.complete
  try dsimp only
  with_reducible repeat' first | assumption | exact hm.mono (by decide) | apply State.postMail_moves | split

theorem State.releaseClaims_moves {fp : Nat} {s0 s : State} (h : Moves fp s0 s) (hm : Covers 0x88 fp) (x1 : Cmd) (x2 : Bool) : Moves fp s0 (State.releaseClaims s x1 x2) := by
  unfold State.releaseClaims
  try dsimp only
  with_reducible repeat' first
    | assumption
    | exact hm.mono (by decide)
    | (intro _; try dsimp only)
    | apply State.setClaimTag_moves
    | apply Moves.foldl
    | split

theorem State.clearMx_moves {fp : Nat} {s0 s : State} (h : Moves fp s0 s) (hm : Covers 0xc4 fp) (mx : Nat) : Moves fp s0 (s.clearMx mx) :=
  h.step hm fun i => { i with acc := Mem.wf_clearRange i.acc _ _ }

theorem State.settleEngine_moves {fp : Nat} {s0 s : State} (h : Moves fp s0 s) (hm : Covers 0x2000c4 fp) (x1 : Nat) : Moves fp s0 (State.settleEngine s x1) := by
  unfold State.settleEngine
  try dsimp only
  with_reducible repeat' first
    | assumption
    | exact hm.mono (by decide)
    | (intro _; try dsimp only)
    | apply State.setDomain_moves
    | apply State.clearMx_moves
    | split

theorem State.settleMxs_moves {fp : Nat} {s0 s : State} (h : Moves fp s0 s) (hm : Covers 0x2000c4 fp)  : Moves fp s0 (State.settleMxs s) := by
  unfold State.settleMxs
  try dsimp only
  with_reducible repeat' first
    | assumption
    | exact hm.mono (by decide)
    | (intro _; try dsimp only)
    | apply State.settleEngine_moves
    | apply Moves.foldl

theorem State.endClaims_moves {fp : Nat} {s0 s : State} (h : Moves fp s0 s) (hm : Covers 0x2000cc fp) (x1 : Cmd) (x2 : Bool) : Moves fp s0 (State.endClaims s x1 x2) := by
  unfold State.endClaims
  try dsimp only
  with_reducible repeat' first
    | assumption
    | exact hm.mono (by decide)
    | apply State.settleMxs_moves
    | apply State.releaseClaims_moves

theorem State.dropCopies_moves {fp : Nat} {s0 s : State} (h : Moves fp s0 s) (hm : Covers 0x2010cc fp) (x1 : Cmd) : Moves fp s0 (State.dropCopies s x1) := by
  unfold State.dropCopies
  try dsimp only
  with_reducible repeat' first
    | assumption
    | exact hm.mono (by decide)
    | (intro _; try dsimp only)
    | apply State.dropCmd_moves
    | apply State.endClaims_moves
    | apply Moves.foldl

theorem State.endWalks_moves {fp : Nat} {s0 s : State} (h : Moves fp s0 s) (hm : Covers 0x4000200800000 fp) (x1 : Cmd) : Moves fp s0 (State.endWalks s x1) := by
  unfold State.endWalks
  try dsimp only
  with_reducible repeat' first
    | assumption
    | exact hm.mono (by decide)
    | (intro _; try dsimp only)
    | apply State.endWalk_moves
    | apply Moves.foldl

theorem State.cancelCmd_moves {fp : Nat} {s0 s : State} (h : Moves fp s0 s) (hm : Covers 0x4840200a410cc fp) (x1 : Cmd) : Moves fp s0 (State.cancelCmd s x1) := by
  unfold State.cancelCmd
  try dsimp only
  with_reducible repeat' first
    | assumption
    | exact hm.mono (by decide)
    | apply State.dropCmd_moves
    | apply State.complete_moves
    | apply State.dropCopies_moves
    | apply State.endWalks_moves
    | apply State.endClaims_moves
    | apply State.endParts_moves

theorem State.cancelChunk_moves {fp : Nat} {s0 s : State} (h : Moves fp s0 s) (hm : Covers 0x4840200a410cc fp) (x1 : Nat) (x2 : Nat) : Moves fp s0 (State.cancelChunk s x1 x2) := by
  unfold State.cancelChunk
  try dsimp only
  with_reducible repeat' first
    | assumption
    | exact hm.mono (by decide)
    | (intro _; try dsimp only)
    | apply State.cancelCmd_moves
    | apply Moves.foldl

theorem State.emptyTags_moves {fp : Nat} {s0 s : State} (h : Moves fp s0 s) (hm : Covers 0x2000cc fp) (x1 : Nat) (x2 : Nat) : Moves fp s0 (State.emptyTags s x1 x2) := by
  unfold State.emptyTags
  try dsimp only
  with_reducible repeat' first
    | assumption
    | exact hm.mono (by decide)
    | (intro _; try dsimp only)
    | apply State.settleMxs_moves
    | apply State.setTag_moves
    | apply State.setTileTag_moves
    | apply Moves.foldl

theorem State.copyFromMirror_moves {fp : Nat} {s0 s : State} (h : Moves fp s0 s) (hm : Covers 0x6 fp) (x1 : Nat) (x2 : Machine.Stream) (x3 : Bool) (x4 : Bool) : Moves fp s0 (State.copyFromMirror s x1 x2 x3 x4) := by
  unfold State.copyFromMirror
  try dsimp only
  with_reducible repeat' first | assumption | exact hm.mono (by decide) | apply State.writeRows_moves

theorem State.loseStream_moves {fp : Nat} {s0 s : State} (h : Moves fp s0 s) (hm : Covers 0xa4840b2ca450cc fp) (x1 : Nat) (x2 : Nat) : Moves fp s0 (State.loseStream s x1 x2) := by
  unfold State.loseStream
  try dsimp only
  with_reducible repeat' first
    | assumption
    | exact hm.mono (by decide)
    | (intro _; try dsimp only)
    | apply State.cancelChunk_moves
    | apply State.streamEvent_moves
    | apply State.retractLedger_moves
    | apply State.incObj_moves
    | apply State.modStream_moves
    | apply State.logFault_moves
    | apply State.dropExports_moves
    | apply State.emcyEvent_moves
    | apply Moves.foldl
    | split
    | (refine Moves.leaf ?_ hm)

theorem State.restoreS_moves {fp : Nat} {s0 s : State} (h : Moves fp s0 s) (hm : Covers 0xa4840b2ca450ce fp) (x1 : Nat) (x2 : Nat) : Moves fp s0 (State.restoreS s x1 x2) := by
  unfold State.restoreS
  try dsimp only
  with_reducible repeat' first
    | assumption
    | exact hm.mono (by decide)
    | apply State.copyFromMirror_moves
    | apply State.loseStream_moves
    | split

theorem State.tagSlot_moves {fp : Nat} {s0 s : State} (h : Moves fp s0 s) (hm : Covers 0x8 fp) (x1 : Chunk) (x2 : TagState) : Moves fp s0 (State.tagSlot s x1 x2) := by
  unfold State.tagSlot
  try dsimp only
  with_reducible repeat' first
    | assumption
    | exact hm.mono (by decide)
    | apply State.setTag_moves
    | split
    | (refine Moves.leaf ?_ hm)

theorem State.finishAbort_moves {fp : Nat} {s0 s : State} (h : Moves fp s0 s) (hm : Covers 0xa4840b2ca450ce fp) (x1 : Chunk) (x2 : Abort) : Moves fp s0 (State.finishAbort s x1 x2) := by
  unfold State.finishAbort
  try dsimp only
  with_reducible repeat' first
    | assumption
    | exact hm.mono (by decide)
    | (intro _; try dsimp only)
    | apply State.modChunk_moves
    | apply State.abortSeqs_moves
    | apply State.emptyTags_moves
    | apply State.tagSlot_moves
    | apply State.restoreS_moves
    | apply State.dropChunk_moves
    | split
    | (refine Moves.leaf ?_ hm)

theorem State.emptyPart_moves {fp : Nat} {s0 s : State} (h : Moves fp s0 s) (hm : Covers 0x2000cc fp) (x1 : Nat × Nat × Bool) : Moves fp s0 (State.emptyPart s x1) := by
  unfold State.emptyPart
  try dsimp only
  with_reducible repeat' first
    | assumption
    | exact hm.mono (by decide)
    | (intro _; try dsimp only)
    | apply State.settleMxs_moves
    | apply State.setTag_moves
    | apply State.setTileTag_moves
    | apply Moves.foldl

theorem State.settleGone_moves {fp : Nat} {s0 s : State} (h : Moves fp s0 s) (hm : Covers 0x2040cc fp)  : Moves fp s0 (State.settleGone s) := by
  unfold State.settleGone
  try dsimp only
  with_reducible repeat' first
    | assumption
    | exact hm.mono (by decide)
    | (intro _; try dsimp only)
    | apply State.emptyPart_moves
    | apply State.emptyTags_moves
    | apply Moves.foldl
    | (refine Moves.leaf ?_ hm)

theorem State.settleAborts_moves {fp : Nat} {s0 s : State} (h : Moves fp s0 s) (hm : Covers 0xa4840b2ca450ce fp)  : Moves fp s0 (State.settleAborts s) := by
  unfold State.settleAborts
  try dsimp only
  with_reducible repeat' first
    | assumption
    | exact hm.mono (by decide)
    | (intro _; try dsimp only)
    | apply State.settleGone_moves
    | apply State.finishAbort_moves
    | apply Moves.foldl
    | split

theorem State.abortChunk_moves {fp : Nat} {s0 s : State} (h : Moves fp s0 s) (hm : Covers 0xa48c0b2ca450ce fp) (x1 : Nat) (x2 : Nat) (x3 : Nat) (x4 : Bool) (x5 : Option Nat) : Moves fp s0 (State.abortChunk s x1 x2 x3 x4 x5) := by
  unfold State.abortChunk
  try dsimp only
  with_reducible repeat' first
    | assumption
    | exact hm.mono (by decide)
    | (intro _; try dsimp only)
    | apply State.modChunk_moves
    | apply State.cancelChunk_moves
    | apply State.settleAborts_moves
    | apply State.cancelParts_moves
    | split
    | (refine Moves.leaf ?_ hm)

theorem State.blameSquare_moves {fp : Nat} {s0 s : State} (h : Moves fp s0 s) (hm : Covers 0xa4000000400000 fp) (x1 : Nat) : Moves fp s0 (State.blameSquare s x1) := by
  unfold State.blameSquare
  try dsimp only
  with_reducible repeat' first
    | assumption
    | exact hm.mono (by decide)
    | (intro _; try dsimp only)
    | apply State.logFault_moves
    | apply State.emcyRaise_moves
    | split
    | (refine Moves.leaf ?_ hm)

theorem State.blameEngine_moves {fp : Nat} {s0 s : State} (h : Moves fp s0 s) (hm : Covers 0xa4000000400000 fp) (x1 : Nat) : Moves fp s0 (State.blameEngine s x1) := by
  unfold State.blameEngine
  try dsimp only
  with_reducible repeat' first | assumption | exact hm.mono (by decide) | apply State.blameSquare_moves | split

theorem State.copyMirror_moves {fp : Nat} {s0 s : State} (h : Moves fp s0 s) (hm : Covers 0x14000000 fp) (sid : Nat) (st : Stream) (src dst : Bool) :
    Moves fp s0 (s.copyMirror sid st src dst) := by
  unfold State.copyMirror
  refine State.modStream_moves ?_ (hm.mono (by decide)) ..
  exact h.step hm fun i => { i with mirror := Mem.wf_writeBytes _ i.mirror _ }

theorem State.copyToMirror_moves {fp : Nat} {s0 s : State} (h : Moves fp s0 s) (hm : Covers 0x4000014000000 fp) (sid : Nat) (st : Stream) (n m : Bool) :
    Moves fp s0 (s.copyToMirror sid st n m) := by
  have k := (State.countReads_moves h (hm.mono (by decide)) (s.bufRows st n)).fst
  unfold State.copyToMirror
  dsimp only
  generalize (s.countReads (s.bufRows st n)).1 = u at k ⊢
  refine State.modStream_moves ?_ (hm.mono (by decide)) ..
  exact k.step hm fun i => { i with mirror := Mem.wf_writeBytes _ i.mirror _ }

theorem State.faultCommand_moves {fp : Nat} {s0 s : State} (h : Moves fp s0 s) (hm : Covers 0xa48c0b2ca450ce fp) (x1 : Desc) (x2 : Nat) (x3 : Nat) (x4 : Nat) (x5 : Nat) (x6 : Nat) (x7 : List Nat) : Moves fp s0 (State.faultCommand s x1 x2 x3 x4 x5 x6 x7) := by
  unfold State.faultCommand
  try dsimp only
  with_reducible repeat' first
    | assumption
    | exact hm.mono (by decide)
    | (intro _; try dsimp only)
    | apply State.abortChunk_moves
    | apply State.incObj_moves
    | apply State.logFault_moves
    | apply State.emcyEvent_moves
    | apply Moves.foldl
    | split
    | (refine Moves.leaf ?_ hm)

theorem State.ctlFault_moves {fp : Nat} {s0 s : State} (h : Moves fp s0 s) (hm : Covers 0xa48c0b2ca450ce fp) (x1 : Desc) (x2 : Nat) : Moves fp s0 (State.ctlFault s x1 x2) := by
  unfold State.ctlFault
  try dsimp only
  with_reducible repeat' first
    | assumption
    | exact hm.mono (by decide)
    | apply State.incObj_moves
    | apply State.faultCommand_moves
    | apply State.emcyEvent_moves

theorem State.flushOwn_moves {fp : Nat} {s0 s : State} (h : Moves fp s0 s) (hm : Covers 0xa4000000000026 fp) (x1 : Nat) (x2 : Nat → Bool) : Moves fp s0 (State.flushOwn s x1 x2) := by
  unfold State.flushOwn
  try dsimp only
  with_reducible repeat' first
    | assumption
    | exact hm.mono (by decide)
    | (intro _; try dsimp only)
    | apply State.flushAll_moves

theorem State.repairRow_moves {fp : Nat} {s0 s : State} (h : Moves fp s0 s) (hm : Covers 0xa4840b2ea450ce fp) (x1 : Nat) : Moves fp s0 (State.repairRow s x1) := by
  unfold State.repairRow
  try dsimp only
  with_reducible repeat' first
    | assumption
    | exact hm.mono (by decide)
    | (intro _; try dsimp only)
    | apply State.pageLost_moves
    | apply State.restoreS_moves
    | apply Moves.foldl
    | split

theorem State.restoreM_moves {fp : Nat} {s0 s : State} (h : Moves fp s0 s) (hm : Covers 0xa4840b3ca450cc fp) (x1 : Nat) (x2 : Nat) : Moves fp s0 (State.restoreM s x1 x2) := by
  unfold State.restoreM
  try dsimp only
  with_reducible repeat' first
    | assumption
    | exact hm.mono (by decide)
    | apply State.copyToMirror_moves
    | apply State.loseStream_moves
    | apply State.copyMirror_moves
    | split

end Sys2Proof.Machine
end

