-- ==== Sys2Proof/Laws/MovesEngines.lean ====
section
/-! SUPPORT. The operations of memories, the Roundabout and the engines keep the queue, the invariant and what lies outside their footprints: one lemma each. -/

set_option linter.unusedTactic false
set_option linter.unreachableTactic false

namespace Sys2Proof.Machine

-- One proof at a time: proofs elaborated side by side wait on shared realisations, one thread each, and run out of threads.
set_option Elab.async false

/-! ### Machine/Memory.lean -/

theorem State.clearQuarterRows_moves {fp : Nat} {s0 s : State} (h : Moves fp s0 s) (hm : Covers 0x6 fp) (q : Nat) : Moves fp s0 (s.clearQuarterRows q) :=
  h.step hm fun i => { i with sp := Mem.wf_clearRange i.sp _ _ }

theorem State.clearQuarterTags_moves {fp : Nat} {s0 s : State} (h : Moves fp s0 s) (hm : Covers 0x8 fp) (x1 : Nat) : Moves fp s0 (State.clearQuarterTags s x1) := by
  unfold State.clearQuarterTags
  try dsimp only
  with_reducible repeat' first
    | assumption
    | exact hm.mono (by decide)
    | (intro _; try dsimp only)
    | (refine Moves.leaf ?_ hm)

theorem State.hbmCorrected_moves {fp : Nat} {s0 s : State} (h : Moves fp s0 s) (hm : Covers 0x4000000000000 fp) (x1 : HbmUse) : Moves fp s0 (State.hbmCorrected s x1) := by
  unfold State.hbmCorrected
  try dsimp only
  with_reducible repeat' first | assumption | exact hm.mono (by decide) | apply State.incObj_moves

theorem State.hbmEvent_moves {fp : Nat} {s0 s : State} (h : Moves fp s0 s) (hm : Covers 0xa4000000000000 fp) (x1 : HbmUse) (x2 : Nat) : Moves fp s0 (State.hbmEvent s x1 x2) := by
  unfold State.hbmEvent
  try dsimp only
  with_reducible repeat' first
    | assumption
    | exact hm.mono (by decide)
    | apply State.incObj_moves
    | apply State.logFault_moves
    | apply State.emcyEvent_moves
    | (refine Moves.leaf ?_ hm)

theorem State.narrowFinish_moves {fp : Nat} {s0 s : State} (h : Moves fp s0 s) (hm : Covers 0xa400000000002e fp) (x1 : Nat) (x2 : Nat) (x3 : Nat) (x4 : Nat) : Moves fp s0 (State.narrowFinish s x1 x2 x3 x4) := by
  unfold State.narrowFinish
  try dsimp only
  with_reducible repeat' first
    | assumption
    | exact hm.mono (by decide)
    | (intro _; try dsimp only)
    | apply State.setTag_moves
    | apply State.flushPort_moves

theorem State.placeNarrow_moves {fp : Nat} {s0 s : State} (h : Moves fp s0 s) (hm : Covers 0xa400000000002e fp) (x1 : Nat) (x2 : HandleEntry) (x3 : Nat) (x4 : Nat) (x5 : List (Nat × Nat)) (x6 : List Byte) (x7 : Nat) (x8 : Option Nat) : Moves fp s0 (State.placeNarrow s x1 x2 x3 x4 x5 x6 x7 x8) := by
  unfold State.placeNarrow
  try dsimp only
  with_reducible repeat' first
    | assumption
    | exact hm.mono (by decide)
    | apply State.setTag_moves
    | apply State.narrowFinish_moves
    | apply State.narrowWrite_moves
    | split
    | (refine Moves.leaf ?_ hm)

theorem State.repairWeight_moves {fp : Nat} {s0 s : State} (h : Moves fp s0 s) (hm : Covers 0x104 fp) (x1 : Nat) (x2 : Nat) : Moves fp s0 (State.repairWeight s x1 x2) := by
  unfold State.repairWeight
  try dsimp only
  with_reducible repeat' first | assumption | exact hm.mono (by decide) | apply State.writeHbm_moves

theorem execBatchTableWrite_moves {fp : Nat} {s0 s : State} (h : Moves fp s0 s) (hm : Covers 0x20000 fp) (x0 : BatchId) (x1 : Bool) (x2 : List Nat) : Out.moves fp s0 (execBatchTableWrite x0 x1 x2 s) := by
  unfold execBatchTableWrite
  try dsimp only
  with_reducible repeat' first
    | assumption
    | exact hm.mono (by decide)
    | (intro _; try dsimp only)
    | apply Out.moves_next
    | split
    | (refine Moves.leaf ?_ hm)

theorem execDrainAbandon_moves {fp : Nat} {s0 s : State} (h : Moves fp s0 s) (hm : Covers 0x4000000200800 fp) (x0 : QuarterNo) : Out.moves fp s0 (execDrainAbandon x0 s) := by
  unfold execDrainAbandon
  try dsimp only
  with_reducible repeat' first
    | assumption
    | exact hm.mono (by decide)
    | (intro _; try dsimp only)
    | apply Out.moves_next
    | apply State.setDomain_moves
    | apply State.incObj_moves
    | split
    | (refine Moves.leaf ?_ hm)

theorem execGatherIdleFlush_moves {fp : Nat} {s0 s : State} (h : Moves fp s0 s) (hm : Covers 0xa4000000000026 fp) (x0 : GatherNo) (x1 : Nat) : Out.moves fp s0 (execGatherIdleFlush x0 x1 s) := by
  unfold execGatherIdleFlush
  try dsimp only
  with_reducible repeat' first
    | assumption
    | exact hm.mono (by decide)
    | (intro _; try dsimp only)
    | apply Out.moves_next
    | apply State.flushPort_moves

theorem execHandleWrite_moves {fp : Nat} {s0 s : State} (h : Moves fp s0 s) (hm : Covers 0x4000000000010 fp) (p : Sys2Proof.Part) (n : Byte)
    (w0 w1 : Word) : Out.moves fp s0 (execHandleWrite p n w0 w1 s) := by
  have k : ∀ hs, Moves fp s0 { s with st := { s.st with handles := hs } } := fun _ => Moves.leaf h hm
  unfold execHandleWrite
  refine iteInduction (fun _ => ?_) fun _ => ?_
  · exact Out.moves_next (k _)
  · exact Out.moves_next (State.incObj_moves h (hm.mono (by decide)) _ _)

theorem execHbmScrubVisit_moves {fp : Nat} {s0 s : State} (h : Moves fp s0 s) (hm : Covers 0xa4840b3fa451cc fp) (x0 : HbmUse) (x1 : List (Nat × Nat)) : Out.moves fp s0 (execHbmScrubVisit x0 x1 s) := by
  unfold execHbmScrubVisit
  try dsimp only
  with_reducible repeat' first
    | assumption
    | exact hm.mono (by decide)
    | (intro _; try dsimp only)
    | apply Out.moves_next
    | apply State.modChunk_moves
    | apply State.hbmUncorrected_moves
    | apply State.incObj_moves
    | apply State.restoreM_moves
    | apply State.upset_moves
    | apply State.pageLost_moves
    | apply State.repairWeight_moves
    | apply State.hbmCorrected_moves
    | apply State.modStream_moves
    | apply State.hbmEvent_moves
    | apply State.logFault_moves
    | split
    | (refine Moves.leaf ?_ hm)

theorem execMxPowerDown_moves {fp : Nat} {s0 s : State} (h : Moves fp s0 s) (hm : Covers 0x2000c4 fp) (x0 : MxNo) : Out.moves fp s0 (execMxPowerDown x0 s) := by
  unfold execMxPowerDown
  try dsimp only
  with_reducible repeat' first
    | assumption
    | exact hm.mono (by decide)
    | apply Out.moves_next
    | apply State.setDomain_moves
    | apply State.clearMx_moves
    | split

theorem execNarrowWrite_moves {fp : Nat} {s0 s : State} (h : Moves fp s0 s) (hm : Covers 0xa400000000002e fp) (x0 : NarrowNo) (x1 : Sys2Proof.Part) (x2 : Sid) (x3 : Byte) (x4 : BitVec 16) (x5 : Nat) (x6 : NarrowData) (x7 : Nat) (x8 : Option Nat) : Out.moves fp s0 (execNarrowWrite x0 x1 x2 x3 x4 x5 x6 x7 x8 s) := by
  unfold execNarrowWrite
  try dsimp only
  with_reducible repeat' first
    | assumption
    | exact hm.mono (by decide)
    | apply Out.moves_next
    | apply State.countReads_moves
    | apply State.spUncorrected_moves
    | apply State.placeNarrow_moves
    | apply State.logFault_moves
    | apply StatePair.of
    | (refine StatePair.use ?_ (by assumption))
    | apply StatePair.fst
    | split
    | (refine Moves.leaf ?_ hm)

theorem execQuarterDrained_moves {fp : Nat} {s0 s : State} (h : Moves fp s0 s) (hm : Covers 0xa400000020082e fp) (x0 : QuarterNo) : Out.moves fp s0 (execQuarterDrained x0 s) := by
  unfold execQuarterDrained
  try dsimp only
  with_reducible repeat' first
    | assumption
    | exact hm.mono (by decide)
    | (intro _; try dsimp only)
    | apply Out.moves_next
    | apply State.setDomain_moves
    | apply State.clearQuarterTags_moves
    | apply State.clearQuarterRows_moves
    | apply State.flushAll_moves
    | split
    | (refine Moves.leaf ?_ hm)

theorem execQuarterPowerDown_moves {fp : Nat} {s0 s : State} (h : Moves fp s0 s) (hm : Covers 0xa4000000200826 fp) (x0 : QuarterNo) : Out.moves fp s0 (execQuarterPowerDown x0 s) := by
  unfold execQuarterPowerDown
  try dsimp only
  with_reducible repeat' first
    | assumption
    | exact hm.mono (by decide)
    | (intro _; try dsimp only)
    | apply Out.moves_next
    | apply State.setDomain_moves
    | apply State.flushAll_moves
    | split
    | (refine Moves.leaf ?_ hm)

theorem execQuarterPowerUp_moves {fp : Nat} {s0 s : State} (h : Moves fp s0 s) (hm : Covers 0x200000 fp) (x0 : QuarterNo) : Out.moves fp s0 (execQuarterPowerUp x0 s) := by
  unfold execQuarterPowerUp
  try dsimp only
  with_reducible repeat' first
    | assumption
    | exact hm.mono (by decide)
    | apply Out.moves_next
    | apply State.setDomain_moves
    | split

theorem execQuarterWakeDone_moves {fp : Nat} {s0 s : State} (h : Moves fp s0 s) (hm : Covers 0x20000e fp) (x0 : QuarterNo) : Out.moves fp s0 (execQuarterWakeDone x0 s) := by
  unfold execQuarterWakeDone
  try dsimp only
  with_reducible repeat' first
    | assumption
    | exact hm.mono (by decide)
    | apply Out.moves_next
    | apply State.setDomain_moves
    | apply State.clearQuarterTags_moves
    | apply State.clearQuarterRows_moves
    | split

theorem execScrubVisit_moves {fp : Nat} {s0 s : State} (h : Moves fp s0 s) (hm : Covers 0xa4840b2fa458ce fp) (x0 : SquareNo) (x1 : List (Nat × Nat × Nat)) : Out.moves fp s0 (execScrubVisit x0 x1 s) := by
  unfold execScrubVisit
  try dsimp only
  with_reducible repeat' first
    | assumption
    | exact hm.mono (by decide)
    | apply Out.moves_next
    | apply State.countReads_moves
    | apply State.spUncorrected_moves
    | apply State.incObj_moves
    | apply State.upset_moves
    | apply State.writeRow_moves
    | apply State.logFault_moves
    | apply State.repairRow_moves
    | apply StatePair.of
    | (refine StatePair.use ?_ (by assumption))
    | apply StatePair.fst
    | split
    | (refine Moves.leaf ?_ hm)


/-! ### Machine/Roundabout.lean -/

theorem State.account_moves {fp : Nat} {s0 s : State} (h : Moves fp s0 s) (hm : Covers 0x4000000010000 fp) (x1 : Desc) (x2 : Nat) : Moves fp s0 (State.account s x1 x2) := by
  unfold State.account
  try dsimp only
  with_reducible repeat' first
    | assumption
    | exact hm.mono (by decide)
    | (intro _; try dsimp only)
    | apply State.addObj64_moves
    | apply Moves.foldl
    | split
    | (refine Moves.leaf ?_ hm)

theorem State.acquireCtl_moves {fp : Nat} {s0 s : State} (h : Moves fp s0 s) (hm : Covers 0x200 fp) (core : Nat) :
    Moves fp s0 (s.acquireCtl core) :=
  h.step hm fun i => { i with ctlView := Tbl.all_setD i.ctlView core i.ctlMem }

theorem State.failCmd_moves {fp : Nat} {s0 s : State} (h : Moves fp s0 s) (hm : Covers 0x24000000001000 fp) (x1 : Cmd) (x2 : Nat) (x3 : Nat) : Moves fp s0 (State.failCmd s x1 x2 x3) := by
  unfold State.failCmd
  try dsimp only
  with_reducible repeat' first
    | assumption
    | exact hm.mono (by decide)
    | apply State.putCmd_moves
    | apply State.logFault_moves
    | split
    | (refine Moves.leaf ?_ hm)

theorem State.resolveCmd_moves {fp : Nat} {s0 s : State} (h : Moves fp s0 s) (hm : Covers 0x24000000001000 fp) (x1 : Cmd) (x2 : OpInfo) (x3 : List Operand) (x4 : Bool) : Moves fp s0 (State.resolveCmd s x1 x2 x3 x4) := by
  unfold State.resolveCmd
  try dsimp only
  with_reducible repeat' first
    | assumption
    | exact hm.mono (by decide)
    | (intro _; try dsimp only)
    | apply State.failCmd_moves
    | apply State.putCmd_moves
    | split
    | (refine Moves.leaf ?_ hm)

theorem State.loadList_moves {fp : Nat} {s0 s : State} (h : Moves fp s0 s) (hm : Covers 0xa4000000001000 fp) (x1 : Cmd) (x2 : OpInfo) : Moves fp s0 (State.loadList s x1 x2) := by
  unfold State.loadList
  try dsimp only
  with_reducible repeat' first
    | assumption
    | exact hm.mono (by decide)
    | (intro _; try dsimp only)
    | apply State.resolveCmd_moves
    | apply State.readOr_moves

theorem State.shareWalks_moves {fp : Nat} {s0 s : State} (h : Moves fp s0 s) (hm : Covers 0x1000 fp) (x1 : Cmd) : Moves fp s0 (State.shareWalks s x1) := by
  unfold State.shareWalks
  try dsimp only
  with_reducible repeat' first
    | assumption
    | exact hm.mono (by decide)
    | (intro _; try dsimp only)
    | apply State.putCmd_moves
    | split
    | (refine Moves.leaf ?_ hm)

theorem State.takeLineMap_moves {fp : Nat} {s0 s : State} (h : Moves fp s0 s) (hm : Covers 0xa4000000001000 fp) (x1 : Cmd) : Moves fp s0 (State.takeLineMap s x1) := by
  unfold State.takeLineMap
  try dsimp only
  with_reducible repeat' first
    | assumption
    | exact hm.mono (by decide)
    | (intro _; try dsimp only)
    | apply State.failCmd_moves
    | apply State.putCmd_moves
    | apply State.readOr_moves
    | split
    | (refine Moves.leaf ?_ hm)

theorem State.takeMembers_moves {fp : Nat} {s0 s : State} (h : Moves fp s0 s) (hm : Covers 0x84000200801000 fp) (x1 : Cmd) (x2 : Nat) : Moves fp s0 (State.takeMembers s x1 x2) := by
  unfold State.takeMembers
  try dsimp only
  with_reducible repeat' first
    | assumption
    | exact hm.mono (by decide)
    | (intro _; try dsimp only)
    | apply State.putCmd_moves
    | apply State.walk_moves
    | apply State.readOr_moves
    | apply Moves.foldl
    | split
    | (refine Moves.leaf ?_ hm)

theorem State.advance_moves {fp : Nat} {s0 s : State} (h : Moves fp s0 s) (hm : Covers 0xa4000200801000 fp) (x1 : Nat) (x2 : Bool) : Moves fp s0 (State.advance s x1 x2) := by
  unfold State.advance
  try dsimp only
  with_reducible repeat' first
    | assumption
    | exact hm.mono (by decide)
    | (intro _; try dsimp only)
    | apply State.shareWalks_moves
    | apply State.takeMembers_moves
    | apply State.takeLineMap_moves
    | apply State.putCmd_moves
    | apply State.loadList_moves
    | split
    | (refine Moves.leaf ?_ hm)

theorem State.chargePart_moves {fp : Nat} {s0 s : State} (h : Moves fp s0 s) (hm : Covers 0x4000000080000 fp) (x1 : Nat) (x2 : Nat) (x3 : Nat) : Moves fp s0 (State.chargePart s x1 x2 x3) := by
  unfold State.chargePart
  try dsimp only
  with_reducible repeat' first
    | assumption
    | exact hm.mono (by decide)
    | apply State.addObj64_moves
    | split
    | (refine Moves.leaf ?_ hm)

theorem State.charge_moves {fp : Nat} {s0 s : State} (h : Moves fp s0 s) (hm : Covers 0x4000000080000 fp) (x1 : Desc) (x2 : Nat) (x3 : Nat) : Moves fp s0 (State.charge s x1 x2 x3) := by
  unfold State.charge
  try dsimp only
  with_reducible repeat' first
    | assumption
    | exact hm.mono (by decide)
    | (intro _; try dsimp only)
    | apply State.chargePart_moves
    | apply Moves.foldl
    | split

theorem State.chargeIssue_moves {fp : Nat} {s0 s : State} (h : Moves fp s0 s) (hm : Covers 0x4000000080000 fp) (x1 : Cmd) : Moves fp s0 (State.chargeIssue s x1) := by
  unfold State.chargeIssue
  try dsimp only
  with_reducible repeat' first | assumption | exact hm.mono (by decide) | apply State.charge_moves | split

theorem State.pickDrr_moves {fp : Nat} {s0 s : State} (h : Moves fp s0 s) (hm : Covers 0x10000 fp) (x1 : Nat) (x2 : List Cmd) : OptPair fp s0 (State.pickDrr s x1 x2) := by
  unfold State.pickDrr
  try dsimp only
  with_reducible repeat' first
    | assumption
    | exact hm.mono (by decide)
    | (intro _; try dsimp only)
    | apply OptPair.some
    | apply OptPair.none
    | (refine OptPair.use ?_ (by assumption))
    | apply OptPair.ofPair
    | apply Moves.foldl
    | split
    | (refine Moves.leaf ?_ hm)

theorem State.choose_moves {fp : Nat} {s0 s : State} (h : Moves fp s0 s) (hm : Covers 0x10000 fp) (e : Nat) (l : List Cmd) : OptPair fp s0 (s.choose e l) := by
  unfold State.choose
  dsimp only
  refine ⟨fun a t q => ?_⟩
  split at q
  · obtain ⟨r, hr, q⟩ := Option.map_eq_some_iff.1 q
    cases q
    exact Moves.leaf ((State.pickDrr_moves h (hm.mono (by decide)) e _).get r.1 r.2 hr) hm
  · obtain ⟨r, hr, q⟩ := Option.map_eq_some_iff.1 q
    cases q
    exact Moves.leaf h hm

theorem State.closeSecond_moves {fp : Nat} {s0 s : State} (h : Moves fp s0 s) (hm : Covers 0x84000200000000 fp) (x1 : Bool) : Moves fp s0 (State.closeSecond s x1) := by
  unfold State.closeSecond
  try dsimp only
  with_reducible repeat' first
    | assumption
    | exact hm.mono (by decide)
    | (intro _; try dsimp only)
    | apply State.setObj_moves
    | apply State.emcyEnd_moves
    | apply State.emcyRaise_moves
    | split
    | (refine Moves.leaf ?_ hm)

theorem State.comparePair_moves {fp : Nat} {s0 s : State} (h : Moves fp s0 s) (hm : Covers 0x4000004000000000000 fp) (x1 : Cmd) (x2 : Cmd) : Moves fp s0 (State.comparePair s x1 x2) := by
  unfold State.comparePair
  try dsimp only
  with_reducible repeat' first
    | assumption
    | exact hm.mono (by decide)
    | (intro _; try dsimp only)
    | apply State.incObj_moves
    | split
    | (refine Moves.leaf ?_ hm)

theorem State.flushForFill_moves {fp : Nat} {s0 s : State} (h : Moves fp s0 s) (hm : Covers 0xa4000000000026 fp) (x1 : Cmd) : Moves fp s0 (State.flushForFill s x1) := by
  unfold State.flushForFill
  try dsimp only
  with_reducible repeat' first
    | assumption
    | exact hm.mono (by decide)
    | (intro _; try dsimp only)
    | apply State.flushAll_moves
    | apply State.flushPort_moves
    | split
    | (refine Moves.leaf ?_ hm)

theorem State.countEngineFaults_moves {fp : Nat} {s0 s : State} (h : Moves fp s0 s) (hm : Covers 0x100000 fp) (x1 : Nat) (x2 : Nat) : Moves fp s0 (State.countEngineFaults s x1 x2) := by
  unfold State.countEngineFaults
  try dsimp only
  with_reducible repeat' first | assumption | exact hm.mono (by decide) | apply State.addEng_moves | split

theorem State.treatFault_moves {fp : Nat} {s0 s : State} (h : Moves fp s0 s) (hm : Covers 0xa48c0b2ef450ce fp) (x1 : Cmd) : Moves fp s0 (State.treatFault s x1) := by
  unfold State.treatFault
  try dsimp only
  with_reducible repeat' first
    | assumption
    | exact hm.mono (by decide)
    | apply State.blameEngine_moves
    | apply State.countEngineFaults_moves
    | apply State.faultCommand_moves
    | apply State.repairRow_moves
    | split

theorem State.completeCmd_moves {fp : Nat} {s0 s : State} (h : Moves fp s0 s) (hm : Covers 0x40000a48c0b2efd50ee fp) (x1 : Cmd) (x2 : Nat) : Moves fp s0 (State.completeCmd s x1 x2) := by
  unfold State.completeCmd
  try dsimp only
  with_reducible repeat' first
    | assumption
    | exact hm.mono (by decide)
    | (intro _; try dsimp only)
    | apply State.settleMxs_moves
    | apply State.dropCmd_moves
    | apply State.flushForFill_moves
    | apply State.ctlFault_moves
    | apply State.complete_moves
    | apply State.comparePair_moves
    | apply State.endWalks_moves
    | apply State.settleEngine_moves
    | apply State.settleAborts_moves
    | apply State.incObj_moves
    | apply State.releaseClaims_moves
    | apply State.charge_moves
    | apply State.treatFault_moves
    | apply State.loseStream_moves
    | apply State.endParts_moves
    | apply State.account_moves
    | apply State.emcyEvent_moves
    | apply Moves.foldl
    | split

theorem State.endCmd_moves {fp : Nat} {s0 s : State} (h : Moves fp s0 s) (hm : Covers 0x1000 fp) (x1 : Cmd) : Moves fp s0 (State.endCmd s x1) := by
  unfold State.endCmd
  try dsimp only
  with_reducible repeat' first
    | assumption
    | exact hm.mono (by decide)
    | apply State.putCmd_moves
    | (refine Moves.leaf ?_ hm)

theorem State.fenceFlush_moves {fp : Nat} {s0 s : State} (h : Moves fp s0 s) (hm : Covers 0xa4000000000026 fp) (x1 : Desc) : Moves fp s0 (State.fenceFlush s x1) := by
  unfold State.fenceFlush
  try dsimp only
  with_reducible repeat' first | assumption | exact hm.mono (by decide) | apply State.flushAll_moves | split

theorem State.openList_moves {fp : Nat} {s0 s : State} (h : Moves fp s0 s) (hm : Covers 0x24000000001000 fp) (x1 : Cmd) : Moves fp s0 (State.openList s x1) := by
  unfold State.openList
  try dsimp only
  with_reducible repeat' first
    | assumption
    | exact hm.mono (by decide)
    | apply State.failCmd_moves
    | apply State.putCmd_moves
    | split
    | (refine Moves.leaf ?_ hm)

theorem State.startCmd_moves {fp : Nat} {s0 s : State} (h : Moves fp s0 s) (hm : Covers 0xa4000200881000 fp) (x1 : Cmd) : Moves fp s0 (State.startCmd s x1) := by
  unfold State.startCmd
  try dsimp only
  with_reducible repeat' first
    | assumption
    | exact hm.mono (by decide)
    | (intro _; try dsimp only)
    | apply State.chargeIssue_moves
    | apply State.resolveCmd_moves
    | apply State.takeMembers_moves
    | apply State.openList_moves
    | apply State.putCmd_moves
    | apply State.advance_moves
    | split
    | (refine Moves.leaf ?_ hm)

theorem State.issue_moves {fp : Nat} {s0 s : State} (h : Moves fp s0 s) (hm : Covers 0xa4000200881026 fp) (c : Cmd) : Moves fp s0 (s.issue c) := by
  unfold State.issue
  dsimp only
  have k : Moves fp s0 (s.fenceFlush c.desc) := State.fenceFlush_moves h (hm.mono (by decide)) _
  generalize s.fenceFlush c.desc = u at k
  split
  · exact Moves.foldl _ k fun t x ht => State.startCmd_moves ht (hm.mono (by decide)) x
  · refine Moves.foldl _ ?_ fun t x ht => State.startCmd_moves ht (hm.mono (by decide)) x
    refine k.step hm fun i => { i with accepted := fun x hx hs => ?_ }
    rcases List.mem_append.1 hx with hx | hx
    · exact i.accepted x hx hs
    · obtain ⟨e, _, rfl⟩ := List.mem_map.1 hx
      cases hs

theorem State.logWait_moves {fp : Nat} {s0 s : State} (h : Moves fp s0 s) (hm : Covers 0x24000000000000 fp) (x1 : Nat) (x2 : Option Desc) (x3 : List Nat) : Moves fp s0 (State.logWait s x1 x2 x3) := by
  unfold State.logWait
  try dsimp only
  with_reducible repeat' first
    | assumption
    | exact hm.mono (by decide)
    | apply State.logFault_moves
    | split
    | (refine Moves.leaf ?_ hm)

theorem State.park_moves {fp : Nat} {s0 s : State} (h : Moves fp s0 s) (hm : Covers 0x1000 fp) (c : Cmd) : Moves fp s0 (s.park c) := by
  refine h.step hm fun i => { i with accepted := fun x hx hs => ?_ }
  obtain ⟨y, hy, e⟩ := List.mem_map.1 hx
  split at e
  · subst e; exact i.accepted y hy hs
  · subst e; exact i.accepted y hy hs

theorem State.setReport_moves {fp : Nat} {s0 s : State} (h : Moves fp s0 s) (hm : Covers 0x8000 fp) (x1 : Nat) (x2 : PortReport) : Moves fp s0 (State.setReport s x1 x2) := by
  unfold State.setReport
  try dsimp only
  with_reducible repeat' first | assumption | exact hm.mono (by decide) | (refine Moves.leaf ?_ hm)

theorem State.submit_moves {fp : Nat} {s0 s : State} (h : Moves fp s0 s) (hm : Covers 0x4000000049000 fp) (core : Nat) (d : Desc) :
    Moves fp s0 (s.submit core d) := by
  unfold State.submit
  dsimp only
  split
  · exact State.setReport_moves h (hm.mono (by decide)) _ _
  · split
    · next code _ =>
      have k := State.postMail_moves (State.setReport_moves h (hm.mono (by decide)) core (.refused code)) (hm.mono (by decide)) core (Desc.engine d)
        ⟨0, compWords d .refused code 0 s.now 0, some d⟩ none none
      split
      · exact k
      · exact State.incObj_moves k (hm.mono (by decide)) _ _
    · have k := State.setReport_moves h (hm.mono (by decide)) core .accepted
      refine k.step hm fun i => { i with accepted := fun x hx hs => ?_ }
      rcases List.mem_append.1 hx with hx | hx
      · exact Nat.lt_succ_of_lt (i.accepted x hx hs)
      · cases List.mem_singleton.1 hx
        exact Nat.lt_succ_self _

theorem State.takeMail_moves {fp : Nat} {s0 s : State} (h : Moves fp s0 s) (hm : Covers 0xa48c0b2ca452ce fp) (x1 : Nat) (x2 : Mail) (x3 : Bool) : Moves fp s0 (State.takeMail s x1 x2 x3) := by
  unfold State.takeMail
  try dsimp only
  with_reducible repeat' first
    | assumption
    | exact hm.mono (by decide)
    | apply State.ctlFault_moves
    | apply State.acquireCtl_moves
    | split

theorem State.writeCtl_moves {fp : Nat} {s0 s : State} (h : Moves fp s0 s) (hm : Covers 0x200 fp) (core : Nat) (writes : List (Nat × Byte)) :
    Moves fp s0 (s.writeCtl core writes) := by
  have k : ∀ (l : List (Nat × Byte)) (m : Mem), Mem.wf m → Mem.wf (l.foldl (fun m w => Tbl.setD m 0 (w.1 % 2 ^ 20) w.2) m) := by
    intro l
    induction l with
    | nil => exact fun m hm => hm
    | cons w l ih => exact fun m hm => ih _ (Tbl.wf_setD hm _ _)
  exact h.step hm fun i =>
    { i with ctlMem := k _ _ i.ctlMem, ctlView := Tbl.all_setD i.ctlView core (k _ _ (Tbl.all_getD i.ctlView Mem.wf_nil core)) }

theorem execChunkCancel_moves {fp : Nat} {s0 s : State} (h : Moves fp s0 s) (hm : Covers 0xa4840b2ca450ce fp) (x0 : Sid) (x1 : BitVec 16) : Out.moves fp s0 (execChunkCancel x0 x1 s) := by
  unfold execChunkCancel
  try dsimp only
  with_reducible repeat' first
    | assumption
    | exact hm.mono (by decide)
    | apply Out.moves_next
    | apply State.cancelChunk_moves
    | apply State.settleAborts_moves

theorem execCmdTimeout_moves {fp : Nat} {s0 s : State} (h : Moves fp s0 s) (hm : Covers 0x40000a48c0b2efd50ee fp) (x0 : Eng) : Out.moves fp s0 (execCmdTimeout x0 s) := by
  unfold execCmdTimeout
  try dsimp only
  with_reducible repeat' first
    | assumption
    | exact hm.mono (by decide)
    | apply Out.moves_next
    | apply State.putCmd_moves
    | apply State.completeCmd_moves
    | split
    | (refine Moves.leaf ?_ hm)

theorem execCommandComplete_moves {fp : Nat} {s0 s : State} (h : Moves fp s0 s) (hm : Covers 0x40000a48c0b2efd50ee fp) (x0 : Eng) (x1 : Nat) : Out.moves fp s0 (execCommandComplete x0 x1 s) := by
  unfold execCommandComplete
  try dsimp only
  with_reducible repeat' first
    | assumption
    | exact hm.mono (by decide)
    | apply Out.moves_next
    | apply State.completeCmd_moves
    | split

theorem execDescSubmit_moves {fp : Nat} {s0 s : State} (h : Moves fp s0 s) (hm : Covers 0x4000000049000 fp) (x0 : Core) (x1 : Words8) (x2 : List (Core × Words8)) : Out.moves fp s0 (execDescSubmit x0 x1 x2 s) := by
  unfold execDescSubmit
  try dsimp only
  with_reducible repeat' first
    | assumption
    | exact hm.mono (by decide)
    | (intro _; try dsimp only)
    | apply Out.moves_next
    | apply State.submit_moves
    | apply Moves.foldl

theorem execMailboxFreed_moves {fp : Nat} {s0 s : State} (h : Moves fp s0 s) (hm : Covers 0xa48c0b2ca452ce fp) (x0 : Core) (x1 : Bool) : Out.moves fp s0 (execMailboxFreed x0 x1 s) := by
  unfold execMailboxFreed
  try dsimp only
  with_reducible repeat' first
    | assumption
    | exact hm.mono (by decide)
    | (intro _; try dsimp only)
    | apply Out.moves_next
    | apply State.takeMail_moves
    | split
    | (refine Moves.leaf ?_ hm)

theorem execMbPost_moves {fp : Nat} {s0 s : State} (h : Moves fp s0 s) (hm : Covers 0x4000001041204 fp) (x0 : Eng) (x1 : Hw) (x2 : List (Nat × Byte)) : Out.moves fp s0 (execMbPost x0 x1 x2 s) := by
  unfold execMbPost
  try dsimp only
  with_reducible repeat' first
    | assumption
    | exact hm.mono (by decide)
    | (intro _; try dsimp only)
    | apply Out.moves_next
    | apply State.writeCtl_moves
    | apply State.endCmd_moves
    | apply State.postMail_moves
    | apply State.atCommand_moves

theorem execNopCmd_moves {fp : Nat} {s0 s : State} (h : Moves fp s0 s) (hm : Covers 0x1000 fp) (x0 : Eng) : Out.moves fp s0 (execNopCmd x0 s) := by
  unfold execNopCmd
  try dsimp only
  with_reducible repeat' first
    | assumption
    | exact hm.mono (by decide)
    | apply Out.moves_next
    | apply State.putCmd_moves
    | split
    | (refine Moves.leaf ?_ hm)

theorem execRegulatorRefill_moves {fp : Nat} {s0 s : State} (h : Moves fp s0 s) (hm : Covers 0x80000 fp)  : Out.moves fp s0 (execRegulatorRefill s) := by
  unfold execRegulatorRefill
  try dsimp only
  with_reducible repeat' first
    | assumption
    | exact hm.mono (by decide)
    | (intro _; try dsimp only)
    | apply Out.moves_next
    | apply Moves.foldl
    | (refine Moves.leaf ?_ hm)

theorem execRoundaboutIssue_moves {fp : Nat} {s0 s : State} (h : Moves fp s0 s) (hm : Covers 0xa4000200891026 fp) (x0 : Eng) : Out.moves fp s0 (execRoundaboutIssue x0 s) := by
  unfold execRoundaboutIssue
  try dsimp only
  with_reducible repeat' first
    | assumption
    | exact hm.mono (by decide)
    | (intro _; try dsimp only)
    | apply Out.moves_next
    | apply State.issue_moves
    | apply State.choose_moves
    | apply State.park_moves
    | apply OptPair.some
    | apply OptPair.none
    | (refine OptPair.use ?_ (by assumption))
    | apply OptPair.ofPair
    | split

theorem execStormSecond_moves {fp : Nat} {s0 s : State} (h : Moves fp s0 s) (hm : Covers 0x84000200000000 fp)  : Out.moves fp s0 (execStormSecond s) := by
  unfold execStormSecond
  try dsimp only
  with_reducible repeat' first
    | assumption
    | exact hm.mono (by decide)
    | apply Out.moves_next
    | apply State.closeSecond_moves

theorem execTagClaim_moves {fp : Nat} {s0 s : State} (h : Moves fp s0 s) (hm : Covers 0xa4000200801088 fp) (x0 : Eng) : Out.moves fp s0 (execTagClaim x0 s) := by
  unfold execTagClaim
  try dsimp only
  with_reducible repeat' first
    | assumption
    | exact hm.mono (by decide)
    | apply Out.moves_next
    | apply State.setClaimTag_moves
    | apply State.putCmd_moves
    | apply State.advance_moves
    | split
    | (refine Moves.leaf ?_ hm)

theorem execTagSet_moves {fp : Nat} {s0 s : State} (h : Moves fp s0 s) (hm : Covers 0xa40000012010ee fp) (x0 : Eng) (x1 : Hw) : Out.moves fp s0 (execTagSet x0 x1 s) := by
  unfold execTagSet
  try dsimp only
  with_reducible repeat' first
    | assumption
    | exact hm.mono (by decide)
    | (intro _; try dsimp only)
    | apply Out.moves_next
    | apply State.setTag_moves
    | apply State.endCmd_moves
    | apply State.settleEngine_moves
    | apply State.flushPort_moves
    | apply State.atCommand_moves
    | apply State.setTileTag_moves
    | split
    | (refine Moves.leaf ?_ hm)

theorem execWaitReport_moves {fp : Nat} {s0 s : State} (h : Moves fp s0 s) (hm : Covers 0xa48c0b2ca450ce fp) (x0 : WaitId) : Out.moves fp s0 (execWaitReport x0 s) := by
  unfold execWaitReport
  try dsimp only
  with_reducible repeat' first
    | assumption
    | exact hm.mono (by decide)
    | (intro _; try dsimp only)
    | apply Out.moves_next
    | apply State.logWait_moves
    | apply State.cancelCmd_moves
    | apply State.incObj_moves
    | apply State.faultCommand_moves
    | apply State.putCmd_moves
    | split
    | (refine Moves.leaf ?_ hm)


/-! ### Machine/Lanes.lean -/

theorem State.addOp_moves {fp : Nat} {s0 s : State} (h : Moves fp s0 s) (hm : Covers 0x200000000000 fp) (x1 : RemoteOp) : Moves fp s0 (State.addOp s x1) := by
  unfold State.addOp
  try dsimp only
  with_reducible repeat' first | assumption | exact hm.mono (by decide) | (refine Moves.leaf ?_ hm)

theorem State.awaitPeer_moves {fp : Nat} {s0 s : State} (h : Moves fp s0 s) (hm : Covers 0x1000 fp) (x1 : Cmd) (x2 : Nat) (x3 : Bool) : Moves fp s0 (State.awaitPeer s x1 x2 x3) := by
  unfold State.awaitPeer
  try dsimp only
  with_reducible repeat' first
    | assumption
    | exact hm.mono (by decide)
    | apply State.putCmd_moves
    | (refine Moves.leaf ?_ hm)

theorem State.failHost_moves {fp : Nat} {s0 s : State} (h : Moves fp s0 s) (hm : Covers 0x2000001000 fp) (x1 : Cmd) (x2 : ReadFault) (x3 : Nat) : Moves fp s0 (State.failHost s x1 x2 x3) := by
  unfold State.failHost
  try dsimp only
  with_reducible repeat' first
    | assumption
    | exact hm.mono (by decide)
    | apply State.hostReadFault_moves
    | apply State.putCmd_moves
    | (refine Moves.leaf ?_ hm)

theorem State.failLine_moves {fp : Nat} {s0 s : State} (h : Moves fp s0 s) (hm : Covers 0x84000000001000 fp) (x1 : Cmd) (x2 : Nat) : Moves fp s0 (State.failLine s x1 x2) := by
  unfold State.failLine
  try dsimp only
  with_reducible repeat' first
    | assumption
    | exact hm.mono (by decide)
    | apply State.hbmUncorrected_moves
    | apply State.putCmd_moves
    | (refine Moves.leaf ?_ hm)

theorem State.failPeer_moves {fp : Nat} {s0 s : State} (h : Moves fp s0 s) (hm : Covers 0x1000 fp) (x1 : Cmd) : Moves fp s0 (State.failPeer s x1) := by
  unfold State.failPeer
  try dsimp only
  with_reducible repeat' first
    | assumption
    | exact hm.mono (by decide)
    | apply State.putCmd_moves
    | (refine Moves.leaf ?_ hm)

theorem State.repairLine_moves {fp : Nat} {s0 s : State} (h : Moves fp s0 s) (hm : Covers 0xa4000000000104 fp) (x1 : Nat) (x2 : Nat) : Moves fp s0 (State.repairLine s x1 x2) := by
  unfold State.repairLine
  try dsimp only
  with_reducible repeat' first
    | assumption
    | exact hm.mono (by decide)
    | apply State.hbmUncorrected_moves
    | apply State.incObj_moves
    | apply State.repairWeight_moves
    | apply State.logFault_moves
    | split
    | (refine Moves.leaf ?_ hm)

theorem State.laneRead_moves {fp : Nat} {s0 s : State} (h : Moves fp s0 s) (hm : Covers 0xa4000000000104 fp) (x1 : Nat) (x2 : Nat) (x3 : Nat) : TripleMoves fp s0 (State.laneRead s x1 x2 x3) := by
  unfold State.laneRead
  try dsimp only
  with_reducible repeat' first
    | assumption
    | exact hm.mono (by decide)
    | (intro _; try dsimp only)
    | apply State.readHbm_moves
    | apply State.repairLine_moves
    | apply TripleMoves.of
    | (refine TripleMoves.use ?_ (by assumption))
    | apply TripleMoves.mid
    | apply Moves.foldl

theorem State.fromHbm_moves {fp : Nat} {s0 s : State} (h : Moves fp s0 s) (hm : Covers 0xa4000000001104 fp) (x1 : Cmd) (x2 : Nat) (x3 : Nat) (x4 : State → List Byte → State) (hx4 : ∀ y0 y1, Moves fp s0 y0 → Moves fp s0 (x4 y0 y1)) : Moves fp s0 (State.fromHbm s x1 x2 x3 x4) := by
  unfold State.fromHbm
  try dsimp only
  with_reducible repeat' first
    | assumption
    | exact hm.mono (by decide)
    | apply hx4
    | apply State.laneRead_moves
    | apply State.failLine_moves
    | apply TripleMoves.of
    | (refine TripleMoves.use ?_ (by assumption))
    | apply TripleMoves.mid
    | split

theorem State.takeTxn_moves {fp : Nat} {s0 s : State} (h : Moves fp s0 s) (hm : Covers 0x40000000000 fp) (x1 : Nat) : PairMoves fp s0 (State.takeTxn s x1) := by
  unfold State.takeTxn
  try dsimp only
  with_reducible repeat' first
    | assumption
    | exact hm.mono (by decide)
    | apply State.setPort_moves
    | apply PairMoves.of
    | (refine PairMoves.use ?_ (by assumption))
    | apply PairMoves.snd
    | (refine Moves.leaf ?_ hm)

theorem State.readRequest_moves {fp : Nat} {s0 s : State} (h : Moves fp s0 s) (hm : Covers 0x240000000000 fp) (x1 : Nat) (x2 : Cmd) (x3 : Nat) (x4 : Nat) : Moves fp s0 (State.readRequest s x1 x2 x3 x4) := by
  unfold State.readRequest
  try dsimp only
  with_reducible repeat' first
    | assumption
    | exact hm.mono (by decide)
    | apply State.takeTxn_moves
    | apply State.send_moves
    | apply State.addOp_moves
    | apply PairMoves.of
    | (refine PairMoves.use ?_ (by assumption))
    | apply PairMoves.snd
    | (refine Moves.leaf ?_ hm)

theorem State.sendRows_moves {fp : Nat} {s0 s : State} (h : Moves fp s0 s) (hm : Covers 0x240000001000 fp) (x1 : Nat) (x2 : TxGrant) (x3 : Cmd) (x4 : List (List Byte)) : Moves fp s0 (State.sendRows s x1 x2 x3 x4) := by
  unfold State.sendRows
  try dsimp only
  with_reducible repeat' first
    | assumption
    | exact hm.mono (by decide)
    | (intro _; try dsimp only)
    | apply State.awaitPeer_moves
    | apply State.sendAll_moves
    | apply State.addOp_moves
    | (refine Moves.leaf ?_ hm)

theorem execLnCopy_moves {fp : Nat} {s0 s : State} (h : Moves fp s0 s) (hm : Covers 0xa4000001141167 fp) (x0 : Eng) (x1 : Hw) : Out.moves fp s0 (execLnCopy x0 x1 s) := by
  unfold execLnCopy
  try dsimp only
  with_reducible repeat' first
    | assumption
    | exact hm.mono (by decide)
    | (intro _; try dsimp only)
    | apply Out.moves_next
    | apply State.runOn_moves
    | apply State.writeHbm_moves
    | apply State.atCommand_moves
    | apply State.fromHbm_moves
    | exact fun _ _ _ => rfl
    | (unfold rowsInPath; try dsimp only)
    | exact fun _ _ _ => rfl
    | (unfold rowsOutPath; try dsimp only)
    | split
    | (refine Moves.leaf ?_ hm)

theorem execLnHost_moves {fp : Nat} {s0 s : State} (h : Moves fp s0 s) (hm : Covers 0xa4006001141167 fp) (x0 : Eng) (x1 : Hw) (x2 : Option ReadFault) (x3 : List Byte) : Out.moves fp s0 (execLnHost x0 x1 x2 x3 s) := by
  unfold execLnHost
  try dsimp only
  with_reducible repeat' first
    | assumption
    | exact hm.mono (by decide)
    | (intro _; try dsimp only)
    | apply Out.moves_next
    | apply State.runOn_moves
    | apply State.endCmd_moves
    | apply State.hostWrite_moves
    | apply State.failHost_moves
    | apply State.writeHbm_moves
    | apply State.atCommand_moves
    | apply State.fromHbm_moves
    | exact fun _ _ _ => rfl
    | (unfold rowsInPath; try dsimp only)
    | exact fun _ _ _ => rfl
    | (unfold rowsOutPath; try dsimp only)
    | split

theorem execLnRread_moves {fp : Nat} {s0 s : State} (h : Moves fp s0 s) (hm : Covers 0x4240001001004 fp) (x0 : Eng) (x1 : Hw) : Out.moves fp s0 (execLnRread x0 x1 s) := by
  unfold execLnRread
  try dsimp only
  with_reducible repeat' first
    | assumption
    | exact hm.mono (by decide)
    | (intro _; try dsimp only)
    | apply Out.moves_next
    | apply State.readRequest_moves
    | apply State.awaitPeer_moves
    | apply State.failPeer_moves
    | apply State.atCommand_moves
    | apply Moves.foldl
    | split

theorem execLnRtag_moves {fp : Nat} {s0 s : State} (h : Moves fp s0 s) (hm : Covers 0x4240001001004 fp) (x0 : Eng) (x1 : Hw) : Out.moves fp s0 (execLnRtag x0 x1 s) := by
  unfold execLnRtag
  try dsimp only
  with_reducible repeat' first
    | assumption
    | exact hm.mono (by decide)
    | (intro _; try dsimp only)
    | apply Out.moves_next
    | apply State.awaitPeer_moves
    | apply State.failPeer_moves
    | apply State.atCommand_moves
    | apply State.takeTxn_moves
    | apply State.send_moves
    | apply State.addOp_moves
    | apply PairMoves.of
    | (refine PairMoves.use ?_ (by assumption))
    | apply PairMoves.snd
    | split
    | (refine Moves.leaf ?_ hm)

theorem execLnRwrite_moves {fp : Nat} {s0 s : State} (h : Moves fp s0 s) (hm : Covers 0xa4240001141067 fp) (x0 : Eng) (x1 : Hw) : Out.moves fp s0 (execLnRwrite x0 x1 s) := by
  unfold execLnRwrite
  try dsimp only
  with_reducible repeat' first
    | assumption
    | exact hm.mono (by decide)
    | (intro _; try dsimp only)
    | apply Out.moves_next
    | apply State.runOn_moves
    | apply State.failPeer_moves
    | apply State.atCommand_moves
    | apply State.putCmd_moves
    | apply State.sendRows_moves
    | exact fun _ _ _ => rfl
    | (unfold rowsOutPath; try dsimp only)
    | split
    | (refine Moves.leaf ?_ hm)


/-! ### Machine/Matrix.lean -/

theorem execMatmul_moves {fp : Nat} {s0 s : State} (h : Moves fp s0 s) (hm : Covers 0xa4000001141067 fp) (x0 : Eng) (x1 : Hw) : Out.moves fp s0 (execMatmul x0 x1 s) := by
  unfold execMatmul
  try dsimp only
  with_reducible repeat' first
    | assumption
    | exact hm.mono (by decide)
    | (intro _; try dsimp only)
    | apply Out.moves_next
    | apply State.runPath_moves
    | exact fun _ _ _ => rfl
    | (unfold matmulPath; try dsimp only)

theorem execTileStore_moves {fp : Nat} {s0 s : State} (h : Moves fp s0 s) (hm : Covers 0xa4000001141067 fp) (x0 : Eng) (x1 : Hw) : Out.moves fp s0 (execTileStore x0 x1 s) := by
  unfold execTileStore
  try dsimp only
  with_reducible repeat' first
    | assumption
    | exact hm.mono (by decide)
    | (intro _; try dsimp only)
    | apply Out.moves_next
    | apply State.runPath_moves
    | exact fun _ _ _ => rfl
    | (unfold tileStorePath; try dsimp only)


/-! ### Machine/Vector.lean -/

theorem execVxRun_moves {fp : Nat} {s0 s : State} (h : Moves fp s0 s) (hm : Covers 0xa4000001141067 fp) (x0 : Eng) (x1 : Hw) : Out.moves fp s0 (execVxRun x0 x1 s) := by
  unfold execVxRun
  try dsimp only
  with_reducible repeat' first
    | assumption
    | exact hm.mono (by decide)
    | (intro _; try dsimp only)
    | apply Out.moves_next
    | apply State.runPath_moves
    | exact fun _ _ _ => rfl
    | (unfold vxRunPath; try dsimp only)

theorem execVxSoftmax_moves {fp : Nat} {s0 s : State} (h : Moves fp s0 s) (hm : Covers 0xa4000001141067 fp) (x0 : Eng) (x1 : Hw) : Out.moves fp s0 (execVxSoftmax x0 x1 s) := by
  unfold execVxSoftmax
  try dsimp only
  with_reducible repeat' first
    | assumption
    | exact hm.mono (by decide)
    | (intro _; try dsimp only)
    | apply Out.moves_next
    | apply State.runPath_moves
    | exact fun _ _ _ => rfl
    | (unfold vxSoftmaxPath; try dsimp only)


/-! ### Machine/StateEngineOps.lean -/

theorem execSeCarry_moves {fp : Nat} {s0 s : State} (h : Moves fp s0 s) (hm : Covers 0xa4000001141067 fp) (x0 : Eng) (x1 : Hw) : Out.moves fp s0 (execSeCarry x0 x1 s) := by
  unfold execSeCarry
  try dsimp only
  with_reducible repeat' first
    | assumption
    | exact hm.mono (by decide)
    | (intro _; try dsimp only)
    | apply Out.moves_next
    | apply State.runPath_moves
    | exact fun _ _ _ => rfl
    | (unfold seCarryPath; try dsimp only)

theorem execSeScan_moves {fp : Nat} {s0 s : State} (h : Moves fp s0 s) (hm : Covers 0xa4000001141067 fp) (x0 : Eng) (x1 : Hw) : Out.moves fp s0 (execSeScan x0 x1 s) := by
  unfold execSeScan
  try dsimp only
  with_reducible repeat' first
    | assumption
    | exact hm.mono (by decide)
    | (intro _; try dsimp only)
    | apply Out.moves_next
    | apply State.runPath_moves
    | exact fun _ _ _ => rfl
    | (unfold seScanPath; try dsimp only)


/-! ### Machine/Attention.lean -/

theorem State.appendTables_moves {fp : Nat} {s0 s : State} (h : Moves fp s0 s) (hm : Covers 0x800000 fp) (x1 : Cmd) (x2 : List (Nat × PageTable)) : Moves fp s0 (State.appendTables s x1 x2) := by
  unfold State.appendTables
  try dsimp only
  with_reducible repeat' first
    | assumption
    | exact hm.mono (by decide)
    | (intro _; try dsimp only)
    | apply State.putSeq_moves
    | apply Moves.foldl
    | split
    | (refine Moves.leaf ?_ hm)

theorem State.spillFault_moves {fp : Nat} {s0 s : State} (h : Moves fp s0 s) (hm : Covers 0x84000002801001 fp) (x1 : Cmd) (x2 : Nat) : Moves fp s0 (State.spillFault s x1 x2) := by
  unfold State.spillFault
  try dsimp only
  with_reducible repeat' first
    | assumption
    | exact hm.mono (by decide)
    | apply State.draw_moves
    | apply State.hbmUncorrected_moves
    | apply State.pageLost_moves
    | apply State.putCmd_moves
    | apply PairMoves.of
    | (refine PairMoves.use ?_ (by assumption))
    | apply PairMoves.snd
    | (refine Moves.leaf ?_ hm)

theorem State.walkOwn_moves {fp : Nat} {s0 s : State} (h : Moves fp s0 s) (hm : Covers 0xa4000002941067 fp) (x1 : Datapath) (x2 : Cmd) (hx1 : ∀ v c t, Moves fp s0 t → Moves fp s0 (x1.after v c t)) : Moves fp s0 (State.walkOwn s x1 x2) := by
  unfold State.walkOwn
  try dsimp only
  with_reducible repeat' first
    | assumption
    | exact hm.mono (by decide)
    | (intro _; try dsimp only)
    | apply hx1
    | apply State.runOn_moves
    | apply State.spillFault_moves
    | apply State.putCmd_moves
    | split
    | (refine Moves.leaf ?_ hm)

theorem appendAfter_moves {fp : Nat} {s0 s : State} (h : Moves fp s0 s) (hm : Covers 0x800000 fp) (v : State) (c : Cmd) :
    Moves fp s0 (appendAfter v c s) := by
  unfold appendAfter
  split
  · exact State.appendTables_moves h (hm.mono (by decide)) _ _
  · exact h

theorem execAtAppend_moves {fp : Nat} {s0 s : State} (h : Moves fp s0 s) (hm : Covers 0xa4000001941067 fp) (x0 : Eng) (x1 : Hw) : Out.moves fp s0 (execAtAppend x0 x1 s) := by
  unfold execAtAppend
  try dsimp only
  with_reducible repeat' first
    | assumption
    | exact hm.mono (by decide)
    | (intro _; try dsimp only)
    | apply Out.moves_next
    | apply appendAfter_moves
    | apply State.runPath_moves
    | exact fun _ _ _ => rfl
    | (unfold atAppendPath; try dsimp only)

theorem execAtMerge_moves {fp : Nat} {s0 s : State} (h : Moves fp s0 s) (hm : Covers 0xa4000001141067 fp) (x0 : Eng) (x1 : Hw) : Out.moves fp s0 (execAtMerge x0 x1 s) := by
  unfold execAtMerge
  try dsimp only
  with_reducible repeat' first
    | assumption
    | exact hm.mono (by decide)
    | (intro _; try dsimp only)
    | apply Out.moves_next
    | apply State.runPath_moves
    | exact fun _ _ _ => rfl
    | (unfold atMergePath; try dsimp only)


/-! ### Machine/Parts.lean -/

theorem State.askPage_moves {fp : Nat} {s0 s : State} (h : Moves fp s0 s) (hm : Covers 0x4240000080000 fp) (x1 : Nat) (x2 : Cmd) (x3 : CacheDesc) (x4 : Nat) (x5 : Nat) : Moves fp s0 (State.askPage s x1 x2 x3 x4 x5) := by
  unfold State.askPage
  try dsimp only
  with_reducible repeat' first
    | assumption
    | exact hm.mono (by decide)
    | apply State.charge_moves
    | apply State.takeTxn_moves
    | apply State.send_moves
    | apply State.addOp_moves
    | apply PairMoves.of
    | (refine PairMoves.use ?_ (by assumption))
    | apply PairMoves.snd
    | (refine Moves.leaf ?_ hm)

theorem State.askTable_moves {fp : Nat} {s0 s : State} (h : Moves fp s0 s) (hm : Covers 0x240000000000 fp) (x1 : Nat) (x2 : Cmd) (x3 : Nat) : Moves fp s0 (State.askTable s x1 x2 x3) := by
  unfold State.askTable
  try dsimp only
  with_reducible repeat' first
    | assumption
    | exact hm.mono (by decide)
    | apply State.takeTxn_moves
    | apply State.send_moves
    | apply State.addOp_moves
    | apply PairMoves.of
    | (refine PairMoves.use ?_ (by assumption))
    | apply PairMoves.snd
    | (refine Moves.leaf ?_ hm)

theorem State.computePart_moves {fp : Nat} {s0 s : State} (h : Moves fp s0 s) (hm : Covers 0xa4000001941067 fp) (path : Datapath) (c : Cmd)
    (ha : ∀ v c t, path.after v c t = t) : Moves fp s0 (s.computePart path c) := by
  have k0 : Moves 0xa4000001941067 s (s.partStore c) := by
    refine (Moves.rfl' _ s).step (Covers.refl _) fun i => { i with spill := ?_ }
    have w : ∀ (l : List Nat) (f : Nat → List Byte) (m : Mem), Mem.wf m → Mem.wf (l.foldl (fun m i => Mem.writeBytes m (i * 32768) (f i)) m) := by
      intro l f
      induction l with
      | nil => exact fun m hm => hm
      | cons x l ih => exact fun m hm => ih _ (Mem.wf_writeBytes _ hm _)
    exact w _ _ _ Mem.wf_nil
  have k := State.runOn_moves k0 (by decide) path (s.partCmd c) fun v x t ht => (ha v x t).symm ▸ ht
  unfold State.computePart
  dsimp only
  generalize (s.partStore c).runOn path (s.partCmd c) = u at k
  refine ⟨k.pending.trans h.pending, fun i => { k.inv (h.inv i) with spill := (h.inv i).spill, accepted := ?_ }, h.frame.trans (Footprint.mono
    (j := 0xa4000001941067) { k.frame with pg := .refl _ _, rb := { k.frame.rb with cmds := fun e => absurd e (by decide) } } hm)⟩
  intro x hx hs
  obtain ⟨y, hy, e⟩ := List.mem_map.1 hx
  split at e
  · subst e; exact (k.inv (h.inv i)).accepted y hy hs
  · subst e; exact (k.inv (h.inv i)).accepted y hy hs

theorem State.partView_moves {fp : Nat} {s0 s : State} (h : Moves fp s0 s) (hm : Covers 0x800000 fp) (x1 : Cmd) : Moves fp s0 (State.partView s x1) := by
  unfold State.partView
  try dsimp only
  with_reducible repeat' first
    | assumption
    | exact hm.mono (by decide)
    | (intro _; try dsimp only)
    | apply Moves.foldl
    | (refine Moves.leaf ?_ hm)

theorem State.runPart_moves {fp : Nat} {s0 s : State} (h : Moves fp s0 s) (hm : Covers 0xa42400019c1067 fp) (x1 : Nat) (x2 : Datapath) (x3 : Cmd) (hx2 : ∀ v c t, x2.after v c t = t) : Moves fp s0 (State.runPart s x1 x2 x3) := by
  unfold State.runPart
  try dsimp only
  with_reducible repeat' first
    | assumption
    | exact hm.mono (by decide)
    | (intro _; try dsimp only)
    | exact hx2
    | (rw [hx2]; assumption)
    | apply State.awaitPeer_moves
    | apply State.computePart_moves
    | apply State.askPage_moves
    | apply State.failPeer_moves
    | apply State.askTable_moves
    | apply Moves.foldl
    | split

theorem State.runWalk_moves {fp : Nat} {s0 s : State} (h : Moves fp s0 s) (hm : Covers 0xa42400039c1067 fp) (x1 : Nat) (x2 : Hw) (x3 : Option PortNo) (x4 : Datapath) (hx4 : ∀ v c t, x4.after v c t = t) : Moves fp s0 (State.runWalk s x1 x2 x3 x4) := by
  unfold State.runWalk
  try dsimp only
  with_reducible repeat' first
    | assumption
    | exact hm.mono (by decide)
    | (intro _; try dsimp only)
    | exact hx4
    | (rw [hx4]; assumption)
    | apply State.atCommand_moves
    | apply State.walkOwn_moves
    | apply State.runPart_moves
    | split

theorem execAtScore_moves {fp : Nat} {s0 s : State} (h : Moves fp s0 s) (hm : Covers 0xa42400039c1067 fp) (x0 : Eng) (x1 : Hw) (x2 : Option PortNo) : Out.moves fp s0 (execAtScore x0 x1 x2 s) := by
  unfold execAtScore
  try dsimp only
  with_reducible repeat' first
    | assumption
    | exact hm.mono (by decide)
    | (intro _; try dsimp only)
    | apply Out.moves_next
    | apply State.runWalk_moves
    | exact fun _ _ _ => rfl
    | (unfold atScorePath; try dsimp only)

theorem execAtValue_moves {fp : Nat} {s0 s : State} (h : Moves fp s0 s) (hm : Covers 0xa42400039c1067 fp) (x0 : Eng) (x1 : Hw) (x2 : Option PortNo) : Out.moves fp s0 (execAtValue x0 x1 x2 s) := by
  unfold execAtValue
  try dsimp only
  with_reducible repeat' first
    | assumption
    | exact hm.mono (by decide)
    | (intro _; try dsimp only)
    | apply Out.moves_next
    | apply State.runWalk_moves
    | exact fun _ _ _ => rfl
    | (unfold atValuePath; try dsimp only)


/-! ### Machine/Blob.lean -/

theorem State.repairCommitted_moves {fp : Nat} {s0 s : State} (h : Moves fp s0 s) (hm : Covers 0xa4840b3ca450ce fp) (x1 : Nat) : Moves fp s0 (State.repairCommitted s x1) := by
  unfold State.repairCommitted
  try dsimp only
  with_reducible repeat' first
    | assumption
    | exact hm.mono (by decide)
    | apply State.restoreM_moves
    | apply State.restoreS_moves

theorem State.sendOffer_moves {fp : Nat} {s0 s : State} (h : Moves fp s0 s) (hm : Covers 0x40000000000 fp) (x1 : Migration) : Moves fp s0 (State.sendOffer s x1) := by
  unfold State.sendOffer
  try dsimp only
  with_reducible repeat' first | assumption | exact hm.mono (by decide) | apply State.send_moves

theorem State.freezeStream_moves {fp : Nat} {s0 s : State} (h : Moves fp s0 s) (hm : Covers 0xa4c40b3ca450ce fp) (x1 : Nat) (x2 : ExportReq) : Moves fp s0 (State.freezeStream s x1 x2) := by
  unfold State.freezeStream
  try dsimp only
  with_reducible repeat' first
    | assumption
    | exact hm.mono (by decide)
    | (intro _; try dsimp only)
    | apply State.sendOffer_moves
    | apply State.setPort_moves
    | apply State.refuseExports_moves
    | apply State.repairCommitted_moves
    | apply State.modStream_moves
    | split
    | (refine Moves.leaf ?_ hm)

theorem State.settleMigrate_moves {fp : Nat} {s0 s : State} (h : Moves fp s0 s) (hm : Covers 0xa4c40b3ca450ce fp) (x1 : Nat) : Moves fp s0 (State.settleMigrate s x1) := by
  unfold State.settleMigrate
  try dsimp only
  with_reducible repeat' first | assumption | exact hm.mono (by decide) | apply State.freezeStream_moves | split


/-! ### Machine/Link.lean -/

theorem State.endPeerDown_moves {fp : Nat} {s0 s : State} (h : Moves fp s0 s) (hm : Covers 0x40000a48c0b2efd50ee fp) (x1 : Cmd) : Moves fp s0 (State.endPeerDown s x1) := by
  unfold State.endPeerDown
  try dsimp only
  with_reducible repeat' first
    | assumption
    | exact hm.mono (by decide)
    | apply State.putCmd_moves
    | apply State.completeCmd_moves
    | split
    | (refine Moves.leaf ?_ hm)

theorem State.losePeer_moves {fp : Nat} {s0 s : State} (h : Moves fp s0 s) (hm : Covers 0x40000a4bc0b2efd50ee fp) (x1 : Nat) (x2 : Nat) : Moves fp s0 (State.losePeer s x1 x2) := by
  unfold State.losePeer
  try dsimp only
  with_reducible repeat' first
    | assumption
    | exact hm.mono (by decide)
    | (intro _; try dsimp only)
    | apply State.cancelRx_moves
    | apply State.endWalk_moves
    | apply State.endPeerDown_moves
    | apply State.settleAborts_moves
    | apply Moves.foldl
    | (refine Moves.leaf ?_ hm)

theorem State.leaveUp_moves {fp : Nat} {s0 s : State} (h : Moves fp s0 s) (hm : Covers 0x40000a4bc0b2efd50ee fp) (x1 : Nat) (x2 : PortState) (x3 : Nat) (x4 : Bool) : Moves fp s0 (State.leaveUp s x1 x2 x3 x4) := by
  unfold State.leaveUp
  try dsimp only
  with_reducible repeat' first
    | assumption
    | exact hm.mono (by decide)
    | apply State.setPort_moves
    | apply State.losePeer_moves
    | apply State.logFault_moves
    | apply State.emcyEvent_moves
    | split
    | (refine Moves.leaf ?_ hm)

theorem State.portDown_moves {fp : Nat} {s0 s : State} (h : Moves fp s0 s) (hm : Covers 0x40000a4bc0b2efd50ee fp) (x1 : Nat) (x2 : Nat) : Moves fp s0 (State.portDown s x1 x2) := by
  unfold State.portDown
  try dsimp only
  with_reducible repeat' first | assumption | exact hm.mono (by decide) | apply State.leaveUp_moves

theorem State.goBack_moves {fp : Nat} {s0 s : State} (h : Moves fp s0 s) (hm : Covers 0x40000a6bc0b2efd50ee fp) (x1 : Nat) : Moves fp s0 (State.goBack s x1) := by
  unfold State.goBack
  try dsimp only
  with_reducible repeat' first
    | assumption
    | exact hm.mono (by decide)
    | (intro _; try dsimp only)
    | apply State.setPort_moves
    | apply State.portDown_moves
    | split
    | (refine Moves.leaf ?_ hm)

theorem State.takeHeader_moves {fp : Nat} {s0 s : State} (h : Moves fp s0 s) (hm : Covers 0x40000a6bc0b2efd50ee fp) (x1 : Nat) (x2 : Nat) : Moves fp s0 (State.takeHeader s x1 x2) := by
  unfold State.takeHeader
  try dsimp only
  with_reducible repeat' first
    | assumption
    | exact hm.mono (by decide)
    | apply State.setPort_moves
    | apply State.goBack_moves
    | split
    | (refine Moves.leaf ?_ hm)

theorem State.train_moves {fp : Nat} {s0 s : State} (h : Moves fp s0 s) (hm : Covers 0x40000000000 fp) (x1 : Nat) (x2 : PortState) (x3 : PortState) : Moves fp s0 (State.train s x1 x2 x3) := by
  unfold State.train
  try dsimp only
  with_reducible repeat' first
    | assumption
    | exact hm.mono (by decide)
    | apply State.setPort_moves
    | split
    | (refine Moves.leaf ?_ hm)

theorem execAckTimer_moves {fp : Nat} {s0 s : State} (h : Moves fp s0 s) (hm : Covers 0x40000000000 fp) (x0 : PortNo) : Out.moves fp s0 (execAckTimer x0 s) := by
  unfold execAckTimer
  try dsimp only
  with_reducible repeat' first
    | assumption
    | exact hm.mono (by decide)
    | apply Out.moves_next
    | apply State.setPort_moves
    | split

theorem execBlockLockLost_moves {fp : Nat} {s0 s : State} (h : Moves fp s0 s) (hm : Covers 0x40000a4bc0b2efd50ee fp) (x0 : PortNo) : Out.moves fp s0 (execBlockLockLost x0 s) := by
  unfold execBlockLockLost
  try dsimp only
  with_reducible repeat' first
    | assumption
    | exact hm.mono (by decide)
    | apply Out.moves_next
    | apply State.portDown_moves

theorem execDownWaitExpiry_moves {fp : Nat} {s0 s : State} (h : Moves fp s0 s) (hm : Covers 0x40000000000 fp) (x0 : PortNo) : Out.moves fp s0 (execDownWaitExpiry x0 s) := by
  unfold execDownWaitExpiry
  try dsimp only
  with_reducible repeat' first | assumption | exact hm.mono (by decide) | apply Out.moves_next | apply State.train_moves

theorem execEscapeTimeout_moves {fp : Nat} {s0 s : State} (h : Moves fp s0 s) (hm : Covers 0x4040000000000 fp) (x0 : PortNo) (x1 : Bool) : Out.moves fp s0 (execEscapeTimeout x0 x1 s) := by
  unfold execEscapeTimeout
  try dsimp only
  with_reducible repeat' first
    | assumption
    | exact hm.mono (by decide)
    | apply Out.moves_next
    | apply State.setPort_moves
    | apply State.incObj_moves
    | split
    | (refine Moves.leaf ?_ hm)

theorem execIdent_moves {fp : Nat} {s0 s : State} (h : Moves fp s0 s) (hm : Covers 0x84040000000000 fp) (x0 : PortNo) (x1 : List Block) : Out.moves fp s0 (execIdent x0 x1 s) := by
  unfold execIdent
  try dsimp only
  with_reducible repeat' first
    | assumption
    | exact hm.mono (by decide)
    | apply Out.moves_next
    | apply State.setPort_moves
    | apply State.emcyEvent_moves
    | split
    | (refine Moves.leaf ?_ hm)

theorem execLanesDeskewed_moves {fp : Nat} {s0 s : State} (h : Moves fp s0 s) (hm : Covers 0x40000000000 fp) (x0 : PortNo) : Out.moves fp s0 (execLanesDeskewed x0 s) := by
  unfold execLanesDeskewed
  try dsimp only
  with_reducible repeat' first
    | assumption
    | exact hm.mono (by decide)
    | apply Out.moves_next
    | apply State.setPort_moves
    | apply State.train_moves
    | split

theorem execLanesLocked_moves {fp : Nat} {s0 s : State} (h : Moves fp s0 s) (hm : Covers 0x40000000000 fp) (x0 : PortNo) : Out.moves fp s0 (execLanesLocked x0 s) := by
  unfold execLanesLocked
  try dsimp only
  with_reducible repeat' first | assumption | exact hm.mono (by decide) | apply Out.moves_next | apply State.train_moves

theorem execLinkFrameRx_moves {fp : Nat} {s0 s : State} (h : Moves fp s0 s) (hm : Covers 0x40800a6bc0b2efd50ee fp) (x0 : PortNo) (x1 : List Block) : Out.moves fp s0 (execLinkFrameRx x0 x1 s) := by
  unfold execLinkFrameRx
  try dsimp only
  with_reducible repeat' first
    | assumption
    | exact hm.mono (by decide)
    | apply Out.moves_next
    | apply State.setPort_moves
    | apply State.takeHeader_moves
    | apply State.wakeTrigger_moves
    | split
    | (refine Moves.leaf ?_ hm)

theorem execNull_moves {fp : Nat} {s0 s : State} (h : Moves fp s0 s) (hm : Covers 0x40000a6bc0b2efd50ee fp) (x0 : PortNo) (x1 : List Block) : Out.moves fp s0 (execNull x0 x1 s) := by
  unfold execNull
  try dsimp only
  with_reducible repeat' first
    | assumption
    | exact hm.mono (by decide)
    | apply Out.moves_next
    | apply State.takeHeader_moves
    | split

theorem execPortDownTimeout_moves {fp : Nat} {s0 s : State} (h : Moves fp s0 s) (hm : Covers 0x40000a4bc0b2efd50ee fp) (x0 : PortNo) : Out.moves fp s0 (execPortDownTimeout x0 s) := by
  unfold execPortDownTimeout
  try dsimp only
  with_reducible repeat' first
    | assumption
    | exact hm.mono (by decide)
    | apply Out.moves_next
    | apply State.portDown_moves
    | split

theorem execRetryTimeout_moves {fp : Nat} {s0 s : State} (h : Moves fp s0 s) (hm : Covers 0x40000a6bc0b2efd50ee fp) (x0 : PortNo) : Out.moves fp s0 (execRetryTimeout x0 s) := by
  unfold execRetryTimeout
  try dsimp only
  with_reducible repeat' first | assumption | exact hm.mono (by decide) | apply Out.moves_next | apply State.goBack_moves

theorem execSignalDetect_moves {fp : Nat} {s0 s : State} (h : Moves fp s0 s) (hm : Covers 0x40000000000 fp) (x0 : PortNo) : Out.moves fp s0 (execSignalDetect x0 s) := by
  unfold execSignalDetect
  try dsimp only
  with_reducible repeat' first | assumption | exact hm.mono (by decide) | apply Out.moves_next | apply State.train_moves

theorem execTrainingTimeout_moves {fp : Nat} {s0 s : State} (h : Moves fp s0 s) (hm : Covers 0x40000000000 fp) (x0 : PortNo) : Out.moves fp s0 (execTrainingTimeout x0 s) := by
  unfold execTrainingTimeout
  try dsimp only
  with_reducible repeat' first
    | assumption
    | exact hm.mono (by decide)
    | apply Out.moves_next
    | apply State.setPort_moves
    | split
    | (refine Moves.leaf ?_ hm)


/-! ### Machine/Token.lean -/

theorem State.eachChunk_moves {fp : Nat} {s0 s : State} (h : Moves fp s0 s) (hm : Covers 0x8000000 fp) (x1 : Desc) (x2 : TokenDesc → Chunk → Chunk) : Moves fp s0 (State.eachChunk s x1 x2) := by
  unfold State.eachChunk
  try dsimp only
  with_reducible repeat' first
    | assumption
    | exact hm.mono (by decide)
    | (intro _; try dsimp only)
    | apply State.modChunk_moves
    | apply Moves.foldl

theorem tkDetokAfter_moves {fp : Nat} {s0 s : State} (h : Moves fp s0 s) (hm : Covers 0x8000000 fp) (v : State) (c : Cmd) :
    Moves fp s0 (tkDetokAfter v c s) :=
  Moves.foldl _ h fun _ _ ht => State.modChunk_moves ht (hm.mono (by decide)) _ _ _

theorem execTkDetok_moves {fp : Nat} {s0 s : State} (h : Moves fp s0 s) (hm : Covers 0xa4000009141067 fp) (x0 : Eng) (x1 : Hw) : Out.moves fp s0 (execTkDetok x0 x1 s) := by
  unfold execTkDetok
  try dsimp only
  with_reducible repeat' first
    | assumption
    | exact hm.mono (by decide)
    | (intro _; try dsimp only)
    | apply Out.moves_next
    | apply State.runPath_moves
    | apply tkDetokAfter_moves
    | exact fun _ _ _ => rfl
    | (unfold tkDetokPath; try dsimp only)

theorem tkPrefixAfter_moves {fp : Nat} {s0 s : State} (h : Moves fp s0 s) (hm : Covers 0x8000000 fp) (v : State) (c : Cmd) :
    Moves fp s0 (tkPrefixAfter v c s) := by
  unfold tkPrefixAfter
  split
  · exact h
  · exact State.eachChunk_moves h (hm.mono (by decide)) _ _

theorem execTkPrefix_moves {fp : Nat} {s0 s : State} (h : Moves fp s0 s) (hm : Covers 0xa4000009141067 fp) (x0 : Eng) (x1 : Hw) : Out.moves fp s0 (execTkPrefix x0 x1 s) := by
  unfold execTkPrefix
  try dsimp only
  with_reducible repeat' first
    | assumption
    | exact hm.mono (by decide)
    | (intro _; try dsimp only)
    | apply Out.moves_next
    | apply tkPrefixAfter_moves
    | apply State.runPath_moves
    | exact fun _ _ _ => rfl
    | (unfold tkPrefixPath; try dsimp only)

theorem tkSelectAfter_moves {fp : Nat} {s0 s : State} (h : Moves fp s0 s) (hm : Covers 0x8000000 fp) (v : State) (c : Cmd) : Moves fp s0 (tkSelectAfter v c s) := by
  unfold tkSelectAfter
  exact State.eachChunk_moves h (hm.mono (by decide)) _ _

theorem execTkSelect_moves {fp : Nat} {s0 s : State} (h : Moves fp s0 s) (hm : Covers 0xa4000009141067 fp) (x0 : Eng) (x1 : Hw) : Out.moves fp s0 (execTkSelect x0 x1 s) := by
  unfold execTkSelect
  try dsimp only
  with_reducible repeat' first
    | assumption
    | exact hm.mono (by decide)
    | (intro _; try dsimp only)
    | apply Out.moves_next
    | apply tkSelectAfter_moves
    | apply State.runPath_moves
    | exact fun _ _ _ => rfl
    | (unfold tkSelectPath; try dsimp only)

theorem tkTopkAfter_moves {fp : Nat} {s0 s : State} (h : Moves fp s0 s) (hm : Covers 0x8000000 fp) (v : State) (c : Cmd) : Moves fp s0 (tkTopkAfter v c s) := by
  unfold tkTopkAfter
  exact State.eachChunk_moves h (hm.mono (by decide)) _ _

theorem execTkTopk_moves {fp : Nat} {s0 s : State} (h : Moves fp s0 s) (hm : Covers 0xa4000009141067 fp) (x0 : Eng) (x1 : Hw) : Out.moves fp s0 (execTkTopk x0 x1 s) := by
  unfold execTkTopk
  try dsimp only
  with_reducible repeat' first
    | assumption
    | exact hm.mono (by decide)
    | (intro _; try dsimp only)
    | apply Out.moves_next
    | apply tkTopkAfter_moves
    | apply State.runPath_moves
    | exact fun _ _ _ => rfl
    | (unfold tkTopkPath; try dsimp only)

theorem tkVerifyAfter_moves {fp : Nat} {s0 s : State} (h : Moves fp s0 s) (hm : Covers 0x8000000 fp) (v : State) (c : Cmd) : Moves fp s0 (tkVerifyAfter v c s) := by
  unfold tkVerifyAfter
  exact State.eachChunk_moves h (hm.mono (by decide)) _ _

theorem execTkVerify_moves {fp : Nat} {s0 s : State} (h : Moves fp s0 s) (hm : Covers 0xa4000009141067 fp) (x0 : Eng) (x1 : Hw) : Out.moves fp s0 (execTkVerify x0 x1 s) := by
  unfold execTkVerify
  try dsimp only
  with_reducible repeat' first
    | assumption
    | exact hm.mono (by decide)
    | (intro _; try dsimp only)
    | apply Out.moves_next
    | apply State.runPath_moves
    | apply tkVerifyAfter_moves
    | exact fun _ _ _ => rfl
    | (unfold tkVerifyPath; try dsimp only)

end Sys2Proof.Machine
end

