-- ==== Sys2Proof/Laws/MovesChunks.lean ====
section
/-! SUPPORT. The operations of commits, egress, ingest and pages keep the queue, the invariant and what lies outside their footprints: one lemma each. -/

set_option linter.unusedTactic false
set_option linter.unreachableTactic false

namespace Sys2Proof.Machine

-- One proof at a time: proofs elaborated side by side wait on shared realisations, one thread each, and run out of threads.
set_option Elab.async false

/-! ### Machine/Commit.lean -/

theorem State.markWaiting_moves {fp : Nat} {s0 s : State} (h : Moves fp s0 s) (hm : Covers 0x100000000 fp) (x1 : Nat) (x2 : Nat) : Moves fp s0 (State.markWaiting s x1 x2) := by
  unfold State.markWaiting
  try dsimp only
  with_reducible repeat' first
    | assumption
    | exact hm.mono (by decide)
    | (intro _; try dsimp only)
    | split
    | (refine Moves.leaf ?_ hm)

theorem State.countDrain_moves {fp : Nat} {s0 s : State} (h : Moves fp s0 s) (hm : Covers 0x4000004000000 fp) (x1 : Nat) (x2 : List (Rec × List Byte)) : Moves fp s0 (State.countDrain s x1 x2) := by
  unfold State.countDrain
  try dsimp only
  with_reducible repeat' first
    | assumption
    | exact hm.mono (by decide)
    | (intro _; try dsimp only)
    | apply State.incObj_moves
    | apply State.modStream_moves
    | split
    | (refine Moves.leaf ?_ hm)

theorem State.countCommit_moves {fp : Nat} {s0 s : State} (h : Moves fp s0 s) (hm : Covers 0x4000004000000 fp) (x1 : Nat) (x2 : Machine.Stream) (x3 : Chunk) : Moves fp s0 (State.countCommit s x1 x2 x3) := by
  unfold State.countCommit
  try dsimp only
  with_reducible repeat' first
    | assumption
    | exact hm.mono (by decide)
    | apply State.countDrain_moves
    | apply State.incObj_moves
    | split

theorem State.endBatches_moves {fp : Nat} {s0 s : State} (h : Moves fp s0 s) (hm : Covers 0x80040000008 fp)  : Moves fp s0 (State.endBatches s) := by
  unfold State.endBatches
  try dsimp only
  with_reducible repeat' first
    | assumption
    | exact hm.mono (by decide)
    | (intro _; try dsimp only)
    | apply State.cancelRx_moves
    | (refine Moves.leaf ?_ hm)

theorem State.logCommit_moves {fp : Nat} {s0 s : State} (h : Moves fp s0 s) (hm : Covers 0x80000000 fp) (e : LogEntry) : Moves fp s0 (s.logCommit e) :=
  h.step hm fun i => { i with commitLog := length_pushRing i.commitLog (by decide) _ }

theorem State.openBuffer_moves {fp : Nat} {s0 s : State} (h : Moves fp s0 s) (hm : Covers 0x8 fp) (x1 : Machine.Stream) : Moves fp s0 (State.openBuffer s x1) := by
  unfold State.openBuffer
  try dsimp only
  with_reducible repeat' first | assumption | exact hm.mono (by decide) | apply State.setTag_moves | split

theorem State.swapOutState_moves {fp : Nat} {s0 s : State} (h : Moves fp s0 s) (hm : Covers 0xa4840b3ca450ce fp) (x1 : Nat) : Moves fp s0 (State.swapOutState s x1) := by
  unfold State.swapOutState
  try dsimp only
  with_reducible repeat' first
    | assumption
    | exact hm.mono (by decide)
    | (intro _; try dsimp only)
    | apply State.setTag_moves
    | apply State.copyToMirror_moves
    | apply State.modStream_moves
    | apply State.restoreS_moves
    | split
    | (refine Moves.leaf ?_ hm)

theorem State.settleStream_moves {fp : Nat} {s0 s : State} (h : Moves fp s0 s) (hm : Covers 0xa4840b3ca450ce fp) (x1 : Nat) : Moves fp s0 (State.settleStream s x1) := by
  unfold State.settleStream
  try dsimp only
  with_reducible repeat' first
    | assumption
    | exact hm.mono (by decide)
    | (intro _; try dsimp only)
    | apply State.streamEvent_moves
    | apply State.countDrain_moves
    | apply State.publish_moves
    | apply State.swapOutState_moves
    | apply State.modStream_moves
    | split
    | (refine Moves.leaf ?_ hm)

theorem State.finishCommit_moves {fp : Nat} {s0 s : State} (h : Moves fp s0 s) (hm : Covers 0xa4cc0bfca450ce fp) (x1 : Nat) (x2 : Machine.Stream) (x3 : Chunk) (x4 : Nat) (x5 : Nat) : Moves fp s0 (State.finishCommit s x1 x2 x3 x4 x5) := by
  unfold State.finishCommit
  try dsimp only
  with_reducible repeat' first
    | assumption
    | exact hm.mono (by decide)
    | (intro _; try dsimp only)
    | apply State.openBuffer_moves
    | apply State.logCommit_moves
    | apply State.endBatches_moves
    | apply State.swapOutState_moves
    | apply State.settleMigrate_moves
    | apply State.settleStream_moves
    | apply State.modStream_moves
    | apply State.dropChunk_moves
    | split
    | (refine Moves.leaf ?_ hm)

theorem State.publishCommit_moves {fp : Nat} {s0 s : State} (h : Moves fp s0 s) (hm : Covers 0xa4cc0bfca450ce fp) (x1 : Nat) (x2 : Nat) : OptMoves fp s0 (State.publishCommit s x1 x2) := by
  unfold State.publishCommit
  try dsimp only
  with_reducible repeat' first
    | assumption
    | exact hm.mono (by decide)
    | (intro _; try dsimp only)
    | apply State.finishCommit_moves
    | apply State.countCommit_moves
    | apply State.placeAll_moves
    | apply State.modStream_moves
    | apply OptMoves.some
    | apply OptMoves.none
    | (refine OptMoves.use ?_ (by assumption))
    | apply OptMoves.getD
    | split
    | (refine Moves.leaf ?_ hm)

theorem State.placeWaiting_moves {fp : Nat} {s0 s : State} (h : Moves fp s0 s) (hm : Covers 0xa4cc0bfca450ce fp) (p ring n : Nat) : Moves fp s0 (State.placeWaiting p ring n s) := by
  induction n generalizing s with
  | zero => exact h
  | succ n ih =>
    have k : ∀ w : Waiting, Moves fp s0 { s with str := { s.str with waiting := s.str.waiting.erase w } } := fun w =>
      Moves.leaf h hm
    unfold State.placeWaiting
    dsimp only
    split
    · exact h
    · split
      · split
        · next q => exact ih ((State.publishCommit_moves (k _) (hm.mono (by decide)) _ _).get _ q)
        · exact h
      · split
        · exact ih (State.placeOwn_moves (k _) (hm.mono (by decide)) _)
        · exact h

theorem State.pumpRing_moves {fp : Nat} {s0 s : State} (h : Moves fp s0 s) (hm : Covers 0xa4cc0bfca450ce fp) (x1 : Nat) (x2 : Nat) : Moves fp s0 (State.pumpRing s x1 x2) := by
  unfold State.pumpRing
  try dsimp only
  with_reducible repeat' first | assumption | exact hm.mono (by decide) | apply State.placeWaiting_moves

theorem State.stepFour_moves {fp : Nat} {s0 s : State} (h : Moves fp s0 s) (hm : Covers 0xa4cc0bfca450ce fp) (x1 : Nat) (x2 : Nat) : Moves fp s0 (State.stepFour s x1 x2) := by
  unfold State.stepFour
  try dsimp only
  with_reducible repeat' first
    | assumption
    | exact hm.mono (by decide)
    | (intro _; try dsimp only)
    | apply State.pumpRing_moves
    | apply State.publishCommit_moves
    | apply State.markWaiting_moves
    | apply OptMoves.some
    | apply OptMoves.none
    | (refine OptMoves.use ?_ (by assumption))
    | apply OptMoves.getD
    | split
    | (refine Moves.leaf ?_ hm)

theorem State.insertPage_moves {fp : Nat} {s0 : State} {a : State × PageTable} (h : Moves fp s0 a.1) (hm : Covers 0x4000002000000 fp) (s : State) (sid : Nat) (st : Stream)
    (m : ModelSlot) (i : Nat) : StatePair fp s0 (s.insertPage sid st m a i) := by
  unfold State.insertPage
  dsimp only
  split
  · exact ⟨h⟩
  · split
    · exact ⟨h⟩
    · split
      · exact ⟨h⟩
      · split
        · exact ⟨h⟩
        · next q =>
          apply StatePair.of
          refine Moves.leaf ?_ hm
          split at q
          · cases q; exact h
          · split at q
            · cases q
            · exact (State.evictNode_moves h (hm.mono (by decide)) _).get _ q

theorem State.stepThree_moves {fp : Nat} {s0 s : State} (h : Moves fp s0 s) (hm : Covers 0x4000002800000 fp) (sid beam : Nat) (c : Chunk) : OptMoves fp s0 (s.stepThree sid beam c) := by
  have k : ∀ (l : List Nat) (st : Stream) (m : ModelSlot) (a : State × PageTable), Moves fp s0 a.1 →
      Moves fp s0 (l.foldl (s.insertPage sid st m) a).1 := by
    intro l st m
    induction l with
    | nil => exact fun a ha => ha
    | cons x l ih => exact fun a ha => ih _ (State.insertPage_moves ha (hm.mono (by decide)) s sid st m x).fst
  unfold State.stepThree
  split
  · split
    · exact OptMoves.none
    · apply OptMoves.some
      refine Moves.foldl _ ?_ fun t x ht => State.endSeq_moves ht (hm.mono (by decide)) _
      refine State.reclaim_moves ?_ (hm.mono (by decide)) ..
      refine State.putSeq_moves ?_ (hm.mono (by decide)) ..
      apply k
      exact h
  · exact OptMoves.some h

theorem State.carryCommit_moves {fp : Nat} {s0 s : State} (h : Moves fp s0 s) (hm : Covers 0xa4cc0bfea450ce fp) (sid : Nat) : Moves fp s0 (s.carryCommit sid) := by
  unfold State.carryCommit
  split
  · exact h
  · split
    · split
      · exact h
      · split
        · next q => exact State.stepFour_moves (State.modStream_moves ((State.stepThree_moves h (hm.mono (by decide)) _ _ _).get _ q) (hm.mono (by decide)) _ _) (hm.mono (by decide)) _ _
        · exact h
    · split
      · exact State.stepFour_moves h (hm.mono (by decide)) _ _
      · exact h

theorem State.commitFault_moves {fp : Nat} {s0 s : State} (h : Moves fp s0 s) (hm : Covers 0xa48c0b2ca450ce fp) (x1 : Nat) (x2 : Machine.Stream) (x3 : Chunk) : Moves fp s0 (State.commitFault s x1 x2 x3) := by
  unfold State.commitFault
  try dsimp only
  with_reducible repeat' first
    | assumption
    | exact hm.mono (by decide)
    | (intro _; try dsimp only)
    | apply State.spUncorrected_moves
    | apply State.abortChunk_moves
    | apply State.incObj_moves
    | apply State.logFault_moves
    | apply State.emcyEvent_moves
    | (refine Moves.leaf ?_ hm)

theorem State.countPoint_moves {fp : Nat} {s0 s : State} (h : Moves fp s0 s) (hm : Covers 0x4000200000000 fp) (x1 : Machine.Stream) (x2 : Chunk) : Moves fp s0 (State.countPoint s x1 x2) := by
  unfold State.countPoint
  try dsimp only
  with_reducible repeat' first
    | assumption
    | exact hm.mono (by decide)
    | apply State.incObj_moves
    | apply State.addObj64_moves
    | apply State.addObj_moves
    | split
    | (refine Moves.leaf ?_ hm)

theorem State.commitPoint_moves {fp : Nat} {s0 s : State} (h : Moves fp s0 s) (hm : Covers 0x400020c000000 fp) (x1 : Nat) (x2 : Nat) (x3 : Machine.Stream) (x4 : Chunk) : Moves fp s0 (State.commitPoint s x1 x2 x3 x4) := by
  unfold State.commitPoint
  try dsimp only
  with_reducible repeat' first
    | assumption
    | exact hm.mono (by decide)
    | (intro _; try dsimp only)
    | apply State.modChunk_moves
    | apply State.countPoint_moves
    | apply State.modStream_moves
    | split
    | (refine Moves.leaf ?_ hm)

theorem State.beginCommit_moves {fp : Nat} {s0 s : State} (h : Moves fp s0 s) (hm : Covers 0xa4cc0bfea450ee fp) (x1 : Nat) (x2 : Nat) (x3 : Machine.Stream) (x4 : Chunk) : Moves fp s0 (State.beginCommit s x1 x2 x3 x4) := by
  unfold State.beginCommit
  try dsimp only
  with_reducible repeat' first
    | assumption
    | exact hm.mono (by decide)
    | apply State.carryCommit_moves
    | apply State.flushOwn_moves
    | apply State.commitPoint_moves
    | apply State.commitFault_moves
    | apply State.copyToMirror_moves
    | split

theorem State.restoreInput_moves {fp : Nat} {s0 s : State} (h : Moves fp s0 s) (hm : Covers 0x24000008000006 fp) (x1 : Nat) (x2 : Nat) : Moves fp s0 (State.restoreInput s x1 x2) := by
  unfold State.restoreInput
  try dsimp only
  with_reducible repeat' first
    | assumption
    | exact hm.mono (by decide)
    | (intro _; try dsimp only)
    | apply State.modChunk_moves
    | apply State.writeRow_moves
    | apply State.writeRows_moves
    | apply State.logFault_moves
    | split
    | (refine Moves.leaf ?_ hm)

theorem execChunkAbort_moves {fp : Nat} {s0 s : State} (h : Moves fp s0 s) (hm : Covers 0xa48c0b2ca450ce fp) (x0 : Sid) (x1 : Nat) : Out.moves fp s0 (execChunkAbort x0 x1 s) := by
  unfold execChunkAbort
  try dsimp only
  with_reducible repeat' first
    | assumption
    | exact hm.mono (by decide)
    | apply Out.moves_next
    | apply State.abortChunk_moves

theorem execChunkCommit_moves {fp : Nat} {s0 s : State} (h : Moves fp s0 s) (hm : Covers 0xa4cc0bfea450ee fp) (x0 : Sid) (x1 : BeamNo) : Out.moves fp s0 (execChunkCommit x0 x1 s) := by
  unfold execChunkCommit
  try dsimp only
  with_reducible repeat' first
    | assumption
    | exact hm.mono (by decide)
    | apply Out.moves_next
    | apply State.carryCommit_moves
    | apply State.beginCommit_moves
    | split

theorem execChunkReplay_moves {fp : Nat} {s0 s : State} (h : Moves fp s0 s) (hm : Covers 0x24000008000006 fp) (x0 : Sid) (x1 : Nat) : Out.moves fp s0 (execChunkReplay x0 x1 s) := by
  unfold execChunkReplay
  try dsimp only
  with_reducible repeat' first
    | assumption
    | exact hm.mono (by decide)
    | (intro _; try dsimp only)
    | apply Out.moves_next
    | apply State.modChunk_moves
    | apply State.restoreInput_moves
    | split
    | (refine Moves.leaf ?_ hm)

theorem execReplayBackoffExpiry_moves {fp : Nat} {s0 s : State} (h : Moves fp s0 s) (hm : Covers 0x8000000 fp) (x0 : Sid) (x1 : Nat) : Out.moves fp s0 (execReplayBackoffExpiry x0 x1 s) := by
  unfold execReplayBackoffExpiry
  try dsimp only
  with_reducible repeat' first
    | assumption
    | exact hm.mono (by decide)
    | (intro _; try dsimp only)
    | apply Out.moves_next
    | apply State.modChunk_moves
    | split
    | (refine Moves.leaf ?_ hm)


/-! ### Machine/Egress.lean -/

theorem State.sendMsix_moves {fp : Nat} {s0 s : State} (h : Moves fp s0 s) (hm : Covers 0x2000000000 fp) (x1 : Nat) (x2 : Nat) : Moves fp s0 (State.sendMsix s x1 x2) := by
  unfold State.sendMsix
  try dsimp only
  with_reducible repeat' first
    | assumption
    | exact hm.mono (by decide)
    | (refine State.setFn_moves ?_ hm _ _)
    | split
    | (refine Moves.leaf ?_ hm)

theorem State.moderate_moves {fp : Nat} {s0 s : State} (h : Moves fp s0 s) (hm : Covers 0x2800000000 fp) (x1 : Nat) (x2 : Nat) : Moves fp s0 (State.moderate s x1 x2) := by
  unfold State.moderate
  try dsimp only
  with_reducible repeat' first
    | assumption
    | exact hm.mono (by decide)
    | apply State.setOq_moves
    | apply State.sendMsix_moves
    | split
    | (refine Moves.leaf ?_ hm)

theorem State.writeRecord_moves {fp : Nat} {s0 s : State} (h : Moves fp s0 s) (hm : Covers 0x4004800080000 fp) (x1 : Nat) (x2 : Nat) (x3 : Rec × List Byte) : Moves fp s0 (State.writeRecord s x1 x2 x3) := by
  unfold State.writeRecord
  try dsimp only
  with_reducible repeat' first
    | assumption
    | exact hm.mono (by decide)
    | apply State.chargePart_moves
    | apply State.hostWrite_moves
    | apply State.setOq_moves
    | split
    | (refine Moves.leaf ?_ hm)

theorem State.drainRing_moves {fp : Nat} {s0 s : State} (h : Moves fp s0 s) (hm : Covers 0xa4cc6bfcac50ce fp) (x1 : Nat) (x2 : Nat) : Moves fp s0 (State.drainRing s x1 x2) := by
  unfold State.drainRing
  try dsimp only
  with_reducible repeat' first
    | assumption
    | exact hm.mono (by decide)
    | (intro _; try dsimp only)
    | apply State.writeRecord_moves
    | apply State.pumpRing_moves
    | apply State.hostWrite_moves
    | apply State.moderate_moves
    | apply Moves.foldl
    | split

theorem State.loadContext_moves {fp : Nat} {s0 s : State} (h : Moves fp s0 s) (hm : Covers 0x4000000 fp) (x1 : Nat) (x2 : ModelSlot) (x3 : Nat → List Byte) : Moves fp s0 (State.loadContext s x1 x2 x3) := by
  unfold State.loadContext
  try dsimp only
  with_reducible repeat' first
    | assumption
    | exact hm.mono (by decide)
    | (intro _; try dsimp only)
    | apply State.modStream_moves
    | (refine Moves.leaf ?_ hm)

theorem State.publishRange_moves {fp : Nat} {s0 s : State} (h : Moves fp s0 s) (hm : Covers 0x400080c800000 fp) (x1 : Nat) (x2 : Nat) (x3 : Machine.Stream) (x4 : Chunk) (x5 : ModelSlot) (x6 : List Nat) (x7 : TokenCtx) : Moves fp s0 (State.publishRange s x1 x2 x3 x4 x5 x6 x7) := by
  unfold State.publishRange
  try dsimp only
  with_reducible repeat' first
    | assumption
    | exact hm.mono (by decide)
    | (intro _; try dsimp only)
    | apply State.placeAll_moves
    | apply State.incObj_moves
    | apply State.modStream_moves
    | split
    | (refine Moves.leaf ?_ hm)

theorem State.provisional_moves {fp : Nat} {s0 s : State} (h : Moves fp s0 s) (hm : Covers 0x400092c800000 fp) (x1 : Nat) (x2 : Nat) (x3 : Chunk) (x4 : ModelSlot) (x5 : List Nat) (x6 : TokenCtx) : Moves fp s0 (State.provisional s x1 x2 x3 x4 x5 x6) := by
  unfold State.provisional
  try dsimp only
  with_reducible repeat' first
    | assumption
    | exact hm.mono (by decide)
    | apply State.retractAt_moves
    | apply State.publishRange_moves
    | split

theorem State.ringError_moves {fp : Nat} {s0 s : State} (h : Moves fp s0 s) (hm : Covers 0x2000000000 fp) (x1 : Nat) (x2 : Nat) : Moves fp s0 (State.ringError s x1 x2) := by
  unfold State.ringError
  try dsimp only
  with_reducible repeat' first
    | assumption
    | exact hm.mono (by decide)
    | (refine State.setFn_moves ?_ hm _ _)
    | (refine Moves.leaf ?_ hm)

theorem State.writeOutPos_moves {fp : Nat} {s0 s : State} (h : Moves fp s0 s) (hm : Covers 0xa4000000000026 fp) (x1 : State) (x2 : Nat) (x3 : Nat) : Moves fp s0 (State.writeOutPos s x1 x2 x3) := by
  unfold State.writeOutPos
  try dsimp only
  with_reducible repeat' first | assumption | exact hm.mono (by decide) | apply State.narrowWrite_moves | split

theorem egOlaAfter_moves {fp : Nat} {s0 s : State} (h : Moves fp s0 s) (hm : Covers 0xa4000008000026 fp) (v : State) (c : Cmd) : Moves fp s0 (egOlaAfter v c s) := by
  unfold egOlaAfter
  exact Moves.foldl _ h fun _ _ ht => State.writeOutPos_moves (State.modChunk_moves ht (hm.mono (by decide)) _ _ _) (hm.mono (by decide)) _ _ _

theorem egProvAfter_moves {fp : Nat} {s0 s : State} (h : Moves fp s0 s) (hm : Covers 0x400092c800000 fp) (v : State) (c : Cmd) : Moves fp s0 (egProvAfter v c s) := by
  unfold egProvAfter
  exact Moves.foldl _ h fun _ _ ht => State.provisional_moves ht (hm.mono (by decide)) _ _ _ _ _ _

theorem execEgOla_moves {fp : Nat} {s0 s : State} (h : Moves fp s0 s) (hm : Covers 0xa4000009141067 fp) (x0 : Eng) (x1 : Hw) : Out.moves fp s0 (execEgOla x0 x1 s) := by
  unfold execEgOla
  try dsimp only
  with_reducible repeat' first
    | assumption
    | exact hm.mono (by decide)
    | (intro _; try dsimp only)
    | apply Out.moves_next
    | apply State.runPath_moves
    | apply egOlaAfter_moves
    | exact fun _ _ _ => rfl
    | (unfold egOlaPath; try dsimp only)

theorem execEgProv_moves {fp : Nat} {s0 s : State} (h : Moves fp s0 s) (hm : Covers 0xa400092d941067 fp) (x0 : Eng) (x1 : Hw) : Out.moves fp s0 (execEgProv x0 x1 s) := by
  unfold execEgProv
  try dsimp only
  with_reducible repeat' first
    | assumption
    | exact hm.mono (by decide)
    | (intro _; try dsimp only)
    | apply Out.moves_next
    | apply egProvAfter_moves
    | apply State.runPath_moves
    | exact fun _ _ _ => rfl
    | (unfold egProvPath; try dsimp only)

theorem execEgPublish_moves {fp : Nat} {s0 s : State} (h : Moves fp s0 s) (hm : Covers 0xa4cc0bfda450ce fp) (x0 : Eng) (x1 : Hw) : Out.moves fp s0 (execEgPublish x0 x1 s) := by
  unfold execEgPublish
  try dsimp only
  with_reducible repeat' first
    | assumption
    | exact hm.mono (by decide)
    | (intro _; try dsimp only)
    | apply Out.moves_next
    | apply State.stepFour_moves
    | apply State.endCmd_moves
    | apply State.atCommand_moves
    | apply Moves.foldl
    | split

theorem execEgressDrain_moves {fp : Nat} {s0 s : State} (h : Moves fp s0 s) (hm : Covers 0xa4cc6bfcac50ce fp) (x0 : Sys2Proof.Part) (x1 : Sys2Proof.Ring) : Out.moves fp s0 (execEgressDrain x0 x1 s) := by
  unfold execEgressDrain
  try dsimp only
  with_reducible repeat' first
    | assumption
    | exact hm.mono (by decide)
    | apply Out.moves_next
    | apply State.drainRing_moves

theorem feCtxAfter_moves {fp : Nat} {s0 s : State} (h : Moves fp s0 s) (hm : Covers 0x4000000 fp) (v : State) (c : Cmd) : Moves fp s0 (feCtxAfter v c s) := by
  unfold feCtxAfter
  exact Moves.foldl _ h fun _ _ ht => State.loadContext_moves ht (hm.mono (by decide)) _ _ _

theorem execFeCtx_moves {fp : Nat} {s0 s : State} (h : Moves fp s0 s) (hm : Covers 0xa4000005141067 fp) (x0 : Eng) (x1 : Hw) : Out.moves fp s0 (execFeCtx x0 x1 s) := by
  unfold execFeCtx
  try dsimp only
  with_reducible repeat' first
    | assumption
    | exact hm.mono (by decide)
    | (intro _; try dsimp only)
    | apply Out.moves_next
    | apply feCtxAfter_moves
    | apply State.runPath_moves
    | exact fun _ _ _ => rfl
    | (unfold feCtxPath; try dsimp only)

theorem execInRelease_moves {fp : Nat} {s0 s : State} (h : Moves fp s0 s) (hm : Covers 0x400000900100c fp) (x0 : Eng) (x1 : Hw) : Out.moves fp s0 (execInRelease x0 x1 s) := by
  unfold execInRelease
  try dsimp only
  with_reducible repeat' first
    | assumption
    | exact hm.mono (by decide)
    | (intro _; try dsimp only)
    | apply Out.moves_next
    | apply State.modChunk_moves
    | apply State.tagSlot_moves
    | apply State.setTag_moves
    | apply State.endCmd_moves
    | apply State.atCommand_moves
    | apply Moves.foldl
    | split
    | (refine Moves.leaf ?_ hm)

theorem execMsixModTimer_moves {fp : Nat} {s0 s : State} (h : Moves fp s0 s) (hm : Covers 0x2800000000 fp) (x0 : Sys2Proof.Part) (x1 : Sys2Proof.Ring) : Out.moves fp s0 (execMsixModTimer x0 x1 s) := by
  unfold execMsixModTimer
  try dsimp only
  with_reducible repeat' first
    | assumption
    | exact hm.mono (by decide)
    | apply Out.moves_next
    | apply State.setOq_moves
    | apply State.sendMsix_moves
    | split
    | (refine Moves.leaf ?_ hm)

theorem execOqCons_moves {fp : Nat} {s0 s : State} (h : Moves fp s0 s) (hm : Covers 0xa4cc2bfca450ce fp) (x0 : Sys2Proof.Part) (x1 : Sys2Proof.Ring) (x2 : BitVec 32) : Out.moves fp s0 (execOqCons x0 x1 x2 s) := by
  unfold execOqCons
  try dsimp only
  with_reducible repeat' first
    | assumption
    | exact hm.mono (by decide)
    | apply Out.moves_next
    | apply State.ringError_moves
    | apply State.pumpRing_moves
    | apply State.setOq_moves
    | split
    | (refine Moves.leaf ?_ hm)


/-! ### Machine/Ingest.lean -/

theorem State.completeChunks_moves {fp : Nat} {s0 s : State} (h : Moves fp s0 s) (hm : Covers 0x8000000 fp) (x1 : Nat) : Moves fp s0 (State.completeChunks s x1) := by
  unfold State.completeChunks
  try dsimp only
  with_reducible repeat' first
    | assumption
    | exact hm.mono (by decide)
    | (intro _; try dsimp only)
    | split
    | (refine Moves.leaf ?_ hm)

theorem State.beginChunk_moves {fp : Nat} {s0 s : State} (h : Moves fp s0 s) (hm : Covers 0x8000000 fp) (x1 : Nat) : Moves fp s0 (State.beginChunk s x1) := by
  unfold State.beginChunk
  try dsimp only
  with_reducible repeat' first | assumption | exact hm.mono (by decide) | split | (refine Moves.leaf ?_ hm)

theorem State.endChunk_moves {fp : Nat} {s0 s : State} (h : Moves fp s0 s) (hm : Covers 0xc000000 fp) (x1 : Nat) (x2 : Nat) (x3 : Bool) (x4 : Nat × Nat) : Moves fp s0 (State.endChunk s x1 x2 x3 x4) := by
  unfold State.endChunk
  try dsimp only
  with_reducible repeat' first
    | assumption
    | exact hm.mono (by decide)
    | (intro _; try dsimp only)
    | apply State.modChunk_moves
    | apply State.modStream_moves
    | split
    | (refine Moves.leaf ?_ hm)

theorem State.fillChunks_moves {fp : Nat} {s0 s : State} (h : Moves fp s0 s) (hm : Covers 0xc000000 fp) (sid n : Nat) : Moves fp s0 (State.fillChunks sid n s) := by
  induction n generalizing s with
  | zero => exact h
  | succ n ih =>
    have k := State.beginChunk_moves h (hm.mono (by decide)) sid
    unfold State.fillChunks
    dsimp only
    split
    · exact k
    · split
      · exact ih (State.endChunk_moves k (hm.mono (by decide)) _ _ _ _)
      · exact k

theorem State.formChunks_moves {fp : Nat} {s0 s : State} (h : Moves fp s0 s) (hm : Covers 0xc000000 fp) (x1 : Nat) : Moves fp s0 (State.formChunks s x1) := by
  unfold State.formChunks
  try dsimp only
  with_reducible repeat' first
    | assumption
    | exact hm.mono (by decide)
    | (intro _; try dsimp only)
    | apply State.completeChunks_moves
    | apply State.fillChunks_moves

theorem State.withIngest_moves {fp : Nat} {s0 s : State} (h : Moves fp s0 s) (hm : Covers 0xc000000 fp) (x1 : Nat) (x2 : Ingest) : Moves fp s0 (State.withIngest s x1 x2) := by
  unfold State.withIngest
  try dsimp only
  with_reducible repeat' first
    | assumption
    | exact hm.mono (by decide)
    | (intro _; try dsimp only)
    | apply State.modStream_moves
    | apply State.formChunks_moves
    | (refine Moves.leaf ?_ hm)

theorem State.longGap_moves {fp : Nat} {s0 s : State} (h : Moves fp s0 s) (hm : Covers 0xc000000 fp) (x1 : Nat) (x2 : Nat) (x3 : Nat) : Moves fp s0 (State.longGap s x1 x2 x3) := by
  unfold State.longGap
  try dsimp only
  with_reducible repeat' first
    | assumption
    | exact hm.mono (by decide)
    | (intro _; try dsimp only)
    | apply State.modStream_moves
    | apply State.withIngest_moves
    | split
    | (refine Moves.leaf ?_ hm)

theorem State.shortGap_moves {fp : Nat} {s0 s : State} (h : Moves fp s0 s) (hm : Covers 0xc000000 fp) (x1 : Nat) (x2 : Nat) (x3 : Nat) : Moves fp s0 (State.shortGap s x1 x2 x3) := by
  unfold State.shortGap
  try dsimp only
  with_reducible repeat' first
    | assumption
    | exact hm.mono (by decide)
    | apply State.withIngest_moves
    | split
    | (refine Moves.leaf ?_ hm)

theorem State.takePts_moves {fp : Nat} {s0 s : State} (h : Moves fp s0 s) (hm : Covers 0xc000000 fp) (x1 : Nat) (x2 : Nat) (x3 : Nat) : Moves fp s0 (State.takePts s x1 x2 x3) := by
  unfold State.takePts
  try dsimp only
  with_reducible repeat' first
    | assumption
    | exact hm.mono (by decide)
    | (intro _; try dsimp only)
    | apply State.longGap_moves
    | apply State.modStream_moves
    | apply State.shortGap_moves
    | split
    | (refine Moves.leaf ?_ hm)

theorem State.audioIn_moves {fp : Nat} {s0 s : State} (h : Moves fp s0 s) (hm : Covers 0xc000000 fp) (x1 : Nat) (x2 : Option Nat) (x3 : List Byte) : Moves fp s0 (State.audioIn s x1 x2 x3) := by
  unfold State.audioIn
  try dsimp only
  with_reducible repeat' first
    | assumption
    | exact hm.mono (by decide)
    | (intro _; try dsimp only)
    | apply State.takePts_moves
    | apply State.withIngest_moves
    | split
    | (refine Moves.leaf ?_ hm)

theorem State.cutChunks_moves {fp : Nat} {s0 s : State} (h : Moves fp s0 s) (hm : Covers 0xc000000 fp) (x1 : Nat) (x2 : Nat) (x3 : Bool) : Moves fp s0 (State.cutChunks s x1 x2 x3) := by
  unfold State.cutChunks
  try dsimp only
  with_reducible repeat' first
    | assumption
    | exact hm.mono (by decide)
    | (intro _; try dsimp only)
    | apply State.endChunk_moves
    | apply State.modStream_moves
    | split
    | (refine Moves.leaf ?_ hm)

theorem State.endsExactly_moves {fp : Nat} {s0 s : State} (h : Moves fp s0 s) (hm : Covers 0x8000000 fp) (x1 : Nat) : Moves fp s0 (State.endsExactly s x1) := by
  unfold State.endsExactly
  try dsimp only
  with_reducible repeat' first
    | assumption
    | exact hm.mono (by decide)
    | (intro _; try dsimp only)
    | split
    | (refine Moves.leaf ?_ hm)

theorem State.tokensIn_moves {fp : Nat} {s0 s : State} (h : Moves fp s0 s) (hm : Covers 0xc000000 fp) (x1 : Nat) (x2 : List Nat) : Moves fp s0 (State.tokensIn s x1 x2) := by
  unfold State.tokensIn
  try dsimp only
  with_reducible repeat' first
    | assumption
    | exact hm.mono (by decide)
    | (intro _; try dsimp only)
    | apply State.modStream_moves
    | split
    | (refine Moves.leaf ?_ hm)

theorem execIdleTimeout_moves {fp : Nat} {s0 s : State} (h : Moves fp s0 s) (hm : Covers 0xa4840b3ca450ce fp) (x0 : Sid) : Out.moves fp s0 (execIdleTimeout x0 s) := by
  unfold execIdleTimeout
  try dsimp only
  with_reducible repeat' first
    | assumption
    | exact hm.mono (by decide)
    | (intro _; try dsimp only)
    | apply Out.moves_next
    | apply State.cutChunks_moves
    | apply State.settleStream_moves
    | apply State.modStream_moves
    | split
    | (refine Moves.leaf ?_ hm)


/-! ### Machine/Features.lean -/

theorem State.writeSlot_moves {fp : Nat} {s0 s : State} (h : Moves fp s0 s) (hm : Covers 0x8000006 fp) (x1 : Chunk) (x2 : Nat) (x3 : List (List Byte)) : Moves fp s0 (State.writeSlot s x1 x2 x3) := by
  unfold State.writeSlot
  try dsimp only
  with_reducible repeat' first
    | assumption
    | exact hm.mono (by decide)
    | (intro _; try dsimp only)
    | apply State.modChunk_moves
    | apply State.writeRows_moves
    | (refine Moves.leaf ?_ hm)

theorem State.doFrame_moves {fp : Nat} {s0 s : State} (h : Moves fp s0 s) (hm : Covers 0xc000006 fp) (x1 : Nat) (x2 : Machine.Stream) (x3 : ModelSlot) (x4 : Chunk) : Moves fp s0 (State.doFrame s x1 x2 x3 x4) := by
  unfold State.doFrame
  try dsimp only
  with_reducible repeat' first
    | assumption
    | exact hm.mono (by decide)
    | (intro _; try dsimp only)
    | apply State.modChunk_moves
    | apply State.writeSlot_moves
    | apply State.modStream_moves
    | split
    | (refine Moves.leaf ?_ hm)

theorem State.doSamples_moves {fp : Nat} {s0 s : State} (h : Moves fp s0 s) (hm : Covers 0x8000006 fp) (x1 : Nat) (x2 : Machine.Stream) (x3 : ModelSlot) (x4 : Chunk) : Moves fp s0 (State.doSamples s x1 x2 x3 x4) := by
  unfold State.doSamples
  try dsimp only
  with_reducible repeat' first
    | assumption
    | exact hm.mono (by decide)
    | (intro _; try dsimp only)
    | apply State.modChunk_moves
    | apply State.writeSlot_moves
    | split
    | (refine Moves.leaf ?_ hm)

theorem State.takeSlot_moves {fp : Nat} {s0 s : State} (h : Moves fp s0 s) (hm : Covers 0x8000008 fp) (x1 : Chunk) (x2 : Nat) : Moves fp s0 (State.takeSlot s x1 x2) := by
  unfold State.takeSlot
  try dsimp only
  with_reducible repeat' first
    | assumption
    | exact hm.mono (by decide)
    | (intro _; try dsimp only)
    | apply State.modChunk_moves
    | apply State.tagSlot_moves
    | (refine Moves.leaf ?_ hm)

theorem execFeatureFrame_moves {fp : Nat} {s0 s : State} (h : Moves fp s0 s) (hm : Covers 0xc00000e fp) (x0 : Sid) (x1 : Nat) : Out.moves fp s0 (execFeatureFrame x0 x1 s) := by
  unfold execFeatureFrame
  try dsimp only
  with_reducible repeat' first
    | assumption
    | exact hm.mono (by decide)
    | apply Out.moves_next
    | apply State.doFrame_moves
    | apply State.doSamples_moves
    | apply State.takeSlot_moves
    | split
    | (refine Moves.leaf ?_ hm)

theorem execInputExtentCopyDone_moves {fp : Nat} {s0 s : State} (h : Moves fp s0 s) (hm : Covers 0x8000000 fp) (x0 : Sid) (x1 : Nat) : Out.moves fp s0 (execInputExtentCopyDone x0 x1 s) := by
  unfold execInputExtentCopyDone
  try dsimp only
  with_reducible repeat' first
    | assumption
    | exact hm.mono (by decide)
    | (intro _; try dsimp only)
    | apply Out.moves_next
    | apply State.modChunk_moves
    | split
    | (refine Moves.leaf ?_ hm)

theorem execInputSlotFull_moves {fp : Nat} {s0 s : State} (h : Moves fp s0 s) (hm : Covers 0xc00000e fp) (x0 : Sid) (x1 : Nat) : Out.moves fp s0 (execInputSlotFull x0 x1 s) := by
  unfold execInputSlotFull
  try dsimp only
  with_reducible repeat' first
    | assumption
    | exact hm.mono (by decide)
    | (intro _; try dsimp only)
    | apply Out.moves_next
    | apply State.modChunk_moves
    | apply State.writeSlot_moves
    | apply State.tagSlot_moves
    | apply State.takeSlot_moves
    | apply State.modStream_moves
    | split
    | (refine Moves.leaf ?_ hm)


/-! ### Machine/PageRows.lean -/

theorem State.joined_moves {fp : Nat} {s0 s : State} (h : Moves fp s0 s) (hm : Covers 0x800000 fp) (x1 : Nat) : Moves fp s0 (State.joined s x1) := by
  unfold State.joined
  try dsimp only
  with_reducible repeat' first
    | assumption
    | exact hm.mono (by decide)
    | (intro _; try dsimp only)
    | apply State.modSeq_moves
    | (refine Moves.leaf ?_ hm)

theorem State.lanePage_moves {fp : Nat} {s0 s : State} (h : Moves fp s0 s) (hm : Covers 0xa4000002800001 fp) (page : Nat) : StatePair fp s0 (s.lanePage page) := by
  unfold State.lanePage
  dsimp only
  split
  · split
    · exact .of (State.pageLost_moves (State.incObj_moves (State.logFault_moves (State.hbmUncorrected_moves (State.draw_moves h (hm.mono (by decide))).snd
        (hm.mono (by decide)) _ _) (hm.mono (by decide)) _) (hm.mono (by decide)) _ _) (hm.mono (by decide)) _)
    · exact .of h
  · have k := (State.countReads_moves h (hm.mono (by decide)) ((List.range 64).map (s.frameRow (pageFrame page) + ·))).fst
    generalize s.countReads ((List.range 64).map (s.frameRow (pageFrame page) + ·)) = u at k ⊢
    split
    · exact .of (State.pageLost_moves (State.incObj_moves (State.logFault_moves (State.spUncorrected_moves k (hm.mono (by decide)) _ _)
        (hm.mono (by decide)) _) (hm.mono (by decide)) _ _) (hm.mono (by decide)) _)
    · exact .of k

theorem State.laneTails_moves {fp : Nat} {s0 s : State} (h : Moves fp s0 s) (hm : Covers 0xa4000002800001 fp) (q : Nat) (l : List Nat) :
    StatePair fp s0 (State.laneTails q l s) := by
  induction l generalizing s with
  | nil => exact .of h
  | cons i l ih =>
    rw [State.laneTails]
    split
    · next e => exact .of ((State.lanePage_moves h (hm.mono (by decide)) _).use e)
    · next e =>
      have k := (State.lanePage_moves h (hm.mono (by decide)) _).use e
      split
      · next e => exact .of ((ih k).use e)
      · next e => exact .of ((ih k).use e)

theorem State.preempt_moves {fp : Nat} {s0 s : State} (h : Moves fp s0 s) (hm : Covers 0xa48c0b2ca450ce fp) (x1 : Nat) : Moves fp s0 (State.preempt s x1) := by
  unfold State.preempt
  try dsimp only
  with_reducible repeat' first
    | assumption
    | exact hm.mono (by decide)
    | (intro _; try dsimp only)
    | apply State.abortChunk_moves
    | apply State.incObj_moves
    | apply State.editWhenFree_moves
    | apply State.modSeq_moves
    | split
    | (refine Moves.leaf ?_ hm)

theorem State.preemptYoungest_moves {fp : Nat} {s0 s : State} (h : Moves fp s0 s) (hm : Covers 0xa48c0b2ca450ce fp) (x1 : Option Nat) : Moves fp s0 (State.preemptYoungest s x1) := by
  unfold State.preemptYoungest
  try dsimp only
  with_reducible repeat' first | assumption | exact hm.mono (by decide) | apply State.preempt_moves | split

theorem State.demote_moves {fp : Nat} {s0 s : State} (h : Moves fp s0 s) (hm : Covers 0xa4000003800007 fp) (x1 : Nat) : OptMoves fp s0 (State.demote s x1) := by
  unfold State.demote
  try dsimp only
  with_reducible repeat' first
    | assumption
    | exact hm.mono (by decide)
    | (intro _; try dsimp only)
    | apply State.editSeq_moves
    | apply State.lanePage_moves
    | apply State.claimSpill_moves
    | apply State.writePage_moves
    | apply OptMoves.some
    | apply OptMoves.none
    | (refine OptMoves.use ?_ (by assumption))
    | apply OptMoves.getD
    | apply StatePair.of
    | (refine StatePair.use ?_ (by assumption))
    | apply StatePair.fst
    | apply Moves.foldl
    | split
    | (refine Moves.leaf ?_ hm)

theorem State.relieve_moves {fp : Nat} {s0 s : State} (h : Moves fp s0 s) (hm : Covers 0xa4000003800007 fp) : OptMoves fp s0 s.relieve := by
  unfold State.relieve
  split
  · next q => exact OptMoves.some ((State.evictNode_moves h (hm.mono (by decide)) _).get _ q)
  · split
    · next q => exact OptMoves.some ((State.evictNode_moves h (hm.mono (by decide)) _).get _ q)
    · split
      · refine ⟨fun t q => ?_⟩
        obtain ⟨r, _, q⟩ := Option.bind_eq_some_iff.1 q
        exact (State.demote_moves h (hm.mono (by decide)) r).get _ q
      · exact OptMoves.none

theorem State.relieveFor_moves {fp : Nat} {s0 s : State} (h : Moves fp s0 s) (hm : Covers 0xa4000003800007 fp) (q n k : Nat) : Moves fp s0 (State.relieveFor q n k s) := by
  induction k generalizing s with
  | zero => exact h
  | succ k ih =>
    unfold State.relieveFor
    split
    · exact h
    · split
      · next e => exact ih ((State.relieve_moves h (hm.mono (by decide))).get _ e)
      · exact h

theorem State.joinSeq_moves {fp : Nat} {s0 s : State} (h : Moves fp s0 s) (hm : Covers 0xa48c0b2fa450cf fp) (x1 : Nat) : Moves fp s0 (State.joinSeq s x1) := by
  unfold State.joinSeq
  try dsimp only
  with_reducible repeat' first
    | assumption
    | exact hm.mono (by decide)
    | (intro _; try dsimp only)
    | apply State.joined_moves
    | apply State.claimFrames_moves
    | apply State.preemptYoungest_moves
    | apply State.editSeq_moves
    | apply State.laneTails_moves
    | apply State.writePage_moves
    | apply State.relieveFor_moves
    | apply StatePair.of
    | (refine StatePair.use ?_ (by assumption))
    | apply StatePair.fst
    | apply Moves.foldl
    | split
    | (refine Moves.leaf ?_ hm)

theorem State.joinAll_moves {fp : Nat} {s0 s : State} (h : Moves fp s0 s) (hm : Covers 0xa48c0b2fa450cf fp) (x1 : List Nat) : Moves fp s0 (State.joinAll s x1) := by
  unfold State.joinAll
  try dsimp only
  with_reducible repeat' first
    | assumption
    | exact hm.mono (by decide)
    | (intro _; try dsimp only)
    | apply State.joinSeq_moves
    | apply Moves.foldl

theorem State.leaveAll_moves {fp : Nat} {s0 s : State} (h : Moves fp s0 s) (hm : Covers 0x800000 fp)  : Moves fp s0 (State.leaveAll s) := by
  unfold State.leaveAll
  try dsimp only
  with_reducible repeat' first
    | assumption
    | exact hm.mono (by decide)
    | (intro _; try dsimp only)
    | apply State.editSeq_moves
    | apply State.modSeq_moves
    | apply Moves.foldl
    | (refine Moves.leaf ?_ hm)

theorem State.giveHeadroom_moves {fp : Nat} {s0 s : State} (h : Moves fp s0 s) (hm : Covers 0x800006 fp) (x1 : Nat) : OptMoves fp s0 (State.giveHeadroom s x1) := by
  unfold State.giveHeadroom
  try dsimp only
  with_reducible repeat' first
    | assumption
    | exact hm.mono (by decide)
    | (intro _; try dsimp only)
    | apply State.claimFrames_moves
    | apply State.editSeq_moves
    | apply State.modSeq_moves
    | apply OptMoves.some
    | apply OptMoves.none
    | (refine OptMoves.use ?_ (by assumption))
    | apply OptMoves.getD
    | split
    | (refine Moves.leaf ?_ hm)

theorem State.refillSeq_moves {fp : Nat} {s0 s : State} (h : Moves fp s0 s) (hm : Covers 0xa48c0b2fa450cf fp) (x1 : Nat) : Moves fp s0 (State.refillSeq s x1) := by
  unfold State.refillSeq
  try dsimp only
  with_reducible repeat' first
    | assumption
    | exact hm.mono (by decide)
    | (intro _; try dsimp only)
    | apply State.preemptYoungest_moves
    | apply State.giveHeadroom_moves
    | apply State.incObj_moves
    | apply State.modSeq_moves
    | apply State.relieveFor_moves
    | apply OptMoves.some
    | apply OptMoves.none
    | (refine OptMoves.use ?_ (by assumption))
    | apply OptMoves.getD
    | split
    | (refine Moves.leaf ?_ hm)

theorem State.refillAll_moves {fp : Nat} {s0 s : State} (h : Moves fp s0 s) (hm : Covers 0xa48c0b2fa450cf fp)  : Moves fp s0 (State.refillAll s) := by
  unfold State.refillAll
  try dsimp only
  with_reducible repeat' first
    | assumption
    | exact hm.mono (by decide)
    | (intro _; try dsimp only)
    | apply State.refillSeq_moves
    | apply Moves.foldl

theorem State.atBoundary_moves {fp : Nat} {s0 s : State} (h : Moves fp s0 s) (hm : Covers 0xa48c0b2fa450cf fp)  : Moves fp s0 (State.atBoundary s) := by
  unfold State.atBoundary
  try dsimp only
  with_reducible repeat' first
    | assumption
    | exact hm.mono (by decide)
    | (intro _; try dsimp only)
    | apply State.refillAll_moves
    | apply State.leaveAll_moves
    | apply State.joinAll_moves

theorem State.fork_moves {fp : Nat} {s0 s : State} (h : Moves fp s0 s) (hm : Covers 0x800000 fp) (x1 : Nat) (x2 : Nat) : Moves fp s0 (State.fork s x1 x2) := by
  unfold State.fork
  try dsimp only
  with_reducible repeat' first
    | assumption
    | exact hm.mono (by decide)
    | (intro _; try dsimp only)
    | apply State.putSeq_moves
    | apply State.editSeq_moves
    | apply State.beginTable_moves
    | split
    | (refine Moves.leaf ?_ hm)

theorem State.lookupPages_moves {fp : Nat} {s0 : State} (hm : Covers 0x4000002000000 fp) (q tp n : Nat) : ∀ (i parent : Nat) (toks : List Nat) (s : State) (t : PageTable),
    Moves fp s0 s → StatePair fp s0 (State.lookupPages q tp n i parent toks (s, t)) := by
  induction n with
  | zero => exact fun _ _ _ _ _ h => ⟨h⟩
  | succ n ih =>
    intro i parent toks s t h
    unfold State.lookupPages
    dsimp only
    split
    · exact ⟨h⟩
    · split
      · apply ih
        refine State.incObj_moves ?_ (hm.mono (by decide)) ..
        exact Moves.leaf h hm
      · apply StatePair.of
        refine State.incObj_moves ?_ (hm.mono (by decide)) ..
        split
        · exact State.incObj_moves h (hm.mono (by decide)) _ _
        · exact h

theorem execPageDemote_moves {fp : Nat} {s0 s : State} (h : Moves fp s0 s) (hm : Covers 0xa4000003800007 fp) (x0 : Sid) : Out.moves fp s0 (execPageDemote x0 s) := by
  unfold execPageDemote
  try dsimp only
  with_reducible repeat' first
    | assumption
    | exact hm.mono (by decide)
    | apply Out.moves_next
    | apply State.demote_moves
    | apply OptMoves.some
    | apply OptMoves.none
    | (refine OptMoves.use ?_ (by assumption))
    | apply OptMoves.getD
    | split

theorem execPageWaitLimit_moves {fp : Nat} {s0 s : State} (h : Moves fp s0 s) (hm : Covers 0xa48c0b2ca450ce fp)  : Out.moves fp s0 (execPageWaitLimit s) := by
  unfold execPageWaitLimit
  try dsimp only
  with_reducible repeat' first
    | assumption
    | exact hm.mono (by decide)
    | (intro _; try dsimp only)
    | apply Out.moves_next
    | apply State.preemptYoungest_moves
    | split

theorem execPrefixLookup_moves {fp : Nat} {s0 s : State} (h : Moves fp s0 s) (hm : Covers 0x4000202800000 fp) (seq : SeqNo) (toks : List Nat) :
    Out.moves fp s0 (execPrefixLookup seq toks s) := by
  have k : Moves fp s0 { s with str := { s.str with useClock := s.str.useClock + 1 } } := Moves.leaf h hm
  unfold execPrefixLookup
  dsimp only
  split
  · exact Out.moves_next h
  · split
    · exact Out.moves_next h
    · apply Out.moves_next
      refine State.editSeq_moves ?_ (hm.mono (by decide)) ..
      split
      · exact k
      · exact (State.lookupPages_moves (hm.mono (by decide)) _ _ _ _ _ _ _ _ k).fst

theorem execRebuildMark_moves {fp : Nat} {s0 s : State} (h : Moves fp s0 s) (hm : Covers 0x4000000800000 fp) (x0 : SeqNo) : Out.moves fp s0 (execRebuildMark x0 s) := by
  unfold execRebuildMark
  try dsimp only
  with_reducible repeat' first
    | assumption
    | exact hm.mono (by decide)
    | (intro _; try dsimp only)
    | apply Out.moves_next
    | apply State.editWhenFree_moves
    | split

theorem execReclaimFree_moves {fp : Nat} {s0 s : State} (h : Moves fp s0 s) (hm : Covers 0x4000000800000 fp) (x0 : SeqNo) (x1 : Bool) : Out.moves fp s0 (execReclaimFree x0 x1 s) := by
  unfold execReclaimFree
  try dsimp only
  with_reducible repeat' first
    | assumption
    | exact hm.mono (by decide)
    | apply Out.moves_next
    | apply State.reclaim_moves
    | apply State.settleSeq_moves

theorem execStepBoundary_moves {fp : Nat} {s0 s : State} (h : Moves fp s0 s) (hm : Covers 0xa48c0b2fa450cf fp)  : Out.moves fp s0 (execStepBoundary s) := by
  unfold execStepBoundary
  try dsimp only
  with_reducible repeat' first
    | assumption
    | exact hm.mono (by decide)
    | apply Out.moves_next
    | apply State.atBoundary_moves

theorem execTableEdit_moves {fp : Nat} {s0 s : State} (h : Moves fp s0 s) (hm : Covers 0x800000 fp) (x0 : SeqNo) (x1 : TableEdit) : Out.moves fp s0 (execTableEdit x0 x1 s) := by
  unfold execTableEdit
  try dsimp only
  with_reducible repeat' first
    | assumption
    | exact hm.mono (by decide)
    | (intro _; try dsimp only)
    | apply Out.moves_next
    | apply State.editSeq_moves
    | apply State.modSeq_moves
    | apply State.fork_moves
    | split
    | (refine Moves.leaf ?_ hm)

end Sys2Proof.Machine
end

