-- ==== Sys2Proof/Laws/MovesStreams.lean ====
section
/-! SUPPORT. The operations of streams, batches, remote work and migrations keep the queue, the invariant and what lies outside their footprints: one lemma each. -/

set_option linter.unusedTactic false
set_option linter.unreachableTactic false

namespace Sys2Proof.Machine

-- One proof at a time: proofs elaborated side by side wait on shared realisations, one thread each, and run out of threads.
set_option Elab.async false

/-! ### Machine/Remote.lean -/

theorem State.discardRx_moves {fp : Nat} {s0 s : State} (h : Moves fp s0 s) (hm : Covers 0x40000000000 fp) (x1 : Nat) (x2 : Frame) : Moves fp s0 (State.discardRx s x1 x2) := by
  unfold State.discardRx
  try dsimp only
  with_reducible repeat' first
    | assumption
    | exact hm.mono (by decide)
    | apply State.setPort_moves
    | apply State.send_moves
    | (refine Moves.leaf ?_ hm)

theorem State.endOp_moves {fp : Nat} {s0 s : State} (h : Moves fp s0 s) (hm : Covers 0x24200000001000 fp) (x1 : RemoteOp) (x2 : Option Nat) : Moves fp s0 (State.endOp s x1 x2) := by
  unfold State.endOp
  try dsimp only
  with_reducible repeat' first
    | assumption
    | exact hm.mono (by decide)
    | (intro _; try dsimp only)
    | apply State.putCmd_moves
    | apply State.logFault_moves
    | split
    | (refine Moves.leaf ?_ hm)

theorem State.landPage_moves {fp : Nat} {s0 s : State} (h : Moves fp s0 s) (hm : Covers 0x800000000000 fp) (x1 : RemoteOp) (x2 : Frame) : Moves fp s0 (State.landPage s x1 x2) := by
  unfold State.landPage
  try dsimp only
  with_reducible repeat' first
    | assumption
    | exact hm.mono (by decide)
    | (intro _; try dsimp only)
    | split
    | (refine Moves.leaf ?_ hm)

theorem State.landQuarter_moves {fp : Nat} {s0 s : State} (h : Moves fp s0 s) (hm : Covers 0xa4000000000006 fp) (x1 : Nat) (x2 : Nat) (x3 : List Byte) : Moves fp s0 (State.landQuarter s x1 x2 x3) := by
  unfold State.landQuarter
  try dsimp only
  with_reducible repeat' first
    | assumption
    | exact hm.mono (by decide)
    | apply State.countReads_moves
    | apply State.spUncorrected_moves
    | apply State.writeRow_moves
    | apply State.logFault_moves
    | apply StatePair.of
    | (refine StatePair.use ?_ (by assumption))
    | apply StatePair.fst
    | split
    | (refine Moves.leaf ?_ hm)

theorem State.putDesc_moves {fp : Nat} {s0 s : State} (h : Moves fp s0 s) (hm : Covers 0x80000000000 fp) (x1 : Nat) (x2 : RxDesc) : Moves fp s0 (State.putDesc s x1 x2) := by
  unfold State.putDesc
  try dsimp only
  with_reducible repeat' first | assumption | exact hm.mono (by decide) | (refine Moves.leaf ?_ hm)

theorem State.landWrite_moves {fp : Nat} {s0 s : State} (h : Moves fp s0 s) (hm : Covers 0xa4080000000006 fp) (x1 : Nat) (x2 : RxDesc) (x3 : Frame) : Moves fp s0 (State.landWrite s x1 x2 x3) := by
  unfold State.landWrite
  try dsimp only
  with_reducible repeat' first
    | assumption
    | exact hm.mono (by decide)
    | (intro _; try dsimp only)
    | apply State.landQuarter_moves
    | apply State.writeRow_moves
    | apply State.putDesc_moves
    | split
    | (refine Moves.leaf ?_ hm)

theorem State.takeFrame_moves {fp : Nat} {s0 s : State} (h : Moves fp s0 s) (hm : Covers 0x40000000000 fp) (p : Nat) (sel : Frame → Bool) : OptPair fp s0 (s.takeFrame p sel) := by
  unfold State.takeFrame
  dsimp only
  split
  · exact OptPair.none
  · refine ⟨fun a t q => ?_⟩
    obtain ⟨r, _, q⟩ := Option.map_eq_some_iff.1 q
    cases q
    exact State.setPort_moves h (hm.mono (by decide)) _ _

theorem State.onFrame_moves {fp : Nat} {s0 s : State} (h : Moves fp s0 s) (hm : Covers 0x40000000000 fp) (x1 : Nat) (x2 : Frame → Bool) (x3 : Frame → State → State) (hx3 : ∀ y0 y1, Moves fp s0 y1 → Moves fp s0 (x3 y0 y1)) : Moves fp s0 (State.onFrame s x1 x2 x3) := by
  unfold State.onFrame
  try dsimp only
  with_reducible repeat' first
    | assumption
    | exact hm.mono (by decide)
    | apply hx3
    | apply State.takeFrame_moves
    | apply OptPair.some
    | apply OptPair.none
    | (refine OptPair.use ?_ (by assumption))
    | apply OptPair.ofPair
    | split

theorem State.register_moves {fp : Nat} {s0 s : State} (h : Moves fp s0 s) (hm : Covers 0x80000000008 fp) (dev part handle first rows stream : Nat) (batch : Bool)
    (chunk mode : Nat) : OptPair fp s0 (s.register dev part handle first rows stream batch chunk mode) := by
  unfold State.register
  dsimp only
  split
  · split
    · exact OptPair.none
    · refine ⟨fun a t q => ?_⟩
      obtain ⟨r, hr, q⟩ := Option.map_eq_some_iff.1 q
      cases q
      refine State.putDesc_moves ?_ (hm.mono (by decide)) ..
      split at hr
      · cases hr; exact h
      · obtain ⟨g, _, e⟩ := Option.map_eq_some_iff.1 hr
        subst e
        exact State.setTag_moves h (hm.mono (by decide)) _ _
  · exact OptPair.none

theorem State.servePage_moves {fp : Nat} {s0 s : State} (h : Moves fp s0 s) (hm : Covers 0x40000000000 fp) (x1 : Nat) (x2 : Frame) (x3 : Addr) : Moves fp s0 (State.servePage s x1 x2 x3) := by
  unfold State.servePage
  try dsimp only
  with_reducible repeat' first
    | assumption
    | exact hm.mono (by decide)
    | (intro _; try dsimp only)
    | apply State.sendAll_moves
    | apply State.send_moves
    | split

theorem State.serveSlot_moves {fp : Nat} {s0 s : State} (h : Moves fp s0 s) (hm : Covers 0xa4840b2ea450ce fp) (x1 : Nat) (x2 : Frame) (x3 : Addr) : Moves fp s0 (State.serveSlot s x1 x2 x3) := by
  unfold State.serveSlot
  try dsimp only
  with_reducible repeat' first
    | assumption
    | exact hm.mono (by decide)
    | (intro _; try dsimp only)
    | apply State.countReads_moves
    | apply State.spUncorrected_moves
    | apply State.setTag_moves
    | apply State.sendAll_moves
    | apply State.logFault_moves
    | apply State.send_moves
    | apply State.repairRow_moves
    | apply StatePair.of
    | (refine StatePair.use ?_ (by assumption))
    | apply StatePair.fst
    | apply Moves.foldl
    | split
    | (refine Moves.leaf ?_ hm)

theorem State.settleDesc_moves {fp : Nat} {s0 s : State} (h : Moves fp s0 s) (hm : Covers 0xc0000000008 fp) (x1 : Nat) (x2 : Nat) (x3 : Frame) : Moves fp s0 (State.settleDesc s x1 x2 x3) := by
  unfold State.settleDesc
  try dsimp only
  with_reducible repeat' first
    | assumption
    | exact hm.mono (by decide)
    | (intro _; try dsimp only)
    | apply State.setTag_moves
    | apply State.send_moves
    | apply Moves.foldl
    | split
    | (refine Moves.leaf ?_ hm)

theorem execCancel_moves {fp : Nat} {s0 s : State} (h : Moves fp s0 s) (hm : Covers 0x48c0200a450cc fp) (x0 : PortNo) : Out.moves fp s0 (execCancel x0 s) := by
  unfold execCancel
  try dsimp only
  with_reducible repeat' first
    | assumption
    | exact hm.mono (by decide)
    | (intro _; try dsimp only)
    | apply Out.moves_next
    | apply State.cancelRx_moves
    | apply State.settleGone_moves
    | apply State.onFrame_moves
    | apply State.cancelCmd_moves
    | apply Moves.foldl
    | (refine Moves.leaf ?_ hm)

theorem execLanded_moves {fp : Nat} {s0 s : State} (h : Moves fp s0 s) (hm : Covers 0x24340000001000 fp) (x0 : PortNo) : Out.moves fp s0 (execLanded x0 s) := by
  unfold execLanded
  try dsimp only
  with_reducible repeat' first
    | assumption
    | exact hm.mono (by decide)
    | (intro _; try dsimp only)
    | apply Out.moves_next
    | apply State.endOp_moves
    | apply State.onFrame_moves
    | split
    | (refine Moves.leaf ?_ hm)

theorem execRetryRsp_moves {fp : Nat} {s0 s : State} (h : Moves fp s0 s) (hm : Covers 0x240000000000 fp) (x0 : PortNo) : Out.moves fp s0 (execRetryRsp x0 s) := by
  unfold execRetryRsp
  try dsimp only
  with_reducible repeat' first
    | assumption
    | exact hm.mono (by decide)
    | (intro _; try dsimp only)
    | apply Out.moves_next
    | apply State.onFrame_moves
    | split
    | (refine Moves.leaf ?_ hm)

theorem execRreadData_moves {fp : Nat} {s0 s : State} (h : Moves fp s0 s) (hm : Covers 0xa4a40000001006 fp) (x0 : PortNo) : Out.moves fp s0 (execRreadData x0 s) := by
  unfold execRreadData
  try dsimp only
  with_reducible repeat' first
    | assumption
    | exact hm.mono (by decide)
    | (intro _; try dsimp only)
    | apply Out.moves_next
    | apply State.landPage_moves
    | apply State.endOp_moves
    | apply State.onFrame_moves
    | apply State.landQuarter_moves
    | apply State.putCmd_moves
    | split
    | (refine Moves.leaf ?_ hm)

theorem execRreadReq_moves {fp : Nat} {s0 s : State} (h : Moves fp s0 s) (hm : Covers 0xa4840b2ea450ce fp) (x0 : PortNo) : Out.moves fp s0 (execRreadReq x0 s) := by
  unfold execRreadReq
  try dsimp only
  with_reducible repeat' first
    | assumption
    | exact hm.mono (by decide)
    | (intro _; try dsimp only)
    | apply Out.moves_next
    | apply State.serveSlot_moves
    | apply State.onFrame_moves
    | apply State.servePage_moves
    | split

theorem execRreadRetryTimer_moves {fp : Nat} {s0 s : State} (h : Moves fp s0 s) (hm : Covers 0x240000000000 fp) (x0 : PortNo) (x1 : Nat) : Out.moves fp s0 (execRreadRetryTimer x0 x1 s) := by
  unfold execRreadRetryTimer
  try dsimp only
  with_reducible repeat' first
    | assumption
    | exact hm.mono (by decide)
    | (intro _; try dsimp only)
    | apply Out.moves_next
    | apply State.send_moves
    | split
    | (refine Moves.leaf ?_ hm)

theorem execRtag_moves {fp : Nat} {s0 s : State} (h : Moves fp s0 s) (hm : Covers 0x40000000008 fp) (x0 : PortNo) : Out.moves fp s0 (execRtag x0 s) := by
  unfold execRtag
  try dsimp only
  with_reducible repeat' first
    | assumption
    | exact hm.mono (by decide)
    | (intro _; try dsimp only)
    | apply Out.moves_next
    | apply State.setTag_moves
    | apply State.onFrame_moves
    | apply State.send_moves
    | split

theorem execRxReg_moves {fp : Nat} {s0 s : State} (h : Moves fp s0 s) (hm : Covers 0x1c0000000008 fp) (x0 : PortNo) : Out.moves fp s0 (execRxReg x0 s) := by
  unfold execRxReg
  try dsimp only
  with_reducible repeat' first
    | assumption
    | exact hm.mono (by decide)
    | (intro _; try dsimp only)
    | apply Out.moves_next
    | apply State.onFrame_moves
    | apply State.register_moves
    | apply State.send_moves
    | apply OptPair.some
    | apply OptPair.none
    | (refine OptPair.use ?_ (by assumption))
    | apply OptPair.ofPair
    | split
    | (refine Moves.leaf ?_ hm)

theorem execWalkData_moves {fp : Nat} {s0 s : State} (h : Moves fp s0 s) (hm : Covers 0x24a40000001000 fp) (x0 : PortNo) : Out.moves fp s0 (execWalkData x0 s) := by
  unfold execWalkData
  try dsimp only
  with_reducible repeat' first
    | assumption
    | exact hm.mono (by decide)
    | (intro _; try dsimp only)
    | apply Out.moves_next
    | apply State.endOp_moves
    | apply State.onFrame_moves
    | split
    | (refine Moves.leaf ?_ hm)

theorem execWalkEnd_moves {fp : Nat} {s0 s : State} (h : Moves fp s0 s) (hm : Covers 0xa4840b2ca450ce fp) (x0 : PortNo) : Out.moves fp s0 (execWalkEnd x0 s) := by
  unfold execWalkEnd
  try dsimp only
  with_reducible repeat' first
    | assumption
    | exact hm.mono (by decide)
    | (intro _; try dsimp only)
    | apply Out.moves_next
    | apply State.endWalk_moves
    | apply State.onFrame_moves
    | apply State.settleAborts_moves
    | split
    | (refine Moves.leaf ?_ hm)

theorem execWalkReq_moves {fp : Nat} {s0 s : State} (h : Moves fp s0 s) (hm : Covers 0x840200800000 fp) (x0 : PortNo) : Out.moves fp s0 (execWalkReq x0 s) := by
  unfold execWalkReq
  try dsimp only
  with_reducible repeat' first
    | assumption
    | exact hm.mono (by decide)
    | (intro _; try dsimp only)
    | apply Out.moves_next
    | apply State.onFrame_moves
    | apply State.sendAll_moves
    | apply State.walk_moves
    | apply State.send_moves
    | split
    | (refine Moves.leaf ?_ hm)

theorem execWrite_moves {fp : Nat} {s0 s : State} (h : Moves fp s0 s) (hm : Covers 0xa40c000000000e fp) (x0 : PortNo) : Out.moves fp s0 (execWrite x0 s) := by
  unfold execWrite
  try dsimp only
  with_reducible repeat' first
    | assumption
    | exact hm.mono (by decide)
    | (intro _; try dsimp only)
    | apply Out.moves_next
    | apply State.landWrite_moves
    | apply State.onFrame_moves
    | apply State.settleDesc_moves
    | apply State.discardRx_moves
    | split

theorem execWriteEnd_moves {fp : Nat} {s0 s : State} (h : Moves fp s0 s) (hm : Covers 0xc0000000008 fp) (x0 : PortNo) : Out.moves fp s0 (execWriteEnd x0 s) := by
  unfold execWriteEnd
  try dsimp only
  with_reducible repeat' first
    | assumption
    | exact hm.mono (by decide)
    | (intro _; try dsimp only)
    | apply Out.moves_next
    | apply State.onFrame_moves
    | apply State.settleDesc_moves
    | apply State.discardRx_moves
    | apply State.putDesc_moves
    | split
    | (refine Moves.leaf ?_ hm)


/-! ### Machine/Admit.lean -/

theorem State.discardChunks_moves {fp : Nat} {s0 s : State} (h : Moves fp s0 s) (hm : Covers 0xa48c0b6ca450ce fp) (x1 : Nat) : Moves fp s0 (State.discardChunks s x1) := by
  unfold State.discardChunks
  try dsimp only
  with_reducible repeat' first
    | assumption
    | exact hm.mono (by decide)
    | (intro _; try dsimp only)
    | apply State.cancelChunk_moves
    | apply State.endBatches_moves
    | apply State.tagSlot_moves
    | apply State.settleAborts_moves
    | apply State.modStream_moves
    | apply State.cancelParts_moves
    | apply State.dropChunk_moves
    | apply Moves.foldl
    | (refine Moves.leaf ?_ hm)

theorem State.abortStream_moves {fp : Nat} {s0 s : State} (h : Moves fp s0 s) (hm : Covers 0xa48c0b6ca450ce fp) (x1 : Nat) (x2 : Nat) (x3 : Nat) : Moves fp s0 (State.abortStream s x1 x2 x3) := by
  unfold State.abortStream
  try dsimp only
  with_reducible repeat' first
    | assumption
    | exact hm.mono (by decide)
    | (intro _; try dsimp only)
    | apply State.modChunk_moves
    | apply State.discardChunks_moves
    | apply State.retractLedger_moves
    | apply State.closeStream_moves
    | apply State.modStream_moves
    | apply State.dropExports_moves
    | split
    | (refine Moves.leaf ?_ hm)

theorem State.allocStream_moves {fp : Nat} {s0 s : State} (h : Moves fp s0 s) (hm : Covers 0x4000000 fp) (sid : Nat) (st : Stream) (k : sid < 8192) :
    Moves fp s0 (s.allocStream sid st) := by
  unfold State.allocStream
  dsimp only
  exact Moves.leaf (State.putStream_moves h (hm.mono (by decide)) sid _ k) hm

theorem State.beginSeq_moves {fp : Nat} {s0 s : State} (h : Moves fp s0 s) (hm : Covers 0x800000 fp) (x1 : Nat) (x2 : StreamCfg) : Moves fp s0 (State.beginSeq s x1 x2) := by
  unfold State.beginSeq
  try dsimp only
  with_reducible repeat' first
    | assumption
    | exact hm.mono (by decide)
    | apply State.beginTable_moves
    | (refine Moves.leaf ?_ hm)

theorem State.beginStream_moves {fp : Nat} {s0 s : State} (h : Moves fp s0 s) (hm : Covers 0x14800000 fp) (sid : Nat) (cfg : StreamCfg) (state : StreamState) :
    Moves fp s0 (s.beginStream sid cfg state) := by
  unfold State.beginStream
  dsimp only
  have k : ∀ f : Stream → Stream, Moves fp s0 (State.modStream { s with str := { s.str with
      mirror := Mem.clearRange s.str.mirror (sid * 2 * 196608) (2 * 196608) } } sid f) :=
    fun f => by
      refine State.modStream_moves ?_ (hm.mono (by decide)) _ _
      exact h.step hm fun i => { i with mirror := Mem.wf_clearRange i.mirror _ _ }
  split
  · exact State.beginSeq_moves (k _) (hm.mono (by decide)) _ _
  · exact k _

theorem State.descError_moves {fp : Nat} {s0 s : State} (h : Moves fp s0 s) (hm : Covers 0x92c800000 fp) (x1 : Nat) (x2 : Option Nat) (x3 : Nat) (x4 : Nat) (x5 : Nat) (x6 : Nat) (x7 : Nat) (x8 : Nat) : Moves fp s0 (State.descError s x1 x2 x3 x4 x5 x6 x7 x8) := by
  unfold State.descError
  try dsimp only
  with_reducible repeat' first | assumption | exact hm.mono (by decide) | apply State.publish_moves | split

theorem State.takeImport_moves {fp : Nat} {s0 s : State} (h : Moves fp s0 s) (hm : Covers 0x1800006 fp) (sid : Nat) : OptPair fp s0 (s.takeImport sid) := by
  unfold State.takeImport
  split
  · exact .none
  · split
    · exact .some (State.claimFrame_moves h (hm.mono (by decide)) _ _)
    · refine ⟨fun a t e => ?_⟩
      obtain ⟨f, _, e⟩ := Option.map_eq_some_iff.1 e
      cases e
      exact State.claimSpill_moves h (hm.mono (by decide)) _

theorem State.importPages_moves {fp : Nat} {s0 s : State} (h : Moves fp s0 s) (hm : Covers 0x4000001800006 fp) (sid : Nat) (l : List (List Byte)) :
    Moves fp s0 (State.importPages sid l s) := by
  induction l generalizing s with
  | nil => exact h
  | cons bs l ih =>
    unfold State.importPages
    dsimp only
    split
    · next q => exact ih (State.modSeq_moves (State.writePage_moves ((State.takeImport_moves h (hm.mono (by decide)) sid).get _ _ q) (hm.mono (by decide)) _ _) (hm.mono (by decide)) _ _)
    · exact State.incObj_moves (State.modSeq_moves h (hm.mono (by decide)) _ _) (hm.mono (by decide)) _ _

theorem State.importBlob_moves {fp : Nat} {s0 s : State} (h : Moves fp s0 s) (hm : Covers 0x4000015800006 fp) (sid : Nat) (b : List Byte) : Moves fp s0 (s.importBlob sid b) := by
  unfold State.importBlob
  dsimp only
  split
  · exact h
  · next st _ =>
    have k : ∀ (bs : List Byte) (f : Stream → Stream), Moves fp s0 (State.modStream { s with str := { s.str with
        mirror := Mem.writeBytes (Mem.writeBytes s.str.mirror (mirrorAddr sid false) bs) (mirrorAddr sid true) bs } } sid f) :=
      fun bs f => by
        refine State.modStream_moves ?_ (hm.mono (by decide)) _ _
        exact h.step hm fun i => { i with mirror := Mem.wf_writeBytes _ (Mem.wf_writeBytes _ i.mirror _) _ }
    repeat' first
      | exact k _ _
      | refine State.importPages_moves ?_ (hm.mono (by decide)) ..
      | refine State.modSeq_moves ?_ (hm.mono (by decide)) ..
      | refine State.loadContext_moves ?_ (hm.mono (by decide)) ..
      | split

theorem State.openedEvent_moves {fp : Nat} {s0 s : State} (h : Moves fp s0 s) (hm : Covers 0x400092c800000 fp) (x1 : Nat) (x2 : Nat) (x3 : Nat) : Moves fp s0 (State.openedEvent s x1 x2 x3) := by
  unfold State.openedEvent
  try dsimp only
  with_reducible repeat' first
    | assumption
    | exact hm.mono (by decide)
    | apply State.streamEvent_moves
    | apply State.incObj_moves
    | split

theorem State.refuse_moves {fp : Nat} {s0 s : State} (h : Moves fp s0 s) (hm : Covers 0x92c800000 fp) (x1 : Nat) (x2 : Nat) (x3 : Nat) (x4 : Nat) : Moves fp s0 (State.refuse s x1 x2 x3 x4) := by
  unfold State.refuse
  try dsimp only
  with_reducible repeat' first | assumption | exact hm.mono (by decide) | apply State.streamEvent_moves

theorem State.refuseOpen_moves {fp : Nat} {s0 s : State} (h : Moves fp s0 s) (hm : Covers 0x92c800000 fp) (x1 : Nat) (x2 : Nat) (x3 : Nat) (x4 : Nat) (x5 : Option Nat) : Moves fp s0 (State.refuseOpen s x1 x2 x3 x4 x5) := by
  unfold State.refuseOpen
  try dsimp only
  with_reducible repeat' first
    | assumption
    | exact hm.mono (by decide)
    | apply State.publishW_moves
    | split
    | (refine Moves.leaf ?_ hm)


/-! ### Machine/Entries.lean -/

theorem State.advanceHead_moves {fp : Nat} {s0 s : State} (h : Moves fp s0 s) (hm : Covers 0x400000000 fp) (x1 : Nat) (x2 : Nat) : Moves fp s0 (State.advanceHead s x1 x2) := by
  unfold State.advanceHead
  try dsimp only
  with_reducible repeat' first
    | assumption
    | exact hm.mono (by decide)
    | apply State.setSq_moves
    | (refine Moves.leaf ?_ hm)

theorem State.entryFault_moves {fp : Nat} {s0 s : State} (h : Moves fp s0 s) (hm : Covers 0x92c800000 fp) (x1 : Nat) (x2 : Nat) (x3 : Words8) (x4 : Nat) : Moves fp s0 (State.entryFault s x1 x2 x3 x4) := by
  unfold State.entryFault
  try dsimp only
  with_reducible repeat' first
    | assumption
    | exact hm.mono (by decide)
    | (intro _; try dsimp only)
    | apply State.descError_moves
    | split

theorem State.consume_moves {fp : Nat} {s0 s : State} (h : Moves fp s0 s) (hm : Covers 0xd2c800000 fp) (x1 : Sys2Proof.Part) (x2 : Sys2Proof.Ring) (x3 : Words8) (x4 : Bool) (x5 : State → State) (hx5 : ∀ y0, Moves fp s0 y0 → Moves fp s0 (x5 y0)) : Moves fp s0 (State.consume s x1 x2 x3 x4 x5) := by
  unfold State.consume
  try dsimp only
  with_reducible repeat' first
    | assumption
    | exact hm.mono (by decide)
    | apply hx5
    | apply State.advanceHead_moves
    | apply State.entryFault_moves
    | split

theorem State.endAtEou_moves {fp : Nat} {s0 s : State} (h : Moves fp s0 s) (hm : Covers 0xc000000 fp) (x1 : Words8) : Moves fp s0 (State.endAtEou s x1) := by
  unfold State.endAtEou
  try dsimp only
  with_reducible repeat' first
    | assumption
    | exact hm.mono (by decide)
    | apply State.cutChunks_moves
    | apply State.endsExactly_moves
    | split

theorem State.refuseInput_moves {fp : Nat} {s0 s : State} (h : Moves fp s0 s) (hm : Covers 0x92c800000 fp) (x1 : Words8) (x2 : Nat) : Moves fp s0 (State.refuseInput s x1 x2) := by
  unfold State.refuseInput
  try dsimp only
  with_reducible repeat' first | assumption | exact hm.mono (by decide) | apply State.refuse_moves

theorem State.wakeInput_moves {fp : Nat} {s0 s : State} (h : Moves fp s0 s) (hm : Covers 0x92c800000 fp) (x1 : Words8) : Moves fp s0 (State.wakeInput s x1) := by
  unfold State.wakeInput
  try dsimp only
  with_reducible repeat' first
    | assumption
    | exact hm.mono (by decide)
    | (intro _; try dsimp only)
    | apply State.streamEvent_moves
    | apply State.modStream_moves
    | split
    | (refine Moves.leaf ?_ hm)

theorem State.inputEntry_moves {fp : Nat} {s0 s : State} (h : Moves fp s0 s) (hm : Covers 0x92c800000 fp) (x1 : Words8) (x2 : State → State) (hx2 : ∀ y0, Moves fp s0 y0 → Moves fp s0 (x2 y0)) : Moves fp s0 (State.inputEntry s x1 x2) := by
  unfold State.inputEntry
  try dsimp only
  with_reducible repeat' first
    | assumption
    | exact hm.mono (by decide)
    | (intro _; try dsimp only)
    | apply hx2
    | apply State.refuseInput_moves
    | apply State.wakeInput_moves
    | apply State.modStream_moves
    | split
    | (refine Moves.leaf ?_ hm)

theorem execAudio_moves {fp : Nat} {s0 s : State} (h : Moves fp s0 s) (hm : Covers 0x4000d2c880000 fp) (x0 : Sys2Proof.Part) (x1 : Sys2Proof.Ring) (x2 : Words8) (x3 : List Byte) : Out.moves fp s0 (execAudio x0 x1 x2 x3 s) := by
  unfold execAudio
  try dsimp only
  with_reducible repeat' first
    | assumption
    | exact hm.mono (by decide)
    | (intro _; try dsimp only)
    | apply Out.moves_next
    | apply State.chargePart_moves
    | apply State.endAtEou_moves
    | apply State.audioIn_moves
    | apply State.consume_moves
    | apply State.inputEntry_moves
    | split

theorem execAudioFetchFail_moves {fp : Nat} {s0 s : State} (h : Moves fp s0 s) (hm : Covers 0x2d2c800000 fp) (x0 : Sys2Proof.Part) (x1 : Sys2Proof.Ring) (x2 : Words8) (x3 : ReadFault) : Out.moves fp s0 (execAudioFetchFail x0 x1 x2 x3 s) := by
  unfold execAudioFetchFail
  try dsimp only
  with_reducible repeat' first
    | assumption
    | exact hm.mono (by decide)
    | (intro _; try dsimp only)
    | apply Out.moves_next
    | apply State.endAtEou_moves
    | apply State.descError_moves
    | apply State.hostReadFault_moves
    | apply State.consume_moves
    | apply State.inputEntry_moves

theorem execEntryReadFail_moves {fp : Nat} {s0 s : State} (h : Moves fp s0 s) (hm : Covers 0x2d2c800000 fp) (x0 : Sys2Proof.Part) (x1 : Sys2Proof.Ring) (x2 : ReadFault) : Out.moves fp s0 (execEntryReadFail x0 x1 x2 s) := by
  unfold execEntryReadFail
  try dsimp only
  with_reducible repeat' first
    | assumption
    | exact hm.mono (by decide)
    | apply Out.moves_next
    | apply State.descError_moves
    | apply State.hostReadFault_moves
    | apply State.advanceHead_moves
    | split

theorem execNop_moves {fp : Nat} {s0 s : State} (h : Moves fp s0 s) (hm : Covers 0xd2c800000 fp) (x0 : Sys2Proof.Part) (x1 : Sys2Proof.Ring) (x2 : Words8) : Out.moves fp s0 (execNop x0 x1 x2 s) := by
  unfold execNop
  try dsimp only
  with_reducible repeat' first
    | assumption
    | exact hm.mono (by decide)
    | (intro _; try dsimp only)
    | apply Out.moves_next
    | apply State.consume_moves

theorem execTokens_moves {fp : Nat} {s0 s : State} (h : Moves fp s0 s) (hm : Covers 0x4000d2c880000 fp) (x0 : Sys2Proof.Part) (x1 : Sys2Proof.Ring) (x2 : Words8) (x3 : List Byte) : Out.moves fp s0 (execTokens x0 x1 x2 x3 s) := by
  unfold execTokens
  try dsimp only
  with_reducible repeat' first
    | assumption
    | exact hm.mono (by decide)
    | (intro _; try dsimp only)
    | apply Out.moves_next
    | apply State.chargePart_moves
    | apply State.consume_moves
    | apply State.inputEntry_moves
    | apply State.tokensIn_moves
    | split


/-! ### Machine/Batches.lean -/

theorem State.placeMember_moves {fp : Nat} {s0 s : State} (h : Moves fp s0 s) (hm : Covers 0xc000000 fp) (x1 : Nat) (x2 : Nat) (x3 : Nat) (x4 : Chunk) : Moves fp s0 (State.placeMember s x1 x2 x3 x4) := by
  unfold State.placeMember
  try dsimp only
  with_reducible repeat' first
    | assumption
    | exact hm.mono (by decide)
    | (intro _; try dsimp only)
    | apply State.modChunk_moves
    | apply State.modStream_moves
    | split
    | (refine Moves.leaf ?_ hm)

theorem State.loadBlock_moves {fp : Nat} {s0 s : State} (h : Moves fp s0 s) (hm : Covers 0x20000000 fp) (x1 : Nat) (x2 : Nat) : Moves fp s0 (State.loadBlock s x1 x2) := by
  unfold State.loadBlock
  try dsimp only
  with_reducible repeat' first
    | assumption
    | exact hm.mono (by decide)
    | (intro _; try dsimp only)
    | apply State.setModel_moves
    | split
    | (refine Moves.leaf ?_ hm)

theorem State.evictBlock_moves {fp : Nat} {s0 s : State} (h : Moves fp s0 s) (hm : Covers 0x20000000 fp) (x1 : Nat) (x2 : Nat) : Moves fp s0 (State.evictBlock s x1 x2) := by
  unfold State.evictBlock
  try dsimp only
  with_reducible repeat' first
    | assumption
    | exact hm.mono (by decide)
    | (intro _; try dsimp only)
    | apply State.setModel_moves
    | split
    | (refine Moves.leaf ?_ hm)

theorem State.makeRoom_moves {fp : Nat} {s0 s : State} (h : Moves fp s0 s) (hm : Covers 0x20000000 fp) (rows n : Nat) : Moves fp s0 (State.makeRoom rows n s) := by
  induction n generalizing s with
  | zero => exact h
  | succ n ih =>
    unfold State.makeRoom
    split
    · exact h
    · split
      · exact ih (State.evictBlock_moves h (hm.mono (by decide)) _ _)
      · exact h

theorem State.useBlocks_moves {fp : Nat} {s0 s : State} (h : Moves fp s0 s) (hm : Covers 0x220000000 fp) (x1 : Nat) : Moves fp s0 (State.useBlocks s x1) := by
  unfold State.useBlocks
  try dsimp only
  with_reducible repeat' first
    | assumption
    | exact hm.mono (by decide)
    | (intro _; try dsimp only)
    | apply State.loadBlock_moves
    | apply State.makeRoom_moves
    | apply Moves.foldl
    | split
    | (refine Moves.leaf ?_ hm)

theorem State.closeBatch_moves {fp : Nat} {s0 s : State} (h : Moves fp s0 s) (hm : Covers 0x400026c002000 fp) (x1 : Nat) (x2 : Nat) (x3 : Nat) (x4 : Nat) (x5 : List Chunk) : Moves fp s0 (State.closeBatch s x1 x2 x3 x4 x5) := by
  unfold State.closeBatch
  try dsimp only
  with_reducible repeat' first
    | assumption
    | exact hm.mono (by decide)
    | (intro _; try dsimp only)
    | apply State.placeMember_moves
    | apply State.useBlocks_moves
    | apply State.incObj_moves
    | apply Moves.foldl
    | split
    | (refine Moves.leaf ?_ hm)

theorem State.fixBlocks_moves {fp : Nat} {s0 s : State} (h : Moves fp s0 s) (hm : Covers 0x20000000 fp) (x1 : Nat) : Moves fp s0 (State.fixBlocks s x1) := by
  unfold State.fixBlocks
  try dsimp only
  with_reducible repeat' first
    | assumption
    | exact hm.mono (by decide)
    | (intro _; try dsimp only)
    | apply State.loadBlock_moves
    | apply Moves.foldl
    | split

theorem State.leaveOut_moves {fp : Nat} {s0 s : State} (h : Moves fp s0 s) (hm : Covers 0x4000048000000 fp) (x1 : Nat) (x2 : Nat × Nat) : Moves fp s0 (State.leaveOut s x1 x2) := by
  unfold State.leaveOut
  try dsimp only
  with_reducible repeat' first
    | assumption
    | exact hm.mono (by decide)
    | (intro _; try dsimp only)
    | apply State.modChunk_moves
    | apply State.incObj_moves
    | split
    | (refine Moves.leaf ?_ hm)

theorem State.putBatch_moves {fp : Nat} {s0 s : State} (h : Moves fp s0 s) (hm : Covers 0x40000000 fp) (x1 : Nat) (x2 : Batch) : Moves fp s0 (State.putBatch s x1 x2) := by
  unfold State.putBatch
  try dsimp only
  with_reducible repeat' first | assumption | exact hm.mono (by decide) | (refine Moves.leaf ?_ hm)

theorem State.levelFive_moves {fp : Nat} {s0 s : State} (h : Moves fp s0 s) (hm : Covers 0x40000000 fp) (x1 : Nat) : Moves fp s0 (State.levelFive s x1) := by
  unfold State.levelFive
  try dsimp only
  with_reducible repeat' first
    | assumption
    | exact hm.mono (by decide)
    | apply State.putBatch_moves
    | split
    | (refine Moves.leaf ?_ hm)

theorem State.registerPart_moves {fp : Nat} {s0 s : State} (h : Moves fp s0 s) (hm : Covers 0xc0000000008 fp) (bid part : Nat) (r : RxReg) :
    OptMoves fp s0 (s.registerPart bid part r) := by
  unfold State.registerPart
  dsimp only
  split
  · exact .none
  · split
    · exact .some (State.send_moves (State.takeTxn_moves h (hm.mono (by decide)) _).snd (hm.mono (by decide)) _ _)
    · refine ⟨fun t e => ?_⟩
      obtain ⟨x, hx, rfl⟩ := Option.map_eq_some_iff.1 e
      have k := (State.register_moves h (hm.mono (by decide)) _ _ _ _ _ _ _ _ _).get x.1 x.2 hx
      exact Moves.leaf k hm

theorem State.registerParts_moves {fp : Nat} {s0 s : State} (h : Moves fp s0 s) (hm : Covers 0xc0000000008 fp) (bid part : Nat) (l : List RxReg) :
    OptMoves fp s0 (State.registerParts bid part l s) := by
  induction l generalizing s with
  | nil => exact .some h
  | cons r l ih =>
    refine ⟨fun t e => ?_⟩
    rw [State.registerParts] at e
    obtain ⟨u, hu, e⟩ := Option.bind_eq_some_iff.1 e
    exact (ih ((State.registerPart_moves h (hm.mono (by decide)) _ _ _).get u hu)).get t e

theorem State.levelFour_moves {fp : Nat} {s0 s : State} (h : Moves fp s0 s) (hm : Covers 0xc0040000008 fp) (x1 : Nat) (x2 : List RxReg) : Moves fp s0 (State.levelFour s x1 x2) := by
  unfold State.levelFour
  try dsimp only
  with_reducible repeat' first
    | assumption
    | exact hm.mono (by decide)
    | apply State.putBatch_moves
    | apply State.registerParts_moves
    | apply OptMoves.some
    | apply OptMoves.none
    | (refine OptMoves.use ?_ (by assumption))
    | apply OptMoves.getD
    | split
    | (refine Moves.leaf ?_ hm)

theorem State.levelOne_moves {fp : Nat} {s0 s : State} (h : Moves fp s0 s) (hm : Covers 0x4000048000000 fp) (x1 : Nat) : Moves fp s0 (State.levelOne s x1) := by
  unfold State.levelOne
  try dsimp only
  with_reducible repeat' first
    | assumption
    | exact hm.mono (by decide)
    | (intro _; try dsimp only)
    | apply State.putBatch_moves
    | apply State.leaveOut_moves
    | apply Moves.foldl
    | split
    | (refine Moves.leaf ?_ hm)

theorem State.levelThree_moves {fp : Nat} {s0 s : State} (h : Moves fp s0 s) (hm : Covers 0xa48c0b6fa450cf fp) (x1 : Nat) : Moves fp s0 (State.levelThree s x1) := by
  unfold State.levelThree
  try dsimp only
  with_reducible repeat' first
    | assumption
    | exact hm.mono (by decide)
    | (intro _; try dsimp only)
    | apply State.refillAll_moves
    | apply State.leaveAll_moves
    | apply State.putBatch_moves
    | apply State.joinAll_moves
    | apply State.leaveOut_moves
    | apply Moves.foldl
    | split
    | (refine Moves.leaf ?_ hm)

theorem State.levelTwo_moves {fp : Nat} {s0 s : State} (h : Moves fp s0 s) (hm : Covers 0x40000000 fp) (x1 : Nat) : Moves fp s0 (State.levelTwo s x1) := by
  unfold State.levelTwo
  try dsimp only
  with_reducible repeat' first
    | assumption
    | exact hm.mono (by decide)
    | apply State.putBatch_moves
    | split
    | (refine Moves.leaf ?_ hm)

theorem execBatchClose_moves {fp : Nat} {s0 s : State} (h : Moves fp s0 s) (hm : Covers 0x400026c002000 fp) (x0 : ModelNo) (x1 : Bool) (x2 : Nat) : Out.moves fp s0 (execBatchClose x0 x1 x2 s) := by
  unfold execBatchClose
  try dsimp only
  with_reducible repeat' first
    | assumption
    | exact hm.mono (by decide)
    | apply Out.moves_next
    | apply State.closeBatch_moves
    | split

theorem execBatchReserve_moves {fp : Nat} {s0 s : State} (h : Moves fp s0 s) (hm : Covers 0xa48c0b6fa450cf fp) (x0 : BatchId) (x1 : List RxReg) : Out.moves fp s0 (execBatchReserve x0 x1 s) := by
  unfold execBatchReserve
  try dsimp only
  with_reducible repeat' first
    | assumption
    | exact hm.mono (by decide)
    | (intro _; try dsimp only)
    | apply Out.moves_next
    | apply State.levelFive_moves
    | apply State.levelOne_moves
    | apply State.levelTwo_moves
    | apply State.levelThree_moves
    | apply State.levelFour_moves
    | split

theorem execResidencyEvict_moves {fp : Nat} {s0 s : State} (h : Moves fp s0 s) (hm : Covers 0x20000000 fp) (x0 : ModelNo) (x1 : Nat) : Out.moves fp s0 (execResidencyEvict x0 x1 s) := by
  unfold execResidencyEvict
  try dsimp only
  with_reducible repeat' first
    | assumption
    | exact hm.mono (by decide)
    | apply Out.moves_next
    | apply State.evictBlock_moves
    | split

theorem execSwapIn_moves {fp : Nat} {s0 s : State} (h : Moves fp s0 s) (hm : Covers 0xa4840b3ca450ce fp) (x0 : Sid) (x1 : Nat) (x2 : Nat) : Out.moves fp s0 (execSwapIn x0 x1 x2 s) := by
  unfold execSwapIn
  try dsimp only
  with_reducible repeat' first
    | assumption
    | exact hm.mono (by decide)
    | (intro _; try dsimp only)
    | apply Out.moves_next
    | apply State.openBuffer_moves
    | apply State.restoreM_moves
    | apply State.copyFromMirror_moves
    | apply State.modStream_moves
    | split
    | (refine Moves.leaf ?_ hm)

theorem execSwapOut_moves {fp : Nat} {s0 s : State} (h : Moves fp s0 s) (hm : Covers 0xa4840b3ca450ce fp) (x0 : Sid) : Out.moves fp s0 (execSwapOut x0 s) := by
  unfold execSwapOut
  try dsimp only
  with_reducible repeat' first
    | assumption
    | exact hm.mono (by decide)
    | (intro _; try dsimp only)
    | apply Out.moves_next
    | apply State.swapOutState_moves
    | apply State.incObj_moves
    | apply State.modStream_moves
    | split
    | (refine Moves.leaf ?_ hm)


/-! ### Machine/StreamOps.lean -/

theorem State.detach_moves {fp : Nat} {s0 s : State} (h : Moves fp s0 s) (hm : Covers 0xa48c0b6ca450ce fp) (x1 : Nat) (x2 : ExportReq) (x3 : Rec) : Moves fp s0 (State.detach s x1 x2 x3) := by
  unfold State.detach
  try dsimp only
  with_reducible repeat' first
    | assumption
    | exact hm.mono (by decide)
    | (intro _; try dsimp only)
    | apply State.discardChunks_moves
    | apply State.publish_moves
    | apply State.retractLedger_moves
    | apply State.modStream_moves
    | apply State.dropExports_moves
    | split
    | (refine Moves.leaf ?_ hm)

theorem State.dropMig_moves {fp : Nat} {s0 s : State} (h : Moves fp s0 s) (hm : Covers 0x400000000000 fp) (x1 : Nat) : Moves fp s0 (State.dropMig s x1) := by
  unfold State.dropMig
  try dsimp only
  with_reducible repeat' first
    | assumption
    | exact hm.mono (by decide)
    | (intro _; try dsimp only)
    | (refine Moves.leaf ?_ hm)

theorem State.writeRanges_moves {fp : Nat} {s0 s : State} (h : Moves fp s0 s) (hm : Covers 0x104 fp) (rs : List (Nat × Nat)) (img : List Byte) :
    Moves fp s0 (s.writeRanges rs img) := by
  have k : ∀ (l : List (Nat × Nat)) (a : State × List Byte), Moves fp s0 a.1 →
      Moves fp s0 (l.foldl (fun (a : State × List Byte) r => (a.1.writeHbm r.1 (a.2.take r.2), a.2.drop r.2)) a).1 := by
    intro l
    induction l with
    | nil => exact fun a ha => ha
    | cons x l ih => exact fun a ha => ih _ (State.writeHbm_moves ha (hm.mono (by decide)) _ _)
  exact k rs (s, img) h

theorem State.loadModel_moves {fp : Nat} {s0 s : State} (h : Moves fp s0 s) (hm : Covers 0x92c800104 fp) (x1 : Nat) (x2 : ModelSlot) (x3 : List (Nat × Nat)) (x4 : List (Nat × Nat)) : Moves fp s0 (State.loadModel s x1 x2 x3 x4) := by
  unfold State.loadModel
  try dsimp only
  with_reducible repeat' first
    | assumption
    | exact hm.mono (by decide)
    | apply State.publishW_moves
    | apply State.setModel_moves
    | apply State.fixBlocks_moves
    | apply State.writeRanges_moves
    | (refine Moves.leaf ?_ hm)

theorem State.modelEvent_moves {fp : Nat} {s0 s : State} (h : Moves fp s0 s) (hm : Covers 0x92c800000 fp) (x1 : Nat) (x2 : Nat) (x3 : Nat) (x4 : Nat) (x5 : Nat) : Moves fp s0 (State.modelEvent s x1 x2 x3 x4 x5) := by
  unfold State.modelEvent
  try dsimp only
  with_reducible repeat' first | assumption | exact hm.mono (by decide) | apply State.ring0Event_moves

theorem State.opening_moves {fp : Nat} {s0 s : State} (h : Moves fp s0 s) (hm : Covers 0x92c800000 fp) (p ring : Nat) (e : Words8) (act : Nat → State → State)
    (hact : ∀ i t, Moves fp s0 t → Moves fp s0 (act i t)) : Moves fp s0 (s.opening p ring e act) := by
  unfold State.opening
  split
  · next sid _ q =>
    refine hact _ _ (State.allocStream_moves h (hm.mono (by decide)) _ _ ?_)
    have := List.mem_of_find?_eq_some q
    exact List.mem_range.1 this
  · exact State.refuseOpen_moves h (hm.mono (by decide)) _ _ _ _ _
  · exact State.refuseOpen_moves h (hm.mono (by decide)) _ _ _ _ _

theorem State.popExport_moves {fp : Nat} {s0 s : State} (h : Moves fp s0 s) (hm : Covers 0xa4c40b3ca450ce fp) (x1 : Nat) (x2 : List (Rec × List Byte)) : Moves fp s0 (State.popExport s x1 x2) := by
  unfold State.popExport
  try dsimp only
  with_reducible repeat' first
    | assumption
    | exact hm.mono (by decide)
    | (intro _; try dsimp only)
    | apply State.publish_moves
    | apply State.settleMigrate_moves
    | apply State.modStream_moves
    | split
    | (refine Moves.leaf ?_ hm)

theorem execBlobWriteDone_moves {fp : Nat} {s0 s : State} (h : Moves fp s0 s) (hm : Covers 0xa4cc4b7ca450ce fp) (x0 : Sid) : Out.moves fp s0 (execBlobWriteDone x0 s) := by
  unfold execBlobWriteDone
  try dsimp only
  with_reducible repeat' first
    | assumption
    | exact hm.mono (by decide)
    | apply Out.moves_next
    | apply State.popExport_moves
    | apply State.hostWrite_moves
    | apply State.detach_moves
    | split

theorem execCloseAbort_moves {fp : Nat} {s0 s : State} (h : Moves fp s0 s) (hm : Covers 0xa4cc0f6ca450ce fp) (x0 : Sys2Proof.Part) (x1 : Sys2Proof.Ring) (x2 : Words8) : Out.moves fp s0 (execCloseAbort x0 x1 x2 s) := by
  unfold execCloseAbort
  try dsimp only
  with_reducible repeat' first
    | assumption
    | exact hm.mono (by decide)
    | (intro _; try dsimp only)
    | apply Out.moves_next
    | apply State.refuse_moves
    | apply State.consume_moves
    | apply State.abortStream_moves
    | apply State.dropMig_moves
    | split

theorem execCloseDrain_moves {fp : Nat} {s0 s : State} (h : Moves fp s0 s) (hm : Covers 0xa4840f3ca450ce fp) (x0 : Sys2Proof.Part) (x1 : Sys2Proof.Ring) (x2 : Words8) : Out.moves fp s0 (execCloseDrain x0 x1 x2 s) := by
  unfold execCloseDrain
  try dsimp only
  with_reducible repeat' first
    | assumption
    | exact hm.mono (by decide)
    | (intro _; try dsimp only)
    | apply Out.moves_next
    | apply State.cutChunks_moves
    | apply State.refuse_moves
    | apply State.settleStream_moves
    | apply State.consume_moves
    | apply State.modStream_moves
    | apply State.dropExports_moves
    | split
    | (refine Moves.leaf ?_ hm)

theorem execExportCapture_moves {fp : Nat} {s0 s : State} (h : Moves fp s0 s) (hm : Covers 0xa4c40b3ca450ce fp) (x0 : Sid) : Out.moves fp s0 (execExportCapture x0 s) := by
  unfold execExportCapture
  try dsimp only
  with_reducible repeat' first
    | assumption
    | exact hm.mono (by decide)
    | (intro _; try dsimp only)
    | apply Out.moves_next
    | apply State.refuse_moves
    | apply State.popExport_moves
    | apply State.settleMigrate_moves
    | apply State.repairCommitted_moves
    | apply State.modStream_moves
    | split
    | (refine Moves.leaf ?_ hm)

theorem execExportEntry_moves {fp : Nat} {s0 s : State} (h : Moves fp s0 s) (hm : Covers 0xd2c800000 fp) (x0 : Sys2Proof.Part) (x1 : Sys2Proof.Ring) (x2 : Words8) : Out.moves fp s0 (execExportEntry x0 x1 x2 s) := by
  unfold execExportEntry
  try dsimp only
  with_reducible repeat' first
    | assumption
    | exact hm.mono (by decide)
    | (intro _; try dsimp only)
    | apply Out.moves_next
    | apply State.refuse_moves
    | apply State.consume_moves
    | apply State.modStream_moves
    | split
    | (refine Moves.leaf ?_ hm)

theorem execImportBlobReadDone_moves {fp : Nat} {s0 s : State} (h : Moves fp s0 s) (hm : Covers 0x400293d800006 fp) (x0 : Sid) (x1 : Option ReadFault) (x2 : List Byte) : Out.moves fp s0 (execImportBlobReadDone x0 x1 x2 s) := by
  unfold execImportBlobReadDone
  try dsimp only
  with_reducible repeat' first
    | assumption
    | exact hm.mono (by decide)
    | apply Out.moves_next
    | apply State.refuseOpen_moves
    | apply State.publishW_moves
    | apply State.importBlob_moves
    | apply State.hostReadFault_moves
    | apply State.openedEvent_moves
    | apply State.beginStream_moves
    | split
    | (refine Moves.leaf ?_ hm)

theorem execImportEntry_moves {fp : Nat} {s0 s : State} (h : Moves fp s0 s) (hm : Covers 0xd2c800000 fp) (x0 : Sys2Proof.Part) (x1 : Sys2Proof.Ring) (x2 : Words8) : Out.moves fp s0 (execImportEntry x0 x1 x2 s) := by
  unfold execImportEntry
  try dsimp only
  with_reducible repeat' first
    | assumption
    | exact hm.mono (by decide)
    | (intro _; try dsimp only)
    | apply Out.moves_next
    | apply State.opening_moves
    | apply State.consume_moves

theorem execMigrateIn_moves {fp : Nat} {s0 s : State} (h : Moves fp s0 s) (hm : Covers 0xd2c800000 fp) (x0 : Sys2Proof.Part) (x1 : Sys2Proof.Ring) (x2 : Words8) : Out.moves fp s0 (execMigrateIn x0 x1 x2 s) := by
  unfold execMigrateIn
  try dsimp only
  with_reducible repeat' first
    | assumption
    | exact hm.mono (by decide)
    | (intro _; try dsimp only)
    | apply Out.moves_next
    | apply State.opening_moves
    | apply State.consume_moves

theorem execMigrateOut_moves {fp : Nat} {s0 s : State} (h : Moves fp s0 s) (hm : Covers 0xa4c40f3ca450ce fp) (x0 : Sys2Proof.Part) (x1 : Sys2Proof.Ring) (x2 : Words8) : Out.moves fp s0 (execMigrateOut x0 x1 x2 s) := by
  unfold execMigrateOut
  try dsimp only
  with_reducible repeat' first
    | assumption
    | exact hm.mono (by decide)
    | (intro _; try dsimp only)
    | apply Out.moves_next
    | apply State.refuse_moves
    | apply State.settleMigrate_moves
    | apply State.consume_moves
    | apply State.modStream_moves
    | split
    | (refine Moves.leaf ?_ hm)

theorem execModelLoad_moves {fp : Nat} {s0 s : State} (h : Moves fp s0 s) (hm : Covers 0xd2c800000 fp) (x0 : Sys2Proof.Part) (x1 : Sys2Proof.Ring) (x2 : Words8) : Out.moves fp s0 (execModelLoad x0 x1 x2 s) := by
  unfold execModelLoad
  try dsimp only
  with_reducible repeat' first
    | assumption
    | exact hm.mono (by decide)
    | (intro _; try dsimp only)
    | apply Out.moves_next
    | apply State.setModel_moves
    | apply State.consume_moves
    | apply State.modelEvent_moves
    | split
    | (refine Moves.leaf ?_ hm)

theorem execModelUnload_moves {fp : Nat} {s0 s : State} (h : Moves fp s0 s) (hm : Covers 0xd2c800000 fp) (x0 : Sys2Proof.Part) (x1 : Sys2Proof.Ring) (x2 : Words8) : Out.moves fp s0 (execModelUnload x0 x1 x2 s) := by
  unfold execModelUnload
  try dsimp only
  with_reducible repeat' first
    | assumption
    | exact hm.mono (by decide)
    | (intro _; try dsimp only)
    | apply Out.moves_next
    | apply State.setModel_moves
    | apply State.consume_moves
    | apply State.modelEvent_moves
    | split

theorem execOpenStream_moves {fp : Nat} {s0 s : State} (h : Moves fp s0 s) (hm : Covers 0x4000d3c800000 fp) (x0 : Sys2Proof.Part) (x1 : Sys2Proof.Ring) (x2 : Words8) : Out.moves fp s0 (execOpenStream x0 x1 x2 s) := by
  unfold execOpenStream
  try dsimp only
  with_reducible repeat' first
    | assumption
    | exact hm.mono (by decide)
    | (intro _; try dsimp only)
    | apply Out.moves_next
    | apply State.opening_moves
    | apply State.refuseOpen_moves
    | apply State.consume_moves
    | apply State.openedEvent_moves
    | apply State.beginStream_moves
    | split

theorem execPackageReadDone_moves {fp : Nat} {s0 s : State} (h : Moves fp s0 s) (hm : Covers 0x292c800104 fp) (x0 : ModelNo) (x1 : Option ReadFault) (x2 : List Byte) (x3 : List (Nat × Nat)) (x4 : List (Nat × Nat)) : Out.moves fp s0 (execPackageReadDone x0 x1 x2 x3 x4 s) := by
  unfold execPackageReadDone
  try dsimp only
  with_reducible repeat' first
    | assumption
    | exact hm.mono (by decide)
    | (intro _; try dsimp only)
    | apply Out.moves_next
    | apply State.descError_moves
    | apply State.loadModel_moves
    | apply State.hostReadFault_moves
    | apply State.setModel_moves
    | apply State.modelEvent_moves
    | split
    | (refine Moves.leaf ?_ hm)

theorem execResume_moves {fp : Nat} {s0 s : State} (h : Moves fp s0 s) (hm : Covers 0x4400d2c800000 fp) (x0 : Sys2Proof.Part) (x1 : Sys2Proof.Ring) (x2 : Words8) : Out.moves fp s0 (execResume x0 x1 x2 s) := by
  unfold execResume
  try dsimp only
  with_reducible repeat' first
    | assumption
    | exact hm.mono (by decide)
    | (intro _; try dsimp only)
    | apply Out.moves_next
    | apply State.refuse_moves
    | apply State.consume_moves
    | apply State.modStream_moves
    | apply State.openedEvent_moves
    | apply State.dropMig_moves
    | split
    | (refine Moves.leaf ?_ hm)

theorem execSetParams_moves {fp : Nat} {s0 s : State} (h : Moves fp s0 s) (hm : Covers 0xd2c800000 fp) (x0 : Sys2Proof.Part) (x1 : Sys2Proof.Ring) (x2 : Words8) : Out.moves fp s0 (execSetParams x0 x1 x2 s) := by
  unfold execSetParams
  try dsimp only
  with_reducible repeat' first
    | assumption
    | exact hm.mono (by decide)
    | (intro _; try dsimp only)
    | apply Out.moves_next
    | apply State.streamEvent_moves
    | apply State.consume_moves
    | apply State.modStream_moves
    | split


/-! ### Machine/Migrate.lean -/

theorem State.putMig_moves {fp : Nat} {s0 s : State} (h : Moves fp s0 s) (hm : Covers 0x400000000000 fp) (x1 : Migration) : Moves fp s0 (State.putMig s x1) := by
  unfold State.putMig
  try dsimp only
  with_reducible repeat' first
    | assumption
    | exact hm.mono (by decide)
    | (intro _; try dsimp only)
    | split
    | (refine Moves.leaf ?_ hm)

theorem State.admitMig_moves {fp : Nat} {s0 s : State} (h : Moves fp s0 s) (hm : Covers 0x444093d800006 fp) (x1 : Migration) : Moves fp s0 (State.admitMig s x1) := by
  unfold State.admitMig
  try dsimp only
  with_reducible repeat' first
    | assumption
    | exact hm.mono (by decide)
    | apply State.refuseOpen_moves
    | apply State.importBlob_moves
    | apply State.putMig_moves
    | apply State.send_moves
    | apply State.dropMig_moves
    | apply State.beginStream_moves
    | split
    | (refine Moves.leaf ?_ hm)

theorem State.failMig_moves {fp : Nat} {s0 s : State} (h : Moves fp s0 s) (hm : Covers 0x44092c800000 fp) (x1 : Migration) : Moves fp s0 (State.failMig s x1) := by
  unfold State.failMig
  try dsimp only
  with_reducible repeat' first
    | assumption
    | exact hm.mono (by decide)
    | (intro _; try dsimp only)
    | apply State.streamEvent_moves
    | apply State.modStream_moves
    | apply State.send_moves
    | apply State.dropMig_moves
    | (refine Moves.leaf ?_ hm)

theorem execAccept_moves {fp : Nat} {s0 s : State} (h : Moves fp s0 s) (hm : Covers 0x440000000000 fp) (x0 : PortNo) : Out.moves fp s0 (execAccept x0 s) := by
  unfold execAccept
  try dsimp only
  with_reducible repeat' first
    | assumption
    | exact hm.mono (by decide)
    | (intro _; try dsimp only)
    | apply Out.moves_next
    | apply State.onFrame_moves
    | apply State.putMig_moves
    | apply State.sendAll_moves
    | split
    | (refine Moves.leaf ?_ hm)

theorem execMigAbort_moves {fp : Nat} {s0 s : State} (h : Moves fp s0 s) (hm : Covers 0xa4cc0b6ca450ce fp) (x0 : PortNo) : Out.moves fp s0 (execMigAbort x0 s) := by
  unfold execMigAbort
  try dsimp only
  with_reducible repeat' first
    | assumption
    | exact hm.mono (by decide)
    | (intro _; try dsimp only)
    | apply Out.moves_next
    | apply State.onFrame_moves
    | apply State.abortStream_moves
    | apply State.dropMig_moves
    | split

theorem execMigAck_moves {fp : Nat} {s0 s : State} (h : Moves fp s0 s) (hm : Covers 0xa4cc0b6ca450ce fp) (x0 : PortNo) : Out.moves fp s0 (execMigAck x0 s) := by
  unfold execMigAck
  try dsimp only
  with_reducible repeat' first
    | assumption
    | exact hm.mono (by decide)
    | (intro _; try dsimp only)
    | apply Out.moves_next
    | apply State.onFrame_moves
    | apply State.detach_moves
    | apply State.send_moves
    | apply State.dropMig_moves
    | split

theorem execMigData_moves {fp : Nat} {s0 s : State} (h : Moves fp s0 s) (hm : Covers 0x444093d800006 fp) (x0 : PortNo) : Out.moves fp s0 (execMigData x0 s) := by
  unfold execMigData
  try dsimp only
  with_reducible repeat' first
    | assumption
    | exact hm.mono (by decide)
    | (intro _; try dsimp only)
    | apply Out.moves_next
    | apply State.onFrame_moves
    | apply State.putMig_moves
    | apply State.admitMig_moves
    | split
    | (refine Moves.leaf ?_ hm)

theorem execMigrateAckTimeout_moves {fp : Nat} {s0 s : State} (h : Moves fp s0 s) (hm : Covers 0x44092c800000 fp) (x0 : Sid) : Out.moves fp s0 (execMigrateAckTimeout x0 s) := by
  unfold execMigrateAckTimeout
  try dsimp only
  with_reducible repeat' first
    | assumption
    | exact hm.mono (by decide)
    | apply Out.moves_next
    | apply State.failMig_moves
    | split

theorem execMigrateHeldTimeout_moves {fp : Nat} {s0 s : State} (h : Moves fp s0 s) (hm : Covers 0x40092c800000 fp) (x0 : Sid) : Out.moves fp s0 (execMigrateHeldTimeout x0 s) := by
  unfold execMigrateHeldTimeout
  try dsimp only
  with_reducible repeat' first
    | assumption
    | exact hm.mono (by decide)
    | apply Out.moves_next
    | apply State.streamEvent_moves
    | apply State.putMig_moves
    | split
    | (refine Moves.leaf ?_ hm)

theorem execMigrateInTimeout_moves {fp : Nat} {s0 s : State} (h : Moves fp s0 s) (hm : Covers 0x92c800000 fp) (x0 : Sid) : Out.moves fp s0 (execMigrateInTimeout x0 s) := by
  unfold execMigrateInTimeout
  try dsimp only
  with_reducible repeat' first
    | assumption
    | exact hm.mono (by decide)
    | apply Out.moves_next
    | apply State.refuseOpen_moves
    | split

theorem execNotReady_moves {fp : Nat} {s0 s : State} (h : Moves fp s0 s) (hm : Covers 0x440000000000 fp) (x0 : PortNo) : Out.moves fp s0 (execNotReady x0 s) := by
  unfold execNotReady
  try dsimp only
  with_reducible repeat' first
    | assumption
    | exact hm.mono (by decide)
    | (intro _; try dsimp only)
    | apply Out.moves_next
    | apply State.onFrame_moves
    | apply State.putMig_moves
    | split
    | (refine Moves.leaf ?_ hm)

theorem execOffer_moves {fp : Nat} {s0 s : State} (h : Moves fp s0 s) (hm : Covers 0x44092c800000 fp) (x0 : PortNo) : Out.moves fp s0 (execOffer x0 s) := by
  unfold execOffer
  try dsimp only
  with_reducible repeat' first
    | assumption
    | exact hm.mono (by decide)
    | (intro _; try dsimp only)
    | apply Out.moves_next
    | apply State.refuseOpen_moves
    | apply State.onFrame_moves
    | apply State.send_moves
    | split
    | (refine Moves.leaf ?_ hm)

theorem execRefuse_moves {fp : Nat} {s0 s : State} (h : Moves fp s0 s) (hm : Covers 0x44092c800000 fp) (x0 : PortNo) : Out.moves fp s0 (execRefuse x0 s) := by
  unfold execRefuse
  try dsimp only
  with_reducible repeat' first
    | assumption
    | exact hm.mono (by decide)
    | (intro _; try dsimp only)
    | apply Out.moves_next
    | apply State.failMig_moves
    | apply State.onFrame_moves
    | split

theorem execRelease_moves {fp : Nat} {s0 s : State} (h : Moves fp s0 s) (hm : Covers 0x444092c800000 fp) (x0 : PortNo) : Out.moves fp s0 (execRelease x0 s) := by
  unfold execRelease
  try dsimp only
  with_reducible repeat' first
    | assumption
    | exact hm.mono (by decide)
    | (intro _; try dsimp only)
    | apply Out.moves_next
    | apply State.onFrame_moves
    | apply State.modStream_moves
    | apply State.openedEvent_moves
    | apply State.dropMig_moves
    | split
    | (refine Moves.leaf ?_ hm)

theorem execReofferTimer_moves {fp : Nat} {s0 s : State} (h : Moves fp s0 s) (hm : Covers 0x44092c800000 fp) (x0 : Sid) : Out.moves fp s0 (execReofferTimer x0 s) := by
  unfold execReofferTimer
  try dsimp only
  with_reducible repeat' first
    | assumption
    | exact hm.mono (by decide)
    | apply Out.moves_next
    | apply State.sendOffer_moves
    | apply State.failMig_moves
    | apply State.putMig_moves
    | split
    | (refine Moves.leaf ?_ hm)

end Sys2Proof.Machine
end

