-- ==== Sys2Proof/Laws/MovesDevice.lean ====
section
/-! SUPPORT. The operations of time, power, the host interface, start-up and the cores keep the queue, the invariant and what lies outside their footprints: one lemma each. -/

set_option linter.unusedTactic false
set_option linter.unreachableTactic false

namespace Sys2Proof.Machine

-- One proof at a time: proofs elaborated side by side wait on shared realisations, one thread each, and run out of threads.
set_option Elab.async false

/-! ### Machine/Time.lean -/

theorem State.modTm_moves {fp k : Nat} {s0 s : State} (h : Moves fp s0 s) (hm : Covers k fp) (f : Timebase → Timebase)
    (g : ∀ c : Timebase, TimebaseFrame k c (f c) := by
      intro c
      constructor <;> first | exact fun e => absurd e (by decide) | exact fun _ => rfl) : Moves fp s0 (s.modTm f) :=
  ⟨h.pending, fun i => { h.inv i with },
    h.frame.trans (({ Footprint.refl k s with tm := g s.tm } : Footprint k s (s.modTm f)).mono hm)⟩

theorem State.elect_moves {fp : Nat} {s0 s : State} (h : Moves fp s0 s) (hm : Covers 0x2000000000000 fp)  : Moves fp s0 (State.elect s) := by
  unfold State.elect
  try dsimp only
  with_reducible repeat' first
    | assumption
    | exact hm.mono (by decide)
    | (intro _; try dsimp only)
    | (refine State.modTm_moves ?_ hm _)
    | split
    | (refine Moves.leaf ?_ hm)

theorem State.refuseOffset_moves {fp : Nat} {s0 s : State} (h : Moves fp s0 s) (hm : Covers 0x86000000000000 fp) (x1 : Rat) (x2 : OffsetSource) : Moves fp s0 (State.refuseOffset s x1 x2) := by
  unfold State.refuseOffset
  try dsimp only
  with_reducible repeat' first
    | assumption
    | exact hm.mono (by decide)
    | (intro _; try dsimp only)
    | (refine State.modTm_moves ?_ hm _)
    | apply State.setObj_moves
    | apply State.elect_moves
    | apply State.incObj_moves
    | apply State.emcyEvent_moves
    | split
    | (refine Moves.leaf ?_ hm)

theorem State.shiftTimes_moves {fp : Nat} {s0 s : State} (h : Moves fp s0 s) (hm : Covers 0x40040004cc41800 fp) (d : Int) : Moves fp s0 (s.shiftTimes d) := by
  refine h.step hm fun i => { i with table := ⟨Tbl.sorted_map i.table.1 fun _ x => x.shift d, fun e he => ?_⟩, accepted := fun x hx hs => ?_ }
  · obtain ⟨y, hy, rfl⟩ := List.mem_map.1 he
    exact i.table.2 y hy
  · obtain ⟨y, hy, rfl⟩ := List.mem_map.1 hx
    exact i.accepted y hy hs

theorem State.timeStep_moves {fp : Nat} {s0 s : State} (h : Moves fp s0 s) (hm : Covers 0x48740024cc41800 fp) (x1 : Rat) : Moves fp s0 (State.timeStep s x1) := by
  unfold State.timeStep
  try dsimp only
  with_reducible repeat' first
    | assumption
    | exact hm.mono (by decide)
    | (intro _; try dsimp only)
    | (refine State.modTm_moves ?_ hm _)
    | apply State.setObj_moves
    | apply State.incObj_moves
    | apply State.closeSecond_moves
    | apply State.shiftTimes_moves
    | (refine Moves.leaf ?_ hm)

theorem State.takeOffset_moves {fp : Nat} {s0 s : State} (h : Moves fp s0 s) (hm : Covers 0x48740024cc41800 fp) (x1 : Rat) (x2 : OffsetSource) : Moves fp s0 (State.takeOffset s x1 x2) := by
  unfold State.takeOffset
  try dsimp only
  with_reducible repeat' first
    | assumption
    | exact hm.mono (by decide)
    | (intro _; try dsimp only)
    | apply State.timeStep_moves
    | (refine State.modTm_moves ?_ hm _)
    | apply State.elect_moves
    | apply State.emcyEnd_moves
    | apply State.refuseOffset_moves
    | split
    | (refine Moves.leaf ?_ hm)

theorem State.acceptEdge_moves {fp : Nat} {s0 s : State} (h : Moves fp s0 s) (hm : Covers 0x48740024cc41800 fp)  : Moves fp s0 (State.acceptEdge s) := by
  unfold State.acceptEdge
  try dsimp only
  with_reducible repeat' first
    | assumption
    | exact hm.mono (by decide)
    | (intro _; try dsimp only)
    | apply State.takeOffset_moves
    | (refine State.modTm_moves ?_ hm _)
    | apply State.elect_moves
    | apply State.incObj_moves
    | split
    | (refine Moves.leaf ?_ hm)

theorem State.loseExchange_moves {fp : Nat} {s0 s : State} (h : Moves fp s0 s) (hm : Covers 0x6000000000000 fp)  : Moves fp s0 (State.loseExchange s) := by
  unfold State.loseExchange
  try dsimp only
  with_reducible repeat' first
    | assumption
    | exact hm.mono (by decide)
    | (intro _; try dsimp only)
    | (refine State.modTm_moves ?_ hm _)
    | apply State.incObj_moves
    | split
    | (refine Moves.leaf ?_ hm)

theorem State.beginExchange_moves {fp : Nat} {s0 s : State} (h : Moves fp s0 s) (hm : Covers 0x6040000000000 fp) (x1 : Nat) (x2 : Frame) : Moves fp s0 (State.beginExchange s x1 x2) := by
  unfold State.beginExchange
  try dsimp only
  with_reducible repeat' first
    | assumption
    | exact hm.mono (by decide)
    | (intro _; try dsimp only)
    | (refine State.modTm_moves ?_ hm _)
    | apply State.loseExchange_moves
    | apply State.send_moves
    | (refine Moves.leaf ?_ hm)

theorem State.enterHoldover_moves {fp : Nat} {s0 s : State} (h : Moves fp s0 s) (hm : Covers 0x86000000000000 fp)  : Moves fp s0 (State.enterHoldover s) := by
  unfold State.enterHoldover
  try dsimp only
  with_reducible repeat' first
    | assumption
    | exact hm.mono (by decide)
    | (intro _; try dsimp only)
    | (refine State.modTm_moves ?_ hm _)
    | apply State.elect_moves
    | apply State.emcyRaise_moves
    | (refine Moves.leaf ?_ hm)

theorem execDelayReq_moves {fp : Nat} {s0 s : State} (h : Moves fp s0 s) (hm : Covers 0x40000000000 fp) (x0 : PortNo) : Out.moves fp s0 (execDelayReq x0 s) := by
  unfold execDelayReq
  try dsimp only
  with_reducible repeat' first
    | assumption
    | exact hm.mono (by decide)
    | (intro _; try dsimp only)
    | apply Out.moves_next
    | apply State.onFrame_moves
    | apply State.send_moves

theorem execDelayResp_moves {fp : Nat} {s0 s : State} (h : Moves fp s0 s) (hm : Covers 0x48744024cc41800 fp) (x0 : PortNo) : Out.moves fp s0 (execDelayResp x0 s) := by
  unfold execDelayResp
  try dsimp only
  with_reducible repeat' first
    | assumption
    | exact hm.mono (by decide)
    | (intro _; try dsimp only)
    | apply Out.moves_next
    | apply State.takeOffset_moves
    | (refine State.modTm_moves ?_ hm _)
    | apply State.loseExchange_moves
    | apply State.onFrame_moves
    | split
    | (refine Moves.leaf ?_ hm)

theorem execElectionWindowExpiry_moves {fp : Nat} {s0 s : State} (h : Moves fp s0 s) (hm : Covers 0x2000000000000 fp) (x0 : DevNo) : Out.moves fp s0 (execElectionWindowExpiry x0 s) := by
  unfold execElectionWindowExpiry
  try dsimp only
  with_reducible repeat' first
    | assumption
    | exact hm.mono (by decide)
    | (intro _; try dsimp only)
    | apply Out.moves_next
    | (refine State.modTm_moves ?_ hm _)
    | apply State.elect_moves
    | (refine Moves.leaf ?_ hm)

theorem execFollowUp_moves {fp : Nat} {s0 s : State} (h : Moves fp s0 s) (hm : Covers 0x6040000000000 fp) (x0 : PortNo) : Out.moves fp s0 (execFollowUp x0 s) := by
  unfold execFollowUp
  try dsimp only
  with_reducible repeat' first
    | assumption
    | exact hm.mono (by decide)
    | (intro _; try dsimp only)
    | apply Out.moves_next
    | (refine State.modTm_moves ?_ hm _)
    | apply State.loseExchange_moves
    | apply State.onFrame_moves
    | split
    | (refine Moves.leaf ?_ hm)

theorem execHoldoverEntry_moves {fp : Nat} {s0 s : State} (h : Moves fp s0 s) (hm : Covers 0x86000000000000 fp)  : Out.moves fp s0 (execHoldoverEntry s) := by
  unfold execHoldoverEntry
  try dsimp only
  with_reducible repeat' first
    | assumption
    | exact hm.mono (by decide)
    | apply Out.moves_next
    | apply State.enterHoldover_moves
    | split

theorem execHoldoverLimitExpiry_moves {fp : Nat} {s0 s : State} (h : Moves fp s0 s) (hm : Covers 0x86000000000000 fp)  : Out.moves fp s0 (execHoldoverLimitExpiry s) := by
  unfold execHoldoverLimitExpiry
  try dsimp only
  with_reducible repeat' first
    | assumption
    | exact hm.mono (by decide)
    | (intro _; try dsimp only)
    | apply Out.moves_next
    | (refine State.modTm_moves ?_ hm _)
    | apply State.elect_moves
    | apply State.emcyRaise_moves
    | split
    | (refine Moves.leaf ?_ hm)

theorem execPpsEdge_moves {fp : Nat} {s0 s : State} (h : Moves fp s0 s) (hm : Covers 0x48740024cc41800 fp)  : Out.moves fp s0 (execPpsEdge s) := by
  unfold execPpsEdge
  try dsimp only
  with_reducible repeat' first
    | assumption
    | exact hm.mono (by decide)
    | (intro _; try dsimp only)
    | apply Out.moves_next
    | (refine State.modTm_moves ?_ hm _)
    | apply State.incObj_moves
    | apply State.acceptEdge_moves
    | split
    | (refine Moves.leaf ?_ hm)

theorem execPpsLoss_moves {fp : Nat} {s0 s : State} (h : Moves fp s0 s) (hm : Covers 0x2000000000000 fp)  : Out.moves fp s0 (execPpsLoss s) := by
  unfold execPpsLoss
  try dsimp only
  with_reducible repeat' first
    | assumption
    | exact hm.mono (by decide)
    | (intro _; try dsimp only)
    | apply Out.moves_next
    | (refine State.modTm_moves ?_ hm _)
    | apply State.elect_moves
    | (refine Moves.leaf ?_ hm)

theorem execSync_moves {fp : Nat} {s0 s : State} (h : Moves fp s0 s) (hm : Covers 0x86040000000000 fp) (x0 : PortNo) : Out.moves fp s0 (execSync x0 s) := by
  unfold execSync
  try dsimp only
  with_reducible repeat' first
    | assumption
    | exact hm.mono (by decide)
    | (intro _; try dsimp only)
    | apply Out.moves_next
    | (refine State.modTm_moves ?_ hm _)
    | apply State.elect_moves
    | apply State.onFrame_moves
    | apply State.beginExchange_moves
    | apply State.enterHoldover_moves
    | split
    | (refine Moves.leaf ?_ hm)

theorem execSyncTimer_moves {fp : Nat} {s0 s : State} (h : Moves fp s0 s) (hm : Covers 0x2040000000000 fp)  : Out.moves fp s0 (execSyncTimer s) := by
  unfold execSyncTimer
  try dsimp only
  with_reducible repeat' first
    | assumption
    | exact hm.mono (by decide)
    | (intro _; try dsimp only)
    | apply Out.moves_next
    | (refine State.modTm_moves ?_ hm _)
    | apply State.sendAll_moves
    | apply Moves.foldl
    | (refine Moves.leaf ?_ hm)


/-! ### Machine/Supply.lean -/

theorem State.applyNode_moves {fp : Nat} {s0 s : State} (h : Moves fp s0 s) (hm : Covers 0x200000000000000 fp)  : Moves fp s0 (State.applyNode s) := by
  unfold State.applyNode
  try dsimp only
  with_reducible repeat' first | assumption | exact hm.mono (by decide) | split | (refine Moves.leaf ?_ hm)

theorem State.setMonitor_moves {fp : Nat} {s0 s : State} (h : Moves fp s0 s) (hm : Covers 0x40000000000000000 fp) (x1 : Nat) (x2 : Monitor) : Moves fp s0 (State.setMonitor s x1 x2) := by
  unfold State.setMonitor
  try dsimp only
  with_reducible repeat' first
    | assumption
    | exact hm.mono (by decide)
    | (intro _; try dsimp only)
    | (refine State.modPw_moves ?_ hm _)
    | (refine Moves.leaf ?_ hm)

theorem State.excursion_moves {fp : Nat} {s0 s : State} (h : Moves fp s0 s) (hm : Covers 0x40000000000000000 fp) (x1 : Nat) (x2 : Nat) : Moves fp s0 (State.excursion s x1 x2) := by
  unfold State.excursion
  try dsimp only
  with_reducible repeat' first
    | assumption
    | exact hm.mono (by decide)
    | apply State.setMonitor_moves
    | (refine Moves.leaf ?_ hm)

theorem State.resetDie_moves {fp : Nat} {s0 s : State} (h : Moves fp s0 s) (hm : Covers 0x7f9fc77fdbffffffffe fp) (cause : Nat) : Moves fp s0 (s.resetDie cause) :=
  h.step hm fun i =>
    { sp := Mem.wf_nil, acc := Mem.wf_nil, hbm := Mem.wf_nil, ctlMem := Mem.wf_nil, core := Mem.wf_nil, spill := Mem.wf_nil
      mirror := Mem.wf_nil, hostMem := i.hostMem, faultLog := Nat.zero_le _, emcy := i.emcy, usdo := Nat.zero_le _
      commitLog := Nat.zero_le _, flash := i.flash, table := ⟨List.Pairwise.nil, by simp [State.resetDie]⟩
      ctlView := by simp [State.resetDie], accepted := by simp [State.resetDie] }

theorem State.powerDown_moves {fp : Nat} {s0 s : State} (h : Moves fp s0 s) (hm : Covers 0x7fbfc77fdbffffffffe fp) (x1 : DownCause) (x2 : Nat) : Moves fp s0 (State.powerDown s x1 x2) := by
  unfold State.powerDown
  try dsimp only
  with_reducible repeat' first
    | assumption
    | exact hm.mono (by decide)
    | apply State.resetDie_moves
    | split
    | (refine Moves.leaf ?_ hm)

theorem State.sampleMv_moves {fp : Nat} {s0 s : State} (h : Moves fp s0 s) (hm : Covers 0x40000000000000000 fp) (x1 : Nat) (x2 : Nat) : Moves fp s0 (State.sampleMv s x1 x2) := by
  unfold State.sampleMv
  try dsimp only
  with_reducible repeat' first | assumption | exact hm.mono (by decide) | apply State.setMonitor_moves

theorem State.startSequencer_moves {fp : Nat} {s0 s : State} (h : Moves fp s0 s) (hm : Covers 0x1020000000000000000 fp)  : Moves fp s0 (State.startSequencer s) := by
  unfold State.startSequencer
  try dsimp only
  with_reducible repeat' first | assumption | exact hm.mono (by decide) | (refine Moves.leaf ?_ hm)

theorem State.takeStraps_moves {fp : Nat} {s0 s : State} (h : Moves fp s0 s) (hm : Covers 0x4286020000000000 fp) (x1 : List StrapSample) : Moves fp s0 (State.takeStraps s x1) := by
  unfold State.takeStraps
  try dsimp only
  with_reducible repeat' first
    | assumption
    | exact hm.mono (by decide)
    | (intro _; try dsimp only)
    | apply State.emcyEvent_moves
    | split
    | (refine Moves.leaf ?_ hm)

theorem execPllLockLoss_moves {fp : Nat} {s0 s : State} (h : Moves fp s0 s) (hm : Covers 0x7fbfcf7fdbffffffffe fp)  : Out.moves fp s0 (execPllLockLoss s) := by
  unfold execPllLockLoss
  try dsimp only
  with_reducible repeat' first
    | assumption
    | exact hm.mono (by decide)
    | apply Out.moves_next
    | apply State.powerDown_moves
    | apply State.emcyEvent_moves
    | split
    | (refine Moves.leaf ?_ hm)

theorem execRailFault_moves {fp : Nat} {s0 s : State} (h : Moves fp s0 s) (hm : Covers 0x7fffcf7fdbffffffffe fp) (x0 : Nat) (x1 : Nat) : Out.moves fp s0 (execRailFault x0 x1 s) := by
  unfold execRailFault
  try dsimp only
  with_reducible repeat' first
    | assumption
    | exact hm.mono (by decide)
    | (intro _; try dsimp only)
    | apply Out.moves_next
    | apply State.excursion_moves
    | apply State.powerDown_moves
    | (refine State.modPw_moves ?_ hm _)
    | apply State.emcyRaise_moves
    | split
    | (refine Moves.leaf ?_ hm)

theorem execRailRetryTimer_moves {fp : Nat} {s0 s : State} (h : Moves fp s0 s) (hm : Covers 0x1020000000000000000 fp)  : Out.moves fp s0 (execRailRetryTimer s) := by
  unfold execRailRetryTimer
  try dsimp only
  with_reducible repeat' first
    | assumption
    | exact hm.mono (by decide)
    | apply Out.moves_next
    | apply State.startSequencer_moves
    | split

theorem execRideThroughExpiry_moves {fp : Nat} {s0 s : State} (h : Moves fp s0 s) (hm : Covers 0x7fbfcf7fdbffffffffe fp)  : Out.moves fp s0 (execRideThroughExpiry s) := by
  unfold execRideThroughExpiry
  try dsimp only
  with_reducible repeat' first
    | assumption
    | exact hm.mono (by decide)
    | apply Out.moves_next
    | apply State.powerDown_moves
    | apply State.emcyRaise_moves
    | split

theorem execSequencerStepDone_moves {fp : Nat} {s0 s : State} (h : Moves fp s0 s) (hm : Covers 0x60084000000000000 fp) (x0 : List Nat) : Out.moves fp s0 (execSequencerStepDone x0 s) := by
  unfold execSequencerStepDone
  try dsimp only
  with_reducible repeat' first
    | assumption
    | exact hm.mono (by decide)
    | (intro _; try dsimp only)
    | apply Out.moves_next
    | apply State.sampleMv_moves
    | apply State.emcyEnd_moves
    | (refine State.modPw_moves ?_ hm _)
    | apply Moves.foldl
    | split
    | (refine Moves.leaf ?_ hm)

theorem execVauxGood_moves {fp : Nat} {s0 s : State} (h : Moves fp s0 s) (hm : Covers 0x7fffef7ffbffffffffe fp) (mv : Nat) (straps : List StrapSample) :
    Out.moves fp s0 (execVauxGood mv straps s) := by
  unfold execVauxGood
  dsimp only
  split
  · exact Out.moves_next h
  · apply Out.moves_next
    have k : Moves fp s0 (s.resetDie 1) := State.resetDie_moves h (hm.mono (by decide)) 1
    generalize s.resetDie 1 = u at k
    split
    · refine State.startSequencer_moves ?_ (hm.mono (by decide)) ..
      refine State.applyNode_moves ?_ (hm.mono (by decide)) ..
      refine State.takeStraps_moves ?_ (hm.mono (by decide)) ..
      refine State.sampleMv_moves ?_ (hm.mono (by decide)) ..
      exact k.step hm fun i => { i with emcy := Nat.zero_le _ }
    · refine State.applyNode_moves ?_ (hm.mono (by decide)) ..
      refine State.takeStraps_moves ?_ (hm.mono (by decide)) ..
      refine State.sampleMv_moves ?_ (hm.mono (by decide)) ..
      exact k.step hm fun i => { i with emcy := Nat.zero_le _ }

theorem execVauxLost_moves {fp : Nat} {s0 s : State} (h : Moves fp s0 s) (hm : Covers 0x7fffcf7fdbffffffffe fp) (mv : Nat) : Out.moves fp s0 (execVauxLost mv s) := by
  unfold execVauxLost
  dsimp only
  split
  · exact Out.moves_next h
  · apply Out.moves_next
    have k := State.powerDown_moves (State.excursion_moves h (hm.mono (by decide)) 10 mv) (hm.mono (by decide)) .vaux 2
    exact k.step hm fun i => { i with emcy := Nat.zero_le _ }

theorem execVinOutOfRange_moves {fp : Nat} {s0 s : State} (h : Moves fp s0 s) (hm : Covers 0x40084000000000000 fp) (x0 : Bool) (x1 : Bool) (x2 : Nat) : Out.moves fp s0 (execVinOutOfRange x0 x1 x2 s) := by
  unfold execVinOutOfRange
  try dsimp only
  with_reducible repeat' first
    | assumption
    | exact hm.mono (by decide)
    | (intro _; try dsimp only)
    | apply Out.moves_next
    | apply State.excursion_moves
    | apply State.sampleMv_moves
    | apply State.emcyEnd_moves
    | apply State.emcyRaise_moves
    | split

theorem execVinOvervoltageLockout_moves {fp : Nat} {s0 s : State} (h : Moves fp s0 s) (hm : Covers 0x7fffcf7fdbffffffffe fp) (x0 : Nat) : Out.moves fp s0 (execVinOvervoltageLockout x0 s) := by
  unfold execVinOvervoltageLockout
  try dsimp only
  with_reducible repeat' first
    | assumption
    | exact hm.mono (by decide)
    | apply Out.moves_next
    | apply State.powerDown_moves
    | apply State.sampleMv_moves
    | apply State.emcyRaise_moves
    | split

theorem execVinReturn_moves {fp : Nat} {s0 s : State} (h : Moves fp s0 s) (hm : Covers 0x60084000000000000 fp) (x0 : Nat) : Out.moves fp s0 (execVinReturn x0 s) := by
  unfold execVinReturn
  try dsimp only
  with_reducible repeat' first
    | assumption
    | exact hm.mono (by decide)
    | (intro _; try dsimp only)
    | apply Out.moves_next
    | apply State.sampleMv_moves
    | apply State.incObj_moves
    | (refine State.modPw_moves ?_ hm _)
    | apply State.emcyEvent_moves
    | split
    | (refine Moves.leaf ?_ hm)

theorem execVinStart_moves {fp : Nat} {s0 s : State} (h : Moves fp s0 s) (hm : Covers 0x1060000000000000000 fp) (x0 : Nat) : Out.moves fp s0 (execVinStart x0 s) := by
  unfold execVinStart
  try dsimp only
  with_reducible repeat' first
    | assumption
    | exact hm.mono (by decide)
    | (intro _; try dsimp only)
    | apply Out.moves_next
    | apply State.sampleMv_moves
    | apply State.startSequencer_moves
    | (refine State.modPw_moves ?_ hm _)
    | split
    | (refine Moves.leaf ?_ hm)

theorem execVinUndervoltageLockout_moves {fp : Nat} {s0 s : State} (h : Moves fp s0 s) (hm : Covers 0x7fffcf7fdbffffffffe fp) (x0 : Nat) : Out.moves fp s0 (execVinUndervoltageLockout x0 s) := by
  unfold execVinUndervoltageLockout
  try dsimp only
  with_reducible repeat' first
    | assumption
    | exact hm.mono (by decide)
    | (intro _; try dsimp only)
    | apply Out.moves_next
    | apply State.powerDown_moves
    | apply State.sampleMv_moves
    | (refine State.modPw_moves ?_ hm _)
    | apply State.emcyRaise_moves
    | split
    | (refine Moves.leaf ?_ hm)


/-! ### Machine/Power.lean -/

theorem State.actRequest_moves {fp : Nat} {s0 s : State} (h : Moves fp s0 s) (hm : Covers 0x80000000000000000 fp) (x1 : Nat) : Moves fp s0 (State.actRequest s x1) := by
  unfold State.actRequest
  try dsimp only
  with_reducible repeat' first
    | assumption
    | exact hm.mono (by decide)
    | (intro _; try dsimp only)
    | apply State.toPower_moves
    | (refine State.modPw_moves ?_ hm _)
    | split
    | (refine Moves.leaf ?_ hm)

theorem State.gateEngine_moves {fp : Nat} {s0 s : State} (h : Moves fp s0 s) (hm : Covers 0x2000c4 fp) (x1 : Nat) : Moves fp s0 (State.gateEngine s x1) := by
  unfold State.gateEngine
  try dsimp only
  with_reducible repeat' first
    | assumption
    | exact hm.mono (by decide)
    | apply State.setDomain_moves
    | apply State.settleEngine_moves
    | split

theorem State.gateAll_moves {fp : Nat} {s0 s : State} (h : Moves fp s0 s) (hm : Covers 0x2000c4 fp)  : Moves fp s0 (State.gateAll s) := by
  unfold State.gateAll
  try dsimp only
  with_reducible repeat' first
    | assumption
    | exact hm.mono (by decide)
    | (intro _; try dsimp only)
    | apply State.gateEngine_moves
    | apply Moves.foldl

theorem State.beginGating_moves {fp : Nat} {s0 s : State} (h : Moves fp s0 s) (hm : Covers 0x2000c4 fp)  : Moves fp s0 (State.beginGating s) := by
  unfold State.beginGating
  try dsimp only
  with_reducible repeat' first | assumption | exact hm.mono (by decide) | apply State.gateAll_moves | split

theorem State.demoteAll_moves {fp : Nat} {s0 s : State} (h : Moves fp s0 s) (hm : Covers 0xa4000003800007 fp) (n : Nat) : Moves fp s0 (State.demoteAll n s) := by
  induction n generalizing s with
  | zero => exact h
  | succ n ih =>
    unfold State.demoteAll
    split
    · next q =>
      obtain ⟨r, _, e⟩ := Option.bind_eq_some_iff.1 q
      exact ih ((State.demote_moves h (hm.mono (by decide)) r).get _ e)
    · exact h

theorem State.setHbm_moves {fp : Nat} {s0 s : State} (h : Moves fp s0 s) (hm : Covers 0x200000 fp) (x1 : Nat) : Moves fp s0 (State.setHbm s x1) := by
  unfold State.setHbm
  try dsimp only
  with_reducible repeat' first
    | assumption
    | exact hm.mono (by decide)
    | (intro _; try dsimp only)
    | apply State.setDomain_moves
    | apply Moves.foldl

theorem State.ungateEngine_moves {fp : Nat} {s0 s : State} (h : Moves fp s0 s) (hm : Covers 0x200000 fp) (x1 : Nat) : Moves fp s0 (State.ungateEngine s x1) := by
  unfold State.ungateEngine
  try dsimp only
  with_reducible repeat' first | assumption | exact hm.mono (by decide) | apply State.setDomain_moves | split

theorem State.ungateAll_moves {fp : Nat} {s0 s : State} (h : Moves fp s0 s) (hm : Covers 0x200000 fp) (x1 : Nat) : Moves fp s0 (State.ungateAll s x1) := by
  unfold State.ungateAll
  try dsimp only
  with_reducible repeat' first
    | assumption
    | exact hm.mono (by decide)
    | (intro _; try dsimp only)
    | apply State.ungateEngine_moves
    | apply Moves.foldl

theorem State.enterState_moves {fp : Nat} {s0 s : State} (h : Moves fp s0 s) (hm : Covers 0x200000 fp)  : Moves fp s0 (State.enterState s) := by
  unfold State.enterState
  try dsimp only
  with_reducible repeat' first
    | assumption
    | exact hm.mono (by decide)
    | apply State.ungateAll_moves
    | apply State.setHbm_moves
    | split

theorem State.keepPartial_moves {fp : Nat} {s0 s : State} (h : Moves fp s0 s) (hm : Covers 0x8000000 fp)  : Moves fp s0 (State.keepPartial s) := by
  unfold State.keepPartial
  try dsimp only
  with_reducible repeat' first
    | assumption
    | exact hm.mono (by decide)
    | (intro _; try dsimp only)
    | split
    | (refine Moves.leaf ?_ hm)

theorem State.loseOnchip_moves {fp : Nat} {s0 s : State} (h : Moves fp s0 s) (hm : Covers 0x4000002800000 fp)  : Moves fp s0 (State.loseOnchip s) := by
  unfold State.loseOnchip
  try dsimp only
  with_reducible repeat' first
    | assumption
    | exact hm.mono (by decide)
    | (intro _; try dsimp only)
    | apply State.pageLost_moves
    | apply Moves.foldl

theorem State.portOff_moves {fp : Nat} {s0 s : State} (h : Moves fp s0 s) (hm : Covers 0x40000a4bc0b2efd50ee fp) (x1 : Nat) : Moves fp s0 (State.portOff s x1) := by
  unfold State.portOff
  try dsimp only
  with_reducible repeat' first
    | assumption
    | exact hm.mono (by decide)
    | apply State.leaveUp_moves
    | apply State.setDomain_moves
    | apply State.setPort_moves
    | (refine Moves.leaf ?_ hm)

theorem State.portOn_moves {fp : Nat} {s0 s : State} (h : Moves fp s0 s) (hm : Covers 0x40000200000 fp) (x1 : Nat) : Moves fp s0 (State.portOn s x1) := by
  unfold State.portOn
  try dsimp only
  with_reducible repeat' first
    | assumption
    | exact hm.mono (by decide)
    | apply State.setDomain_moves
    | apply State.setPort_moves
    | (refine Moves.leaf ?_ hm)

theorem State.quarterOff_moves {fp : Nat} {s0 s : State} (h : Moves fp s0 s) (hm : Covers 0xa400000020002e fp) (x1 : Nat) : Moves fp s0 (State.quarterOff s x1) := by
  unfold State.quarterOff
  try dsimp only
  with_reducible repeat' first
    | assumption
    | exact hm.mono (by decide)
    | (intro _; try dsimp only)
    | apply State.setDomain_moves
    | apply State.clearQuarterTags_moves
    | apply State.clearQuarterRows_moves
    | apply State.flushAll_moves

theorem State.quarterOnNow_moves {fp : Nat} {s0 s : State} (h : Moves fp s0 s) (hm : Covers 0x20000e fp) (x1 : Nat) : Moves fp s0 (State.quarterOnNow s x1) := by
  unfold State.quarterOnNow
  try dsimp only
  with_reducible repeat' first
    | assumption
    | exact hm.mono (by decide)
    | apply State.setDomain_moves
    | apply State.clearQuarterTags_moves
    | apply State.clearQuarterRows_moves

theorem State.readSensor_moves {fp : Nat} {s0 s : State} (h : Moves fp s0 s) (hm : Covers 0x200084000000000000 fp) (x1 : Nat → Int) (x2 : Nat) : Moves fp s0 (State.readSensor s x1 x2) := by
  unfold State.readSensor
  try dsimp only
  with_reducible repeat' first
    | assumption
    | exact hm.mono (by decide)
    | (intro _; try dsimp only)
    | apply State.incObj_moves
    | (refine State.modPw_moves ?_ hm _)
    | apply State.emcyEvent_moves
    | split
    | (refine Moves.leaf ?_ hm)

theorem State.writeRequest_moves {fp : Nat} {s0 s : State} (h : Moves fp s0 s) (hm : Covers 0x80004000000000000 fp) (x1 : Nat) : Moves fp s0 (State.writeRequest s x1) := by
  unfold State.writeRequest
  try dsimp only
  with_reducible repeat' first
    | assumption
    | exact hm.mono (by decide)
    | (intro _; try dsimp only)
    | apply State.setObj_moves
    | (refine State.modPw_moves ?_ hm _)
    | apply State.actRequest_moves
    | split
    | (refine Moves.leaf ?_ hm)

theorem execCrocusIdleExpiry_moves {fp : Nat} {s0 s : State} (h : Moves fp s0 s) (hm : Covers 0x80000000000000000 fp)  : Out.moves fp s0 (execCrocusIdleExpiry s) := by
  unfold execCrocusIdleExpiry
  try dsimp only
  with_reducible repeat' first
    | assumption
    | exact hm.mono (by decide)
    | (intro _; try dsimp only)
    | apply Out.moves_next
    | apply State.toPower_moves
    | (refine State.modPw_moves ?_ hm _)
    | split
    | (refine Moves.leaf ?_ hm)

theorem execCrocusWake_moves {fp : Nat} {s0 s : State} (h : Moves fp s0 s) (hm : Covers 0x80000000000000000 fp)  : Out.moves fp s0 (execCrocusWake s) := by
  unfold execCrocusWake
  try dsimp only
  with_reducible repeat' first
    | assumption
    | exact hm.mono (by decide)
    | apply Out.moves_next
    | apply State.wakeTrigger_moves

theorem execLimitUnmetExpiry_moves {fp : Nat} {s0 s : State} (h : Moves fp s0 s) (hm : Covers 0x4000000000000 fp)  : Out.moves fp s0 (execLimitUnmetExpiry s) := by
  unfold execLimitUnmetExpiry
  try dsimp only
  with_reducible repeat' first
    | assumption
    | exact hm.mono (by decide)
    | apply Out.moves_next
    | apply State.setObj_moves
    | apply State.incObj_moves
    | split

theorem execPowerLoopTick_moves {fp : Nat} {s0 s : State} (h : Moves fp s0 s) (hm : Covers 0x900000000000000000 fp) (x0 : Nat) : Out.moves fp s0 (execPowerLoopTick x0 s) := by
  unfold execPowerLoopTick
  try dsimp only
  with_reducible repeat' first
    | assumption
    | exact hm.mono (by decide)
    | apply Out.moves_next
    | apply State.followLevel_moves
    | split
    | (refine Moves.leaf ?_ hm)

theorem execPowerStateChangeDone_moves {fp : Nat} {s0 s : State} (h : Moves fp s0 s) (hm : Covers 0x800040000002000c4 fp)  : Out.moves fp s0 (execPowerStateChangeDone s) := by
  unfold execPowerStateChangeDone
  try dsimp only
  with_reducible repeat' first
    | assumption
    | exact hm.mono (by decide)
    | (intro _; try dsimp only)
    | apply Out.moves_next
    | apply State.enterState_moves
    | apply State.wakeTrigger_moves
    | apply State.beginGating_moves
    | apply State.incObj_moves
    | (refine State.modPw_moves ?_ hm _)
    | apply State.actRequest_moves
    | split
    | (refine Moves.leaf ?_ hm)

theorem execScheduleEnd_moves {fp : Nat} {s0 s : State} (h : Moves fp s0 s) (hm : Covers 0x480004000000000000 fp)  : Out.moves fp s0 (execScheduleEnd s) := by
  unfold execScheduleEnd
  try dsimp only
  with_reducible repeat' first
    | assumption
    | exact hm.mono (by decide)
    | (intro _; try dsimp only)
    | apply Out.moves_next
    | apply State.writeRequest_moves
    | (refine State.modPw_moves ?_ hm _)
    | split
    | (refine Moves.leaf ?_ hm)

theorem execScheduleStart_moves {fp : Nat} {s0 s : State} (h : Moves fp s0 s) (hm : Covers 0x480004000000000000 fp)  : Out.moves fp s0 (execScheduleStart s) := by
  unfold execScheduleStart
  try dsimp only
  with_reducible repeat' first
    | assumption
    | exact hm.mono (by decide)
    | (intro _; try dsimp only)
    | apply Out.moves_next
    | apply State.writeRequest_moves
    | (refine State.modPw_moves ?_ hm _)
    | split
    | (refine Moves.leaf ?_ hm)

theorem execSensorRead_moves {fp : Nat} {s0 s : State} (h : Moves fp s0 s) (hm : Covers 0x200084000000000000 fp) (x0 : List Int) : Out.moves fp s0 (execSensorRead x0 s) := by
  unfold execSensorRead
  try dsimp only
  with_reducible repeat' first
    | assumption
    | exact hm.mono (by decide)
    | (intro _; try dsimp only)
    | apply Out.moves_next
    | apply State.readSensor_moves
    | apply Moves.foldl
    | split

theorem execSnowdropEntry_moves {fp : Nat} {s0 s : State} (h : Moves fp s0 s) (hm : Covers 0x40800a4bc8b3ffd50ef fp)  : Out.moves fp s0 (execSnowdropEntry s) := by
  unfold execSnowdropEntry
  try dsimp only
  with_reducible repeat' first
    | assumption
    | exact hm.mono (by decide)
    | (intro _; try dsimp only)
    | apply Out.moves_next
    | apply State.demoteAll_moves
    | apply State.setDomain_moves
    | apply State.cancelRx_moves
    | apply State.quarterOff_moves
    | apply State.loseOnchip_moves
    | apply State.swapOutState_moves
    | apply State.keepPartial_moves
    | apply State.gateAll_moves
    | apply State.portOff_moves
    | apply State.setHbm_moves
    | apply Moves.foldl
    | split
    | (refine Moves.leaf ?_ hm)

theorem execSnowdropExit_moves {fp : Nat} {s0 s : State} (h : Moves fp s0 s) (hm : Covers 0x8000004002020000e fp)  : Out.moves fp s0 (execSnowdropExit s) := by
  unfold execSnowdropExit
  try dsimp only
  with_reducible repeat' first
    | assumption
    | exact hm.mono (by decide)
    | (intro _; try dsimp only)
    | apply Out.moves_next
    | apply State.setDomain_moves
    | apply State.ungateAll_moves
    | apply State.quarterOnNow_moves
    | (refine State.modPw_moves ?_ hm _)
    | apply State.setHbm_moves
    | apply State.fixBlocks_moves
    | apply State.portOn_moves
    | apply Moves.foldl
    | split
    | (refine Moves.leaf ?_ hm)

theorem execThermalTick_moves {fp : Nat} {s0 s : State} (h : Moves fp s0 s) (hm : Covers 0xb00084000000000000 fp)  : Out.moves fp s0 (execThermalTick s) := by
  unfold execThermalTick
  try dsimp only
  with_reducible repeat' first
    | assumption
    | exact hm.mono (by decide)
    | (intro _; try dsimp only)
    | apply Out.moves_next
    | apply State.followLevel_moves
    | apply State.emcyEnd_moves
    | apply State.emcyRaise_moves
    | apply Moves.foldl
    | split
    | (refine Moves.leaf ?_ hm)

theorem execThermalTrip_moves {fp : Nat} {s0 s : State} (h : Moves fp s0 s) (hm : Covers 0x7fbfcf7fdbffffffffe fp)  : Out.moves fp s0 (execThermalTrip s) := by
  unfold execThermalTrip
  try dsimp only
  with_reducible repeat' first
    | assumption
    | exact hm.mono (by decide)
    | apply Out.moves_next
    | apply State.powerDown_moves
    | apply State.emcyRaise_moves
    | split

theorem execTulipEntry_moves {fp : Nat} {s0 s : State} (h : Moves fp s0 s) (hm : Covers 0x800000000002000c4 fp)  : Out.moves fp s0 (execTulipEntry s) := by
  unfold execTulipEntry
  try dsimp only
  with_reducible repeat' first
    | assumption
    | exact hm.mono (by decide)
    | (intro _; try dsimp only)
    | apply Out.moves_next
    | apply State.ungateAll_moves
    | apply State.gateEngine_moves
    | apply State.toPower_moves
    | apply State.setHbm_moves
    | apply Moves.foldl
    | split


/-! ### Machine/HostRows.lean -/

theorem State.abandonMig_moves {fp : Nat} {s0 s : State} (h : Moves fp s0 s) (hm : Covers 0x440000000000 fp) (x1 : Nat) : Moves fp s0 (State.abandonMig s x1) := by
  unfold State.abandonMig
  try dsimp only
  with_reducible repeat' first
    | assumption
    | exact hm.mono (by decide)
    | (intro _; try dsimp only)
    | apply State.send_moves
    | apply State.dropMig_moves
    | split

theorem State.finishSilently_moves {fp : Nat} {s0 s : State} (h : Moves fp s0 s) (hm : Covers 0x400008e800000 fp) (x1 : Nat) : Moves fp s0 (State.finishSilently s x1) := by
  unfold State.finishSilently
  try dsimp only
  with_reducible repeat' first
    | assumption
    | exact hm.mono (by decide)
    | (intro _; try dsimp only)
    | apply State.stepThree_moves
    | apply State.logCommit_moves
    | apply State.modStream_moves
    | apply State.dropChunk_moves
    | apply OptMoves.some
    | apply OptMoves.none
    | (refine OptMoves.use ?_ (by assumption))
    | apply OptMoves.getD
    | split
    | (refine Moves.leaf ?_ hm)

theorem State.closeSilently_moves {fp : Nat} {s0 s : State} (h : Moves fp s0 s) (hm : Covers 0xa4cc0beea450ce fp) (x1 : Nat) : Moves fp s0 (State.closeSilently s x1) := by
  unfold State.closeSilently
  try dsimp only
  with_reducible repeat' first
    | assumption
    | exact hm.mono (by decide)
    | (intro _; try dsimp only)
    | apply State.finishSilently_moves
    | apply State.discardChunks_moves
    | apply State.abandonMig_moves
    | apply State.endSeqs_moves
    | apply State.modStream_moves
    | (refine Moves.leaf ?_ hm)

theorem State.dropWaiting_moves {fp : Nat} {s0 s : State} (h : Moves fp s0 s) (hm : Covers 0x120000000 fp) (x1 : Nat) : Moves fp s0 (State.dropWaiting s x1) := by
  unfold State.dropWaiting
  try dsimp only
  with_reducible repeat' first
    | assumption
    | exact hm.mono (by decide)
    | (intro _; try dsimp only)
    | apply State.setModel_moves
    | apply Moves.foldl
    | (refine Moves.leaf ?_ hm)

theorem State.resetPart_moves {fp : Nat} {s0 s : State} (h : Moves fp s0 s) (hm : Covers 0xa4cc3feea450de fp) (x1 : Nat) : Moves fp s0 (State.resetPart s x1) := by
  unfold State.resetPart
  try dsimp only
  with_reducible repeat' first
    | assumption
    | exact hm.mono (by decide)
    | (intro _; try dsimp only)
    | apply State.closeSilently_moves
    | apply State.cancelCmd_moves
    | apply State.dropWaiting_moves
    | (refine State.setFn_moves ?_ hm _ _)
    | apply Moves.foldl
    | (refine Moves.leaf ?_ hm)

theorem State.dropVfs_moves {fp : Nat} {s0 s : State} (h : Moves fp s0 s) (hm : Covers 0xa4ccbfeea450de fp) (x1 : Nat) : Moves fp s0 (State.dropVfs s x1) := by
  unfold State.dropVfs
  try dsimp only
  with_reducible repeat' first
    | assumption
    | exact hm.mono (by decide)
    | (intro _; try dsimp only)
    | apply State.resetPart_moves
    | (refine State.setFn_moves ?_ hm _ _)
    | apply Moves.foldl
    | (refine Moves.leaf ?_ hm)

theorem State.releaseVector_moves {fp : Nat} {s0 s : State} (h : Moves fp s0 s) (hm : Covers 0x2000000000 fp) (x1 : Nat) (x2 : Nat) : Moves fp s0 (State.releaseVector s x1 x2) := by
  unfold State.releaseVector
  try dsimp only
  with_reducible repeat' first
    | assumption
    | exact hm.mono (by decide)
    | (refine State.setFn_moves ?_ hm _ _)
    | split
    | (refine Moves.leaf ?_ hm)

theorem State.resetAllParts_moves {fp : Nat} {s0 s : State} (h : Moves fp s0 s) (hm : Covers 0xa4ccbfeea450de fp)  : Moves fp s0 (State.resetAllParts s) := by
  unfold State.resetAllParts
  try dsimp only
  with_reducible repeat' first
    | assumption
    | exact hm.mono (by decide)
    | (intro _; try dsimp only)
    | apply State.resetPart_moves
    | apply State.dropVfs_moves
    | apply Moves.foldl

theorem State.windowRead_moves {fp : Nat} {s0 s : State} (h : Moves fp s0 s) (hm : Covers 0xa4000000000000 fp) (row o n : Nat) : PairMoves fp s0 (s.windowRead row o n) := by
  unfold State.windowRead
  split
  · exact ⟨h⟩
  · split
    · have k := (State.countReads_moves h (hm.mono (by decide)) [row]).fst
      generalize s.countReads [row] = u at k ⊢
      refine ⟨?_⟩
      dsimp only
      split
      · exact k
      · exact State.logFault_moves (State.spUncorrected_moves k (hm.mono (by decide)) _ _) (hm.mono (by decide)) _
    · exact ⟨State.incObj_moves (State.setObj_moves h (hm.mono (by decide)) _ _ _) (hm.mono (by decide)) _ _⟩

theorem State.windowWrite_moves {fp : Nat} {s0 s : State} (h : Moves fp s0 s) (hm : Covers 0xa4000000000026 fp) (x1 : Nat) (x2 : Nat) (x3 : List Byte) : Moves fp s0 (State.windowWrite s x1 x2 x3) := by
  unfold State.windowWrite
  try dsimp only
  with_reducible repeat' first
    | assumption
    | exact hm.mono (by decide)
    | apply State.incObj_moves
    | apply State.narrowWrite_moves
    | split

theorem State.writeHead_moves {fp : Nat} {s0 s : State} (h : Moves fp s0 s) (hm : Covers 0x4400000000 fp) (x1 : Nat) (x2 : Nat) : Moves fp s0 (State.writeHead s x1 x2) := by
  unfold State.writeHead
  try dsimp only
  with_reducible repeat' first
    | assumption
    | exact hm.mono (by decide)
    | apply State.setSq_moves
    | apply State.hostWrite_moves
    | split
    | (refine Moves.leaf ?_ hm)

theorem State.writeMsix_moves {fp : Nat} {s0 s : State} (h : Moves fp s0 s) (hm : Covers 0x2000000000 fp) (x1 : Nat) (x2 : Nat) (x3 : Nat) : Moves fp s0 (State.writeMsix s x1 x2 x3) := by
  unfold State.writeMsix
  try dsimp only
  with_reducible repeat' first
    | assumption
    | exact hm.mono (by decide)
    | apply State.releaseVector_moves
    | (refine State.setFn_moves ?_ hm _ _)
    | split
    | (refine Moves.leaf ?_ hm)

theorem State.writeOqCtl_moves {fp : Nat} {s0 s : State} (h : Moves fp s0 s) (hm : Covers 0x2800000000 fp) (x1 : Nat) (x2 : Nat) (x3 : Nat) : Moves fp s0 (State.writeOqCtl s x1 x2 x3) := by
  unfold State.writeOqCtl
  try dsimp only
  with_reducible repeat' first
    | assumption
    | exact hm.mono (by decide)
    | apply State.ringError_moves
    | apply State.setOq_moves
    | split
    | (refine Moves.leaf ?_ hm)

theorem State.writeOqReg_moves {fp : Nat} {s0 s : State} (h : Moves fp s0 s) (hm : Covers 0x2800000000 fp) (x1 : Nat) (x2 : Nat) (x3 : Nat) (x4 : Nat) : Moves fp s0 (State.writeOqReg s x1 x2 x3 x4) := by
  unfold State.writeOqReg
  try dsimp only
  with_reducible repeat' first
    | assumption
    | exact hm.mono (by decide)
    | (intro _; try dsimp only)
    | apply State.writeOqCtl_moves
    | apply State.ringError_moves
    | apply State.setOq_moves
    | split
    | (refine Moves.leaf ?_ hm)

theorem State.writeSqCtl_moves {fp : Nat} {s0 s : State} (h : Moves fp s0 s) (hm : Covers 0x2400000000 fp) (x1 : Nat) (x2 : Nat) (x3 : Nat) : Moves fp s0 (State.writeSqCtl s x1 x2 x3) := by
  unfold State.writeSqCtl
  try dsimp only
  with_reducible repeat' first
    | assumption
    | exact hm.mono (by decide)
    | apply State.setSq_moves
    | apply State.ringError_moves
    | split
    | (refine Moves.leaf ?_ hm)

theorem State.writeSqReg_moves {fp : Nat} {s0 s : State} (h : Moves fp s0 s) (hm : Covers 0x2400000000 fp) (x1 : Nat) (x2 : Nat) (x3 : Nat) (x4 : Nat) : Moves fp s0 (State.writeSqReg s x1 x2 x3 x4) := by
  unfold State.writeSqReg
  try dsimp only
  with_reducible repeat' first
    | assumption
    | exact hm.mono (by decide)
    | (intro _; try dsimp only)
    | apply State.setSq_moves
    | apply State.ringError_moves
    | apply State.writeSqCtl_moves
    | split
    | (refine Moves.leaf ?_ hm)

theorem execBar4Access_moves {fp : Nat} {s0 s : State} (h : Moves fp s0 s) (hm : Covers 0xa4010000000026 fp) (x0 : Nat) (x1 : Bool) (x2 : Nat) (x3 : List Byte) : Out.moves fp s0 (execBar4Access x0 x1 x2 x3 s) := by
  unfold execBar4Access
  try dsimp only
  with_reducible repeat' first
    | assumption
    | exact hm.mono (by decide)
    | (intro _; try dsimp only)
    | apply Out.moves_next
    | apply State.windowRead_moves
    | apply State.windowWrite_moves
    | apply PairMoves.of
    | (refine PairMoves.use ?_ (by assumption))
    | apply PairMoves.snd
    | split
    | (refine Moves.leaf ?_ hm)

theorem execBusMasterEnableChange_moves {fp : Nat} {s0 s : State} (h : Moves fp s0 s) (hm : Covers 0x6400000000 fp) (p : Part) (on : Bool) (cfg : PcieConfig) :
    Out.moves fp s0 (execBusMasterEnableChange p on cfg s) := by
  have k := State.setFn_moves h (k := 0x2000000000) (hm.mono (by decide)) p.val { (s.fn p.val).configure cfg with bme := on }
  unfold execBusMasterEnableChange
  dsimp only
  generalize s.setFn p.val { (s.fn p.val).configure cfg with bme := on } = u at k ⊢
  split
  · exact Out.moves_next h
  · split
    · exact Out.moves_next (Moves.foldl _ (Moves.foldl _ k fun _ _ ht => State.releaseVector_moves ht (hm.mono (by decide)) _ _) fun _ _ ht =>
        State.writeHead_moves ht (hm.mono (by decide)) _ _)
    · exact Out.moves_next k

theorem execFlr_moves {fp : Nat} {s0 s : State} (h : Moves fp s0 s) (hm : Covers 0xa4cc3feea450de fp) (x0 : Sys2Proof.Part) : Out.moves fp s0 (execFlr x0 s) := by
  unfold execFlr
  try dsimp only
  with_reducible repeat' first
    | assumption
    | exact hm.mono (by decide)
    | apply Out.moves_next
    | apply State.resetPart_moves
    | split

theorem execFlrDone_moves {fp : Nat} {s0 s : State} (h : Moves fp s0 s) (hm : Covers 0x200c800000 fp) (x0 : Sys2Proof.Part) : Out.moves fp s0 (execFlrDone x0 s) := by
  unfold execFlrDone
  try dsimp only
  with_reducible repeat' first
    | assumption
    | exact hm.mono (by decide)
    | (intro _; try dsimp only)
    | apply Out.moves_next
    | apply State.freeStream_moves
    | (refine State.setFn_moves ?_ hm _ _)
    | apply Moves.foldl
    | split
    | (refine Moves.leaf ?_ hm)

theorem execHeadWbTimer_moves {fp : Nat} {s0 s : State} (h : Moves fp s0 s) (hm : Covers 0x4400000000 fp) (x0 : Sys2Proof.Part) (x1 : Sys2Proof.Ring) : Out.moves fp s0 (execHeadWbTimer x0 x1 s) := by
  unfold execHeadWbTimer
  try dsimp only
  with_reducible repeat' first
    | assumption
    | exact hm.mono (by decide)
    | apply Out.moves_next
    | apply State.writeHead_moves

theorem execHotReset_moves {fp : Nat} {s0 s : State} (h : Moves fp s0 s) (hm : Covers 0xa4ccbfeea450de fp) (cause : Nat) : Out.moves fp s0 (execHotReset cause s) := by
  have k := State.resetAllParts_moves h (hm.mono (by decide))
  unfold execHotReset
  dsimp only
  generalize s.resetAllParts = u at k ⊢
  have j := State.setFn_moves k (k := 0x2000000000) (hm.mono (by decide)) 0 { u.fn 0 with payload := 0, aspmL1 := false }
  generalize u.setFn 0 { u.fn 0 with payload := 0, aspmL1 := false } = v at j ⊢
  split
  · exact Out.moves_next k
  · apply Out.moves_next
    split
    · exact State.setDomain_moves (Moves.leaf j hm) (hm.mono (by decide)) _ _
    · exact Moves.leaf j hm

theorem execMsixUnmask_moves {fp : Nat} {s0 s : State} (h : Moves fp s0 s) (hm : Covers 0x2000000000 fp) (x0 : Sys2Proof.Part) (x1 : VectorNo) : Out.moves fp s0 (execMsixUnmask x0 x1 s) := by
  unfold execMsixUnmask
  try dsimp only
  with_reducible repeat' first
    | assumption
    | exact hm.mono (by decide)
    | apply Out.moves_next
    | apply State.releaseVector_moves
    | (refine State.setFn_moves ?_ hm _ _)
    | split
    | (refine Moves.leaf ?_ hm)

theorem execOqEnableWrite_moves {fp : Nat} {s0 s : State} (h : Moves fp s0 s) (hm : Covers 0x2800000000 fp) (x0 : Sys2Proof.Part) (x1 : Sys2Proof.Ring) (x2 : BitVec 32) : Out.moves fp s0 (execOqEnableWrite x0 x1 x2 s) := by
  unfold execOqEnableWrite
  try dsimp only
  with_reducible repeat' first
    | assumption
    | exact hm.mono (by decide)
    | apply Out.moves_next
    | apply State.writeOqCtl_moves
    | split

theorem execRingRegisterWrite_moves {fp : Nat} {s0 s : State} (h : Moves fp s0 s) (hm : Covers 0x2c00000000 fp) (x0 : Sys2Proof.Part) (x1 : BitVec 17) (x2 : BitVec 32) : Out.moves fp s0 (execRingRegisterWrite x0 x1 x2 s) := by
  unfold execRingRegisterWrite
  try dsimp only
  with_reducible repeat' first
    | assumption
    | exact hm.mono (by decide)
    | apply Out.moves_next
    | apply State.writeOqReg_moves
    | apply State.writeMsix_moves
    | apply State.writeSqReg_moves
    | (refine State.setFn_moves ?_ hm _ _)
    | split
    | (refine Moves.leaf ?_ hm)

theorem execSqDb_moves {fp : Nat} {s0 s : State} (h : Moves fp s0 s) (hm : Covers 0x80000002400000000 fp) (x0 : Sys2Proof.Part) (x1 : Sys2Proof.Ring) (x2 : BitVec 32) : Out.moves fp s0 (execSqDb x0 x1 x2 s) := by
  unfold execSqDb
  try dsimp only
  with_reducible repeat' first
    | assumption
    | exact hm.mono (by decide)
    | apply Out.moves_next
    | apply State.setSq_moves
    | apply State.ringError_moves
    | apply State.wakeTrigger_moves
    | split
    | (refine Moves.leaf ?_ hm)

theorem execSqEnableWrite_moves {fp : Nat} {s0 s : State} (h : Moves fp s0 s) (hm : Covers 0x2400000000 fp) (x0 : Sys2Proof.Part) (x1 : Sys2Proof.Ring) (x2 : BitVec 32) : Out.moves fp s0 (execSqEnableWrite x0 x1 x2 s) := by
  unfold execSqEnableWrite
  try dsimp only
  with_reducible repeat' first
    | assumption
    | exact hm.mono (by decide)
    | apply Out.moves_next
    | apply State.writeSqCtl_moves
    | split

theorem execVfEnableClear_moves {fp : Nat} {s0 s : State} (h : Moves fp s0 s) (hm : Covers 0xa4ccbfeea450de fp) (x0 : Nat) : Out.moves fp s0 (execVfEnableClear x0 s) := by
  unfold execVfEnableClear
  try dsimp only
  with_reducible repeat' first
    | assumption
    | exact hm.mono (by decide)
    | apply Out.moves_next
    | apply State.dropVfs_moves
    | split

theorem execVfEnableSet_moves {fp : Nat} {s0 s : State} (h : Moves fp s0 s) (hm : Covers 0xbc00000000 fp) (x0 : Nat) : Out.moves fp s0 (execVfEnableSet x0 s) := by
  unfold execVfEnableSet
  try dsimp only
  with_reducible repeat' first
    | assumption
    | exact hm.mono (by decide)
    | (intro _; try dsimp only)
    | apply Out.moves_next
    | (refine State.setFn_moves ?_ hm _ _)
    | apply Moves.foldl
    | split
    | (refine Moves.leaf ?_ hm)


/-! ### Machine/Boot.lean -/

theorem State.modBoot_moves {fp k : Nat} {s0 s : State} (h : Moves fp s0 s) (hm : Covers k fp) (f : Boot → Boot)
    (g : ∀ c : Boot, BootFrame k c (f c) := by
      intro c
      constructor <;> first | exact fun e => absurd e (by decide) | exact fun _ => rfl) : Moves fp s0 (s.modBoot f) :=
  ⟨h.pending, fun i => { h.inv i with },
    h.frame.trans (({ Footprint.refl k s with boot := g s.boot } : Footprint k s (s.modBoot f)).mono hm)⟩

theorem State.persist_moves {fp : Nat} {s0 s : State} (h : Moves fp s0 s) (hm : Covers 0xc000000000000 fp) (idx sub v : Nat) : Moves fp s0 (s.persist idx sub v) := by
  unfold State.persist
  dsimp only
  refine (State.setObj_moves h (hm.mono (by decide)) idx sub v).step hm fun i => { i with flash := ?_ }
  show Tbl.put (s.setObj idx sub v).ctl.flashA _ _ = Tbl.put (s.setObj idx sub v).ctl.flashB _ _
  rw [i.flash]

theorem State.canSend_moves {fp : Nat} {s0 s : State} (h : Moves fp s0 s) (hm : Covers 0x100000000000000 fp) (x1 : Nat) (x2 : List Nat) : Moves fp s0 (State.canSend s x1 x2) := by
  unfold State.canSend
  try dsimp only
  with_reducible repeat' first | assumption | exact hm.mono (by decide) | split | (refine Moves.leaf ?_ hm)

theorem State.sendHeartbeat_moves {fp : Nat} {s0 s : State} (h : Moves fp s0 s) (hm : Covers 0x100000000000000 fp) (x1 : Nat) : Moves fp s0 (State.sendHeartbeat s x1) := by
  unfold State.sendHeartbeat
  try dsimp only
  with_reducible repeat' first | assumption | exact hm.mono (by decide) | apply State.canSend_moves

theorem State.bootUp_moves {fp : Nat} {s0 s : State} (h : Moves fp s0 s) (hm : Covers 0x102034c000000000000 fp) (x1 : Nat) : Moves fp s0 (State.bootUp s x1) := by
  unfold State.bootUp
  try dsimp only
  with_reducible repeat' first
    | assumption
    | exact hm.mono (by decide)
    | (intro _; try dsimp only)
    | apply State.applyNode_moves
    | apply State.sendHeartbeat_moves
    | (refine State.modPw_moves ?_ hm _)
    | (refine State.modBoot_moves ?_ hm _)
    | apply State.persist_moves
    | split
    | (refine Moves.leaf ?_ hm)

theorem State.dropSquares_moves {fp : Nat} {s0 s : State} (h : Moves fp s0 s) (hm : Covers 0x84000000400000 fp) (x1 : List Nat) : Moves fp s0 (State.dropSquares s x1) := by
  unfold State.dropSquares
  try dsimp only
  with_reducible repeat' first
    | assumption
    | exact hm.mono (by decide)
    | (intro _; try dsimp only)
    | apply State.emcyRaise_moves
    | apply Moves.foldl
    | (refine Moves.leaf ?_ hm)

theorem State.endPointWalk_moves {fp : Nat} {s0 s : State} (h : Moves fp s0 s) (hm : Covers 0x4000000000000000000 fp) (x1 : Nat) : Moves fp s0 (State.endPointWalk s x1) := by
  unfold State.endPointWalk
  try dsimp only
  with_reducible repeat' first
    | assumption
    | exact hm.mono (by decide)
    | (intro _; try dsimp only)
    | (refine State.modBoot_moves ?_ hm _)
    | (refine Moves.leaf ?_ hm)

theorem State.enterStep_moves {fp : Nat} {s0 s : State} (h : Moves fp s0 s) (hm : Covers 0x1000000040000200000 fp) (x1 : Nat) : Moves fp s0 (State.enterStep s x1) := by
  unfold State.enterStep
  try dsimp only
  with_reducible repeat' first
    | assumption
    | exact hm.mono (by decide)
    | (intro _; try dsimp only)
    | apply State.setDomain_moves
    | apply State.setPort_moves
    | (refine State.modBoot_moves ?_ hm _)
    | apply Moves.foldl
    | split
    | (refine Moves.leaf ?_ hm)

theorem State.failStep_moves {fp : Nat} {s0 s : State} (h : Moves fp s0 s) (hm : Covers 0x7f9fcf7fdbffffffffe fp)  : Moves fp s0 (State.failStep s) := by
  unfold State.failStep
  try dsimp only
  with_reducible repeat' first
    | assumption
    | exact hm.mono (by decide)
    | (intro _; try dsimp only)
    | apply State.resetDie_moves
    | (refine State.modBoot_moves ?_ hm _)
    | apply State.emcyEvent_moves
    | split
    | (refine Moves.leaf ?_ hm)

theorem State.modCal_moves {fp : Nat} {s0 s : State} (h : Moves fp s0 s) (hm : Covers 0x4000000000000000000 fp) (x1 : Nat) (x2 : SquareCal → SquareCal) : Moves fp s0 (State.modCal s x1 x2) := by
  unfold State.modCal
  try dsimp only
  with_reducible repeat' first
    | assumption
    | exact hm.mono (by decide)
    | (intro _; try dsimp only)
    | (refine State.modBoot_moves ?_ hm _)
    | (refine Moves.leaf ?_ hm)

theorem State.setSquare_moves {fp : Nat} {s0 s : State} (h : Moves fp s0 s) (hm : Covers 0x400000 fp) (x1 : Nat) (x2 : Nat) : Moves fp s0 (State.setSquare s x1 x2) := by
  unfold State.setSquare
  try dsimp only
  with_reducible repeat' first | assumption | exact hm.mono (by decide) | (refine Moves.leaf ?_ hm)

theorem State.walkEmcy_moves {fp : Nat} {s0 s : State} (h : Moves fp s0 s) (hm : Covers 0x84000000000000 fp) (x1 : Nat) (x2 : Nat) : Moves fp s0 (State.walkEmcy s x1 x2) := by
  unfold State.walkEmcy
  try dsimp only
  with_reducible repeat' first | assumption | exact hm.mono (by decide) | apply State.emcyEvent_moves

theorem State.keepOut_moves {fp : Nat} {s0 s : State} (h : Moves fp s0 s) (hm : Covers 0x4000084000000400000 fp) (x1 : Nat) : Moves fp s0 (State.keepOut s x1) := by
  unfold State.keepOut
  try dsimp only
  with_reducible repeat' first
    | assumption
    | exact hm.mono (by decide)
    | (intro _; try dsimp only)
    | apply State.setSquare_moves
    | apply State.modCal_moves
    | apply State.walkEmcy_moves
    | apply State.emcyRaise_moves
    | split
    | (refine Moves.leaf ?_ hm)

theorem State.qualify_moves {fp : Nat} {s0 s : State} (h : Moves fp s0 s) (hm : Covers 0x4000000000000400000 fp) (x1 : Nat) (x2 : SqStage) : Moves fp s0 (State.qualify s x1 x2) := by
  unfold State.qualify
  try dsimp only
  with_reducible repeat' first
    | assumption
    | exact hm.mono (by decide)
    | (intro _; try dsimp only)
    | apply State.setSquare_moves
    | apply State.modCal_moves
    | (refine Moves.leaf ?_ hm)

theorem State.qualFail_moves {fp : Nat} {s0 s : State} (h : Moves fp s0 s) (hm : Covers 0x4000084000000400000 fp) (x1 : Nat) : Moves fp s0 (State.qualFail s x1) := by
  unfold State.qualFail
  try dsimp only
  with_reducible repeat' first
    | assumption
    | exact hm.mono (by decide)
    | (intro _; try dsimp only)
    | apply State.endPointWalk_moves
    | apply State.keepOut_moves
    | apply State.qualify_moves
    | apply State.incObj_moves
    | apply State.modCal_moves
    | apply State.walkEmcy_moves
    | split
    | (refine Moves.leaf ?_ hm)

theorem State.recordPoint_moves {fp : Nat} {s0 s : State} (h : Moves fp s0 s) (hm : Covers 0x4000000000000000000 fp) (x1 : Nat) : Moves fp s0 (State.recordPoint s x1) := by
  unfold State.recordPoint
  try dsimp only
  with_reducible repeat' first
    | assumption
    | exact hm.mono (by decide)
    | (intro _; try dsimp only)
    | apply State.modCal_moves
    | (refine State.modBoot_moves ?_ hm _)
    | (refine Moves.leaf ?_ hm)

theorem State.returnSquare_moves {fp : Nat} {s0 s : State} (h : Moves fp s0 s) (hm : Covers 0x4000084000000400000 fp) (x1 : Nat) : Moves fp s0 (State.returnSquare s x1) := by
  unfold State.returnSquare
  try dsimp only
  with_reducible repeat' first
    | assumption
    | exact hm.mono (by decide)
    | (intro _; try dsimp only)
    | apply State.setSquare_moves
    | apply State.emcyEnd_moves
    | apply State.modCal_moves
    | (refine Moves.leaf ?_ hm)

theorem State.walkDown_moves {fp : Nat} {s0 s : State} (h : Moves fp s0 s) (hm : Covers 0x4000084000000400000 fp) (x1 : Nat) : Moves fp s0 (State.walkDown s x1) := by
  unfold State.walkDown
  try dsimp only
  with_reducible repeat' first
    | assumption
    | exact hm.mono (by decide)
    | (intro _; try dsimp only)
    | apply State.endPointWalk_moves
    | apply State.returnSquare_moves
    | apply State.qualify_moves
    | apply State.modCal_moves
    | apply State.walkEmcy_moves
    | apply State.recordPoint_moves
    | split
    | (refine Moves.leaf ?_ hm)

theorem State.qualPass_moves {fp : Nat} {s0 s : State} (h : Moves fp s0 s) (hm : Covers 0x4000084000000400000 fp) (x1 : Nat) : Moves fp s0 (State.qualPass s x1) := by
  unfold State.qualPass
  try dsimp only
  with_reducible repeat' first
    | assumption
    | exact hm.mono (by decide)
    | apply State.endPointWalk_moves
    | apply State.returnSquare_moves
    | apply State.recordPoint_moves
    | apply State.walkDown_moves
    | split

theorem State.setPoints_moves {fp : Nat} {s0 s : State} (h : Moves fp s0 s) (hm : Covers 0x4800000000000000000 fp)  : Moves fp s0 (State.setPoints s) := by
  unfold State.setPoints
  try dsimp only
  with_reducible repeat' first
    | assumption
    | exact hm.mono (by decide)
    | (intro _; try dsimp only)
    | (refine State.modBoot_moves ?_ hm _)
    | split
    | (refine Moves.leaf ?_ hm)

theorem execPcieLinkUp_moves {fp : Nat} {s0 s : State} (h : Moves fp s0 s) (hm : Covers 0x8000200000 fp) (r : LinkRate) (w : LinkWidth) : Out.moves fp s0 (execPcieLinkUp r w s) := by
  unfold execPcieLinkUp
  try dsimp only
  with_reducible repeat' first
    | assumption
    | exact hm.mono (by decide)
    | apply Out.moves_next
    | apply State.setDomain_moves
    | split
    | (refine Moves.leaf ?_ hm)

theorem execPerstNRelease_moves {fp : Nat} {s0 s : State} (h : Moves fp s0 s) (hm : Covers 0x8000000000 fp)  : Out.moves fp s0 (execPerstNRelease s) := by
  unfold execPerstNRelease
  try dsimp only
  with_reducible repeat' first | assumption | exact hm.mono (by decide) | apply Out.moves_next | (refine Moves.leaf ?_ hm)

theorem execQualRetryTimer_moves {fp : Nat} {s0 s : State} (h : Moves fp s0 s) (hm : Covers 0x4000000000000400000 fp) (x0 : SquareNo) : Out.moves fp s0 (execQualRetryTimer x0 s) := by
  unfold execQualRetryTimer
  try dsimp only
  with_reducible repeat' first
    | assumption
    | exact hm.mono (by decide)
    | (intro _; try dsimp only)
    | apply Out.moves_next
    | apply State.qualify_moves
    | apply State.modCal_moves
    | apply State.recordPoint_moves
    | split
    | (refine Moves.leaf ?_ hm)

theorem execQualWindowExpiry_moves {fp : Nat} {s0 s : State} (h : Moves fp s0 s) (hm : Covers 0x4000000000000000000 fp) (x0 : SquareNo) : Out.moves fp s0 (execQualWindowExpiry x0 s) := by
  unfold execQualWindowExpiry
  try dsimp only
  with_reducible repeat' first
    | assumption
    | exact hm.mono (by decide)
    | (intro _; try dsimp only)
    | apply Out.moves_next
    | apply State.modCal_moves
    | split
    | (refine Moves.leaf ?_ hm)

theorem execQualificationDone_moves {fp : Nat} {s0 s : State} (h : Moves fp s0 s) (hm : Covers 0x4000084000000400000 fp) (x0 : SquareNo) : Out.moves fp s0 (execQualificationDone x0 s) := by
  unfold execQualificationDone
  try dsimp only
  with_reducible repeat' first
    | assumption
    | exact hm.mono (by decide)
    | apply Out.moves_next
    | apply State.qualPass_moves
    | apply State.qualFail_moves
    | split

theorem execStartupStepDone_moves {fp : Nat} {s0 s : State} (h : Moves fp s0 s) (hm : Covers 0x7fbfffffdbffffffffe fp) (x0 : StepResult) : Out.moves fp s0 (execStartupStepDone x0 s) := by
  unfold execStartupStepDone
  try dsimp only
  with_reducible repeat' first
    | assumption
    | exact hm.mono (by decide)
    | (intro _; try dsimp only)
    | apply Out.moves_next
    | apply State.dropSquares_moves
    | apply State.ungateAll_moves
    | apply State.failStep_moves
    | apply State.enterStep_moves
    | apply State.emcyEnd_moves
    | apply State.quarterOnNow_moves
    | (refine State.modPw_moves ?_ hm _)
    | apply State.bootUp_moves
    | apply State.setPoints_moves
    | (refine State.modBoot_moves ?_ hm _)
    | apply State.setHbm_moves
    | apply State.emcyRaise_moves
    | apply State.addObj_moves
    | apply Moves.foldl
    | split
    | (refine Moves.leaf ?_ hm)

theorem execStartupStepFail_moves {fp : Nat} {s0 s : State} (h : Moves fp s0 s) (hm : Covers 0x7f9fcf7fdbffffffffe fp)  : Out.moves fp s0 (execStartupStepFail s) := by
  unfold execStartupStepFail
  try dsimp only
  with_reducible repeat' first
    | assumption
    | exact hm.mono (by decide)
    | apply Out.moves_next
    | apply State.failStep_moves
    | split

theorem execTempGuardExpiry_moves {fp : Nat} {s0 s : State} (h : Moves fp s0 s) (hm : Covers 0x4000084000000400000 fp) (x0 : SquareNo) : Out.moves fp s0 (execTempGuardExpiry x0 s) := by
  unfold execTempGuardExpiry
  try dsimp only
  with_reducible repeat' first
    | assumption
    | exact hm.mono (by decide)
    | (intro _; try dsimp only)
    | apply Out.moves_next
    | apply State.qualify_moves
    | apply State.modCal_moves
    | apply State.walkEmcy_moves
    | apply State.recordPoint_moves
    | split
    | (refine Moves.leaf ?_ hm)

theorem execWalkAbandon_moves {fp : Nat} {s0 s : State} (h : Moves fp s0 s) (hm : Covers 0x4000084000000400000 fp)  : Out.moves fp s0 (execWalkAbandon s) := by
  unfold execWalkAbandon
  try dsimp only
  with_reducible repeat' first
    | assumption
    | exact hm.mono (by decide)
    | (intro _; try dsimp only)
    | apply Out.moves_next
    | apply State.endPointWalk_moves
    | apply State.qualify_moves
    | apply State.modCal_moves
    | apply State.qualFail_moves
    | split
    | (refine Moves.leaf ?_ hm)

theorem execWalkStart_moves {fp : Nat} {s0 s : State} (h : Moves fp s0 s) (hm : Covers 0x4000084000000400000 fp)  : Out.moves fp s0 (execWalkStart s) := by
  unfold execWalkStart
  try dsimp only
  with_reducible repeat' first
    | assumption
    | exact hm.mono (by decide)
    | (intro _; try dsimp only)
    | apply Out.moves_next
    | (refine State.modBoot_moves ?_ hm _)
    | apply State.walkDown_moves
    | split
    | (refine Moves.leaf ?_ hm)


/-! ### Machine/Cores.lean -/

theorem State.coreServes_moves {fp : Nat} {s0 s : State} (h : Moves fp s0 s) (hm : Covers 0x8084000000000000 fp) (x1 : Nat) : Moves fp s0 (State.coreServes s x1) := by
  unfold State.coreServes
  try dsimp only
  with_reducible repeat' first
    | assumption
    | exact hm.mono (by decide)
    | apply State.emcyEvent_moves
    | split
    | (refine Moves.leaf ?_ hm)

theorem State.rollForward_moves {fp : Nat} {s0 s : State} (h : Moves fp s0 s) (hm : Covers 0xa4cc0bfea450ce fp) (x1 : Nat) : Moves fp s0 (State.rollForward s x1) := by
  unfold State.rollForward
  try dsimp only
  with_reducible repeat' first
    | assumption
    | exact hm.mono (by decide)
    | apply State.carryCommit_moves
    | apply State.incObj_moves

theorem State.resetCore_moves {fp : Nat} {s0 s : State} (h : Moves fp s0 s) (hm : Covers 0x88a4cc0bfea454ce fp) (core : Nat) : Moves fp s0 (s.resetCore core) := by
  have k : ∀ u : List UsdoSession, u.length ≤ 4 → (if core = 0 then [] else u).length ≤ 4 := by
    intro u hu
    split
    · exact Nat.zero_le _
    · exact hu
  unfold State.resetCore
  dsimp only
  generalize hs : State.logFault _ _ = v
  have kv : Moves fp s0 v := by
    subst hs
    refine State.logFault_moves ?_ (hm.mono (by decide)) ..
    exact h.step hm fun i => { i with core := Mem.wf_clearRange i.core _ _, usdo := k _ i.usdo }
  clear hs
  repeat' first
    | (intro _; try dsimp only)
    | with_reducible assumption
    | with_reducible refine State.incObj_moves ?_ (hm.mono (by decide)) ..
    | with_reducible refine State.abortChunk_moves ?_ (hm.mono (by decide)) ..
    | with_reducible refine State.rollForward_moves ?_ (hm.mono (by decide)) ..
    | with_reducible apply Moves.foldl
    | split

theorem execCcWatchdog_moves {fp : Nat} {s0 s : State} (h : Moves fp s0 s) (hm : Covers 0x88a4cc0bfea454ce fp) (x0 : Core) : Out.moves fp s0 (execCcWatchdog x0 s) := by
  unfold execCcWatchdog
  try dsimp only
  with_reducible repeat' first
    | assumption
    | exact hm.mono (by decide)
    | apply Out.moves_next
    | apply State.resetCore_moves
    | split

theorem execCoreMemoryUncorrectable_moves {fp : Nat} {s0 s : State} (h : Moves fp s0 s) (hm : Covers 0x88a4cc0bfea454ce fp) (x0 : Core) : Out.moves fp s0 (execCoreMemoryUncorrectable x0 s) := by
  unfold execCoreMemoryUncorrectable
  try dsimp only
  with_reducible repeat' first
    | assumption
    | exact hm.mono (by decide)
    | apply Out.moves_next
    | apply State.resetCore_moves
    | split

end Sys2Proof.Machine
end

