-- ==== Sys2Proof/Laws/MovesControl.lean ====
section
/-! SUPPORT. The operations of the control plane keep the queue, the invariant and what lies outside their footprints: one lemma each. -/

set_option linter.unusedTactic false
set_option linter.unreachableTactic false

namespace Sys2Proof.Machine

-- One proof at a time: proofs elaborated side by side wait on shared realisations, one thread each, and run out of threads.
set_option Elab.async false

/-! ### Machine/Nmt.lean -/

theorem State.modCtl_moves {fp k : Nat} {s0 s : State} (h : Moves fp s0 s) (hm : Covers k fp) (f : Ctl → Ctl)
    (e : ∀ c : Ctl, CtlKeeps c (f c) := by exact fun c => ⟨rfl, id, id, rfl, rfl⟩)
    (g : ∀ c : Ctl, CtlFrame k c (f c) := by
      intro c
      constructor <;> first | exact fun e => absurd e (by decide) | exact fun _ => rfl) : Moves fp s0 (s.modCtl f) :=
  ⟨h.pending, fun i => { h.inv i with
      faultLog := (e s.ctl).faultLog ▸ (h.inv i).faultLog, emcy := (e s.ctl).emcy (h.inv i).emcy
      usdo := (e s.ctl).usdo (h.inv i).usdo
      flash := ((e s.ctl).flashA.trans (h.inv i).flash).trans (e s.ctl).flashB.symm },
    h.frame.trans (({ Footprint.refl k s with ctl := g s.ctl } : Footprint k s (s.modCtl f)).mono hm)⟩

theorem State.freeze_moves {fp : Nat} {s0 s : State} (h : Moves fp s0 s) (hm : Covers 0x40000000000000 fp) (x1 : Nmt) (x2 : Bool) : Moves fp s0 (State.freeze s x1 x2) := by
  unfold State.freeze
  try dsimp only
  with_reducible repeat' first
    | assumption
    | exact hm.mono (by decide)
    | (intro _; try dsimp only)
    | (refine State.modCtl_moves ?_ hm _)
    | (refine Moves.leaf ?_ hm)

theorem State.resetComm_moves {fp : Nat} {s0 s : State} (h : Moves fp s0 s) (hm : Covers 0xf04000000000000 fp) : Moves fp s0 s.resetComm := by
  unfold State.resetComm
  repeat' first
    | with_reducible exact h
    | exact State.modCtl_moves h hm _ fun _ => ⟨rfl, id, fun _ => Nat.zero_le _, rfl, rfl⟩
    | with_reducible refine State.bootUp_moves ?_ (hm.mono (by decide)) ..
    | with_reducible refine State.applyNode_moves ?_ (hm.mono (by decide)) ..
    | with_reducible refine State.sendHeartbeat_moves ?_ (hm.mono (by decide)) ..

theorem State.drainAll_moves {fp : Nat} {s0 s : State} (h : Moves fp s0 s) (hm : Covers 0xa4cc6bfcac50ce fp) (n : Nat) : Moves fp s0 (State.drainAll n s) := by
  induction n generalizing s with
  | zero => exact h
  | succ n ih =>
    unfold State.drainAll
    apply ih
    apply Moves.foldl _ h
    exact fun t x ht => State.drainRing_moves ht (hm.mono (by decide)) _ _

theorem State.resetNode_moves {fp : Nat} {s0 s : State} (h : Moves fp s0 s) (hm : Covers 0x7f9fcf7fdfffffffffe fp)  : Moves fp s0 (State.resetNode s) := by
  unfold State.resetNode
  try dsimp only
  with_reducible repeat' first
    | assumption
    | exact hm.mono (by decide)
    | (intro _; try dsimp only)
    | apply State.resetDie_moves
    | apply State.drainAll_moves
    | apply State.closeStream_moves
    | (refine State.modBoot_moves ?_ hm _)
    | apply Moves.foldl
    | (refine Moves.leaf ?_ hm)

theorem State.setNmt_moves {fp : Nat} {s0 s : State} (h : Moves fp s0 s) (hm : Covers 0x400000002000c4 fp) (x1 : Nmt) : Moves fp s0 (State.setNmt s x1) := by
  unfold State.setNmt
  try dsimp only
  with_reducible repeat' first
    | assumption
    | exact hm.mono (by decide)
    | (intro _; try dsimp only)
    | (refine State.modCtl_moves ?_ hm _)
    | apply State.ungateAll_moves
    | apply State.gateAll_moves
    | apply State.setHbm_moves
    | split
    | (refine Moves.leaf ?_ hm)

theorem State.actNmt_moves {fp : Nat} {s0 s : State} (h : Moves fp s0 s) (hm : Covers 0x7f9fff7fdfffffffffe fp) (x1 : NmtCmd) : Moves fp s0 (State.actNmt s x1) := by
  unfold State.actNmt
  try dsimp only
  with_reducible repeat' first
    | assumption
    | exact hm.mono (by decide)
    | apply State.resetNode_moves
    | apply State.freeze_moves
    | apply State.resetComm_moves
    | apply State.setNmt_moves
    | split

theorem State.runNmt_moves {fp : Nat} {s0 s : State} (h : Moves fp s0 s) (hm : Covers 0x7f9fff7fdfffffffffe fp) (l : List NmtCmd) : Moves fp s0 (State.runNmt l s) := by
  induction l generalizing s with
  | nil => exact State.modCtl_moves h hm _ fun _ => ⟨rfl, id, id, rfl, rfl⟩
  | cons k ks ih =>
    unfold State.runNmt
    dsimp only
    split
    · exact State.modCtl_moves (State.actNmt_moves h (hm.mono (by decide)) k) hm _ fun _ => ⟨rfl, id, id, rfl, rfl⟩
    · exact ih (State.actNmt_moves h (hm.mono (by decide)) k)

theorem State.takeNmt_moves {fp : Nat} {s0 s : State} (h : Moves fp s0 s) (hm : Covers 0x7f9fff7fdfffffffffe fp) (x1 : Nat) (x2 : NmtCmd) : Moves fp s0 (State.takeNmt s x1 x2) := by
  unfold State.takeNmt
  try dsimp only
  with_reducible repeat' first
    | assumption
    | exact hm.mono (by decide)
    | (intro _; try dsimp only)
    | (refine State.modCtl_moves ?_ hm _)
    | apply State.runNmt_moves
    | split
    | (refine Moves.leaf ?_ hm)

theorem execFreezeDone_moves {fp : Nat} {s0 s : State} (h : Moves fp s0 s) (hm : Covers 0x7f9fff7fdfffffffffe fp)  : Out.moves fp s0 (execFreezeDone s) := by
  unfold execFreezeDone
  try dsimp only
  with_reducible repeat' first
    | assumption
    | exact hm.mono (by decide)
    | apply Out.moves_next
    | apply State.resetNode_moves
    | apply State.setNmt_moves
    | apply State.runNmt_moves
    | split

theorem execNmtEnterPreop_moves {fp : Nat} {s0 s : State} (h : Moves fp s0 s) (hm : Covers 0x7f9fff7fdfffffffffe fp) (x0 : Byte) : Out.moves fp s0 (execNmtEnterPreop x0 s) := by
  unfold execNmtEnterPreop
  try dsimp only
  with_reducible repeat' first | assumption | exact hm.mono (by decide) | apply Out.moves_next | apply State.takeNmt_moves

theorem execNmtResetComm_moves {fp : Nat} {s0 s : State} (h : Moves fp s0 s) (hm : Covers 0x7f9fff7fdfffffffffe fp) (x0 : Byte) : Out.moves fp s0 (execNmtResetComm x0 s) := by
  unfold execNmtResetComm
  try dsimp only
  with_reducible repeat' first | assumption | exact hm.mono (by decide) | apply Out.moves_next | apply State.takeNmt_moves

theorem execNmtResetNode_moves {fp : Nat} {s0 s : State} (h : Moves fp s0 s) (hm : Covers 0x7f9fff7fdfffffffffe fp) (x0 : Byte) : Out.moves fp s0 (execNmtResetNode x0 s) := by
  unfold execNmtResetNode
  try dsimp only
  with_reducible repeat' first | assumption | exact hm.mono (by decide) | apply Out.moves_next | apply State.takeNmt_moves

theorem execNmtStart_moves {fp : Nat} {s0 s : State} (h : Moves fp s0 s) (hm : Covers 0x7f9fff7fdfffffffffe fp) (x0 : Byte) : Out.moves fp s0 (execNmtStart x0 s) := by
  unfold execNmtStart
  try dsimp only
  with_reducible repeat' first | assumption | exact hm.mono (by decide) | apply Out.moves_next | apply State.takeNmt_moves

theorem execNmtStop_moves {fp : Nat} {s0 s : State} (h : Moves fp s0 s) (hm : Covers 0x7f9fff7fdfffffffffe fp) (x0 : Byte) : Out.moves fp s0 (execNmtStop x0 s) := by
  unfold execNmtStop
  try dsimp only
  with_reducible repeat' first | assumption | exact hm.mono (by decide) | apply Out.moves_next | apply State.takeNmt_moves


/-! ### Machine/Dict.lean -/

theorem State.readSub_moves {fp : Nat} {s0 s : State} (h : Moves fp s0 s) (hm : Covers 0x10000000000000 fp) (port : PortClass) (idx sub len : Nat) :
    PairMoves fp s0 (s.readSub port idx sub len) := by
  unfold State.readSub
  dsimp only
  split
  all_goals
    apply PairMoves.of
    split
    · exact State.modCtl_moves h hm _ fun _ => ⟨rfl, id, id, rfl, rfl⟩
    · exact h

theorem State.readObject_moves {fp : Nat} {s0 s : State} (h : Moves fp s0 s) (hm : Covers 0x10000000000000 fp) (port : PortClass) (idx sub : Nat) :
    OptPair fp s0 (s.readObject port idx sub) := by
  have k : PairMoves fp s0 (match s.checkAccess port false idx sub with
      | .error e => ((e, []), s)
      | .ok r => s.readSub port idx sub r.len) := by
    split
    · exact ⟨h⟩
    · exact State.readSub_moves h (hm.mono (by decide)) _ _ _ _
  unfold State.readObject
  dsimp only
  split
  · exact OptPair.none
  · exact OptPair.some h
  · refine OptPair.ofPair ?_
    split
    · exact k
    · exact ⟨h⟩
  · exact OptPair.ofPair k

theorem State.setSel_moves {fp : Nat} {s0 s : State} (h : Moves fp s0 s) (hm : Covers 0x10000000000000 fp) (x1 : PortClass) (x2 : Nat) (x3 : Nat) (x4 : Nat) : Moves fp s0 (State.setSel s x1 x2 x3 x4) := by
  unfold State.setSel
  try dsimp only
  with_reducible repeat' first
    | assumption
    | exact hm.mono (by decide)
    | (intro _; try dsimp only)
    | (refine State.modCtl_moves ?_ hm _)
    | (refine Moves.leaf ?_ hm)


/-! ### Machine/DictWrite.lean -/

theorem State.answer_moves {fp : Nat} {s0 s : State} (h : Moves fp s0 s) (hm : Covers 0x10000000000000000 fp) (x1 : Nat) (x2 : Nat) (x3 : List Byte) : Moves fp s0 (State.answer s x1 x2 x3) := by
  unfold State.answer
  try dsimp only
  with_reducible repeat' first
    | assumption
    | exact hm.mono (by decide)
    | (intro _; try dsimp only)
    | (refine State.modCtl_moves ?_ hm _)
    | (refine Moves.leaf ?_ hm)

theorem State.clearAccount_moves {fp : Nat} {s0 s : State} (h : Moves fp s0 s) (hm : Covers 0x4000000000000 fp) (x1 : Nat) : Moves fp s0 (State.clearAccount s x1) := by
  unfold State.clearAccount
  try dsimp only
  with_reducible repeat' first
    | assumption
    | exact hm.mono (by decide)
    | (intro _; try dsimp only)
    | (refine Moves.leaf ?_ hm)

theorem State.clearCounters_moves {fp : Nat} {s0 s : State} (h : Moves fp s0 s) (hm : Covers 0x40004000000100000 fp)  : Moves fp s0 (State.clearCounters s) := by
  unfold State.clearCounters
  try dsimp only
  with_reducible repeat' first
    | assumption
    | exact hm.mono (by decide)
    | (intro _; try dsimp only)
    | (refine Moves.leaf ?_ hm)

theorem State.clearFlags_moves {fp : Nat} {s0 s : State} (h : Moves fp s0 s) (hm : Covers 0x4000000000000 fp) (x1 : Nat) (x2 : Nat) (x3 : Nat) : Moves fp s0 (State.clearFlags s x1 x2 x3) := by
  unfold State.clearFlags
  try dsimp only
  with_reducible repeat' first | assumption | exact hm.mono (by decide) | apply State.setObj_moves

theorem State.modSpare_moves {fp : Nat} {s0 s : State} (h : Moves fp s0 s) (hm : Covers 0x2000000000000000000 fp) (f : Bank → Bank) :
    Moves fp s0 (s.modSpare f) := by
  refine State.modBoot_moves h hm _ fun c => ?_
  split
  all_goals constructor <;> first | exact fun e => absurd e (by decide) | exact fun _ => rfl

theorem State.stageEnd_moves {fp : Nat} {s0 s : State} (h : Moves fp s0 s) (hm : Covers 0x2000000000000000000 fp) (x1 : List Byte) : PairMoves fp s0 (State.stageEnd s x1) := by
  unfold State.stageEnd
  try dsimp only
  with_reducible repeat' first
    | assumption
    | exact hm.mono (by decide)
    | (intro _; try dsimp only)
    | apply State.modSpare_moves
    | apply PairMoves.of
    | (refine PairMoves.use ?_ (by assumption))
    | apply PairMoves.snd
    | split
    | (refine Moves.leaf ?_ hm)

theorem State.writePortEnable_moves {fp : Nat} {s0 s : State} (h : Moves fp s0 s) (hm : Covers 0x40800a4bc0b2efd50ee fp) (x1 : Nat) (x2 : Bool) : Moves fp s0 (State.writePortEnable s x1 x2) := by
  unfold State.writePortEnable
  try dsimp only
  with_reducible repeat' first
    | assumption
    | exact hm.mono (by decide)
    | (intro _; try dsimp only)
    | apply State.setDomain_moves
    | apply State.setPort_moves
    | (refine State.modPw_moves ?_ hm _)
    | apply State.portOff_moves
    | apply State.portOn_moves
    | split
    | (refine Moves.leaf ?_ hm)

theorem State.writeTime_moves {fp : Nat} {s0 s : State} (h : Moves fp s0 s) (hm : Covers 0x48740024cc41800 fp) (v : Nat) : PairMoves fp s0 (s.writeTime v) := by
  unfold State.writeTime
  dsimp only
  split
  · exact ⟨h⟩
  · split
    · exact ⟨State.takeOffset_moves h (hm.mono (by decide)) _ _⟩
    · exact ⟨State.takeOffset_moves h (hm.mono (by decide)) _ _⟩

theorem State.writeSpecial_moves {fp : Nat} {s0 s : State} (h : Moves fp s0 s) (hm : Covers 0x64c44affc0b6efd58ee fp) (idx sub v : Nat) (data : List Byte) :
    OptPair fp s0 (s.writeSpecial idx sub v data) := by
  have k := State.setObj_moves h (hm.mono (by decide)) idx sub 0
  have k1 : Moves fp s0 ((s.setObj idx sub 0).modCtl fun c => { c with tapReset := true }) :=
    State.modCtl_moves k hm _ fun _ => ⟨rfl, id, id, rfl, rfl⟩
  have k2 : Moves fp s0 (if s.obj 0x2A00 2 = v then s else { s.setObj 0x2A00 2 v with pg := { s.pg with nodes := [] } }) := by
    split
    · exact h
    · exact Moves.leaf (State.setObj_moves h (hm.mono (by decide)) _ _ _) hm
  unfold State.writeSpecial
  refine iteInduction ?_ ?_ <;> intro _
  · exact OptPair.some (State.setObj_moves h (hm.mono (by decide)) _ _ _)
  refine iteInduction ?_ ?_ <;> intro _
  · exact OptPair.some (State.writeRequest_moves (State.modPw_moves h hm _) (hm.mono (by decide)) _)
  refine iteInduction ?_ ?_ <;> intro _
  · exact OptPair.some (State.clearFlags_moves h (hm.mono (by decide)) _ _ _)
  refine iteInduction ?_ ?_ <;> intro _
  · exact OptPair.ofPair (State.writeTime_moves h (hm.mono (by decide)) v)
  refine iteInduction ?_ ?_ <;> intro _
  · exact OptPair.some (State.elect_moves (State.modTm_moves h hm _) (hm.mono (by decide)))
  refine iteInduction ?_ ?_ <;> intro _
  · exact OptPair.some (State.fixBlocks_moves (State.setObj_moves h (hm.mono (by decide)) _ _ _) (hm.mono (by decide)) _)
  refine iteInduction ?_ ?_ <;> intro _
  · exact OptPair.some k2
  refine iteInduction ?_ ?_ <;> intro _
  · exact OptPair.some (State.clearAccount_moves h (hm.mono (by decide)) _)
  refine iteInduction ?_ ?_ <;> intro _
  · exact OptPair.some (State.clearCounters_moves h (hm.mono (by decide)))
  refine iteInduction ?_ ?_ <;> intro _
  · exact OptPair.some (State.writePortEnable_moves (State.persist_moves h (hm.mono (by decide)) _ _ _) (hm.mono (by decide)) _ _)
  refine iteInduction ?_ ?_ <;> intro _
  · exact OptPair.some (State.modBoot_moves h hm _)
  refine iteInduction ?_ ?_ <;> intro _
  · exact OptPair.ofPair (State.stageEnd_moves h (hm.mono (by decide)) data)
  refine iteInduction ?_ ?_ <;> intro _
  · exact OptPair.some k1
  · exact OptPair.none

theorem State.applyWrite_moves {fp : Nat} {s0 s : State} (h : Moves fp s0 s) (hm : Covers 0x64c44bffc0b6efd58ee fp) (port : PortClass) (idx sub v : Nat) (data : List Byte) :
    PairMoves fp s0 (s.applyWrite port idx sub v data) := by
  unfold State.applyWrite
  split
  · exact ⟨State.setSel_moves h (hm.mono (by decide)) _ _ _ _⟩
  · have k := State.writeSpecial_moves h (hm.mono (by decide)) idx sub v data
    cases q : s.writeSpecial idx sub v data with
    | some r => exact ⟨(k.pair q).snd⟩
    | none =>
      refine ⟨?_⟩
      show Moves fp s0 (if objPersists idx sub = true then s.persist idx sub v else s.setObj idx sub v)
      split
      · exact State.persist_moves h (hm.mono (by decide)) _ _ _
      · exact State.setObj_moves h (hm.mono (by decide)) _ _ _

theorem State.stageBegin_moves {fp : Nat} {s0 s : State} (h : Moves fp s0 s) (hm : Covers 0x2000000000000000000 fp)  : Moves fp s0 (State.stageBegin s) := by
  unfold State.stageBegin
  try dsimp only
  with_reducible repeat' first
    | assumption
    | exact hm.mono (by decide)
    | (intro _; try dsimp only)
    | apply State.modSpare_moves
    | (refine Moves.leaf ?_ hm)

theorem State.beginWrite_moves {fp : Nat} {s0 s : State} (h : Moves fp s0 s) (hm : Covers 0x2000000000000000000 fp) (x1 : PortClass) (x2 : Nat) (x3 : Nat) : OptPair fp s0 (State.beginWrite s x1 x2 x3) := by
  unfold State.beginWrite
  try dsimp only
  with_reducible repeat' first
    | assumption
    | exact hm.mono (by decide)
    | apply State.stageBegin_moves
    | apply OptPair.some
    | apply OptPair.none
    | (refine OptPair.use ?_ (by assumption))
    | apply OptPair.ofPair
    | split

theorem State.holdValue_moves {fp : Nat} {s0 s : State} (h : Moves fp s0 s) (hm : Covers 0x2000 fp) (x1 : Nat) (x2 : Nat) : Moves fp s0 (State.holdValue s x1 x2) := by
  unfold State.holdValue
  try dsimp only
  with_reducible repeat' first | assumption | exact hm.mono (by decide) | split | (refine Moves.leaf ?_ hm)

theorem State.writeChecked_moves {fp : Nat} {s0 s : State} (h : Moves fp s0 s) (hm : Covers 0x64c44bffc0b6efd78ee fp) (port : PortClass) (r : ObjRow) (idx sub : Nat) (data : List Byte) :
    PairMoves fp s0 (s.writeChecked port r idx sub data) := by
  unfold State.writeChecked
  dsimp only
  repeat' first
    | exact ⟨h⟩
    | exact State.applyWrite_moves (State.holdValue_moves h (hm.mono (by decide)) _ _) (hm.mono (by decide)) _ _ _ _ _
    | split

theorem State.writeServed_moves {fp : Nat} {s0 s : State} (h : Moves fp s0 s) (hm : Covers 0x64c44bffc0b6efd78ee fp) (port : PortClass) (idx sub : Nat) (data : List Byte) :
    PairMoves fp s0 (s.writeServed port idx sub data) := by
  unfold State.writeServed
  split
  · exact ⟨h⟩
  · exact State.writeChecked_moves h (hm.mono (by decide)) _ _ _ _ _

theorem State.writeObject_moves {fp : Nat} {s0 s : State} (h : Moves fp s0 s) (hm : Covers 0x64c44bffc0b6efd78ee fp) (port : PortClass) (idx sub : Nat) (data : List Byte) :
    OptPair fp s0 (s.writeObject port idx sub data) := by
  unfold State.writeObject
  split
  · exact OptPair.none
  · exact OptPair.some h
  · refine OptPair.ofPair ?_
    split
    · exact State.writeServed_moves h (hm.mono (by decide)) _ _ _ _
    · exact ⟨h⟩
  · exact OptPair.ofPair (State.writeServed_moves h (hm.mono (by decide)) _ _ _ _)

theorem State.portWrite_moves {fp : Nat} {s0 s : State} (h : Moves fp s0 s) (hm : Covers 0x64d44bffc0b6efd78ee fp) (x1 : PortClass) (x2 : Nat) (x3 : Nat) (x4 : List Byte) : Moves fp s0 (State.portWrite s x1 x2 x3 x4) := by
  unfold State.portWrite
  try dsimp only
  with_reducible repeat' first
    | assumption
    | exact hm.mono (by decide)
    | apply State.answer_moves
    | apply State.writeObject_moves
    | apply OptPair.some
    | apply OptPair.none
    | (refine OptPair.use ?_ (by assumption))
    | apply OptPair.ofPair
    | split

theorem execClear_moves {fp : Nat} {s0 s : State} (h : Moves fp s0 s) (hm : Covers 0x64d44bffc0b6efd78ee fp) (x0 : PortClass) (x1 : Sys2Proof.Part) (x2 : List Byte) : Out.moves fp s0 (execClear x0 x1 x2 s) := by
  unfold execClear
  try dsimp only
  with_reducible repeat' first
    | assumption
    | exact hm.mono (by decide)
    | apply Out.moves_next
    | apply State.portWrite_moves

theorem execCounterClear_moves {fp : Nat} {s0 s : State} (h : Moves fp s0 s) (hm : Covers 0x64d44bffc0b6efd78ee fp) (x0 : PortClass) (x1 : List Byte) : Out.moves fp s0 (execCounterClear x0 x1 s) := by
  unfold execCounterClear
  try dsimp only
  with_reducible repeat' first
    | assumption
    | exact hm.mono (by decide)
    | apply Out.moves_next
    | apply State.portWrite_moves

theorem execJtagEnableWrite_moves {fp : Nat} {s0 s : State} (h : Moves fp s0 s) (hm : Covers 0x64d44bffc0b6efd78ee fp) (x0 : PortClass) (x1 : List Byte) : Out.moves fp s0 (execJtagEnableWrite x0 x1 s) := by
  unfold execJtagEnableWrite
  try dsimp only
  with_reducible repeat' first
    | assumption
    | exact hm.mono (by decide)
    | apply Out.moves_next
    | apply State.portWrite_moves

theorem execObjectWrite_moves {fp : Nat} {s0 s : State} (h : Moves fp s0 s) (hm : Covers 0x64d44bffc0b6efd78ee fp) (x0 : PortClass) (x1 : BitVec 16) (x2 : Byte) (x3 : List Byte) : Out.moves fp s0 (execObjectWrite x0 x1 x2 x3 s) := by
  unfold execObjectWrite
  try dsimp only
  with_reducible repeat' first
    | assumption
    | exact hm.mono (by decide)
    | apply Out.moves_next
    | apply State.portWrite_moves

theorem execPortEnableWrite_moves {fp : Nat} {s0 s : State} (h : Moves fp s0 s) (hm : Covers 0x64d44bffc0b6efd78ee fp) (x0 : PortClass) (x1 : PortNo) (x2 : List Byte) : Out.moves fp s0 (execPortEnableWrite x0 x1 x2 s) := by
  unfold execPortEnableWrite
  try dsimp only
  with_reducible repeat' first
    | assumption
    | exact hm.mono (by decide)
    | apply Out.moves_next
    | apply State.portWrite_moves

theorem execPowerLimit_moves {fp : Nat} {s0 s : State} (h : Moves fp s0 s) (hm : Covers 0x64d44bffc0b6efd78ee fp) (x0 : PortClass) (x1 : List Byte) : Out.moves fp s0 (execPowerLimit x0 x1 s) := by
  unfold execPowerLimit
  try dsimp only
  with_reducible repeat' first
    | assumption
    | exact hm.mono (by decide)
    | apply Out.moves_next
    | apply State.portWrite_moves

theorem execResetPoints_moves {fp : Nat} {s0 s : State} (h : Moves fp s0 s) (hm : Covers 0x64d44bffc0b6efd78ee fp) (x0 : PortClass) (x1 : List Byte) : Out.moves fp s0 (execResetPoints x0 x1 s) := by
  unfold execResetPoints
  try dsimp only
  with_reducible repeat' first
    | assumption
    | exact hm.mono (by decide)
    | apply Out.moves_next
    | apply State.portWrite_moves

theorem execStageImage_moves {fp : Nat} {s0 s : State} (h : Moves fp s0 s) (hm : Covers 0x64d54bffc0b6efd78ee fp) (x0 : PortClass) (x1 : Bool) (x2 : Bool) (x3 : List Byte) : Out.moves fp s0 (execStageImage x0 x1 x2 x3 s) := by
  unfold execStageImage
  try dsimp only
  with_reducible repeat' first
    | assumption
    | exact hm.mono (by decide)
    | (intro _; try dsimp only)
    | apply Out.moves_next
    | apply State.answer_moves
    | (refine State.modCtl_moves ?_ hm _)
    | apply State.portWrite_moves
    | apply State.beginWrite_moves
    | apply OptPair.some
    | apply OptPair.none
    | (refine OptPair.use ?_ (by assumption))
    | apply OptPair.ofPair
    | split
    | (refine Moves.leaf ?_ hm)

theorem execStateRequest_moves {fp : Nat} {s0 s : State} (h : Moves fp s0 s) (hm : Covers 0x64d44bffc0b6efd78ee fp) (x0 : PortClass) (x1 : List Byte) : Out.moves fp s0 (execStateRequest x0 x1 s) := by
  unfold execStateRequest
  try dsimp only
  with_reducible repeat' first
    | assumption
    | exact hm.mono (by decide)
    | apply Out.moves_next
    | apply State.portWrite_moves

theorem execTimeNsWrite_moves {fp : Nat} {s0 s : State} (h : Moves fp s0 s) (hm : Covers 0x64d44bffc0b6efd78ee fp) (x0 : PortClass) (x1 : List Byte) : Out.moves fp s0 (execTimeNsWrite x0 x1 s) := by
  unfold execTimeNsWrite
  try dsimp only
  with_reducible repeat' first
    | assumption
    | exact hm.mono (by decide)
    | apply Out.moves_next
    | apply State.portWrite_moves

theorem execTrustRelease_moves {fp : Nat} {s0 s : State} (h : Moves fp s0 s) (hm : Covers 0x64d44bffc0b6efd78ee fp) (x0 : PortClass) (x1 : List Byte) : Out.moves fp s0 (execTrustRelease x0 x1 s) := by
  unfold execTrustRelease
  try dsimp only
  with_reducible repeat' first
    | assumption
    | exact hm.mono (by decide)
    | apply Out.moves_next
    | apply State.portWrite_moves


/-! ### Machine/Field.lean -/

theorem State.endSession_moves {fp : Nat} {s0 s : State} (h : Moves fp s0 s) (hm : Covers 0x800000000000000 fp) (client : Nat) : Moves fp s0 (s.endSession client) :=
  State.modCtl_moves h hm _ fun _ => ⟨rfl, id, fun i => Nat.le_trans (List.length_filter_le _ _) i, rfl, rfl⟩

theorem State.openSession_moves {fp : Nat} {s0 s : State} (h : Moves fp s0 s) (hm : Covers 0x800000000000000 fp) (x : UsdoSession) :
    Moves fp s0 (s.openSession x) := by
  refine State.modCtl_moves h hm _ (fun c => ?_) fun c => ?_
  · split
    · refine ⟨rfl, id, fun _ => ?_, rfl, rfl⟩
      simp only [List.length_append, List.length_singleton]
      omega
    · exact ⟨rfl, id, id, rfl, rfl⟩
  · split
    all_goals constructor <;> first | exact fun e => absurd e (by decide) | exact fun _ => rfl

theorem State.usdoAnswer_moves {fp : Nat} {s0 : State} (s : State) (hm : Covers 0x10000000000000000 fp) (client : Nat) (r : (Nat × List Byte) × State) (h : Moves fp s0 r.2) :
    Moves fp s0 (s.usdoAnswer client r) := State.answer_moves h (hm.mono (by decide)) _ _ _

theorem State.usdoOpen_moves {fp : Nat} {s0 s : State} (h : Moves fp s0 s) (hm : Covers 0x64d4cbffc0b6efd78ee fp) (client : Nat) (req : UsdoReq) : Moves fp s0 (s.usdoOpen client req) := by
  have k := State.endSession_moves h (hm.mono (by decide)) client
  unfold State.usdoOpen
  dsimp only
  generalize s.endSession client = u at k
  split
  · next i n =>
    cases q : u.readObject .field i.toNat n.toNat with
    | none => exact k
    | some r => exact State.usdoAnswer_moves u (hm.mono (by decide)) _ _ ((State.readObject_moves k (hm.mono (by decide)) _ _ _).pair q).snd
  · split
    · next q => exact State.answer_moves ((State.writeObject_moves k (hm.mono (by decide)) _ _ _ _).get _ _ q) (hm.mono (by decide)) _ _ _
    · exact k
  · split
    · next q =>
      have k2 := (State.beginWrite_moves k (hm.mono (by decide)) _ _ _).get _ _ q
      split
      · exact State.openSession_moves k2 (hm.mono (by decide)) _
      · exact State.answer_moves k2 (hm.mono (by decide)) _ _ _
    · exact k
  · exact k

theorem execBusOff_moves {fp : Nat} {s0 s : State} (h : Moves fp s0 s) (hm : Covers 0x4000000000000 fp)  : Out.moves fp s0 (execBusOff s) := by
  unfold execBusOff
  try dsimp only
  with_reducible repeat' first | assumption | exact hm.mono (by decide) | apply Out.moves_next | apply State.setObj_moves

theorem execBusOffRecovered_moves {fp : Nat} {s0 s : State} (h : Moves fp s0 s) (hm : Covers 0x84000000000000 fp)  : Out.moves fp s0 (execBusOffRecovered s) := by
  unfold execBusOffRecovered
  try dsimp only
  with_reducible repeat' first
    | assumption
    | exact hm.mono (by decide)
    | (intro _; try dsimp only)
    | apply Out.moves_next
    | apply State.setObj_moves
    | apply State.incObj_moves
    | apply State.emcyEnd_moves
    | apply State.emcyEvent_moves
    | split

theorem execCanErrorPassive_moves {fp : Nat} {s0 s : State} (h : Moves fp s0 s) (hm : Covers 0x84000000000000 fp) (x0 : Bool) (x1 : Byte) (x2 : Byte) : Out.moves fp s0 (execCanErrorPassive x0 x1 x2 s) := by
  unfold execCanErrorPassive
  try dsimp only
  with_reducible repeat' first
    | assumption
    | exact hm.mono (by decide)
    | (intro _; try dsimp only)
    | apply Out.moves_next
    | apply State.setObj_moves
    | apply State.emcyEnd_moves
    | apply State.emcyRaise_moves
    | split

theorem execCanFrameIgnored_moves {fp : Nat} {s0 s : State} (h : Moves fp s0 s) (hm : Covers 0x4000000000000 fp) (x0 : BitVec 29) : Out.moves fp s0 (execCanFrameIgnored x0 s) := by
  unfold execCanFrameIgnored
  try dsimp only
  with_reducible repeat' first
    | assumption
    | exact hm.mono (by decide)
    | apply Out.moves_next
    | apply State.incObj_moves
    | split

theorem execCanOverrun_moves {fp : Nat} {s0 s : State} (h : Moves fp s0 s) (hm : Covers 0x84000000000000 fp)  : Out.moves fp s0 (execCanOverrun s) := by
  unfold execCanOverrun
  try dsimp only
  with_reducible repeat' first
    | assumption
    | exact hm.mono (by decide)
    | apply Out.moves_next
    | apply State.incObj_moves
    | apply State.emcyEvent_moves

theorem execEmcySend_moves {fp : Nat} {s0 s : State} (h : Moves fp s0 s) (hm : Covers 0x580000000000000 fp) : Out.moves fp s0 (execEmcySend s) := by
  unfold execEmcySend
  dsimp only
  split
  · exact Out.moves_next h
  · next m ms q =>
    split
    · exact Out.moves_next h
    · apply Out.moves_next
      refine ⟨?_, ?_, ?_⟩
      · exact (State.canSend_moves h (hm.mono (by decide)) _ _).pending
      · intro i
        have k := (State.canSend_moves h (hm.mono (by decide)) (0x80 + s.ctl.nodeId) m.data).inv i
        have l := (h.inv i).emcy
        rw [q, List.length_cons] at l
        exact { k with emcy := Nat.le_trans (Nat.le_succ _) l }
      · refine (State.canSend_moves h (hm.mono (by decide)) (0x80 + s.ctl.nodeId) m.data).frame.trans ?_
        refine Footprint.mono ?_ hm
        refine { Footprint.refl _ _ with ctl := ?_ }
        constructor <;> first | exact fun e => absurd e (by decide) | exact fun _ => rfl

theorem execHeartbeat_moves {fp : Nat} {s0 s : State} (h : Moves fp s0 s) (hm : Covers 0x2084000000000000 fp) (x0 : Byte) (x1 : Byte) : Out.moves fp s0 (execHeartbeat x0 x1 s) := by
  unfold execHeartbeat
  try dsimp only
  with_reducible repeat' first
    | assumption
    | exact hm.mono (by decide)
    | (intro _; try dsimp only)
    | apply Out.moves_next
    | (refine State.modCtl_moves ?_ hm _)
    | apply State.incObj_moves
    | apply State.emcyEnd_moves
    | split
    | (refine Moves.leaf ?_ hm)

theorem execHeartbeatProduce_moves {fp : Nat} {s0 s : State} (h : Moves fp s0 s) (hm : Covers 0x100000000000000 fp)  : Out.moves fp s0 (execHeartbeatProduce s) := by
  unfold execHeartbeatProduce
  try dsimp only
  with_reducible repeat' first
    | assumption
    | exact hm.mono (by decide)
    | apply Out.moves_next
    | apply State.sendHeartbeat_moves
    | split

theorem execHeartbeatTimeout_moves {fp : Nat} {s0 s : State} (h : Moves fp s0 s) (hm : Covers 0x2084000000000000 fp)  : Out.moves fp s0 (execHeartbeatTimeout s) := by
  unfold execHeartbeatTimeout
  try dsimp only
  with_reducible repeat' first
    | assumption
    | exact hm.mono (by decide)
    | (intro _; try dsimp only)
    | apply Out.moves_next
    | (refine State.modCtl_moves ?_ hm _)
    | apply State.incObj_moves
    | apply State.emcyRaise_moves
    | split
    | (refine Moves.leaf ?_ hm)

theorem execRpdo1_moves {fp : Nat} {s0 s : State} (h : Moves fp s0 s) (hm : Covers 0x64c44bffc0b6efd78ee fp) (x0 : List Byte) : Out.moves fp s0 (execRpdo1 x0 s) := by
  unfold execRpdo1
  try dsimp only
  with_reducible repeat' first
    | assumption
    | exact hm.mono (by decide)
    | apply Out.moves_next
    | apply State.writeServed_moves
    | apply State.incObj_moves
    | apply State.emcyEvent_moves
    | apply PairMoves.of
    | (refine PairMoves.use ?_ (by assumption))
    | apply PairMoves.snd
    | split

theorem execTpdoSend_moves {fp : Nat} {s0 s : State} (h : Moves fp s0 s) (hm : Covers 0x500000000000000 fp) (x0 : TpdoNo) : Out.moves fp s0 (execTpdoSend x0 s) := by
  unfold execTpdoSend
  try dsimp only
  with_reducible repeat' first
    | assumption
    | exact hm.mono (by decide)
    | (intro _; try dsimp only)
    | apply Out.moves_next
    | (refine State.modCtl_moves ?_ hm _)
    | apply State.canSend_moves
    | split
    | (refine Moves.leaf ?_ hm)

theorem execUsdoRequest_moves {fp : Nat} {s0 s : State} (h : Moves fp s0 s) (hm : Covers 0x64d4cbffc0b6efd78ee fp) (client : Byte) (req : UsdoReq) :
    Out.moves fp s0 (execUsdoRequest client req s) := by
  have ke := State.endSession_moves h (hm.mono (by decide)) client.toNat
  unfold execUsdoRequest
  dsimp only
  split
  · exact Out.moves_next h
  · split
    · exact Out.moves_next ke
    · exact Out.moves_next (State.answer_moves ke (hm.mono (by decide)) _ _ _)
    · split
      · exact Out.moves_next (State.answer_moves h (hm.mono (by decide)) _ _ _)
      · split
        · split
          · next q => exact Out.moves_next (State.answer_moves ((State.writeObject_moves ke (hm.mono (by decide)) _ _ _ _).get _ _ q) (hm.mono (by decide)) _ _ _)
          · exact Out.moves_next h
        · apply Out.moves_next
          refine State.modCtl_moves h hm _ fun c => ⟨rfl, id, fun i => ?_, rfl, rfl⟩
          rw [List.length_map]
          exact i
    · split
      · exact Out.moves_next (State.usdoOpen_moves h (hm.mono (by decide)) _ _)
      · exact Out.moves_next (State.answer_moves h (hm.mono (by decide)) _ _ _)

theorem execUsdoTimeout_moves {fp : Nat} {s0 s : State} (h : Moves fp s0 s) (hm : Covers 0x10800000000000000 fp) (x0 : Byte) : Out.moves fp s0 (execUsdoTimeout x0 s) := by
  unfold execUsdoTimeout
  try dsimp only
  with_reducible repeat' first
    | assumption
    | exact hm.mono (by decide)
    | apply Out.moves_next
    | apply State.answer_moves
    | apply State.endSession_moves
    | split


/-! ### Machine/Access.lean -/

theorem State.modMbx_moves {fp : Nat} {s0 s : State} (h : Moves fp s0 s) (hm : Covers 0x1000000000 fp) (p : Nat) (f : Mailbox → Mailbox) :
    Moves fp s0 (s.modMbx p f) := State.setFn_moves h hm p _

theorem State.mailSegment_moves {fp : Nat} {s0 s : State} (h : Moves fp s0 s) (hm : Covers 0x64c44bffc1b6efd78ee fp) (p : Sys2Proof.Part) : PairMoves fp s0 (s.mailSegment p) := by
  have kb : ∀ (t : State) (i n : Nat), Moves fp s0 t → PairMoves fp s0 ((t.beginWrite (mailPort p) i n).getD (0, t)) := by
    intro t i n ht
    cases q : t.beginWrite (mailPort p) i n with
    | none => exact ⟨ht⟩
    | some r => exact (State.beginWrite_moves ht (hm.mono (by decide)) _ _ _).pair q
  unfold State.mailSegment
  dsimp only
  have k1 := State.modMbx_moves h (hm.mono (by decide)) p.val fun x => { x with xfer := none, xferAbort := 0 }
  have k2 := kb _ (s.fn p.val).mbx.index (s.fn p.val).mbx.sub k1
  generalize State.beginWrite _ _ _ _ = w at k2 ⊢
  generalize Option.getD w _ = r at k2 ⊢
  repeat' first
    | with_reducible exact h
    | with_reducible exact k2
    | with_reducible exact k2.snd
    | with_reducible refine State.writeServed_moves ?_ (hm.mono (by decide)) ..
    | with_reducible refine State.modMbx_moves ?_ (hm.mono (by decide)) ..
    | split
    | with_reducible apply PairMoves.of

theorem State.serveMail_moves {fp : Nat} {s0 s : State} (h : Moves fp s0 s) (hm : Covers 0x64c44bffc3b6efd78ee fp) (x1 : Sys2Proof.Part) : Moves fp s0 (State.serveMail s x1) := by
  unfold State.serveMail
  try dsimp only
  with_reducible repeat' first
    | assumption
    | exact hm.mono (by decide)
    | (intro _; try dsimp only)
    | apply State.mailSegment_moves
    | apply State.modMbx_moves
    | apply State.readObject_moves
    | apply State.sendMsix_moves
    | apply OptPair.some
    | apply OptPair.none
    | (refine OptPair.use ?_ (by assumption))
    | apply OptPair.ofPair
    | apply PairMoves.of
    | (refine PairMoves.use ?_ (by assumption))
    | apply PairMoves.snd
    | split
    | (refine Moves.leaf ?_ hm)

theorem execControlCoreRestarted_moves {fp : Nat} {s0 s : State} (h : Moves fp s0 s) (hm : Covers 0x64cc4bffc3b6efd78ee fp) (x0 : Core) : Out.moves fp s0 (execControlCoreRestarted x0 s) := by
  unfold execControlCoreRestarted
  try dsimp only
  with_reducible repeat' first
    | assumption
    | exact hm.mono (by decide)
    | (intro _; try dsimp only)
    | apply Out.moves_next
    | apply State.coreServes_moves
    | apply State.serveMail_moves
    | apply Moves.foldl
    | split

theorem execDebugAccess_moves {fp : Nat} {s0 s : State} (h : Moves fp s0 s) (hm : Covers 0x64d44bffc0b6efd78ee fp) (x0 : BitVec 16) (x1 : Byte) (x2 : Bool) (x3 : List Byte) : Out.moves fp s0 (execDebugAccess x0 x1 x2 x3 s) := by
  unfold execDebugAccess
  try dsimp only
  with_reducible repeat' first
    | assumption
    | exact hm.mono (by decide)
    | (intro _; try dsimp only)
    | apply Out.moves_next
    | apply State.answer_moves
    | (refine State.modCtl_moves ?_ hm _)
    | apply State.portWrite_moves
    | apply State.readObject_moves
    | apply OptPair.some
    | apply OptPair.none
    | (refine OptPair.use ?_ (by assumption))
    | apply OptPair.ofPair
    | split
    | (refine Moves.leaf ?_ hm)

theorem execGo_moves {fp : Nat} {s0 s : State} (h : Moves fp s0 s) (hm : Covers 0x64c44bffc3b6efd78ee fp) (x0 : Sys2Proof.Part) (x1 : MbxReq) : Out.moves fp s0 (execGo x0 x1 s) := by
  unfold execGo
  try dsimp only
  with_reducible repeat' first
    | assumption
    | exact hm.mono (by decide)
    | (intro _; try dsimp only)
    | apply Out.moves_next
    | apply State.modMbx_moves
    | apply State.serveMail_moves
    | split
    | (refine Moves.leaf ?_ hm)

theorem execMailboxTransferTimeout_moves {fp : Nat} {s0 s : State} (h : Moves fp s0 s) (hm : Covers 0x1000000000 fp) (x0 : Sys2Proof.Part) : Out.moves fp s0 (execMailboxTransferTimeout x0 s) := by
  unfold execMailboxTransferTimeout
  try dsimp only
  with_reducible repeat' first
    | assumption
    | exact hm.mono (by decide)
    | (intro _; try dsimp only)
    | apply Out.moves_next
    | apply State.modMbx_moves
    | split
    | (refine Moves.leaf ?_ hm)

theorem execPeerObjectRequest_moves {fp : Nat} {s0 s : State} (h : Moves fp s0 s) (hm : Covers 0x64c44bffc0b6efd78ee fp) (port : PortNo) :
    Out.moves fp s0 (execPeerObjectRequest port s) := by
  unfold execPeerObjectRequest
  split
  · exact Out.moves_next h
  · apply Out.moves_next
    refine State.onFrame_moves h (hm.mono (by decide)) _ _ _ fun f t ht => ?_
    dsimp only
    refine State.send_moves ?_ (hm.mono (by decide)) ..
    split
    · cases q : t.readObject (.peer (Fin.ofNat 8 (t.port port.val).peerDev)) (leAt f.payload 2 2) (leAt f.payload 4 1) with
      | none => exact ht
      | some r => exact ((State.readObject_moves ht (hm.mono (by decide)) _ _ _).pair q).snd
    · split
      · cases q : t.writeObject (.peer (Fin.ofNat 8 (t.port port.val).peerDev)) (leAt f.payload 2 2) (leAt f.payload 4 1)
            (slice f.payload 8 (leAt f.payload 5 1)) with
        | none => exact ht
        | some r => exact ((State.writeObject_moves ht (hm.mono (by decide)) _ _ _ _).pair q).snd
      · exact ht

theorem execPeerObjectResponse_moves {fp : Nat} {s0 s : State} (h : Moves fp s0 s) (hm : Covers 0x10000040000000000 fp) (x0 : PortNo) : Out.moves fp s0 (execPeerObjectResponse x0 s) := by
  unfold execPeerObjectResponse
  try dsimp only
  with_reducible repeat' first
    | assumption
    | exact hm.mono (by decide)
    | (intro _; try dsimp only)
    | apply Out.moves_next
    | apply State.answer_moves
    | apply State.setPort_moves
    | apply State.onFrame_moves
    | split
    | (refine Moves.leaf ?_ hm)

theorem execPeerRequestTimeout_moves {fp : Nat} {s0 s : State} (h : Moves fp s0 s) (hm : Covers 0x40000000000 fp) (x0 : PortNo) (x1 : Nat) : Out.moves fp s0 (execPeerRequestTimeout x0 x1 s) := by
  unfold execPeerRequestTimeout
  try dsimp only
  with_reducible repeat' first
    | assumption
    | exact hm.mono (by decide)
    | apply Out.moves_next
    | apply State.setPort_moves
    | split
    | (refine Moves.leaf ?_ hm)

theorem execProbeChange_moves {fp : Nat} {s0 s : State} (h : Moves fp s0 s) (hm : Covers 0x4000000000000000 fp) (x0 : Bool) : Out.moves fp s0 (execProbeChange x0 s) := by
  unfold execProbeChange
  try dsimp only
  with_reducible repeat' first
    | assumption
    | exact hm.mono (by decide)
    | (intro _; try dsimp only)
    | apply Out.moves_next
    | (refine State.modCtl_moves ?_ hm _)
    | split
    | (refine Moves.leaf ?_ hm)

end Sys2Proof.Machine
end

