-- ==== Sys2Proof/Laws/State.lean ====
section
/-! SUPPORT. What the basic updates of the state leave, component by component, and what reading after them gives. -/

namespace Sys2Proof.Machine

-- One proof at a time: proofs elaborated side by side wait on shared realisations, one thread each, and run out of threads.
set_option Elab.async false

variable (s : State)

/-! `setObj` -/

@[simp] theorem State.setObj_pending (i b v : Nat) : (s.setObj i b v).pending = s.pending := rfl
@[simp] theorem State.setObj_free (i b v : Nat) : (s.setObj i b v).free = s.free := rfl
@[simp] theorem State.setObj_st (i b v : Nat) : (s.setObj i b v).st = s.st := rfl
@[simp] theorem State.setObj_rb (i b v : Nat) : (s.setObj i b v).rb = s.rb := rfl
@[simp] theorem State.setObj_pg (i b v : Nat) : (s.setObj i b v).pg = s.pg := rfl
@[simp] theorem State.setObj_str (i b v : Nat) : (s.setObj i b v).str = s.str := rfl
@[simp] theorem State.setObj_host (i b v : Nat) : (s.setObj i b v).host = s.host := rfl
@[simp] theorem State.setObj_xr (i b v : Nat) : (s.setObj i b v).xr = s.xr := rfl
@[simp] theorem State.setObj_tm (i b v : Nat) : (s.setObj i b v).tm = s.tm := rfl
@[simp] theorem State.setObj_pw (i b v : Nat) : (s.setObj i b v).pw = s.pw := rfl
@[simp] theorem State.setObj_boot (i b v : Nat) : (s.setObj i b v).boot = s.boot := rfl

/-! `addEng` -/

@[simp] theorem State.addEng_pending (e b n : Nat) : (s.addEng e b n).pending = s.pending := rfl
@[simp] theorem State.addEng_free (e b n : Nat) : (s.addEng e b n).free = s.free := rfl
@[simp] theorem State.addEng_st (e b n : Nat) : (s.addEng e b n).st = s.st := rfl
@[simp] theorem State.addEng_pg (e b n : Nat) : (s.addEng e b n).pg = s.pg := rfl
@[simp] theorem State.addEng_str (e b n : Nat) : (s.addEng e b n).str = s.str := rfl
@[simp] theorem State.addEng_host (e b n : Nat) : (s.addEng e b n).host = s.host := rfl
@[simp] theorem State.addEng_xr (e b n : Nat) : (s.addEng e b n).xr = s.xr := rfl
@[simp] theorem State.addEng_tm (e b n : Nat) : (s.addEng e b n).tm = s.tm := rfl
@[simp] theorem State.addEng_ctl (e b n : Nat) : (s.addEng e b n).ctl = s.ctl := rfl
@[simp] theorem State.addEng_pw (e b n : Nat) : (s.addEng e b n).pw = s.pw := rfl
@[simp] theorem State.addEng_boot (e b n : Nat) : (s.addEng e b n).boot = s.boot := rfl

/-! `setDomain` -/

@[simp] theorem State.setDomain_pending (d v : Nat) : (s.setDomain d v).pending = s.pending := rfl
@[simp] theorem State.setDomain_free (d v : Nat) : (s.setDomain d v).free = s.free := rfl
@[simp] theorem State.setDomain_st (d v : Nat) : (s.setDomain d v).st = s.st := rfl
@[simp] theorem State.setDomain_pg (d v : Nat) : (s.setDomain d v).pg = s.pg := rfl
@[simp] theorem State.setDomain_str (d v : Nat) : (s.setDomain d v).str = s.str := rfl
@[simp] theorem State.setDomain_host (d v : Nat) : (s.setDomain d v).host = s.host := rfl
@[simp] theorem State.setDomain_xr (d v : Nat) : (s.setDomain d v).xr = s.xr := rfl
@[simp] theorem State.setDomain_tm (d v : Nat) : (s.setDomain d v).tm = s.tm := rfl
@[simp] theorem State.setDomain_ctl (d v : Nat) : (s.setDomain d v).ctl = s.ctl := rfl
@[simp] theorem State.setDomain_pw (d v : Nat) : (s.setDomain d v).pw = s.pw := rfl
@[simp] theorem State.setDomain_boot (d v : Nat) : (s.setDomain d v).boot = s.boot := rfl

/-! `putStream` -/

@[simp] theorem State.putStream_pending (sid : Nat) (x : Stream) : (s.putStream sid x).pending = s.pending := rfl
@[simp] theorem State.putStream_free (sid : Nat) (x : Stream) : (s.putStream sid x).free = s.free := rfl
@[simp] theorem State.putStream_st (sid : Nat) (x : Stream) : (s.putStream sid x).st = s.st := rfl
@[simp] theorem State.putStream_rb (sid : Nat) (x : Stream) : (s.putStream sid x).rb = s.rb := rfl
@[simp] theorem State.putStream_pg (sid : Nat) (x : Stream) : (s.putStream sid x).pg = s.pg := rfl
@[simp] theorem State.putStream_host (sid : Nat) (x : Stream) : (s.putStream sid x).host = s.host := rfl
@[simp] theorem State.putStream_xr (sid : Nat) (x : Stream) : (s.putStream sid x).xr = s.xr := rfl
@[simp] theorem State.putStream_tm (sid : Nat) (x : Stream) : (s.putStream sid x).tm = s.tm := rfl
@[simp] theorem State.putStream_ctl (sid : Nat) (x : Stream) : (s.putStream sid x).ctl = s.ctl := rfl
@[simp] theorem State.putStream_pw (sid : Nat) (x : Stream) : (s.putStream sid x).pw = s.pw := rfl
@[simp] theorem State.putStream_boot (sid : Nat) (x : Stream) : (s.putStream sid x).boot = s.boot := rfl

/-! `modStream` -/

@[simp] theorem State.modStream_pending (sid : Nat) (f : Stream → Stream) : (s.modStream sid f).pending = s.pending := rfl
@[simp] theorem State.modStream_free (sid : Nat) (f : Stream → Stream) : (s.modStream sid f).free = s.free := rfl
@[simp] theorem State.modStream_st (sid : Nat) (f : Stream → Stream) : (s.modStream sid f).st = s.st := rfl
@[simp] theorem State.modStream_rb (sid : Nat) (f : Stream → Stream) : (s.modStream sid f).rb = s.rb := rfl
@[simp] theorem State.modStream_pg (sid : Nat) (f : Stream → Stream) : (s.modStream sid f).pg = s.pg := rfl
@[simp] theorem State.modStream_host (sid : Nat) (f : Stream → Stream) : (s.modStream sid f).host = s.host := rfl
@[simp] theorem State.modStream_xr (sid : Nat) (f : Stream → Stream) : (s.modStream sid f).xr = s.xr := rfl
@[simp] theorem State.modStream_tm (sid : Nat) (f : Stream → Stream) : (s.modStream sid f).tm = s.tm := rfl
@[simp] theorem State.modStream_ctl (sid : Nat) (f : Stream → Stream) : (s.modStream sid f).ctl = s.ctl := rfl
@[simp] theorem State.modStream_pw (sid : Nat) (f : Stream → Stream) : (s.modStream sid f).pw = s.pw := rfl
@[simp] theorem State.modStream_boot (sid : Nat) (f : Stream → Stream) : (s.modStream sid f).boot = s.boot := rfl

/-! `modChunk` -/

@[simp] theorem State.modChunk_pending (sid no : Nat) (f : Chunk → Chunk) : (s.modChunk sid no f).pending = s.pending := rfl
@[simp] theorem State.modChunk_free (sid no : Nat) (f : Chunk → Chunk) : (s.modChunk sid no f).free = s.free := rfl
@[simp] theorem State.modChunk_st (sid no : Nat) (f : Chunk → Chunk) : (s.modChunk sid no f).st = s.st := rfl
@[simp] theorem State.modChunk_rb (sid no : Nat) (f : Chunk → Chunk) : (s.modChunk sid no f).rb = s.rb := rfl
@[simp] theorem State.modChunk_pg (sid no : Nat) (f : Chunk → Chunk) : (s.modChunk sid no f).pg = s.pg := rfl
@[simp] theorem State.modChunk_host (sid no : Nat) (f : Chunk → Chunk) : (s.modChunk sid no f).host = s.host := rfl
@[simp] theorem State.modChunk_xr (sid no : Nat) (f : Chunk → Chunk) : (s.modChunk sid no f).xr = s.xr := rfl
@[simp] theorem State.modChunk_tm (sid no : Nat) (f : Chunk → Chunk) : (s.modChunk sid no f).tm = s.tm := rfl
@[simp] theorem State.modChunk_ctl (sid no : Nat) (f : Chunk → Chunk) : (s.modChunk sid no f).ctl = s.ctl := rfl
@[simp] theorem State.modChunk_pw (sid no : Nat) (f : Chunk → Chunk) : (s.modChunk sid no f).pw = s.pw := rfl
@[simp] theorem State.modChunk_boot (sid no : Nat) (f : Chunk → Chunk) : (s.modChunk sid no f).boot = s.boot := rfl

/-! `dropChunk` -/

@[simp] theorem State.dropChunk_pending (sid no : Nat) : (s.dropChunk sid no).pending = s.pending := rfl
@[simp] theorem State.dropChunk_free (sid no : Nat) : (s.dropChunk sid no).free = s.free := rfl
@[simp] theorem State.dropChunk_st (sid no : Nat) : (s.dropChunk sid no).st = s.st := rfl
@[simp] theorem State.dropChunk_rb (sid no : Nat) : (s.dropChunk sid no).rb = s.rb := rfl
@[simp] theorem State.dropChunk_pg (sid no : Nat) : (s.dropChunk sid no).pg = s.pg := rfl
@[simp] theorem State.dropChunk_host (sid no : Nat) : (s.dropChunk sid no).host = s.host := rfl
@[simp] theorem State.dropChunk_xr (sid no : Nat) : (s.dropChunk sid no).xr = s.xr := rfl
@[simp] theorem State.dropChunk_tm (sid no : Nat) : (s.dropChunk sid no).tm = s.tm := rfl
@[simp] theorem State.dropChunk_ctl (sid no : Nat) : (s.dropChunk sid no).ctl = s.ctl := rfl
@[simp] theorem State.dropChunk_pw (sid no : Nat) : (s.dropChunk sid no).pw = s.pw := rfl
@[simp] theorem State.dropChunk_boot (sid no : Nat) : (s.dropChunk sid no).boot = s.boot := rfl

/-! `setModel` -/

@[simp] theorem State.setModel_pending (m : Nat) (x : ModelSlot) : (s.setModel m x).pending = s.pending := rfl
@[simp] theorem State.setModel_free (m : Nat) (x : ModelSlot) : (s.setModel m x).free = s.free := rfl
@[simp] theorem State.setModel_st (m : Nat) (x : ModelSlot) : (s.setModel m x).st = s.st := rfl
@[simp] theorem State.setModel_rb (m : Nat) (x : ModelSlot) : (s.setModel m x).rb = s.rb := rfl
@[simp] theorem State.setModel_pg (m : Nat) (x : ModelSlot) : (s.setModel m x).pg = s.pg := rfl
@[simp] theorem State.setModel_host (m : Nat) (x : ModelSlot) : (s.setModel m x).host = s.host := rfl
@[simp] theorem State.setModel_xr (m : Nat) (x : ModelSlot) : (s.setModel m x).xr = s.xr := rfl
@[simp] theorem State.setModel_tm (m : Nat) (x : ModelSlot) : (s.setModel m x).tm = s.tm := rfl
@[simp] theorem State.setModel_ctl (m : Nat) (x : ModelSlot) : (s.setModel m x).ctl = s.ctl := rfl
@[simp] theorem State.setModel_pw (m : Nat) (x : ModelSlot) : (s.setModel m x).pw = s.pw := rfl
@[simp] theorem State.setModel_boot (m : Nat) (x : ModelSlot) : (s.setModel m x).boot = s.boot := rfl

/-! `putBatch` -/

@[simp] theorem State.putBatch_pending (n : Nat) (b : Batch) : (s.putBatch n b).pending = s.pending := rfl
@[simp] theorem State.putBatch_free (n : Nat) (b : Batch) : (s.putBatch n b).free = s.free := rfl
@[simp] theorem State.putBatch_st (n : Nat) (b : Batch) : (s.putBatch n b).st = s.st := rfl
@[simp] theorem State.putBatch_rb (n : Nat) (b : Batch) : (s.putBatch n b).rb = s.rb := rfl
@[simp] theorem State.putBatch_pg (n : Nat) (b : Batch) : (s.putBatch n b).pg = s.pg := rfl
@[simp] theorem State.putBatch_host (n : Nat) (b : Batch) : (s.putBatch n b).host = s.host := rfl
@[simp] theorem State.putBatch_xr (n : Nat) (b : Batch) : (s.putBatch n b).xr = s.xr := rfl
@[simp] theorem State.putBatch_tm (n : Nat) (b : Batch) : (s.putBatch n b).tm = s.tm := rfl
@[simp] theorem State.putBatch_ctl (n : Nat) (b : Batch) : (s.putBatch n b).ctl = s.ctl := rfl
@[simp] theorem State.putBatch_pw (n : Nat) (b : Batch) : (s.putBatch n b).pw = s.pw := rfl
@[simp] theorem State.putBatch_boot (n : Nat) (b : Batch) : (s.putBatch n b).boot = s.boot := rfl

/-! `setFn` -/

@[simp] theorem State.setFn_pending (p : Nat) (f : Function) : (s.setFn p f).pending = s.pending := rfl
@[simp] theorem State.setFn_free (p : Nat) (f : Function) : (s.setFn p f).free = s.free := rfl
@[simp] theorem State.setFn_st (p : Nat) (f : Function) : (s.setFn p f).st = s.st := rfl
@[simp] theorem State.setFn_rb (p : Nat) (f : Function) : (s.setFn p f).rb = s.rb := rfl
@[simp] theorem State.setFn_pg (p : Nat) (f : Function) : (s.setFn p f).pg = s.pg := rfl
@[simp] theorem State.setFn_str (p : Nat) (f : Function) : (s.setFn p f).str = s.str := rfl
@[simp] theorem State.setFn_xr (p : Nat) (f : Function) : (s.setFn p f).xr = s.xr := rfl
@[simp] theorem State.setFn_tm (p : Nat) (f : Function) : (s.setFn p f).tm = s.tm := rfl
@[simp] theorem State.setFn_ctl (p : Nat) (f : Function) : (s.setFn p f).ctl = s.ctl := rfl
@[simp] theorem State.setFn_pw (p : Nat) (f : Function) : (s.setFn p f).pw = s.pw := rfl
@[simp] theorem State.setFn_boot (p : Nat) (f : Function) : (s.setFn p f).boot = s.boot := rfl

/-! `setSq` -/

@[simp] theorem State.setSq_pending (p r : Nat) (x : SubRing) : (s.setSq p r x).pending = s.pending := rfl
@[simp] theorem State.setSq_free (p r : Nat) (x : SubRing) : (s.setSq p r x).free = s.free := rfl
@[simp] theorem State.setSq_st (p r : Nat) (x : SubRing) : (s.setSq p r x).st = s.st := rfl
@[simp] theorem State.setSq_rb (p r : Nat) (x : SubRing) : (s.setSq p r x).rb = s.rb := rfl
@[simp] theorem State.setSq_pg (p r : Nat) (x : SubRing) : (s.setSq p r x).pg = s.pg := rfl
@[simp] theorem State.setSq_str (p r : Nat) (x : SubRing) : (s.setSq p r x).str = s.str := rfl
@[simp] theorem State.setSq_xr (p r : Nat) (x : SubRing) : (s.setSq p r x).xr = s.xr := rfl
@[simp] theorem State.setSq_tm (p r : Nat) (x : SubRing) : (s.setSq p r x).tm = s.tm := rfl
@[simp] theorem State.setSq_ctl (p r : Nat) (x : SubRing) : (s.setSq p r x).ctl = s.ctl := rfl
@[simp] theorem State.setSq_pw (p r : Nat) (x : SubRing) : (s.setSq p r x).pw = s.pw := rfl
@[simp] theorem State.setSq_boot (p r : Nat) (x : SubRing) : (s.setSq p r x).boot = s.boot := rfl

/-! `setOq` -/

@[simp] theorem State.setOq_pending (p r : Nat) (x : OutRing) : (s.setOq p r x).pending = s.pending := rfl
@[simp] theorem State.setOq_free (p r : Nat) (x : OutRing) : (s.setOq p r x).free = s.free := rfl
@[simp] theorem State.setOq_st (p r : Nat) (x : OutRing) : (s.setOq p r x).st = s.st := rfl
@[simp] theorem State.setOq_rb (p r : Nat) (x : OutRing) : (s.setOq p r x).rb = s.rb := rfl
@[simp] theorem State.setOq_pg (p r : Nat) (x : OutRing) : (s.setOq p r x).pg = s.pg := rfl
@[simp] theorem State.setOq_str (p r : Nat) (x : OutRing) : (s.setOq p r x).str = s.str := rfl
@[simp] theorem State.setOq_xr (p r : Nat) (x : OutRing) : (s.setOq p r x).xr = s.xr := rfl
@[simp] theorem State.setOq_tm (p r : Nat) (x : OutRing) : (s.setOq p r x).tm = s.tm := rfl
@[simp] theorem State.setOq_ctl (p r : Nat) (x : OutRing) : (s.setOq p r x).ctl = s.ctl := rfl
@[simp] theorem State.setOq_pw (p r : Nat) (x : OutRing) : (s.setOq p r x).pw = s.pw := rfl
@[simp] theorem State.setOq_boot (p r : Nat) (x : OutRing) : (s.setOq p r x).boot = s.boot := rfl

/-! `modMbx` -/

@[simp] theorem State.modMbx_pending (p : Nat) (f : Mailbox → Mailbox) : (s.modMbx p f).pending = s.pending := rfl
@[simp] theorem State.modMbx_free (p : Nat) (f : Mailbox → Mailbox) : (s.modMbx p f).free = s.free := rfl
@[simp] theorem State.modMbx_st (p : Nat) (f : Mailbox → Mailbox) : (s.modMbx p f).st = s.st := rfl
@[simp] theorem State.modMbx_rb (p : Nat) (f : Mailbox → Mailbox) : (s.modMbx p f).rb = s.rb := rfl
@[simp] theorem State.modMbx_pg (p : Nat) (f : Mailbox → Mailbox) : (s.modMbx p f).pg = s.pg := rfl
@[simp] theorem State.modMbx_str (p : Nat) (f : Mailbox → Mailbox) : (s.modMbx p f).str = s.str := rfl
@[simp] theorem State.modMbx_xr (p : Nat) (f : Mailbox → Mailbox) : (s.modMbx p f).xr = s.xr := rfl
@[simp] theorem State.modMbx_tm (p : Nat) (f : Mailbox → Mailbox) : (s.modMbx p f).tm = s.tm := rfl
@[simp] theorem State.modMbx_ctl (p : Nat) (f : Mailbox → Mailbox) : (s.modMbx p f).ctl = s.ctl := rfl
@[simp] theorem State.modMbx_pw (p : Nat) (f : Mailbox → Mailbox) : (s.modMbx p f).pw = s.pw := rfl
@[simp] theorem State.modMbx_boot (p : Nat) (f : Mailbox → Mailbox) : (s.modMbx p f).boot = s.boot := rfl

/-! `hostWrite` -/

@[simp] theorem State.hostWrite_pending (a : Nat) (l : List Byte) : (s.hostWrite a l).pending = s.pending := rfl
@[simp] theorem State.hostWrite_free (a : Nat) (l : List Byte) : (s.hostWrite a l).free = s.free := rfl
@[simp] theorem State.hostWrite_st (a : Nat) (l : List Byte) : (s.hostWrite a l).st = s.st := rfl
@[simp] theorem State.hostWrite_rb (a : Nat) (l : List Byte) : (s.hostWrite a l).rb = s.rb := rfl
@[simp] theorem State.hostWrite_pg (a : Nat) (l : List Byte) : (s.hostWrite a l).pg = s.pg := rfl
@[simp] theorem State.hostWrite_str (a : Nat) (l : List Byte) : (s.hostWrite a l).str = s.str := rfl
@[simp] theorem State.hostWrite_xr (a : Nat) (l : List Byte) : (s.hostWrite a l).xr = s.xr := rfl
@[simp] theorem State.hostWrite_tm (a : Nat) (l : List Byte) : (s.hostWrite a l).tm = s.tm := rfl
@[simp] theorem State.hostWrite_ctl (a : Nat) (l : List Byte) : (s.hostWrite a l).ctl = s.ctl := rfl
@[simp] theorem State.hostWrite_pw (a : Nat) (l : List Byte) : (s.hostWrite a l).pw = s.pw := rfl
@[simp] theorem State.hostWrite_boot (a : Nat) (l : List Byte) : (s.hostWrite a l).boot = s.boot := rfl

/-! `setTag` -/

@[simp] theorem State.setTag_pending (n : Nat) (t : Tag) : (s.setTag n t).pending = s.pending := rfl
@[simp] theorem State.setTag_free (n : Nat) (t : Tag) : (s.setTag n t).free = s.free := rfl
@[simp] theorem State.setTag_rb (n : Nat) (t : Tag) : (s.setTag n t).rb = s.rb := rfl
@[simp] theorem State.setTag_pg (n : Nat) (t : Tag) : (s.setTag n t).pg = s.pg := rfl
@[simp] theorem State.setTag_str (n : Nat) (t : Tag) : (s.setTag n t).str = s.str := rfl
@[simp] theorem State.setTag_host (n : Nat) (t : Tag) : (s.setTag n t).host = s.host := rfl
@[simp] theorem State.setTag_xr (n : Nat) (t : Tag) : (s.setTag n t).xr = s.xr := rfl
@[simp] theorem State.setTag_tm (n : Nat) (t : Tag) : (s.setTag n t).tm = s.tm := rfl
@[simp] theorem State.setTag_ctl (n : Nat) (t : Tag) : (s.setTag n t).ctl = s.ctl := rfl
@[simp] theorem State.setTag_pw (n : Nat) (t : Tag) : (s.setTag n t).pw = s.pw := rfl
@[simp] theorem State.setTag_boot (n : Nat) (t : Tag) : (s.setTag n t).boot = s.boot := rfl

/-! `setTileTag` -/

@[simp] theorem State.setTileTag_pending (n : Nat) (t : Tag) : (s.setTileTag n t).pending = s.pending := rfl
@[simp] theorem State.setTileTag_free (n : Nat) (t : Tag) : (s.setTileTag n t).free = s.free := rfl
@[simp] theorem State.setTileTag_rb (n : Nat) (t : Tag) : (s.setTileTag n t).rb = s.rb := rfl
@[simp] theorem State.setTileTag_pg (n : Nat) (t : Tag) : (s.setTileTag n t).pg = s.pg := rfl
@[simp] theorem State.setTileTag_str (n : Nat) (t : Tag) : (s.setTileTag n t).str = s.str := rfl
@[simp] theorem State.setTileTag_host (n : Nat) (t : Tag) : (s.setTileTag n t).host = s.host := rfl
@[simp] theorem State.setTileTag_xr (n : Nat) (t : Tag) : (s.setTileTag n t).xr = s.xr := rfl
@[simp] theorem State.setTileTag_tm (n : Nat) (t : Tag) : (s.setTileTag n t).tm = s.tm := rfl
@[simp] theorem State.setTileTag_ctl (n : Nat) (t : Tag) : (s.setTileTag n t).ctl = s.ctl := rfl
@[simp] theorem State.setTileTag_pw (n : Nat) (t : Tag) : (s.setTileTag n t).pw = s.pw := rfl
@[simp] theorem State.setTileTag_boot (n : Nat) (t : Tag) : (s.setTileTag n t).boot = s.boot := rfl

/-! `setGather` -/

@[simp] theorem State.setGather_pending (g : Nat) (l : List GatherBuf) : (s.setGather g l).pending = s.pending := rfl
@[simp] theorem State.setGather_free (g : Nat) (l : List GatherBuf) : (s.setGather g l).free = s.free := rfl
@[simp] theorem State.setGather_rb (g : Nat) (l : List GatherBuf) : (s.setGather g l).rb = s.rb := rfl
@[simp] theorem State.setGather_pg (g : Nat) (l : List GatherBuf) : (s.setGather g l).pg = s.pg := rfl
@[simp] theorem State.setGather_str (g : Nat) (l : List GatherBuf) : (s.setGather g l).str = s.str := rfl
@[simp] theorem State.setGather_host (g : Nat) (l : List GatherBuf) : (s.setGather g l).host = s.host := rfl
@[simp] theorem State.setGather_xr (g : Nat) (l : List GatherBuf) : (s.setGather g l).xr = s.xr := rfl
@[simp] theorem State.setGather_tm (g : Nat) (l : List GatherBuf) : (s.setGather g l).tm = s.tm := rfl
@[simp] theorem State.setGather_ctl (g : Nat) (l : List GatherBuf) : (s.setGather g l).ctl = s.ctl := rfl
@[simp] theorem State.setGather_pw (g : Nat) (l : List GatherBuf) : (s.setGather g l).pw = s.pw := rfl
@[simp] theorem State.setGather_boot (g : Nat) (l : List GatherBuf) : (s.setGather g l).boot = s.boot := rfl

/-! `writeRow` -/

@[simp] theorem State.writeRow_pending (r : Nat) (l : List Byte) : (s.writeRow r l).pending = s.pending := rfl
@[simp] theorem State.writeRow_free (r : Nat) (l : List Byte) : (s.writeRow r l).free = s.free := rfl
@[simp] theorem State.writeRow_rb (r : Nat) (l : List Byte) : (s.writeRow r l).rb = s.rb := rfl
@[simp] theorem State.writeRow_pg (r : Nat) (l : List Byte) : (s.writeRow r l).pg = s.pg := rfl
@[simp] theorem State.writeRow_str (r : Nat) (l : List Byte) : (s.writeRow r l).str = s.str := rfl
@[simp] theorem State.writeRow_host (r : Nat) (l : List Byte) : (s.writeRow r l).host = s.host := rfl
@[simp] theorem State.writeRow_xr (r : Nat) (l : List Byte) : (s.writeRow r l).xr = s.xr := rfl
@[simp] theorem State.writeRow_tm (r : Nat) (l : List Byte) : (s.writeRow r l).tm = s.tm := rfl
@[simp] theorem State.writeRow_ctl (r : Nat) (l : List Byte) : (s.writeRow r l).ctl = s.ctl := rfl
@[simp] theorem State.writeRow_pw (r : Nat) (l : List Byte) : (s.writeRow r l).pw = s.pw := rfl
@[simp] theorem State.writeRow_boot (r : Nat) (l : List Byte) : (s.writeRow r l).boot = s.boot := rfl

/-! `writeHbm` -/

@[simp] theorem State.writeHbm_pending (a : Nat) (l : List Byte) : (s.writeHbm a l).pending = s.pending := rfl
@[simp] theorem State.writeHbm_free (a : Nat) (l : List Byte) : (s.writeHbm a l).free = s.free := rfl
@[simp] theorem State.writeHbm_rb (a : Nat) (l : List Byte) : (s.writeHbm a l).rb = s.rb := rfl
@[simp] theorem State.writeHbm_pg (a : Nat) (l : List Byte) : (s.writeHbm a l).pg = s.pg := rfl
@[simp] theorem State.writeHbm_str (a : Nat) (l : List Byte) : (s.writeHbm a l).str = s.str := rfl
@[simp] theorem State.writeHbm_host (a : Nat) (l : List Byte) : (s.writeHbm a l).host = s.host := rfl
@[simp] theorem State.writeHbm_xr (a : Nat) (l : List Byte) : (s.writeHbm a l).xr = s.xr := rfl
@[simp] theorem State.writeHbm_tm (a : Nat) (l : List Byte) : (s.writeHbm a l).tm = s.tm := rfl
@[simp] theorem State.writeHbm_ctl (a : Nat) (l : List Byte) : (s.writeHbm a l).ctl = s.ctl := rfl
@[simp] theorem State.writeHbm_pw (a : Nat) (l : List Byte) : (s.writeHbm a l).pw = s.pw := rfl
@[simp] theorem State.writeHbm_boot (a : Nat) (l : List Byte) : (s.writeHbm a l).boot = s.boot := rfl

/-! `putCmd` -/

@[simp] theorem State.putCmd_pending (c : Cmd) : (s.putCmd c).pending = s.pending := rfl
@[simp] theorem State.putCmd_free (c : Cmd) : (s.putCmd c).free = s.free := rfl
@[simp] theorem State.putCmd_st (c : Cmd) : (s.putCmd c).st = s.st := rfl
@[simp] theorem State.putCmd_pg (c : Cmd) : (s.putCmd c).pg = s.pg := rfl
@[simp] theorem State.putCmd_str (c : Cmd) : (s.putCmd c).str = s.str := rfl
@[simp] theorem State.putCmd_host (c : Cmd) : (s.putCmd c).host = s.host := rfl
@[simp] theorem State.putCmd_xr (c : Cmd) : (s.putCmd c).xr = s.xr := rfl
@[simp] theorem State.putCmd_tm (c : Cmd) : (s.putCmd c).tm = s.tm := rfl
@[simp] theorem State.putCmd_ctl (c : Cmd) : (s.putCmd c).ctl = s.ctl := rfl
@[simp] theorem State.putCmd_pw (c : Cmd) : (s.putCmd c).pw = s.pw := rfl
@[simp] theorem State.putCmd_boot (c : Cmd) : (s.putCmd c).boot = s.boot := rfl

/-! `dropCmd` -/

@[simp] theorem State.dropCmd_pending (c : Cmd) : (s.dropCmd c).pending = s.pending := rfl
@[simp] theorem State.dropCmd_free (c : Cmd) : (s.dropCmd c).free = s.free := rfl
@[simp] theorem State.dropCmd_st (c : Cmd) : (s.dropCmd c).st = s.st := rfl
@[simp] theorem State.dropCmd_pg (c : Cmd) : (s.dropCmd c).pg = s.pg := rfl
@[simp] theorem State.dropCmd_str (c : Cmd) : (s.dropCmd c).str = s.str := rfl
@[simp] theorem State.dropCmd_host (c : Cmd) : (s.dropCmd c).host = s.host := rfl
@[simp] theorem State.dropCmd_xr (c : Cmd) : (s.dropCmd c).xr = s.xr := rfl
@[simp] theorem State.dropCmd_tm (c : Cmd) : (s.dropCmd c).tm = s.tm := rfl
@[simp] theorem State.dropCmd_ctl (c : Cmd) : (s.dropCmd c).ctl = s.ctl := rfl
@[simp] theorem State.dropCmd_pw (c : Cmd) : (s.dropCmd c).pw = s.pw := rfl
@[simp] theorem State.dropCmd_boot (c : Cmd) : (s.dropCmd c).boot = s.boot := rfl

/-! `setReport` -/

@[simp] theorem State.setReport_pending (n : Nat) (r : PortReport) : (s.setReport n r).pending = s.pending := rfl
@[simp] theorem State.setReport_free (n : Nat) (r : PortReport) : (s.setReport n r).free = s.free := rfl
@[simp] theorem State.setReport_st (n : Nat) (r : PortReport) : (s.setReport n r).st = s.st := rfl
@[simp] theorem State.setReport_pg (n : Nat) (r : PortReport) : (s.setReport n r).pg = s.pg := rfl
@[simp] theorem State.setReport_str (n : Nat) (r : PortReport) : (s.setReport n r).str = s.str := rfl
@[simp] theorem State.setReport_host (n : Nat) (r : PortReport) : (s.setReport n r).host = s.host := rfl
@[simp] theorem State.setReport_xr (n : Nat) (r : PortReport) : (s.setReport n r).xr = s.xr := rfl
@[simp] theorem State.setReport_tm (n : Nat) (r : PortReport) : (s.setReport n r).tm = s.tm := rfl
@[simp] theorem State.setReport_ctl (n : Nat) (r : PortReport) : (s.setReport n r).ctl = s.ctl := rfl
@[simp] theorem State.setReport_pw (n : Nat) (r : PortReport) : (s.setReport n r).pw = s.pw := rfl
@[simp] theorem State.setReport_boot (n : Nat) (r : PortReport) : (s.setReport n r).boot = s.boot := rfl

/-! `setSquare` -/

@[simp] theorem State.setSquare_pending (q v : Nat) : (s.setSquare q v).pending = s.pending := rfl
@[simp] theorem State.setSquare_free (q v : Nat) : (s.setSquare q v).free = s.free := rfl
@[simp] theorem State.setSquare_st (q v : Nat) : (s.setSquare q v).st = s.st := rfl
@[simp] theorem State.setSquare_pg (q v : Nat) : (s.setSquare q v).pg = s.pg := rfl
@[simp] theorem State.setSquare_str (q v : Nat) : (s.setSquare q v).str = s.str := rfl
@[simp] theorem State.setSquare_host (q v : Nat) : (s.setSquare q v).host = s.host := rfl
@[simp] theorem State.setSquare_xr (q v : Nat) : (s.setSquare q v).xr = s.xr := rfl
@[simp] theorem State.setSquare_tm (q v : Nat) : (s.setSquare q v).tm = s.tm := rfl
@[simp] theorem State.setSquare_ctl (q v : Nat) : (s.setSquare q v).ctl = s.ctl := rfl
@[simp] theorem State.setSquare_pw (q v : Nat) : (s.setSquare q v).pw = s.pw := rfl
@[simp] theorem State.setSquare_boot (q v : Nat) : (s.setSquare q v).boot = s.boot := rfl

/-! `putSeq` -/

@[simp] theorem State.putSeq_pending (q : Nat) (x : Sequence) : (s.putSeq q x).pending = s.pending := rfl
@[simp] theorem State.putSeq_free (q : Nat) (x : Sequence) : (s.putSeq q x).free = s.free := rfl
@[simp] theorem State.putSeq_st (q : Nat) (x : Sequence) : (s.putSeq q x).st = s.st := rfl
@[simp] theorem State.putSeq_rb (q : Nat) (x : Sequence) : (s.putSeq q x).rb = s.rb := rfl
@[simp] theorem State.putSeq_str (q : Nat) (x : Sequence) : (s.putSeq q x).str = s.str := rfl
@[simp] theorem State.putSeq_host (q : Nat) (x : Sequence) : (s.putSeq q x).host = s.host := rfl
@[simp] theorem State.putSeq_xr (q : Nat) (x : Sequence) : (s.putSeq q x).xr = s.xr := rfl
@[simp] theorem State.putSeq_tm (q : Nat) (x : Sequence) : (s.putSeq q x).tm = s.tm := rfl
@[simp] theorem State.putSeq_ctl (q : Nat) (x : Sequence) : (s.putSeq q x).ctl = s.ctl := rfl
@[simp] theorem State.putSeq_pw (q : Nat) (x : Sequence) : (s.putSeq q x).pw = s.pw := rfl
@[simp] theorem State.putSeq_boot (q : Nat) (x : Sequence) : (s.putSeq q x).boot = s.boot := rfl

/-! `setPort` -/

@[simp] theorem State.setPort_pending (p : Nat) (x : XPort) : (s.setPort p x).pending = s.pending := rfl
@[simp] theorem State.setPort_free (p : Nat) (x : XPort) : (s.setPort p x).free = s.free := rfl
@[simp] theorem State.setPort_st (p : Nat) (x : XPort) : (s.setPort p x).st = s.st := rfl
@[simp] theorem State.setPort_rb (p : Nat) (x : XPort) : (s.setPort p x).rb = s.rb := rfl
@[simp] theorem State.setPort_pg (p : Nat) (x : XPort) : (s.setPort p x).pg = s.pg := rfl
@[simp] theorem State.setPort_str (p : Nat) (x : XPort) : (s.setPort p x).str = s.str := rfl
@[simp] theorem State.setPort_host (p : Nat) (x : XPort) : (s.setPort p x).host = s.host := rfl
@[simp] theorem State.setPort_tm (p : Nat) (x : XPort) : (s.setPort p x).tm = s.tm := rfl
@[simp] theorem State.setPort_ctl (p : Nat) (x : XPort) : (s.setPort p x).ctl = s.ctl := rfl
@[simp] theorem State.setPort_pw (p : Nat) (x : XPort) : (s.setPort p x).pw = s.pw := rfl
@[simp] theorem State.setPort_boot (p : Nat) (x : XPort) : (s.setPort p x).boot = s.boot := rfl

/-! `putDesc` -/

@[simp] theorem State.putDesc_pending (n : Nat) (d : RxDesc) : (s.putDesc n d).pending = s.pending := rfl
@[simp] theorem State.putDesc_free (n : Nat) (d : RxDesc) : (s.putDesc n d).free = s.free := rfl
@[simp] theorem State.putDesc_st (n : Nat) (d : RxDesc) : (s.putDesc n d).st = s.st := rfl
@[simp] theorem State.putDesc_rb (n : Nat) (d : RxDesc) : (s.putDesc n d).rb = s.rb := rfl
@[simp] theorem State.putDesc_pg (n : Nat) (d : RxDesc) : (s.putDesc n d).pg = s.pg := rfl
@[simp] theorem State.putDesc_str (n : Nat) (d : RxDesc) : (s.putDesc n d).str = s.str := rfl
@[simp] theorem State.putDesc_host (n : Nat) (d : RxDesc) : (s.putDesc n d).host = s.host := rfl
@[simp] theorem State.putDesc_tm (n : Nat) (d : RxDesc) : (s.putDesc n d).tm = s.tm := rfl
@[simp] theorem State.putDesc_ctl (n : Nat) (d : RxDesc) : (s.putDesc n d).ctl = s.ctl := rfl
@[simp] theorem State.putDesc_pw (n : Nat) (d : RxDesc) : (s.putDesc n d).pw = s.pw := rfl
@[simp] theorem State.putDesc_boot (n : Nat) (d : RxDesc) : (s.putDesc n d).boot = s.boot := rfl

/-! `dropMig` -/

@[simp] theorem State.dropMig_pending (sid : Nat) : (s.dropMig sid).pending = s.pending := rfl
@[simp] theorem State.dropMig_free (sid : Nat) : (s.dropMig sid).free = s.free := rfl
@[simp] theorem State.dropMig_st (sid : Nat) : (s.dropMig sid).st = s.st := rfl
@[simp] theorem State.dropMig_rb (sid : Nat) : (s.dropMig sid).rb = s.rb := rfl
@[simp] theorem State.dropMig_pg (sid : Nat) : (s.dropMig sid).pg = s.pg := rfl
@[simp] theorem State.dropMig_str (sid : Nat) : (s.dropMig sid).str = s.str := rfl
@[simp] theorem State.dropMig_host (sid : Nat) : (s.dropMig sid).host = s.host := rfl
@[simp] theorem State.dropMig_tm (sid : Nat) : (s.dropMig sid).tm = s.tm := rfl
@[simp] theorem State.dropMig_ctl (sid : Nat) : (s.dropMig sid).ctl = s.ctl := rfl
@[simp] theorem State.dropMig_pw (sid : Nat) : (s.dropMig sid).pw = s.pw := rfl
@[simp] theorem State.dropMig_boot (sid : Nat) : (s.dropMig sid).boot = s.boot := rfl

/-! `modTm` -/

@[simp] theorem State.modTm_pending (f : Timebase → Timebase) : (s.modTm f).pending = s.pending := rfl
@[simp] theorem State.modTm_free (f : Timebase → Timebase) : (s.modTm f).free = s.free := rfl
@[simp] theorem State.modTm_st (f : Timebase → Timebase) : (s.modTm f).st = s.st := rfl
@[simp] theorem State.modTm_rb (f : Timebase → Timebase) : (s.modTm f).rb = s.rb := rfl
@[simp] theorem State.modTm_pg (f : Timebase → Timebase) : (s.modTm f).pg = s.pg := rfl
@[simp] theorem State.modTm_str (f : Timebase → Timebase) : (s.modTm f).str = s.str := rfl
@[simp] theorem State.modTm_host (f : Timebase → Timebase) : (s.modTm f).host = s.host := rfl
@[simp] theorem State.modTm_xr (f : Timebase → Timebase) : (s.modTm f).xr = s.xr := rfl
@[simp] theorem State.modTm_ctl (f : Timebase → Timebase) : (s.modTm f).ctl = s.ctl := rfl
@[simp] theorem State.modTm_pw (f : Timebase → Timebase) : (s.modTm f).pw = s.pw := rfl
@[simp] theorem State.modTm_boot (f : Timebase → Timebase) : (s.modTm f).boot = s.boot := rfl

/-! `modCtl` -/

@[simp] theorem State.modCtl_pending (f : Ctl → Ctl) : (s.modCtl f).pending = s.pending := rfl
@[simp] theorem State.modCtl_free (f : Ctl → Ctl) : (s.modCtl f).free = s.free := rfl
@[simp] theorem State.modCtl_st (f : Ctl → Ctl) : (s.modCtl f).st = s.st := rfl
@[simp] theorem State.modCtl_rb (f : Ctl → Ctl) : (s.modCtl f).rb = s.rb := rfl
@[simp] theorem State.modCtl_pg (f : Ctl → Ctl) : (s.modCtl f).pg = s.pg := rfl
@[simp] theorem State.modCtl_str (f : Ctl → Ctl) : (s.modCtl f).str = s.str := rfl
@[simp] theorem State.modCtl_host (f : Ctl → Ctl) : (s.modCtl f).host = s.host := rfl
@[simp] theorem State.modCtl_xr (f : Ctl → Ctl) : (s.modCtl f).xr = s.xr := rfl
@[simp] theorem State.modCtl_tm (f : Ctl → Ctl) : (s.modCtl f).tm = s.tm := rfl
@[simp] theorem State.modCtl_pw (f : Ctl → Ctl) : (s.modCtl f).pw = s.pw := rfl
@[simp] theorem State.modCtl_boot (f : Ctl → Ctl) : (s.modCtl f).boot = s.boot := rfl

/-! `modPw` -/

@[simp] theorem State.modPw_pending (f : Power → Power) : (s.modPw f).pending = s.pending := rfl
@[simp] theorem State.modPw_free (f : Power → Power) : (s.modPw f).free = s.free := rfl
@[simp] theorem State.modPw_st (f : Power → Power) : (s.modPw f).st = s.st := rfl
@[simp] theorem State.modPw_rb (f : Power → Power) : (s.modPw f).rb = s.rb := rfl
@[simp] theorem State.modPw_pg (f : Power → Power) : (s.modPw f).pg = s.pg := rfl
@[simp] theorem State.modPw_str (f : Power → Power) : (s.modPw f).str = s.str := rfl
@[simp] theorem State.modPw_host (f : Power → Power) : (s.modPw f).host = s.host := rfl
@[simp] theorem State.modPw_xr (f : Power → Power) : (s.modPw f).xr = s.xr := rfl
@[simp] theorem State.modPw_tm (f : Power → Power) : (s.modPw f).tm = s.tm := rfl
@[simp] theorem State.modPw_ctl (f : Power → Power) : (s.modPw f).ctl = s.ctl := rfl
@[simp] theorem State.modPw_boot (f : Power → Power) : (s.modPw f).boot = s.boot := rfl

/-! `modBoot` -/

@[simp] theorem State.modBoot_pending (f : Boot → Boot) : (s.modBoot f).pending = s.pending := rfl
@[simp] theorem State.modBoot_free (f : Boot → Boot) : (s.modBoot f).free = s.free := rfl
@[simp] theorem State.modBoot_st (f : Boot → Boot) : (s.modBoot f).st = s.st := rfl
@[simp] theorem State.modBoot_rb (f : Boot → Boot) : (s.modBoot f).rb = s.rb := rfl
@[simp] theorem State.modBoot_pg (f : Boot → Boot) : (s.modBoot f).pg = s.pg := rfl
@[simp] theorem State.modBoot_str (f : Boot → Boot) : (s.modBoot f).str = s.str := rfl
@[simp] theorem State.modBoot_host (f : Boot → Boot) : (s.modBoot f).host = s.host := rfl
@[simp] theorem State.modBoot_xr (f : Boot → Boot) : (s.modBoot f).xr = s.xr := rfl
@[simp] theorem State.modBoot_tm (f : Boot → Boot) : (s.modBoot f).tm = s.tm := rfl
@[simp] theorem State.modBoot_ctl (f : Boot → Boot) : (s.modBoot f).ctl = s.ctl := rfl
@[simp] theorem State.modBoot_pw (f : Boot → Boot) : (s.modBoot f).pw = s.pw := rfl

/-! `setMonitor` -/

@[simp] theorem State.setMonitor_pending (r : Nat) (m : Monitor) : (s.setMonitor r m).pending = s.pending := rfl
@[simp] theorem State.setMonitor_free (r : Nat) (m : Monitor) : (s.setMonitor r m).free = s.free := rfl
@[simp] theorem State.setMonitor_st (r : Nat) (m : Monitor) : (s.setMonitor r m).st = s.st := rfl
@[simp] theorem State.setMonitor_rb (r : Nat) (m : Monitor) : (s.setMonitor r m).rb = s.rb := rfl
@[simp] theorem State.setMonitor_pg (r : Nat) (m : Monitor) : (s.setMonitor r m).pg = s.pg := rfl
@[simp] theorem State.setMonitor_str (r : Nat) (m : Monitor) : (s.setMonitor r m).str = s.str := rfl
@[simp] theorem State.setMonitor_host (r : Nat) (m : Monitor) : (s.setMonitor r m).host = s.host := rfl
@[simp] theorem State.setMonitor_xr (r : Nat) (m : Monitor) : (s.setMonitor r m).xr = s.xr := rfl
@[simp] theorem State.setMonitor_tm (r : Nat) (m : Monitor) : (s.setMonitor r m).tm = s.tm := rfl
@[simp] theorem State.setMonitor_ctl (r : Nat) (m : Monitor) : (s.setMonitor r m).ctl = s.ctl := rfl
@[simp] theorem State.setMonitor_boot (r : Nat) (m : Monitor) : (s.setMonitor r m).boot = s.boot := rfl

/-! `modCal` -/

@[simp] theorem State.modCal_pending (q : Nat) (f : SquareCal → SquareCal) : (s.modCal q f).pending = s.pending := rfl
@[simp] theorem State.modCal_free (q : Nat) (f : SquareCal → SquareCal) : (s.modCal q f).free = s.free := rfl
@[simp] theorem State.modCal_st (q : Nat) (f : SquareCal → SquareCal) : (s.modCal q f).st = s.st := rfl
@[simp] theorem State.modCal_rb (q : Nat) (f : SquareCal → SquareCal) : (s.modCal q f).rb = s.rb := rfl
@[simp] theorem State.modCal_pg (q : Nat) (f : SquareCal → SquareCal) : (s.modCal q f).pg = s.pg := rfl
@[simp] theorem State.modCal_str (q : Nat) (f : SquareCal → SquareCal) : (s.modCal q f).str = s.str := rfl
@[simp] theorem State.modCal_host (q : Nat) (f : SquareCal → SquareCal) : (s.modCal q f).host = s.host := rfl
@[simp] theorem State.modCal_xr (q : Nat) (f : SquareCal → SquareCal) : (s.modCal q f).xr = s.xr := rfl
@[simp] theorem State.modCal_tm (q : Nat) (f : SquareCal → SquareCal) : (s.modCal q f).tm = s.tm := rfl
@[simp] theorem State.modCal_ctl (q : Nat) (f : SquareCal → SquareCal) : (s.modCal q f).ctl = s.ctl := rfl
@[simp] theorem State.modCal_pw (q : Nat) (f : SquareCal → SquareCal) : (s.modCal q f).pw = s.pw := rfl

/-! ### Reading after a write -/

theorem State.obj_setObj (i b v i' b' : Nat) :
    (s.setObj i b v).obj i' b' = if objKey i' b' = objKey i b then v else s.obj i' b' := by
  unfold State.obj State.setObj
  rw [Tbl.get?_put]
  split <;> rfl

@[simp] theorem State.obj_setObj_self (i b v : Nat) : (s.setObj i b v).obj i b = v := by
  rw [State.obj_setObj, if_pos rfl]

theorem State.obj_setObj_ne {i b i' b' : Nat} (v : Nat) (h : objKey i' b' ≠ objKey i b) : (s.setObj i b v).obj i' b' = s.obj i' b' := by
  rw [State.obj_setObj, if_neg h]

@[simp] theorem State.obj_incObj_self (i b : Nat) : (s.incObj i b).obj i b = (s.obj i b + 1) % 2 ^ 32 :=
  State.obj_setObj_self s i b _

theorem State.obj_incObj_ne {i b i' b' : Nat} (h : objKey i' b' ≠ objKey i b) : (s.incObj i b).obj i' b' = s.obj i' b' :=
  State.obj_setObj_ne s _ h

theorem State.domain_setDomain (d v e : Nat) : (s.setDomain d v).domain e = if e = d then v else s.domain e :=
  Tbl.getD_setD s.rb.domain 0 d e v

@[simp] theorem State.domain_setDomain_self (d v : Nat) : (s.setDomain d v).domain d = v := by
  rw [State.domain_setDomain, if_pos rfl]

theorem State.tag_setTag (n : Nat) (t : Tag) (k : Nat) : (s.setTag n t).tag k = if k = n then t else s.tag k :=
  Tbl.getD_setD s.st.tags {} n k t

theorem State.tileTag_setTileTag (n : Nat) (t : Tag) (k : Nat) : (s.setTileTag n t).tileTag k = if k = n then t else s.tileTag k :=
  Tbl.getD_setD s.st.tileTags {} n k t

@[simp] theorem State.stream?_putStream_self (sid : Nat) (x : Stream) : (s.putStream sid x).stream? sid = some x :=
  Tbl.get?_put_self s.str.tab sid x

theorem State.stream?_putStream_ne {sid q : Nat} (x : Stream) (h : q ≠ sid) : (s.putStream sid x).stream? q = s.stream? q :=
  Tbl.get?_put_ne s.str.tab x h

@[simp] theorem State.stream?_modStream_self (sid : Nat) (f : Stream → Stream) :
    (s.modStream sid f).stream? sid = (s.stream? sid).map f := Tbl.get?_modify_self s.str.tab sid f

theorem State.stream?_modStream_ne {sid q : Nat} (f : Stream → Stream) (h : q ≠ sid) :
    (s.modStream sid f).stream? q = s.stream? q := Tbl.get?_modify_ne s.str.tab f h

@[simp] theorem State.model_setModel_self (m : Nat) (x : ModelSlot) : (s.setModel m x).model m = x :=
  Tbl.getD_put_self s.str.models {} m x

theorem State.model_setModel_ne {m k : Nat} (x : ModelSlot) (h : k ≠ m) : (s.setModel m x).model k = s.model k := by
  unfold State.model State.setModel
  rw [Tbl.getD_put, if_neg h]

theorem State.fn_setFn (p q : Nat) (f : Function) : (s.setFn p f).fn q = if q = p then f else s.fn q :=
  Tbl.getD_put s.host.fns {} p q f

@[simp] theorem State.fn_setFn_self (p : Nat) (f : Function) : (s.setFn p f).fn p = f := by
  rw [State.fn_setFn, if_pos rfl]

theorem State.sq_setSq (p r : Nat) (x : SubRing) (q k : Nat) :
    (s.setSq p r x).sq q k = if q = p ∧ k = r then x else s.sq q k := by
  unfold State.sq State.setSq
  rw [State.fn_setFn]
  split
  · next h =>
    subst h
    rw [Tbl.getD_put]
    split
    · next h => simp [h]
    · next h => simp [h]
  · next h => simp [h]

@[simp] theorem State.sq_setSq_self (p r : Nat) (x : SubRing) : (s.setSq p r x).sq p r = x := by
  rw [State.sq_setSq, if_pos ⟨rfl, rfl⟩]

theorem State.oq_setOq (p r : Nat) (x : OutRing) (q k : Nat) :
    (s.setOq p r x).oq q k = if q = p ∧ k = r then x else s.oq q k := by
  unfold State.oq State.setOq
  rw [State.fn_setFn]
  split
  · next h =>
    subst h
    rw [Tbl.getD_put]
    split
    · next h => simp [h]
    · next h => simp [h]
  · next h => simp [h]

@[simp] theorem State.oq_setOq_self (p r : Nat) (x : OutRing) : (s.setOq p r x).oq p r = x := by
  rw [State.oq_setOq, if_pos ⟨rfl, rfl⟩]

@[simp] theorem State.oq_setSq (p r : Nat) (x : SubRing) (q k : Nat) : (s.setSq p r x).oq q k = s.oq q k := by
  unfold State.oq State.setSq
  rw [State.fn_setFn]
  split
  · next h => subst h; rfl
  · rfl

@[simp] theorem State.port_setPort_self (p : Nat) (x : XPort) : (s.setPort p x).port p = x :=
  Tbl.getD_put_self s.xr.ports {} p x

theorem State.port_setPort_ne {p q : Nat} (x : XPort) (h : q ≠ p) : (s.setPort p x).port q = s.port q := by
  unfold State.port State.setPort
  rw [Tbl.getD_put, if_neg h]

@[simp] theorem State.monitor_setMonitor_self (r : Nat) (m : Monitor) : (s.setMonitor r m).monitor r = m :=
  Tbl.getD_put_self s.pw.mon {} r m

@[simp] theorem State.cal_modCal_self (q : Nat) (f : SquareCal → SquareCal) : (s.modCal q f).cal q = f (s.cal q) :=
  Tbl.getD_put_self s.boot.squares {} q _

@[simp] theorem State.now_modCtl (f : Ctl → Ctl) : (s.modCtl f).now = s.now := rfl

end Sys2Proof.Machine
end

