-- ==== Sys2Proof/Laws/Publish.lean ====
section
/-! SUPPORT. What a publication leaves of the streams: of one that is not closed only the number of its next record moves, and those that no record names stay. -/

namespace Sys2Proof.Machine

-- One proof at a time: proofs elaborated side by side wait on shared realisations, one thread each, and run out of threads.
set_option Elab.async false

/-- A stream as it was, but for the number of its next record. -/
def Renumbered (s t : State) (sid : Nat) : Prop :=
  ∀ st, s.stream? sid = some st → st.state ≠ .closed → st.state ≠ .lost →
    ∃ n, t.stream? sid = some { st with eg := { st.eg with pubNext := n } }

theorem Renumbered.refl (s : State) (sid : Nat) : Renumbered s s sid := fun st h _ _ => ⟨st.eg.pubNext, h⟩

theorem Renumbered.trans {s t u : State} {sid : Nat} (h : Renumbered s t sid) (k : Renumbered t u sid) : Renumbered s u sid := by
  intro st e a b
  obtain ⟨n, e1⟩ := h st e a b
  obtain ⟨m, e2⟩ := k _ e1 a b
  exact ⟨m, e2⟩

theorem Renumbered.of_eq {s t : State} {sid : Nat} (h : t.stream? sid = s.stream? sid) : Renumbered s t sid :=
  fun st e _ _ => ⟨st.eg.pubNext, h.trans e⟩

theorem Renumbered.foldl {α : Type} {sid : Nat} {f : State → α → State} (hf : ∀ s x, Renumbered s (f s x) sid) (l : List α) (s : State) :
    Renumbered s (l.foldl f s) sid := by
  induction l generalizing s with
  | nil => exact .refl s sid
  | cons x l ih => exact (hf s x).trans (ih (f s x))

theorem State.modStream_renumbered (s : State) (q n : Nat) (sid : Nat) :
    Renumbered s (s.modStream q fun st => { st with eg := { st.eg with pubNext := n } }) sid := by
  intro st h _ _
  by_cases e : sid = q
  · subst e
    exact ⟨n, by rw [State.stream?_modStream_self, h]; rfl⟩
  · exact ⟨st.eg.pubNext, (State.stream?_modStream_ne _ _ e).trans h⟩

theorem State.place_renumbered (s : State) (p ring mark : Nat) (commit : Bool) (r : Rec × List Byte) (sid : Nat) :
    Renumbered s (s.place p ring mark commit r) sid := by
  have k : ∀ (b : Bool) (o : OutRing) (q n : Nat), Renumbered s (if b = true then s.setOq p ring o else
      (s.setOq p ring o).modStream q fun st => { st with eg := { st.eg with pubNext := n } }) sid := by
    intro b o q n
    cases b
    · exact (Renumbered.of_eq (s := s) (t := s.setOq p ring o) rfl).trans (State.modStream_renumbered _ q n sid)
    · exact Renumbered.of_eq rfl
  exact k _ _ _ _

theorem State.stream?_freeStream_ne (s : State) {q sid : Nat} (h : sid ≠ q) : (s.freeStream q).stream? sid = s.stream? sid := by
  have k := (State.endSeqs_moves (Moves.rfl' _ s) (Covers.refl _) q).frame.str.tab (by decide)
  show Tbl.get? (Tbl.erase (s.endSeqs q).str.tab q) sid = Tbl.get? s.str.tab sid
  rw [Tbl.get?_erase_ne _ h, k]

theorem State.published_renumbered (s : State) (r : Rec) (sid : Nat) : Renumbered s (s.published r) sid := by
  unfold State.published
  split
  · split
    · next x hx =>
      split
      · next hc =>
        intro st h a b
        by_cases e : sid = r.sid
        · subst e
          rw [hx] at h
          cases h
          exact absurd hc (by simp [a, b])
        · exact ⟨st.eg.pubNext, (State.stream?_freeStream_ne s e).trans h⟩
      · exact .refl s sid
    · exact .refl s sid
  · exact .refl s sid

theorem State.placeAll_renumbered (s : State) (p ring mark : Nat) (commit : Bool) (rs : List (Rec × List Byte)) (sid : Nat) :
    Renumbered s (s.placeAll p ring mark commit rs) sid :=
  (Renumbered.foldl (fun t x => t.place_renumbered p ring mark commit x sid) (finalise rs) s).trans
    (Renumbered.foldl (fun t x => t.published_renumbered x.1 sid) rs _)

theorem State.publishW_renumbered (s : State) (w : Waiting) (sid : Nat) (h : w.frees ≠ some sid) :
    Renumbered s (s.publishW w) sid := by
  unfold State.publishW State.placeOwn
  split
  · exact .refl s sid
  · split
    · dsimp only
      have k : Renumbered s (match w.loads with
          | some slot => (s.placeAll w.part w.ring w.mark false w.recs).setModel slot
              (((s.placeAll w.part w.ring w.mark false w.recs).model slot).become 2)
          | none => s.placeAll w.part w.ring w.mark false w.recs) sid := by
        split
        · exact (s.placeAll_renumbered w.part w.ring w.mark false w.recs sid).trans (Renumbered.of_eq rfl)
        · exact s.placeAll_renumbered w.part w.ring w.mark false w.recs sid
      split
      · next q e => exact k.trans (Renumbered.of_eq (State.stream?_freeStream_ne _ fun c => h (by rw [e, c])))
      · exact k
    · exact Renumbered.of_eq rfl

theorem State.publish_renumbered (s : State) (p ring : Nat) (rs : List (Rec × List Byte)) (sid : Nat) :
    Renumbered s (s.publish p ring rs) sid := s.publishW_renumbered _ sid (by simp)

theorem State.streamEvent_renumbered (s : State) (q ev reason op tag arg sid : Nat) :
    Renumbered s (s.streamEvent q ev reason op tag arg) sid := by
  unfold State.streamEvent
  split
  · exact s.publish_renumbered _ _ _ sid
  · exact .refl s sid

/-! ### Other streams -/

/-- Whether every record names no stream or this one. -/
def Mentions (sid : Nat) (rs : List (Rec × List Byte)) : Prop := ∀ r ∈ rs, r.1.noStream = true ∨ r.1.sid = sid

theorem setBit8_div (n : Nat) : setBit n 8 true / 512 = n / 512 := by
  unfold setBit setBits bits b2n
  simp only [if_true]
  omega

theorem Rec.noStream_setBit8 (r : Rec) : Rec.noStream { r with w0 := setBit r.w0 8 true } = r.noStream := by
  unfold Rec.noStream bitAt
  rw [show (2 : Nat) ^ 9 = 512 from rfl, setBit8_div]

theorem Rec.sid_setBit8 (r : Rec) : Rec.sid { r with w0 := setBit r.w0 8 true } = r.sid := by
  have k : ∀ n, n / 2 ^ 16 = n / 512 / 128 := fun n => by omega
  unfold Rec.sid bits
  dsimp only
  rw [k, setBit8_div, ← k]

theorem Mentions.finalise {sid : Nat} {rs : List (Rec × List Byte)} (h : Mentions sid rs) : Mentions sid (finalise rs) := by
  induction rs with
  | nil => exact h
  | cons r rs ih =>
    cases rs with
    | nil =>
      intro x hx
      rw [List.mem_singleton.1 hx]
      rcases h r (List.mem_singleton_self r) with k | k
      · exact .inl (Eq.trans (Rec.noStream_setBit8 r.1) k)
      · exact .inr (Eq.trans (Rec.sid_setBit8 r.1) k)
    | cons a l =>
      intro x hx
      rcases List.mem_cons.1 hx with e | e
      · rw [e]
        exact h r (List.mem_cons_self ..)
      · exact ih (fun y hy => h y (List.mem_cons_of_mem _ hy)) x e

theorem State.place_other (s : State) (p ring mark : Nat) (commit : Bool) (r : Rec × List Byte) {sid q : Nat}
    (h : r.1.noStream = true ∨ r.1.sid = sid) (hq : q ≠ sid) : (s.place p ring mark commit r).stream? q = s.stream? q := by
  have e : (if commit then r.1 else { r.1 with w1 := s.now }).noStream = r.1.noStream := by cases commit <;> rfl
  unfold State.place
  dsimp only
  rw [e]
  rcases h with k | k
  · rw [if_pos k]
    rfl
  · split
    · rfl
    · rw [State.stream?_modStream_ne _ _ (by rw [k]; exact hq)]
      rfl

theorem State.published_other (s : State) (r : Rec) {sid q : Nat} (h : r.noStream = true ∨ r.sid = sid) (hq : q ≠ sid) :
    (s.published r).stream? q = s.stream? q := by
  unfold State.published
  split
  · next a =>
    have k : r.sid = sid := h.resolve_left (by simpa using a.2.1)
    split
    · split
      · exact State.stream?_freeStream_ne s (by rw [k]; exact hq)
      · rfl
    · rfl
  · rfl

theorem State.placeAll_other (s : State) (p ring mark : Nat) (commit : Bool) (rs : List (Rec × List Byte)) {sid q : Nat}
    (h : Mentions sid rs) (hq : q ≠ sid) : (s.placeAll p ring mark commit rs).stream? q = s.stream? q := by
  have a : ∀ (l : List (Rec × List Byte)) (t : State), Mentions sid l → (l.foldl (fun t r => t.place p ring mark commit r) t).stream? q = t.stream? q := by
    intro l
    induction l with
    | nil => exact fun _ _ => rfl
    | cons x l ih =>
      intro t k
      exact (ih _ fun y hy => k y (List.mem_cons_of_mem _ hy)).trans (t.place_other p ring mark commit x (k x (List.mem_cons_self ..)) hq)
  have b : ∀ (l : List (Rec × List Byte)) (t : State), Mentions sid l → (l.foldl (fun t r => t.published r.1) t).stream? q = t.stream? q := by
    intro l
    induction l with
    | nil => exact fun _ _ => rfl
    | cons x l ih =>
      intro t k
      exact (ih _ fun y hy => k y (List.mem_cons_of_mem _ hy)).trans (t.published_other x.1 (k x (List.mem_cons_self ..)) hq)
  exact (b rs _ h).trans (a _ s h.finalise)

theorem State.publish_other (s : State) (p ring : Nat) (rs : List (Rec × List Byte)) {sid q : Nat} (h : Mentions sid rs) (hq : q ≠ sid) :
    (s.publish p ring rs).stream? q = s.stream? q := by
  unfold State.publish State.publishAt State.publishW State.placeOwn
  split
  · rfl
  · split
    · exact s.placeAll_other p ring _ false rs h hq
    · rfl

theorem sid_field (type sid chunk : Nat) (ht : type < 256) (hs : sid < 8192) :
    (type + sid % 8192 * 2 ^ 16 + chunk % 2 ^ 32 * 2 ^ 32) / 2 ^ 16 % 2 ^ 13 = sid := by omega

theorem mkRec_sid (type sid chunk tag : Nat) (ht : type < 256) (hs : sid < 8192) : (mkRec type sid chunk tag).sid = sid := by
  simp only [Rec.sid, mkRec, bits]
  exact sid_field type sid chunk ht hs

theorem eventRec_sid (sid chunk ev reason op tag arg : Nat) (hs : sid < 8192) : (eventRec sid chunk ev reason op tag arg).sid = sid := by
  simp only [Rec.sid, eventRec, mkRec, bits]
  exact sid_field 0x09 sid chunk (by decide) hs

theorem State.streamEvent_other (s : State) {sid q : Nat} (ev reason op tag arg : Nat) (hs : sid < 8192) (hq : q ≠ sid) :
    (s.streamEvent sid ev reason op tag arg).stream? q = s.stream? q := by
  unfold State.streamEvent
  split
  · exact s.publish_other _ _ _ (fun r hr => by rw [List.mem_singleton.1 hr]; exact .inr (eventRec_sid _ _ _ _ _ _ _ hs)) hq
  · rfl

theorem State.publish_epoch (s : State) (p ring : Nat) (rs : List (Rec × List Byte)) : (s.publish p ring rs).str.epoch = s.str.epoch := by
  have pl : ∀ (t : State) (r : Rec × List Byte), (t.place p ring s.rb.nextSeq false r).str.epoch = t.str.epoch := by
    intro t r
    unfold State.place
    have k : ∀ (b : Bool) (o : OutRing) (q n : Nat), (if b = true then t.setOq p ring o else
        (t.setOq p ring o).modStream q fun st => { st with eg := { st.eg with pubNext := n } }).str.epoch = t.str.epoch := by
      intro b o q n
      cases b <;> rfl
    exact k _ _ _ _
  have pb : ∀ (t : State) (r : Rec × List Byte), (t.published r.1).str.epoch = t.str.epoch := by
    intro t r
    unfold State.published
    split
    · split
      · split
        · exact (State.endSeqs_moves (Moves.rfl' _ t) (Covers.refl _) r.1.sid).frame.str.epoch (by decide)
        · rfl
      · rfl
    · rfl
  have fold : ∀ (f : State → Rec × List Byte → State), (∀ t r, (f t r).str.epoch = t.str.epoch) →
      ∀ (l : List (Rec × List Byte)) (t : State), (l.foldl f t).str.epoch = t.str.epoch := by
    intro f hf l
    induction l with
    | nil => exact fun _ => rfl
    | cons x l ih => exact fun t => (ih _).trans (hf t x)
  unfold State.publish State.publishAt State.publishW State.placeOwn
  split
  · rfl
  · split
    · exact (fold _ pb rs _).trans (fold _ pl _ s)
    · rfl

end Sys2Proof.Machine
end

