-- ==== Sys2Proof/Laws/Rows.lean ====
section
/-! SUPPORT. What reading a scratchpad row gives after rows were written, and a chunk after chunks were changed. -/

namespace Sys2Proof.Machine

-- One proof at a time: proofs elaborated side by side wait on shared realisations, one thread each, and run out of threads.
set_option Elab.async false

theorem slice_length (l : List Byte) (o n : Nat) : (slice l o n).length = n := by
  unfold slice
  simp only [List.length_append, List.length_replicate, List.length_take]
  omega

theorem Mem.readBytes_eq {m k : Mem} {a b n : Nat} (h : ∀ i, i < n → Mem.read m (a + i) = Mem.read k (b + i)) :
    Mem.readBytes m a n = Mem.readBytes k b n := by
  induction n generalizing a b with
  | zero => rfl
  | succ n ih =>
    simp only [Mem.readBytes]
    have h0 := h 0 (Nat.succ_pos n)
    simp only [Nat.add_zero] at h0
    have hs : ∀ i, i < n → Mem.read m (a + 1 + i) = Mem.read k (b + 1 + i) := fun i hi => by
      have e := h (i + 1) (Nat.succ_lt_succ hi)
      rwa [show a + (i + 1) = a + 1 + i by omega, show b + (i + 1) = b + 1 + i by omega] at e
    rw [h0, ih hs]

theorem Mem.readBytes_writeBytes (m : Mem) (a : Nat) (bs : List Byte) : Mem.readBytes (Mem.writeBytes m a bs) a bs.length = bs := by
  have key : ∀ (n o : Nat) (l : List Byte), l.length = n → (∀ i, i < n → bs.getD (o + i) 0 = l.getD i 0) → o + n ≤ bs.length →
      Mem.readBytes (Mem.writeBytes m a bs) (a + o) n = l := by
    intro n
    induction n with
    | zero =>
      intro o l hl _ _
      rw [List.length_eq_zero_iff.1 hl]
      rfl
    | succ n ih =>
      intro o l hl h hb
      cases l with
      | nil => cases hl
      | cons x l =>
        simp only [Mem.readBytes]
        rw [Mem.read_writeBytes_in _ _ _ _ (by omega)]
        have h0 := h 0 (Nat.succ_pos n)
        simp only [Nat.add_zero, List.getD_cons_zero] at h0
        rw [h0, show a + o + 1 = a + (o + 1) by omega]
        congr 1
        refine ih (o + 1) l (by simpa using hl) (fun i hi => ?_) (by omega)
        have h1 := h (i + 1) (Nat.succ_lt_succ hi)
        simpa [Nat.add_assoc, Nat.add_comm 1 i] using h1
  simpa using key bs.length 0 bs rfl (fun i _ => by rw [Nat.zero_add]) (by omega)

/-- The row just written reads as the 512 bytes stored, and every other row as before. -/
theorem State.readRow_writeRow (s : State) (r q : Nat) (bs : List Byte) :
    (s.writeRow r bs).readRow q = if q = r then slice bs 0 512 else s.readRow q := by
  have hl := slice_length bs 0 512
  generalize hb : slice bs 0 512 = w at hl
  have e : ∀ k, (s.writeRow r bs).rowErr k = if k = r then [] else s.rowErr k := by
    intro k
    exact Tbl.getD_setD s.st.spErr [] r k []
  have row : (s.writeRow r bs).row q = if q = r then w else s.row q := by
    show Mem.readBytes (Mem.writeBytes s.st.sp (r * 512) (slice bs 0 512)) (q * 512) 512 = _
    rw [hb]
    split
    · next h =>
      rw [h]
      have k := Mem.readBytes_writeBytes s.st.sp (r * 512) w
      rw [hl] at k
      exact k
    · next h =>
      refine Mem.readBytes_eq fun i hi => Mem.read_writeBytes_out _ _ _ _ ?_
      rw [hl]
      omega
  unfold State.readRow
  dsimp only
  rw [row, e]
  by_cases h : q = r
  · simp [h]
  · simp [h]

theorem rows_arith (a r n : Nat) (h : a < r * 512 ∨ (r + (n + 1)) * 512 ≤ a) :
    (a < (r + 1) * 512 ∨ (r + 1 + n) * 512 ≤ a) ∧ (a < r * 512 ∨ r * 512 + 512 ≤ a) := by
  generalize hk : 512 = k at h ⊢
  rcases h with h | h
  · exact ⟨.inl (lt_of_lt_of_le h (Nat.mul_le_mul_right k (Nat.le_succ r))), .inl h⟩
  · rw [show r + (n + 1) = r + 1 + n by omega] at h
    refine ⟨.inr h, .inr (le_trans ?_ h)⟩
    rw [Nat.add_mul, Nat.succ_mul]
    exact Nat.le_add_right _ _

/-- Writing rows changes no byte outside them. -/
theorem State.sp_writeRows (rows : List (List Byte)) (s : State) (r a : Nat) (h : a < r * 512 ∨ (r + rows.length) * 512 ≤ a) :
    Mem.read (s.writeRows r rows).st.sp a = Mem.read s.st.sp a := by
  induction rows generalizing s r with
  | nil => rfl
  | cons b bs ih =>
    simp only [List.length_cons] at h
    obtain ⟨h1, h2⟩ := rows_arith a r bs.length h
    rw [State.writeRows, ih (s.writeRow r b) (r + 1) h1]
    unfold State.writeRow
    dsimp only
    exact Mem.read_writeBytes_out _ _ _ _ (by rw [slice_length]; exact h2)

/-! ### Chunks -/

/-- A change that leaves a chunk its stream and its number. -/
def KeepsChunk (f : Chunk → Chunk) : Prop := ∀ c, (f c).sid = c.sid ∧ (f c).no = c.no

theorem State.find_modChunk (l : List Chunk) (sid no q k : Nat) (f : Chunk → Chunk) (hf : KeepsChunk f) :
    (l.map fun c => if c.sid == sid && c.no == no then f c else c).find? (fun c => c.sid == q && c.no == k) =
      if q = sid ∧ k = no then (l.find? fun c => c.sid == q && c.no == k).map f
      else l.find? fun c => c.sid == q && c.no == k := by
  induction l with
  | nil => simp
  | cons c l ih =>
    simp only [List.map_cons, List.find?_cons]
    by_cases h : (c.sid == sid && c.no == no) = true
    · rw [if_pos h, (hf c).1, (hf c).2]
      simp only [Bool.and_eq_true, beq_iff_eq] at h
      by_cases e : q = sid ∧ k = no
      · rw [if_pos e, h.1, h.2, e.1, e.2]
        simp
      · rw [if_neg e] at ih ⊢
        rw [h.1, h.2]
        have : (sid == q && no == k) = false := by
          simp only [Bool.and_eq_false_iff, beq_eq_false_iff_ne, ne_eq]
          by_contra x
          simp only [not_or, not_not] at x
          exact e ⟨x.1.symm, x.2.symm⟩
        rw [this]
        exact ih
    · rw [if_neg h]
      by_cases e : (c.sid == q && c.no == k) = true
      · have n : ¬(q = sid ∧ k = no) := by
          rintro ⟨rfl, rfl⟩
          exact h e
        rw [e]
        simp [n]
      · simp only [Bool.not_eq_true] at e
        rw [e]
        exact ih

/-- The chunk that a change names is changed, and every other stays. -/
theorem State.chunk?_modChunk (s : State) (sid no q k : Nat) (f : Chunk → Chunk) (hf : KeepsChunk f) :
    (s.modChunk sid no f).chunk? q k = if q = sid ∧ k = no then (s.chunk? q k).map f else s.chunk? q k :=
  State.find_modChunk s.str.chunks sid no q k f hf

theorem State.chunk?_modChunk_self (s : State) (sid no : Nat) (f : Chunk → Chunk) (hf : KeepsChunk f) :
    (s.modChunk sid no f).chunk? sid no = (s.chunk? sid no).map f := by
  rw [State.chunk?_modChunk s sid no sid no f hf, if_pos ⟨rfl, rfl⟩]

end Sys2Proof.Machine
end

