-- ==== Sys2Proof/Tests/Slice0.lean ====
section
/-! SUPPORT. The model's own tests: ill-formed commands, small steps, and for every statement with hypotheses a concrete
state and operands that meet them. -/

-- One proof at a time: many kernel evaluations side by side run out of threads.
set_option Elab.async false

namespace Sys2Proof.Tests

open Sys2Proof Sys2Proof.Machine

/-- A device in service: operational, function 0 with its bus master on and ring 0 enabled, one entry waiting in it. -/
def served : State :=
  ({ State.reset with ctl := { nmt := .operational } } : State).setFn 0 { bme := true, sq := [(0, { enable := true, tail := 1 })], oq := [(0, { enable := true })] }

/-- An entry of words. -/
def ent3 (w0 w1 w2 : Nat) : Words8 := ⟨BitVec.ofNat 64 w0, BitVec.ofNat 64 w1, BitVec.ofNat 64 w2, 0, 0, 0, 0, 0⟩

/-- The device in service with stream 5 open in a state. -/
def withStream (x : StreamState) : State := served.putStream 5 { state := x }

/-- Entry 0 of an empty stream table is the lowest free one. -/
theorem freeSid_zero (s : State) (h : (s.stream? 0).isNone = true) : s.freeSid = some 0 := by
  unfold State.freeSid firstIndex
  rw [show (8192 : Nat) = 8191 + 1 from rfl, List.range_succ_eq_map]
  simp [h]

theorem earlyFault_of (s : State) (cfg : StreamCfg) (h : (s.stream? 0).isNone = true)
    (k : (s.ctl.nmt != .operational || !(s.oq cfg.part cfg.outRing).enable
      || (cfg.outFormat != 0 && (s.oq cfg.part cfg.outRing).audioBytes == 0)) = false) : s.earlyFault cfg = none := by
  unfold State.earlyFault
  rw [freeSid_zero s h]
  simp at k
  simp [k.1.1, k.1.2]
  exact k.2

/-- The device out of operation. -/
def notServing : State := { served with ctl := { nmt := .preop } }

/-! ### FrontCommandRuns -/

/-- A queue of two. -/
theorem witness_front : ({ State.reset with pending := [.ppsLoss, .stormSecond] } : State).pending = .ppsLoss :: [.stormSecond] := by
  decide

/-! ### EmptyQueueTicks -/

theorem witness_empty : State.reset.pending = [] := by decide

/-! ### StepKeepsInvariant -/

theorem witness_step_inv : State.reset.pending = [] ∧ State.reset.ctl.faultLog.length ≤ 4096 ∧ Mem.wf State.reset.st.sp
    ∧ State.reset.ctl.flashA = State.reset.ctl.flashB ∧ step State.reset = .next State.reset.idle := ⟨rfl, by decide, by decide, rfl, rfl⟩

/-! ### ExecKeepsQueue -/

theorem witness_queue : ∃ t, exec .ppsLoss State.reset = .next t := ⟨_, rfl⟩

/-! ### FrameOfParts -/

theorem witness_frame : (∃ t, exec .stormSecond State.reset = .next t) ∧ StatePart.sp ∉ changes .stormSecond :=
  ⟨⟨_, rfl⟩, by decide⟩

/-! ### RingEntryIsConsumed -/

theorem witness_ring_entry :
    ringEntry (.nop 0 0 (ent3 0 0 0)) = some (0, 0, ent3 0 0 0) ∧ standsFor (.nop 0 0 (ent3 0 0 0)) (ent3 0 0 0) = true
    ∧ served.consumes 0 0 (isOpener (entOp (ent3 0 0 0))) = true
    ∧ State.reset.consumes 0 0 (isOpener (entOp (ent3 0 0 0))) = false := by decide

/-! ### MalformedEntryPublishesOneError -/

theorem witness_malformed :
    standsFor (.closeDrain 0 0 (ent3 0x11 0 0)) (ent3 0x11 0 0) = true ∧ served.consumes 0 0 (isOpener (entOp (ent3 0x11 0 0))) = true
    ∧ served.entryError 0 (ent3 0x11 0 0) = some 0x06 := by decide

theorem witness_codes :
    entOp (ent3 0xFF 0 0) ∉ entOpcodes ∧ entOp (ent3 0x30 0 0) = 0x30 ∧ entOp (ent3 0x11 0 0) ∈ [0x11, 0x12, 0x13, 0x20, 0x22]
    ∧ entReserved (ent3 0x11 0 0) = false ∧ entNotZero (ent3 0x11 0 0) = false
    ∧ entOutOfRange State.reset.xr.devId (ent3 0x11 0 0) = false ∧ State.reset.openIn? 0 (entSid (ent3 0x11 0 0)) = none := by decide

/-! ### InputEntriesAreTaken -/

/-- An AUDIO entry of 4 bytes for stream 5. -/
def audioEnt : Words8 := ent3 (0x01 + 5 * 2 ^ 16) 0 4

theorem witness_audio : (withStream .active).consumes 0 0 false = true ∧ entOp audioEnt = 0x01
    ∧ (withStream .active).entryError 0 audioEnt = none ∧ (withStream .active).stream? (entSid audioEnt) = some { state := .active } := by decide

/-- A TOKENS entry of one token for stream 5, in the entry and in a buffer. -/
def tokensEnt (buf : Nat) : Words8 := ent3 (0x02 + 5 * 2 ^ 16) buf 1

theorem witness_tokens :
    let s := served.putStream 5 { state := .idle, cfg := { inFormat := 5 } }
    s.consumes 0 0 false = true ∧ entOp (tokensEnt 0) = 0x02 ∧ s.entryError 0 (tokensEnt 0) = none
      ∧ s.entryError 0 (tokensEnt 64) = none ∧ ent (tokensEnt 64) 1 0 64 ≠ 0
      ∧ s.stream? (entSid (tokensEnt 0)) = some { state := .idle, cfg := { inFormat := 5 } } := by decide

/-! ### InputEntriesAreRefused -/

theorem witness_refused : ringEntry (.audio 0 0 audioEnt []) = some (0, 0, audioEnt) ∧ standsFor (.audio 0 0 audioEnt []) audioEnt = true
    ∧ (withStream .draining).consumes 0 0 false = true ∧ (withStream .draining).entryError 0 audioEnt = none
    ∧ (withStream .draining).stream? (entSid audioEnt) = some { state := .draining } ∧ State.reset.consumes 0 0 false = false := by decide

theorem witness_kind :
    let s := served.putStream 5 { state := .active }
    ringEntry (.tokens 0 0 (tokensEnt 0) []) = some (0, 0, tokensEnt 0) ∧ standsFor (.tokens 0 0 (tokensEnt 0) []) (tokensEnt 0) = true
      ∧ s.consumes 0 0 false = true ∧ s.entryError 0 (tokensEnt 0) = none
      ∧ s.stream? (entSid (tokensEnt 0)) = some { state := .active } := by decide

/-! ### OpenIsAdmittedOrRefused -/

/-- An OPEN of model 1 in output ring 0: 320 ms chunks, no look-ahead, budget 1,000 ms, s16 input at 16 kHz. -/
def openEnt : Words8 := ent3 0x10 (1 + 32 * 2 ^ 24 + 1000 * 2 ^ 40) 0

theorem witness_open_refused : takes (.openStream 0 0 openEnt) served = true ∧ served.freeSid = some 0
    ∧ served.earlyFault (entCfg 0 openEnt) = none
    ∧ ((served.passed 0 0).allocStream 0 (entStream 0 0 openEnt)).openFault (entCfg 0 openEnt) = some 2
    ∧ takes (.openStream 0 0 openEnt) notServing = true ∧ notServing.earlyFault (entCfg 0 openEnt) = some 14 := by
  refine ⟨by decide, freeSid_zero _ (by decide), earlyFault_of _ _ (by decide) (by decide), by decide, by decide, ?_⟩
  unfold State.earlyFault
  rw [if_pos (by decide)]

/-- Model slot 1 loaded and visible to the PF, with one cost entry: batch 1, 320 ms. -/
def withModel : State := served.setModel 1 { state := 2, partMask := 1, pkg := [1, 0, 0x40, 1] ++ List.replicate 0x78 0 ++ [1] }

theorem witness_open : takes (.openStream 0 0 openEnt) withModel = true ∧ withModel.earlyFault (entCfg 0 openEnt) = none
    ∧ withModel.freeSid = some 0
    ∧ ((withModel.passed 0 0).allocStream 0 (entStream 0 0 openEnt)).openFault (entCfg 0 openEnt) = none := by
  refine ⟨by decide, earlyFault_of _ _ (by decide) (by decide), freeSid_zero _ (by decide), by decide⟩

/-! ### ImportAndMigrateInTakeAnEntry -/

/-- An IMPORT of a blob of 132 bytes into model 1. -/
def importEnt : Words8 := { ent3 0x21 (1 + 1000 * 2 ^ 40) 0 with w3 := 64, w4 := 644 }

theorem witness_import : takes (.importEntry 0 0 importEnt) served = true ∧ takes (.importEntry 0 0 importEnt) notServing = true
    ∧ notServing.earlyFault (entCfg 0 importEnt) = some 14 ∧ served.freeSid = some 0
    ∧ served.earlyFault (entCfg 0 importEnt) = none := by
  refine ⟨by decide, by decide, ?_, freeSid_zero _ (by decide), earlyFault_of _ _ (by decide) (by decide)⟩
  unfold State.earlyFault
  rw [if_pos (by decide)]

/-- Stream 5 waits for a blob of one byte. -/
def importing : State := served.putStream 5 { state := .opening, blobLen := 1 }

theorem witness_import_read : importing.stream? 5 = some { state := .opening, blobLen := 1 }
    ∧ importing.importFault {} (slice [] 0 1) = some 9
    ∧ (withStream .active).stream? 5 = some { state := .active } := by decide

/-! ### StreamEntriesAct -/

/-- An entry of an opcode for stream 5. -/
def entOf (op : Nat) : Words8 := ent3 (op + 5 * 2 ^ 16) 0 0

/-- A device with a port up to device 1, stream 5 open in a state. -/
def linked (x : StreamState) : State := (withStream x).setPort 0 { state := .up, peerDev := 1 }

theorem witness_close : takes (.closeDrain 0 0 (entOf 0x11)) (withStream .active) = true
    ∧ takes (.closeDrain 0 0 (entOf 0x11)) (withStream .held) = true
    ∧ takes (.closeAbort 0 0 (ent3 (0x11 + 5 * 2 ^ 16) 1 0)) (withStream .active) = true
    ∧ takes (.closeAbort 0 0 (ent3 (0x11 + 5 * 2 ^ 16) 1 0)) (withStream .migrating) = true
    ∧ (withStream .active).stream? (entSid (entOf 0x11)) = some { state := .active } := by decide

theorem witness_set : takes (.setParams 0 0 (ent3 (0x12 + 5 * 2 ^ 16) (50 * 2 ^ 40) 4)) (withStream .active) = true
    ∧ ((withStream .active).passed 0 0).setFault { state := .active } (ent3 (0x12 + 5 * 2 ^ 16) (2 ^ 17) 2) = none
    ∧ ((withStream .active).passed 0 0).setFault { state := .active } (ent3 (0x12 + 5 * 2 ^ 16) (2 ^ 7) 4) = some 3 := by decide

theorem witness_resume : takes (.resume 0 0 (entOf 0x13)) (withStream .held) = true
    ∧ takes (.resume 0 0 (entOf 0x13)) (withStream .active) = true := by decide

theorem witness_export : takes (.exportEntry 0 0 (entOf 0x20)) (withStream .active) = true
    ∧ takes (.exportEntry 0 0 (entOf 0x20)) (withStream .draining) = true
    ∧ takes (.exportEntry 0 0 (entOf 0x20)) (withStream .held) = true := by decide

theorem witness_migrate_out : takes (.migrateOut 0 0 (ent3 (0x22 + 5 * 2 ^ 16) 1 0)) (linked .active) = true
    ∧ takes (.migrateOut 0 0 (ent3 (0x22 + 5 * 2 ^ 16) 1 0)) (withStream .active) = true
    ∧ takes (.migrateOut 0 0 (ent3 (0x22 + 5 * 2 ^ 16) 1 0)) (withStream .held) = true
    ∧ ((linked .active).passed 0 0).portTo 1 ≠ none ∧ ((withStream .active).passed 0 0).portTo 1 = none := by decide

/-! ### ModelEntriesAct -/

theorem witness_model_load : takes (.modelLoad 0 0 { ent3 0x30 64 144 with w3 := 1 + 2 ^ 16 }) served = true
    ∧ (served.model 1).state = 0 ∧ takes (.modelLoad 0 0 { ent3 0x30 64 144 with w3 := 1 + 2 ^ 16 }) withModel = true
    ∧ (withModel.model 1).state ≠ 0 := by decide

theorem witness_model_unload : takes (.modelUnload 0 0 { ent3 0x31 0 0 with w3 := 1 }) withModel = true
    ∧ (withModel.model 1).state = 2 ∧ withModel.streamsNaming 1 = 0
    ∧ takes (.modelUnload 0 0 { ent3 0x31 0 0 with w3 := 1 }) (withModel.putStream 5 { cfg := { model := 1 } }) = true
    ∧ 0 < (withModel.putStream 5 { cfg := { model := 1 } }).streamsNaming 1
    ∧ takes (.modelUnload 0 0 { ent3 0x31 0 0 with w3 := 1 }) served = true := by decide

/-- A package of 576 bytes: a synthesis model with one layer, one cost entry and 64 bytes of weights. -/
def package : List Byte :=
    [90, 75, 80, 75, 0, 1, 0, 1, 54, 18, 194, 165, 42, 79, 24, 4, 9, 20, 111, 2, 240, 65, 85, 163, 76, 45, 170, 115,
    206, 179, 43, 48, 221, 115, 36, 75, 14, 162, 152, 65] ++ List.replicate 32 0 ++ [245, 165, 253, 66, 209, 106, 32,
    48, 39, 152, 239, 110, 211, 9, 151, 155, 67, 0, 61, 35, 32, 217, 240, 232, 234, 152, 49, 169, 39, 89, 251, 75, 64]
    ++ List.replicate 8 0 ++ [1, 0, 0, 1, 0, 0, 0, 64, 1, 0, 0, 1, 0, 0, 0, 12] ++ List.replicate 12 0 ++ [2, 0, 0, 10,
    5, 0, 8, 0, 2, 0, 0, 4] ++ List.replicate 167 0 ++ [1, 0, 64, 1] ++ List.replicate 252 0

/-- Slot 1 waits for the package. -/
def loading : State := served.setModel 1 { state := 1, pkgLen := 576 }

theorem witness_package_refused : (loading.model 1).state = 1 ∧ (slice package 0 576).length = 576
    ∧ ({ state := 1, pkgLen := 576, pkg := slice [] 0 576, table := {} } : ModelSlot).packageFault = some 0x10 := by decide +kernel

/-- The package passes every check when its layer table, whose bytes the spec does not lay out, says what this one says. -/
theorem witness_package (h : Config.layerTable ((slice package 0 576).drop 256) 1
      = { bytes := 64, token := { olaFrame := 64, olaHop := 64, detokOffset := 384, detokBytes := 128 } }) :
    ({ state := 1, pkgLen := 576, pkg := slice package 0 576
       table := Config.layerTable ((slice package 0 576).drop 256) 1 } : ModelSlot).packageFault = none := by
  rw [h]
  decide +kernel

theorem witness_weight_room :
    loading.weightRoom 64 = true
    ∧ loading.copyFits 64 (hbmStack (2 ^ 33)) [(2 ^ 33, 64)] = true
    ∧ loading.copyFits 64 (hbmStack (2 ^ 34 + 2 ^ 33)) [(2 ^ 34 + 2 ^ 33, 64)] = true
    ∧ hbmStack (2 ^ 33) ≠ hbmStack (2 ^ 34 + 2 ^ 33) := by decide +kernel

/-! ### ChunksEnterTheInputSlot -/

/-- Stream 5 with one chunk. -/
def withChunk (c : Chunk) : State :=
  let s := withStream .active
  { s with str := { s.str with chunks := [c] } }

theorem witness_feature_frame :
    let c : Chunk := { sid := 5, no := 0, slotHeld := true }
    let s := withChunk c
    s.stream? 5 = some { state := .active } ∧ s.feChunk? 5 { state := .active } = some c
    ∧ s.chunk? 5 0 = some c ∧ (s.model 0).kind ≠ 2 ∧ (s.model 0).mode ≠ 1 ∧ (0 + 1) * (s.model 0).hopLen ≤ 0 := by decide

theorem witness_slot_full :
    let c : Chunk := { sid := 5, no := 0, slotHeld := true, complete := true }
    (withChunk c).slotDone ((withChunk c).model 0) c = true := by decide

theorem witness_extent : (withChunk { sid := 5, no := 0, phase := .full }).chunk? 5 0 = some { sid := 5, no := 0, phase := .full }
    ∧ (withChunk { sid := 5, no := 0 }).chunk? 5 0 = some { sid := 5, no := 0 } := by decide

/-! ### StreamFollowUpsAct -/

/-- An export that is due, a migration that is due, and an export that is captured. -/
def exp20 : ExportReq := { opcode := 0x20, hostTag := 0, ring := 0, boundary := 0, bufLen := 4096 }

def exp22 : ExportReq := { opcode := 0x22, hostTag := 0, ring := 0, boundary := 0 }

def exp20c : ExportReq := { opcode := 0x20, hostTag := 0, ring := 0, boundary := 0, captured := true }

/-- Stream 5 with one export. -/
def exporting (e : ExportReq) : State := served.putStream 5 { state := .active, exports := [e] }

theorem witness_capture : let s := exporting exp20
    s.captureReady 5 { state := .active, exports := [exp20] } = true
    ∧ (s.repairCommitted 5).stream? 5 = some { state := .active, exports := [exp20] }
    ∧ (exporting exp22).captureReady 5 { state := .active, exports := [exp22] } = true
    ∧ (withStream .active).captureReady 5 { state := .active } = false := by decide

theorem witness_blob_written : let s := exporting exp20c
    (s.fn 0).bme = true ∧ (s.fn 0).resetting = false
    ∧ s.stream? 5 = some { state := .active, exports := [exp20c] } := by decide

theorem witness_idle : (withStream .active).ctl.nmt = .operational ∧ (withStream .active).frozen = false
    ∧ (withStream .active).stream? 5 = some { state := .active }
    ∧ (withStream .held).stream? 5 = some { state := .held } := by decide

/-! ### BatchesFormAndReserve -/

/-- A Square with its engines on, model 1, and stream 5 with one ready chunk that runs model 1. -/
def batching : State :=
  let s := (withModel.putStream 5 { state := .active, cfg := { model := 1, chunkMs := 320 }, running := 1 })
  { s with rb := { s.rb with domain := [(0, 2)] }, str := { s.str with chunks := [{ sid := 5, no := 0, phase := .ready }] } }

theorem witness_batch_close : batching.freeBatch = some 0
    ∧ (batching.forming 1 0 320).map (fun c => (c.sid, c.no)) = [(5, 0)]
    ∧ batching.closes 1 0 320 (batching.forming 1 0 320) = true
    ∧ (bestSquare ((batching.useBlocks 1).finishEstimate [(5, 0)]) (batching.useBlocks 1).placeSquares).isSome = true
    ∧ withModel.closes 1 0 320 (withModel.forming 1 0 320) = false := by decide +kernel

/-- Batch 0 of model 1 at a level. -/
def batchAt (level : Nat) : State := batching.putBatch 0 { model := 1, cls := 0, chunkMs := 320, members := [(5, 0)], level := level }

theorem witness_reserve :
    let b : Batch := { model := 1, cls := 0, chunkMs := 320, members := [(5, 0)], level := 1 }
    Tbl.get? (batchAt 1).str.batches 0 = some b ∧ (batchAt 1).mustYield 0 b 1 = false ∧ (batchAt 1).workFits b = true
    ∧ ((batchAt 1).putBatch 1 { model := 1, cls := 0, chunkMs := 320, handles := 256 }).workFits b = false
    ∧ Tbl.get? (batchAt 4).str.batches 0 = some { b with level := 4 } ∧ (batchAt 4).mustYield 0 { b with level := 4 } 4 = false
    ∧ ((batchAt 4).slotLedger 0).1 + (batchAt 4).inForce 0x4018 4 ≤ ((batchAt 4).slotLedger 0).2
    ∧ Tbl.get? batching.str.batches 0 = none := by decide

/-- Two batches that wait at level 4: the one with the earlier deadline is served first. -/
theorem witness_reserve_yields :
    ((batchAt 4).putBatch 1 { model := 1, cls := 0, chunkMs := 320, level := 4, deadline := 7 }).mustYield 1
      { model := 1, cls := 0, chunkMs := 320, level := 4, deadline := 7 } 4 = true := by decide

theorem witness_evict : withModel.residency 1 ≠ 2 ∧ withModel.modelBusy 1 = false
    ∧ (withModel.setObj 0x2700 2 4).residency 1 = 2 := by decide

/-! ### SwapsMoveState -/

/-- Stream 5 resident at row 0 of a quarter that is on. -/
def resident : State :=
  let s := served.putStream 5 { state := .active, slot := some 0 }
  { s with rb := { s.rb with domain := [(80, 2)] } }

/-- Stream 5 resident and idle, and stream 6 with a ready chunk and no slot. -/
def pressed : State :=
  let s := resident.putStream 6 { state := .active }
  { s with str := { s.str with chunks := [{ sid := 6, no := 0, phase := .ready }] } }

theorem witness_swap_out : resident.stream? 5 = some { state := .active, slot := some 0 } ∧ resident.queuedChunk 5 = none
    ∧ resident.bufBad { state := .active, slot := some 0 } false = false
    ∧ resident.slotPressure = false
    ∧ pressed.stream? 5 = some { state := .active, slot := some 0 } ∧ pressed.queuedChunk 5 = none
    ∧ pressed.slotPressure = true ∧ pressed.coldState 5 { state := .active, slot := some 0 } = true
    ∧ pressed.bufBad { state := .active, slot := some 0 } false = false := by decide

/-- A resident BE stream, and a resident LC stream, each with a chunk that is ready. -/
def queued (cls : Nat) : State :=
  let s := served.putStream 5 { state := .active, slot := some 0, cfg := { cls := cls } }
  { s with str := { s.str with chunks := [{ sid := 5, no := 0, phase := .ready }] } }

theorem witness_victim :
    let s := (queued 1).putStream 6 { state := .active, cfg := { cls := 0 } }
    let u : State := { s with str := { s.str with chunks := s.str.chunks ++ [{ sid := 6, no := 0, phase := .ready }] } }
    u.stream? 5 = some { state := .active, slot := some 0, cfg := { cls := 1 } } ∧ u.queuedChunk 5 ≠ none
    ∧ u.victim 5 { state := .active, slot := some 0, cfg := { cls := 1 } } = true
    ∧ (queued 0).queuedChunk 5 ≠ none ∧ (queued 0).victim 5 { state := .active, slot := some 0 } = false := by decide

theorem witness_swap_in : (withStream .parked).stateSlotFits 5 0 (2 * (withStream .parked).stateRowsOf { state := .parked }) = true
    ∧ (withStream .parked).stream? 5 = some { state := .parked } ∧ ({ state := .parked } : Stream).mirrorBad false = false
    ∧ (withStream .parked).stateSlotFits 5 1 0 = false := by decide

/-! ### ChunksCommitAndReplay -/

/-- Stream 5 resident, its chunk 0 placed; and with a recorded model and aborts. -/
def placed (c : Chunk) : State :=
  let s := served.putStream 5 { state := .active, slot := some 0 }
  { s with str := { s.str with chunks := [c] }, pg := { s.pg with seqs := [(40, { walkersB := 1 })] } }

theorem witness_commit :
    let c : Chunk := { sid := 5, no := 0, phase := .placed }
    let st : Stream := { state := .active, slot := some 0 }
    (placed c).stream? 5 = some st ∧ (placed c).chunk? 5 0 = some c ∧ (placed c).mayCommit st c = true ∧ (placed c).winnerOf st c = 0
    ∧ ((placed c).flushOwn 5 (((placed c).bufRows st true).contains ·)).bufBad st true = false
    ∧ ((((placed c).flushOwn 5 (((placed c).bufRows st true).contains ·)).copyToMirror 5 st true true).commitPoint 5 0 st c).chunk? 5 0 ≠ none
    ∧ (∀ y, ((((placed c).flushOwn 5 (((placed c).bufRows st true).contains ·)).copyToMirror 5 st true true).commitPoint 5 0 st c).stepThree 5 0 y = none)
    ∧ (placed { c with phase := .ready }).mayCommit st { c with phase := .ready } = false := by
  refine ⟨by decide, by decide, by decide, by decide, by decide, by decide, fun y => rfl, by decide⟩

theorem witness_replay :
    let c : Chunk := { sid := 5, no := 0, phase := .ready, aborts := 3, model := some 0 }
    (placed c).chunk? 5 0 = some c ∧ (placed c).obj 0x4010 1 ≤ 3
    ∧ (placed { c with aborts := 1 }).chunk? 5 0 = some { c with aborts := 1 } ∧ 1 < (placed c).obj 0x4010 1
    ∧ (placed { c with phase := .committing }).chunk? 5 0 = some { c with phase := .committing } := by decide

/-! ### DescriptorsAreAcceptedOrRefused -/

/-- A NOP for MX 0 of Square 0, with a core to complete to. -/
def nopDesc : Words8 := ⟨0, 0, 0, 0, 0, 0, 0, 0⟩

/-- The device in service with every engine domain on. -/
def powered : State := { served with rb := { domain := (List.range 90).map fun n => (n, 2) } }

/-- A NOP with a deadline is accepted as it stands. -/
def goodDesc : Words8 := ⟨0, 1, 0, 0, 0, 0, 0, 0⟩

theorem witness_submit : powered.coreRuns 1 = true ∧ powered.slotFree false = true ∧ powered.queueFull 0 false = false ∧ powered.slotFree true = true
    ∧ (powered.refusal 1 nopDesc).isSome = true ∧ powered.refusal 1 goodDesc = none
    ∧ ({ powered with pw := { powered.pw with powerState := 4 } } : State).coreRuns 1 = false ∧ opInfo (ent3 0xFF 0 0) = none := by decide

/-! ### CommandsAreChosenAndClaim -/

/-- A NOP accepted for MX 0. -/
def nopQueued : State := { powered with rb := { powered.rb with cmds := [{ seq := 0, desc := nopDesc }] } }

/-- A command of MX 0 that wants to claim a mode of slot 0. -/
def claiming (mode : Nat) : State :=
  { powered with rb := { powered.rb with cmds := [{ seq := 0, desc := nopDesc, phase := .issued, wanted := [⟨false, 0, mode, 0⟩] }] } }

theorem witness_issue : (nopQueued.atEngine? 0) = none ∧ nopQueued.engineFree 0 = true ∧ nopQueued.dutyOpen = true
    ∧ (nopQueued.choose 0 nopQueued.rb.cmds).isSome = true
    ∧ (nopQueued.rb.cmds.filter fun c => c.desc.engine == 0 && c.phase == .queued && nopQueued.eligible c).isEmpty = false
    ∧ nopQueued.rb.cmds.all (fun x => !x.desc.isBe) = true
    ∧ powered.atEngine? 0 = none ∧ powered.rb.cmds = [] ∧ State.reset.engineFree 0 = false := by decide

theorem witness_claim : (powered.atEngine? 0) = none
    ∧ (((claiming 1).atEngine? 0).map fun c => ((claiming 1).waits c, c.wanted)) = some (false, [⟨false, 0, 1, 0⟩])
    ∧ (((claiming 1).claimTag ⟨false, 0, 1, 0⟩).claim 1).isSome = true
    ∧ (((claiming 0).claimTag ⟨false, 0, 0, 0⟩).claim 0).isNone = true := by decide

/-! ### CommandsComplete -/

/-- A NOP at MX 0 in a phase, that may run. -/
def nopAt (ph : Phase) : State :=
  { powered with rb := { powered.rb with cmds := [{ seq := 0, desc := nopDesc, phase := ph, stage := 2 }] } }

/-- A held record of command 0. -/
def heldOf : State := { nopAt .ended with rb := { (nopAt .ended).rb with heldMail := [{ core := 1, src := 0, mail := ⟨0, [], none⟩, cmd := some 0 }] } }

theorem witness_nop_cmd : ((nopAt .issued).ready? 0 0x00).isSome = true := by decide

theorem witness_complete : powered.atEngine? 0 = none
    ∧ (nopAt .ended).atEngine? 0 = some { seq := 0, desc := nopDesc, phase := .ended, stage := 2 }
    ∧ (nopAt .ended).rb.heldMail = [] ∧ (heldOf.rb.heldMail.any fun h => h.cmd == some 0) = true
    ∧ (∀ x ∈ (nopAt .ended).rb.cmds, x.shadow = true → x.seq = 0 → x.phase = .ended)
    ∧ hasAbortFlag 0 = false ∧ mustPost (ent3 0 (2 ^ 60) 0) .done (2 ^ 5) = true := by decide

theorem witness_cmd_timeout : let c : Cmd := { seq := 0, desc := nopDesc, phase := .issued, stage := 2 }
    (nopAt .issued).atEngine? 0 = some c ∧ (nopAt .issued).waits c = false ∧ (nopAt .issued).waitsForRoom c = false := by decide

/-! ### ReportsMailboxesAndStorms -/

theorem witness_mailbox : Tbl.getD ({ powered with rb := { powered.rb with mail := [(1, [⟨2, [7], none⟩])] } } : State).rb.mail [] 1 = ⟨2, [7], none⟩ :: []
    ∧ Tbl.getD powered.rb.mail [] 1 = [] := by decide

theorem witness_storm : ({ powered with str := { powered.str with missSecond := 70000 } } : State).inForce 0x2500 9
      < ({ powered with str := { powered.str with missSecond := 70000 } } : State).str.missSecond
    ∧ powered.str.missSecond ≤ powered.inForce 0x2500 9 := by decide

theorem witness_wait_report : (claiming 0).rb.cmds.find? (fun c => c.seq == 0 && !c.shadow)
      = some { seq := 0, desc := nopDesc, phase := .issued, wanted := [⟨false, 0, 0, 0⟩] }
    ∧ (claiming 0).inForce 0x4018 2 = 1 ∧ ((claiming 0).setObj 0x4018 2 0).inForce 0x4018 2 ≠ 1 ∧ powered.rb.cmds.find? (fun c => c.seq == 0 && !c.shadow) = none
    ∧ ({ powered with rb := { powered.rb with heldMail := [⟨1, 0, ⟨2, [], none⟩, 0, false, none, none⟩] } } : State).rb.heldMail[0]?
      = some ⟨1, 0, ⟨2, [], none⟩, 0, false, none, none⟩ := by decide

/-! ### DatapathsRunAndLand -/

/-- A TILE_STORE of tile 0 of MX 0 of Square 0 into untagged rows from 0 on, ready to run, as command 0. -/
def storing : Cmd := { seq := 0, desc := ent3 0x11 0 0, phase := .issued, stage := 2, ops := [{ used := true, bound := 64 }] }

/-- The device with one command at MX 0. -/
def engineAt (c : Cmd) : State := { powered with rb := { powered.rb with cmds := [c] } }

theorem witness_path_idle : datapath (.tileStore 0 {}) = some (0, {}, tileStorePath) ∧ powered.ready? 0 0x11 = none := ⟨rfl, by decide⟩

theorem witness_path_ready : (engineAt storing).ready? 0 0x11 = some storing ∧ (opInfo storing.desc).isSome = true
    ∧ storing.ctl.or (ctlLost {}) = none ∧ storing.ctl.or (ctlLost { ctl := [.other 0] }) ≠ none := by decide

/-- How the run of the TILE_STORE ends at a device. -/
def storeEnd (s : State) (p : Datapath) : Option PathEnd := (opInfo storing.desc).map (s.pathEnd p storing)

/-- Whether a run ends with a result, without flags, narrow writes and cache pages, and with its rows apart. -/
def plainEnd : Option PathEnd → Bool
  | some (.data _ r) => !hasAbortFlag r.flags && !hasCheckFlag r.flags && r.narrow.isEmpty && r.pages.isEmpty
      && decide (r.rows.map fun w => (storing.ops.getD w.1 {}).base + w.2.1).Nodup
  | _ => false

theorem witness_path_runs : plainEnd (storeEnd (engineAt storing) tileStorePath) = true := by decide +kernel

/-- Whether a run ends at a tile row, at a row, or at a check. -/
def badEnd : Option PathEnd → Nat
  | some (.row _) => 1
  | some (.tile _ _) => 2
  | some (.check _ _) => 3
  | _ => 0

theorem witness_path_bad_tile : badEnd (storeEnd { engineAt storing with st := { powered.st with accErr := [(5, 2)] } } tileStorePath) = 2 := by
  decide +kernel

theorem witness_path_poisoned : badEnd (storeEnd
    { engineAt storing with st := { powered.st with spErr := [(0, [(0, 1), (4, 2), (8, 3), (12, 4)])] } } { tileStorePath with extra := fun _ _ => [0] }) = 1 := by
  decide +kernel

theorem witness_path_check : badEnd (storeEnd (engineAt storing) { tileStorePath with checks := [{ ops := fun _ => [], fails := fun _ _ => some {} }] }) = 3 := by
  decide +kernel

/-- A command that reads the row that it writes, with a path that writes it, and one that ends with an abort flag. -/
def echoing : Cmd := { storing with desc := ent3 0x58 0 0, ops := [{ used := true, bound := 64 }, { used := true, bound := 64 }] }

theorem witness_path_overlap : (((opInfo echoing.desc).map fun i =>
      match (engineAt echoing).pathEnd { op := 0x58, data := fun _ _ => { rows := [(1, 0, [])] } } echoing i with
      | .data _ r => overlaps echoing i.roles ((engineAt echoing).spans echoing.desc echoing.ops) r
      | _ => false) = some true)
    ∧ (((opInfo echoing.desc).map fun i =>
      match (engineAt echoing).pathEnd { op := 0x58, data := fun _ _ => { flags := oneFlag flTimeout } } echoing i with
      | .data _ r => (hasAbortFlag r.flags, bitAt r.flags flSeResidue)
      | _ => (false, false)) = some (true, false)) := by decide +kernel

/-- An AT command that walks nothing, ready to run. -/
def walking (op : Nat) : Cmd := { seq := 0, desc := ent3 op 0 0, phase := .issued, stage := 2 }

theorem witness_walk : (engineAt (walking 0x41)).ready? 0 0x41 = some (walking 0x41)
    ∧ (engineAt (walking 0x42)).ready? 0 0x42 = some (walking 0x42) ∧ (walking 0x41).ctl.or (ctlLost {}) = none
    ∧ ((((engineAt (walking 0x41)).upset 0 {}).putCmd (walking 0x41)).walkPages (walking 0x41) 1) = []
    ∧ ((((engineAt (walking 0x41)).upset 0 {}).putCmd (walking 0x41)).port 0).state ≠ .up := by decide +kernel

/-! ### TokenAttentionAndEgressCommands -/

/-- A command of stream 5 that is ready to run at an engine, on a device where the stream has chunk 0. -/
def chunkCmd (op eng : Nat) : Cmd :=
  { seq := 0, desc := ent3 (op + eng * 2 ^ 8 + 5 * 2 ^ 21) 0 0, phase := .issued, stage := 2 }

/-- The device with that command at its engine. -/
def chunkAt (op eng : Nat) : State :=
  let s := batching
  { s with rb := { s.rb with domain := (List.range 90).map fun n => (n, 2), cmds := [chunkCmd op eng] } }

/-- Whether a command of stream 5 lands at an engine, with the number of chunks that it and the device then see for it. -/
def landsAt (op eng : Nat) (p : Datapath) : Option (Nat × Nat) :=
  ((chunkAt op eng).landed? eng {} p).map fun x => ((x.2.1.cmdChunks x.1.desc).length, (x.2.2.cmdChunks x.1.desc).length)

theorem witness_select : landsAt 0x50 0x43 tkSelectPath = some (1, 1) := by decide +kernel

theorem witness_topk : landsAt 0x51 0x43 tkTopkPath = some (1, 1) := by decide +kernel

theorem witness_verify : landsAt 0x52 0x43 tkVerifyPath = some (1, 1) := by decide +kernel

/-- A TK_PREFIX that keeps one prefix. -/
def prefixing : State :=
  { chunkAt 0x53 0x43 with rb := { (chunkAt 0x53 0x43).rb with cmds := [{ chunkCmd 0x53 0x43 with desc := { (chunkCmd 0x53 0x43).desc with w2 := 2 ^ 17 } }] } }

theorem witness_prefix : landsAt 0x53 0x43 tkPrefixPath = some (1, 1)
    ∧ (prefixing.landed? 0x43 {} tkPrefixPath).map (fun x => ((x.2.2.cmdChunks x.1.desc).length, (x.2.1.prefixesOut x.1).1.isEmpty))
      = some (1, false) := by decide +kernel

theorem witness_detok : landsAt 0x54 0x43 tkDetokPath = some (1, 1) := by decide +kernel

theorem witness_egress_cmds : landsAt 0x58 0x45 egProvPath = some (1, 1) ∧ landsAt 0x59 0x45 egOlaPath = some (1, 1) := by decide +kernel

theorem witness_context : ((chunkAt 0x64 0x41).landed? 0x41 {} feCtxPath).map (fun x => (x.2.1.members x.1.desc).length) = some 1 := by
  decide +kernel

/-- An AT_APPEND of no token at sequence 40, of which it took copy A. -/
def appending : State :=
  let s := chunkAt 0x40 0x6
  { s with rb := { s.rb with cmds := [{ chunkCmd 0x40 0x6 with map := [[40, 0]], walks := [(40, false)] }] }
           pg := { s.pg with seqs := [(40, { valid := true })] } }

theorem witness_append : (appending.landed? 0x6 {} (atAppendPath {})).map (fun x =>
      ((match x.2.1.appendAll x.1 (x.2.1.atModel x.1.desc).cache.tokensPerPage x.1.atMembers with
        | .ok l => l.map (·.1)
        | .error _ => []),
       (Tbl.get? x.2.2.pg.seqs 40).isSome, x.1.walks.find? (·.1 == 40))) = some ([40], true, some (40, false)) := by decide +kernel

/-! ### CoresSetTagsAndPost -/

/-- A TAG_SET of CC0 for an untagged operand, for slot 0, or for tile 0 of MX 0. -/
def tagSetting (tile : Bool) (slot : Nat) : Cmd :=
  { seq := 0, desc := ⟨0x507C, 0, BitVec.ofNat 64 (2 ^ 6 * b2n tile), 0, 0, 0, 0, 0⟩, phase := .issued, stage := 2, ops := [{ used := true, slotRows := slot, bound := 4 }] }

theorem witness_tag_set : (engineAt (tagSetting false 0)).ready? 0x50 0x7C = some (tagSetting false 0)
    ∧ (engineAt (tagSetting false 4)).ready? 0x50 0x7C = some (tagSetting false 4)
    ∧ (tagSetting false 4).desc.param 6 1 ≠ 1 ∧ (tagSetting true 0).desc.param 6 1 = 1
    ∧ (tagSetting false 4).ctl.or (ctlLost { ctl := [.lost 1] }) ≠ none ∧ (tagSetting false 4).ctl = none ∧ ctlLost {} = none
    ∧ (engineAt (tagSetting true 0)).ready? 0x50 0x7C = some (tagSetting true 0) ∧ engineDomain ((tagSetting true 0).desc.param 7 8) = some 0
    ∧ (engineAt (tagSetting true 0)).domain 0 = 2 ∧ powered.ready? 0x50 0x7C = none := by decide

theorem witness_mb_post : (engineAt { seq := 0, desc := ent3 (0x7D + 0x50 * 2 ^ 8) 0 0, phase := .issued, stage := 2 }).ready? 0x50 0x7D
    = some { seq := 0, desc := ent3 (0x7D + 0x50 * 2 ^ 8) 0 0, phase := .issued, stage := 2 } ∧ powered.ready? 0x50 0x7D = none := by decide

/-! ### InputIsReleasedAndEgressMoves -/

/-- A command of stream 5 at EG in the middle of the commit of chunk 0. -/
def publishing (step : Nat) : State := (chunkAt 0x5A 0x45).modStream 5 fun x => { x with cr := { x.cr with step := step } }

theorem witness_in_release : (chunkAt 0x60 0x40).ready? 0x40 0x60 = some (chunkCmd 0x60 0x40)
    ∧ ((((chunkAt 0x60 0x40).upset 0x40 {}).putCmd (chunkCmd 0x60 0x40)).cmdChunks (chunkCmd 0x60 0x40).desc).length = 1
    ∧ powered.ready? 0x40 0x60 = none ∧ (chunkCmd 0x60 0x40).ctl = none := by decide +kernel

theorem witness_eg_publish : (publishing 3).ready? 0x45 0x5A = some (chunkCmd 0x5A 0x45)
    ∧ (((publishing 3).upset 0x45 {}).putCmd (chunkCmd 0x5A 0x45)).members (chunkCmd 0x5A 0x45).desc = [(5, 0)]
    ∧ (((publishing 3).upset 0x45 {}).putCmd (chunkCmd 0x5A 0x45)).atStepThree (5, 0) = true
    ∧ (((publishing 0).upset 0x45 {}).putCmd (chunkCmd 0x5A 0x45)).atStepThree (5, 0) = false
    ∧ powered.ready? 0x45 0x5A = none := by decide +kernel

/-- An output ring with one record in its queue and room in the host ring. -/
def draining1 : State := (powered.setFn 0 { (powered.fn 0) with bme := true }).setOq 0 0 { enable := true, log2 := 4, queue := [(mkRec 1 5 0 0, [])] }

theorem witness_drain : (draining1.oq 0 0).enable = true ∧ (draining1.fn 0).bme = true ∧ draining1.overdrawn 0 = false
    ∧ Nat.min (draining1.oq 0 0).queue.length (draining1.oq 0 0).room ≠ 0 ∧ draining1.str.waiting = [] ∧ (State.reset.oq 0 0).enable = false := by decide

/-! ### LanesMoveData -/

/-- A Lane command of Lane 0: direction, rows or bytes. -/
def laneCmd (op dir n : Nat) : Cmd :=
  { seq := 0, desc := ⟨BitVec.ofNat 64 (op + 0x48 * 2 ^ 8), 0, BitVec.ofNat 64 (dir + 4 * n), 0, 0, 0, 0, 0⟩, phase := .issued, stage := 2
    ops := [{ used := true, bound := 64 }, { used := true, bound := 64, base := 100 }] }

/-- The device with that command at Lane 0 and bus mastering on. -/
def laneAt (op dir n : Nat) : State := (engineAt (laneCmd op dir n)).setFn 0 { present := true, bme := true }

theorem witness_lane : (laneAt 0x70 0 1).ready? 0x48 0x70 = some (laneCmd 0x70 0 1) ∧ (laneCmd 0x70 1 1).desc.param 0 2 = 1
    ∧ (laneAt 0x71 0 1).ready? 0x48 0x71 = some (laneCmd 0x71 0 1) ∧ ((laneAt 0x71 0 1).fn ((laneAt 0x71 0 1).tablePart (laneCmd 0x71 0 1).desc)).bme = true
    ∧ (laneCmd 0x71 3 8).desc.param 0 2 = 3 ∧ powered.ready? 0x48 0x70 = none ∧ powered.ready? 0x48 0x71 = none := by decide

/-- Whether the command at Lane 0 reads its rows to the end. -/
def readsRows (s : State) (op n : Nat) : Bool :=
  match s.ready? 0x48 op with
  | none => false
  | some c => match opInfo c.desc with
    | none => false
    | some i => match ((s.upset 0x48 {}).putCmd c).pathEnd (rowsOutPath op n fun t _ _ => t) c i with
      | .data _ _ => !c.shadow
      | _ => false

theorem witness_lane_copy : ((laneAt 0x70 0 1).laneRead 0x48 0 512).2.2 = none
    ∧ readsRows (laneAt 0x70 1 1) 0x70 1 = true ∧ readsRows (laneAt 0x71 1 8) 0x71 1 = true
    ∧ ((laneAt 0x71 3 8).laneRead 0x48 0 8).2.2 = none := by decide +kernel

theorem witness_lane_bad_line : let r := State.laneRead { laneAt 0x70 0 1 with st := { powered.st with hbmErr := [(0, [(0, 1), (1, 2), (2, 3), (3, 4)])] } } 0x48 0 512
    r.2.2 = some 0 ∧ (r.2.1.ready? 0x48 0x70).isSome = true ∧ (laneCmd 0x70 0 1).ctl = none := by decide +kernel

/-! ### LanesReachPeers -/

/-- Lane 0 with a remote command of `n` rows, and a port up to device 0 that granted rows 0 to 15 of handle 0. -/
def peerAt (op n : Nat) : State :=
  let c : Cmd := { seq := 0, desc := ⟨BitVec.ofNat 64 (op + 0x48 * 2 ^ 8), 0, BitVec.ofNat 64 (8 * n), 0, 0, 0, 0, 0⟩, phase := .issued, stage := 2, ops := [{ used := true, bound := 64 }] }
  let s := (engineAt c).setPort 0 { state := .up, peerDev := 0 }
  { s with xr := { s.xr with grants := [{ peer := 0, number := 3, part := 0, handle := 0, first := 0, rows := 16 }] } }

theorem witness_peer : ((peerAt 0x72 1).ready? 0x48 0x72).isSome = true ∧ (peerAt 0x72 1).portTo 0 = some 0
    ∧ ((peerAt 0x72 1).grantFor 0 0 0 0 1).isSome = true ∧ ((peerAt 0x72 1).grantFor 0 0 0 0 17) = none
    ∧ ((peerAt 0x73 0).ready? 0x48 0x73).isSome = true ∧ ((peerAt 0x74 1).ready? 0x48 0x74).isSome = true
    ∧ (laneAt 0x72 0 0).portTo 0 = none ∧ ((laneAt 0x72 0 0).ready? 0x48 0x72).isSome = true := by decide

theorem witness_rwrite : readsRows (peerAt 0x72 1) 0x72 1 = true := by decide +kernel

/-! ### HandleUnitAcceptsOrKeeps -/

/-- An entry for rows 0 to 63 of Square 0 for every Square, and one whose mask is 0. -/
theorem witness_handle : handleAccepts (BitVec.ofNat 64 (0xF + 0xFF * 2 ^ 8 + 64 * 2 ^ 40), 4) = true
    ∧ (HandleEntry.of (BitVec.ofNat 64 (0xF + 64 * 2 ^ 40), 4)).mask = 0 ∧ (Operand.ofRec 0xFF).handle = 0xFF := by decide

/-! ### NarrowWritesAndBatchTable -/

/-- Handle 0 of partition 0 opens rows 0 to 63, untagged or in slots of 4, with quarter 0 on. -/
def handled (slot : Nat) : State :=
  { powered with st := { powered.st with handles := [(0, (BitVec.ofNat 64 (0xD + 0xFF * 2 ^ 8 + 64 * 2 ^ 40), BitVec.ofNat 64 slot))] } }

theorem witness_narrow : (handled 0).narrowOk 0 0 5 = true ∧ (HandleEntry.of ((handled 0).handle 0 0)).slotRows = 0
    ∧ (handled 4).narrowOk 0 0 5 = true ∧ (HandleEntry.of ((handled 4).handle 0 0)).slotRows = 4
    ∧ (narrowClaim {} 0x45 1).isSome = true ∧ narrowClaim {} 0x45 0 = none ∧ powered.narrowOk 0 0 5 = false
    ∧ narrowReads (.scale 0 0) = [0] := by decide

theorem witness_narrow_record : let s : State := { handled 0 with st := { (handled 0).st with spErr := [(0, [(0, 1), (4, 2), (8, 3), (12, 4)])] } }
    (s.countReads (narrowReads (.scale 0 0))).2 = some 0 ∧ (s.narrowBytes 4 0 (.scale 0 0)).length = 16 ∧ s.narrowOk 0 0 5 = true := by decide +kernel

theorem witness_idle_flush : let s : State := { powered with st := { powered.st with gather := [(3, [{ row := 7, bytes := [(0, 9)] }])] } }
    (s.gatherPort 3).filter (fun b => b.row == 7) = [{ row := 7, bytes := [(0, 9)] }] ∧ s.rowPoisoned 7 = false := by decide

/-! ### OnlyThePfLoadsAndUnloads -/

/-- VF 1 with ring 0 enabled and an entry to read. -/
def vfServed : State :=
  let s := served.setFn 1 { (served.fn 0) with present := true, bme := true }
  s.setSq 1 0 { (s.sq 1 0) with enable := true, tail := 1 }

theorem witness_vf : vfServed.consumes 1 0 false = true := by decide

/-! ### FullSubmissionsAreRetried -/

/-- The device with 64 commands queued for MX 0. -/
def crowded : State := { powered with rb := { powered.rb with cmds := (List.range 64).map fun n => { seq := n, desc := nopDesc } } }

theorem witness_retry : (unitOf (Desc.engine nopDesc)).isSome = true ∧ crowded.queueFull (Desc.engine nopDesc) (Desc.isBe nopDesc) = true
    ∧ crowded.coreRuns 1 = true ∧ (turnOrder 0 [((1 : Core), nopDesc)]).length = 1 := by
  decide

/-! ### QuartersAndMxDomainsSwitch -/

/-- A device whose quarter 0 is in a domain state. -/
def quarterIn (x : Nat) : State := powered.setDomain (quarterDomain 0) x

theorem witness_quarters : (quarterIn 2).quarterOn 0 = true ∧ (quarterIn 0).quarterOn 0 = false ∧ (quarterIn 3).domain (quarterDomain 0) = 3
    ∧ ((quarterIn 3).rb.cmds.any fun c => (quarterIn 3).holdsQuarter 0 c) = false ∧ (quarterIn 1).domain (quarterDomain 0) = 1
    ∧ (quarterIn 0).domain (quarterDomain 0) = 0 := by decide

theorem witness_drain_held : let c : Cmd := { storing with phase := .parked }
    let s : State := { quarterIn 3 with rb := { (quarterIn 3).rb with cmds := [c] } }
    (s.rb.cmds.any fun c => c.phase == .parked && s.holdsQuarter 0 c) = true ∧ s.domain (quarterDomain 0) = 3 := by decide +kernel

theorem witness_mx_down : engineDomain (mxEngine 0) = some 0 ∧ powered.domain 0 = 2 ∧ powered.mxIdle 0 = true
    ∧ (nopAt .issued).mxIdle 0 = false ∧ State.reset.domain 0 = 0 := by decide

/-! ### ScrubbersVisitAndRepair -/

theorem witness_scrub : ((quarterIn 2).upset 0xFF {}).scrubRow 0 0 = some 0 ∧ (State.reset.upset 0xFF {}).scrubRow 0 0 = none
    ∧ rowVerdict [] = 0 ∧ rowVerdict [(0, 3)] = 1 ∧ rowVerdict [(0, 1), (4, 2), (8, 3), (12, 4)] = 2
    ∧ lineVerdict [] = 0 ∧ lineVerdict [(0, 1)] = 1 ∧ lineVerdict [(0, 1), (1, 2), (2, 3), (3, 4)] = 2 := by decide +kernel

theorem witness_scrub_weight : powered.weightAt 0 = none
    ∧ (({ powered with str := { powered.str with models := [(1, { state := 1, copyA := [(0, 64)], copyB := [(4096, 64)] })] } } : State).weightAt 0).isSome
      = true := by decide +kernel

/-! ### CoresAreResetAndServeAgain -/

/-- The device with control core 1 down. -/
def coreOut : State := { powered with ctl := { powered.ctl with coresDown := [1] } }

theorem witness_cores : coreOut.ctl.coresDown.contains 1 = true ∧ coreOut.ctl.coresDown.contains 0 = false ∧ coreOut.coreRuns 0 = true ∧ coreOut.coreRuns 1 = false
    ∧ coreOut.ctl.emcy.length < 32 ∧ (∀ x ∈ coreOut.str.chunks, coreOut.runsOn x 0 = false) := by decide

/-! ### StepBoundariesJoinAndShortageDemotes -/

/-- A served device whose only sequence is beam 0 of stream 5, whose chunk 0 is placed. -/
def seqAt (x : Sequence) : State :=
  let s := batching
  { s with pg := { s.pg with seqs := [(40, x)] }
           str := { s.str with chunks := [{ sid := 5, no := 0, phase := .placed }] } }

/-- The pools with 8 frames of each kind, and a watermark. -/
def pooled (s : State) (low : Nat) : State :=
  ((s.setObj 0x2900 1 8).setObj 0x2900 2 8).setObj 0x2900 4 low

theorem witness_boundary : State.reset.seqIds = [] ∧ (let s := pooled (seqAt {}) 0
    s.seqIds = [40] ∧ s.seq? 40 = some {} ∧ (s.placedChunk 5).isSome = true ∧ s.mayEdit 40 = true ∧ s.tailsToCopy {} = [] ∧ s.mayTake 40 1 = true) := by
  decide +kernel

/-- A sequence of one committed page. -/
def onePage : Sequence := { copyA := { model := 1, committedLen := 256, rebuiltLen := 256, entries := [{ page := 0, valid := true }] } }

/-- The device with that sequence and pools. -/
def paged (x : Sequence) (low : Nat) : State := pooled (seqAt x) low

theorem witness_demote : (paged onePage 9).demoteOrder = [40] ∧ (paged onePage 9).freeOnchip < (paged onePage 9).obj 0x2900 4
    ∧ (paged onePage 9).demotable 40 = some 0 ∧ (paged onePage 9).nextSpill = some 0 ∧ ((paged onePage 9).lanePage 0).2.isSome = true
    ∧ (paged onePage 9).seqsNaming 0 = [40] ∧ (paged onePage 9).obj 0x2900 2 ≤ 524288 ∧ (paged onePage 0).demoteOrder = [40]
    ∧ (paged onePage 0).obj 0x2900 4 ≤ (paged onePage 0).freeOnchip ∧ State.reset.demoteOrder = [] := by decide +kernel

theorem witness_page_wait : (let s := (seqAt { onePage with pageWait := true }).setObj 0x2900 5 0
      (sortBy (fun q => ((s.seq? q).map (·.waitSince)).getD 0) (s.seqIds.filter fun q => ((s.seq? q).map (·.pageWait)).getD false)) = [40]
      ∧ 0 + s.obj 0x2900 5 * 1000000 ≤ s.now ∧ s.youngestBe (some 40) = none)
    ∧ (let s := (seqAt { onePage with pageWait := true }).setObj 0x2900 5 4
      s.now < 0 + s.obj 0x2900 5 * 1000000)
    ∧ (let s : State := { seqAt onePage with pg := { seqs := [(40, { onePage with pageWait := true }), (48, onePage)] } }
      s.youngestBe (some 40) = some 48) := by decide +kernel

theorem witness_rebuild : (seqAt {}).seq? 48 = none ∧ ((seqAt onePage).seq? 40).isSome = true
    ∧ (onePage.table.entries.find? fun e => e.valid && (seqAt onePage).pageBad e.page) = none
    ∧ (let s : State := { seqAt onePage with st := { spErr := [(0, [(0, 1), (4, 2), (8, 3), (12, 4)])] } }
      (onePage.table.entries.find? fun e => e.valid && s.pageBad e.page) = some { page := 0, valid := true }) ∧ onePage.editable = true
    ∧ { onePage with walkersB := 1 }.editable = false := by decide +kernel

/-! ### TablesAreEditedAndLookedUp -/

theorem witness_fork : (seqAt onePage).seq? 40 = some onePage ∧ Tbl.get? (seqAt onePage).pg.seqs 41 = none ∧ (seqAt onePage).atBusy 5 = false
    ∧ (seqAt onePage).mayEdit 40 = true ∧ (seqAt onePage).mayEdit 41 = false := by decide +kernel

theorem witness_fork_busy : (let s := seqAt onePage
      ({ s with rb := { s.rb with cmds := [{ seq := 0, desc := ent3 (0x41 + 5 * 2 ^ 21) 0 0 }] } } : State).atBusy 5) = true := by decide +kernel

theorem witness_prefix_lookup : ((seqAt {}).setObj 0x2A00 1 0).obj 0x2A00 1 = 0 ∧ ((seqAt {}).setObj 0x2A00 1 1).obj 0x2A00 1 ≠ 0
    ∧ (seqAt {}).pg.nodes = [] ∧ (seqAt {}).seqTp {} = 256 ∧ (seqAt {}).seq? 40 = some {} ∧ (seqAt {}).mayEdit 40 = true := by decide +kernel

theorem witness_prefix_hit : (List.replicate 256 7).length = (seqAt {}).seqTp {}
    ∧ (let s := seqAt {}
      let n : TreeNode := { slot := 0, part := s.treePart 0, parent := 0xFFFFFFFF, tokens := List.replicate 256 7, page := 3 }
      ({ s with pg := { s.pg with nodes := [(0, n)] } } : State).treePart 0 = n.part) := by decide +kernel

/-! ### FramesWaitForTheirCommand -/

/-- Port 0 up to device 1 with a frame that waits. -/
def rxAt (f : Frame) : State := powered.setPort 0 { state := .up, peerDev := 1, rx := [f] }

theorem witness_frames : frameCmd (.write 0) = some (0, ofType 1) ∧ powered.takeFrame 0 (ofType 1) = none
    ∧ ((rxAt { vc := 0, type := 1 }).takeFrame 0 (ofType 1)).isSome = true := ⟨rfl, by decide, by decide⟩

/-! ### RemoteWritesLandAndTagsAreSet -/

/-- Port 0 with a frame that waits and a receive descriptor 3 of device 1. -/
def rxDescAt (f : Frame) (d : RxDesc) : State :=
  let s := rxAt f
  { s with xr := { s.xr with rxDescs := [(3, d)] } }

/-- A descriptor of 4 rows from row 8 on. -/
def desc4 : RxDesc := { src := 1, part := 0, handle := 0, first := 0, rows := 4, base := 8, stream := 5, chunk := 0, mode := 1 }

/-- What taking the waiting frame leaves. -/
def taken (s : State) (sel : Frame → Bool) : Option (Frame × State) := s.takeFrame 0 sel

theorem witness_write : (taken (rxDescAt { vc := 0, type := 1, txn := 3, frame := 5 } desc4) (ofType 1)).map (fun x => (x.2.descOf 0 x.1, x.2.rowPoisoned 9))
      = some (some desc4, false)
    ∧ (taken (rxDescAt { vc := 0, type := 1, txn := 3, frame := 16 } desc4) (ofType 1)).map (fun x => x.2.descOf 0 x.1) = some (some desc4)
    ∧ (taken (rxDescAt { vc := 0, type := 1, txn := 2 } desc4) (ofType 1)).map (fun x => x.2.descOf 0 x.1) = some none := by decide +kernel

theorem witness_write_run : let d : RxDesc := { desc4 with run := [(4, [1]), (5, [2]), (6, [3])] }
    (taken (rxDescAt { vc := 0, type := 1, txn := 3, frame := 7, payload := [4] } d) (ofType 1)).map (fun x =>
      let run := (d.run.filter fun y => y.1 / 4 == x.1.frame / 4 && y.1 != x.1.frame) ++ [(x.1.frame, slice x.1.payload 0 128)]
      ((x.2.descOf 0 x.1) == some d, (List.range 4).all fun q => (run.find? fun y => y.1 % 4 == q).isSome)) = some (true, true) := by decide +kernel

theorem witness_write_end : let f : Frame := { vc := 1, type := 2, txn := 3, payload := [0, 1, 0, 0, 1] }
    (taken (rxDescAt f desc4) (ofType 2)).map (fun x => (x.2.descOf 0 x.1, (Addr.of x.1.payload).mode, (Addr.of x.1.payload).rows)) = some (some desc4, 1, 1)
    ∧ desc4.done (0, 1, 1, 0) = false ∧ desc4.tag ≠ some 2 ∧ ({ desc4 with tag := some 2 } : RxDesc).tag = some 2 ∧ ({ desc4 with landed := [0, 1, 2, 3] } : RxDesc).done (0, 1, 1, 0) = true
    ∧ (taken (rxDescAt { f with txn := 2 } desc4) (ofType 2)).map (fun x => x.2.descOf 0 x.1) = some none := by decide +kernel

/-- Port 0 with a LANDED frame of transaction 3 and an operation of command 0. -/
def opAt (req : Frame) (f : Frame) : State :=
  let s := rxAt f
  { s with xr := { s.xr with ops := [{ port := 0, txn := 3, cmd := 0, req := req }] }
           rb := { s.rb with cmds := [{ seq := 0, desc := nopDesc, phase := .issued, remoteLeft := 1 }] } }

theorem witness_landed : let f : Frame := { vc := 1, type := 3, txn := 3, payload := [0, 0] }
    (taken (opAt { vc := 1, type := 2, txn := 3, payload := [0, 1] } f) (ofType 3)).map (fun x => (x.2.opOf 0 3 [2, 4, 5, 8]).isSome) = some true
    ∧ (taken (rxAt f) (ofType 3)).map (fun x => (x.2.opOf 0 3 [2, 4, 5, 8]).isNone) = some true := by decide +kernel

/-- Handle 0 of partition 0, global, with a frame that waits. -/
def handledAt (slot : Nat) (f : Frame) : State := (handled slot).setPort 0 { state := .up, peerDev := 1, rx := [f] }

theorem witness_rtag : let f : Frame := { vc := 1, type := 4, payload := [0, 0, 5, 0, 1, 0, 2] }
    (taken (handledAt 0 f) (ofType 4)).map (fun x => ((x.2.resolveRemote 0 0 5 1 false false).toOption.map fun o => o.slotRows)) = some (some 0)
    ∧ (taken (handledAt 4 f) (ofType 4)).map (fun x => ((x.2.resolveRemote 0 0 5 1 false false).toOption.map fun o => o.slotRows)) = some (some 4)
    ∧ (taken (rxAt f) (ofType 4)).map (fun x => (x.2.resolveRemote 0 0 5 1 false false).toOption) = some none := by decide +kernel

/-! ### RemoteReadsWalksAndRegistrations -/

theorem witness_rread : let paged : Frame := { vc := 0, type := 5, payload := [0xFF, 128, 0, 0, 1, 0, 0, 0, 0, 0, 0, 0, 40, 0] }
    let slot : Frame := { vc := 0, type := 5, payload := [0, 0, 0, 0, 1, 0] }
    (taken (rxAt paged) (ofType 5)).map (fun x => ((Addr.of x.1.payload).paged, (x.2.pageGrant 0 (Addr.of x.1.payload)).isSome)) = some (true, true)
    ∧ (taken ({ (seqAt onePage).setPort 0 { state := .up, peerDev := 1, rx := [paged] } with xr := { ((seqAt onePage).setPort 0 { state := .up, peerDev := 1, rx := [paged] }).xr with
        walks := [{ port := 0, seq := 40, copy := false, chunk := 0 }] } }) (ofType 5)).map (fun x => (x.2.pageGrant 0 (Addr.of x.1.payload)).isNone) = some true
    ∧ (taken (handledAt 0 slot) (ofType 5)).map (fun x => ((Addr.of x.1.payload).paged, (x.2.resolveRemote 0 0 0 1 true false).toOption.map fun o => o.slotRows)) = some (false, some 0)
    ∧ (taken (handledAt 4 slot) (ofType 5)).map (fun x => ((x.2.resolveRemote 0 0 0 1 true false).toOption.map fun o => (x.2.tag (slotTag o 0)).state == .full)) = some (some false)
    ∧ (taken (rxAt slot) (ofType 5)).map (fun x => (x.2.resolveRemote 0 0 0 1 true false).toOption) = some none := by decide +kernel

theorem witness_rread_data : let f : Frame := { vc := 1, type := 6, txn := 3 }
    (taken (opAt { vc := 0, type := 5, txn := 3 } f) (ofType 6)).map (fun x => (x.2.opOf 0 3 [5]).isSome) = some true
    ∧ (taken (rxAt f) (ofType 6)).map (fun x => (x.2.opOf 0 3 [5]).isNone) = some true := by decide +kernel

theorem witness_rread_part : let req : Frame := { vc := 0, type := 5, txn := 3, payload := [0xFF, 128, 0, 0, 1, 0, 0, 0, 0, 0, 0, 0, 40, 0] }
    (taken (opAt req { vc := 1, type := 6, txn := 3 }) (ofType 6)).map (fun x => (x.2.opOf 0 3 [5]).map (·.forPart)) = some (some true)
    ∧ (taken (opAt { vc := 0, type := 8, txn := 3 } { vc := 1, type := 9, txn := 3 }) (ofType 9)).map (fun x => (x.2.opOf 0 3 [8]).isSome) = some true
    ∧ (taken (rxAt { vc := 1, type := 9, txn := 3 }) (ofType 9)).map (fun x => (x.2.opOf 0 3 [8]).isNone) = some true := by decide +kernel

theorem witness_rread_tags : let slot : Frame := { vc := 0, type := 5, payload := [0, 0, 0, 0, 1, 0] }
    (taken ((handledAt 4 slot).setTag 0 { state := .full, readers := 2 }) (ofType 5)).map (fun x =>
      ((x.2.resolveRemote 0 0 0 1 true false).toOption.map fun o => (((x.2.tag (slotTag o 0)).claim 0).isSome, (x.2.countReads [o.base]).2))) = some (some (true, none))
    ∧ (let t := (handledAt 0 slot); (taken { t with st := { t.st with spErr := [(0, [(0, 1), (4, 2), (8, 3), (12, 4)])] } } (ofType 5)).map (fun x =>
      ((x.2.resolveRemote 0 0 0 1 true false).toOption.map fun o => (x.2.countReads [o.base]).2))) = some (some (some 0)) := by decide +kernel

theorem witness_retry_rsp : (taken (rxAt { vc := 1, type := 7, txn := 3 }) (ofType 7)).isSome = true
    ∧ (({ powered with xr := { powered.xr with ops := [{ port := 0, txn := 3, cmd := 0, req := { vc := 0, type := 5 }, retrying := true }] } } : State).xr.ops.find?
      fun o => o.port == 0 && o.txn == 3 && o.retrying).isSome = true
    ∧ (powered.xr.ops.find? fun o => o.port == 0 && o.txn == 3 && o.retrying).isNone = true := by decide +kernel

theorem witness_walk_req : let f : Frame := { vc := 0, type := 8, payload := [40, 0, 0, 0] }
    let at_ := fun (x : Sequence) => (taken ((seqAt x).setPort 0 { state := .up, peerDev := 1, rx := [f] }) (ofType 8)).map fun y => (y.2.seq? 40).map (·.walkersA)
    at_ onePage = some (some 0) ∧ at_ { onePage with walkersA := 255 } = some (some 255)
    ∧ (taken (rxAt f) (ofType 8)).map (fun y => (y.2.seq? 40).isNone) = some true
    ∧ (taken (rxAt { vc := 1, type := 9 }) (ofType 9)).isSome = true
    ∧ (taken (rxAt { vc := 1, type := 10 }) (ofType 10)).map (fun y => y.2.xr.walks) = some [] := by decide +kernel

theorem witness_walk_end : let s := rxAt { vc := 1, type := 10, payload := [40, 0, 0] }
    (taken { s with xr := { s.xr with walks := [{ port := 0, seq := 40, copy := false, chunk := 0 }] } } (ofType 10)).map
      (fun y => (y.2.xr.walks.find? fun w => w.port == 0 && w.seq == 40 && w.copy == false).isSome) = some true := by decide +kernel

theorem witness_cancel_rx : (taken (rxDescAt { vc := 3, type := 0xB, payload := [5, 0, 0, 0] } desc4) (ofType 0xB)).map
      (fun x => (x.2.rb.cmds, (x.2.cancelRx fun d => d.src == 1).st.tags)) = some ([], [])
    ∧ (taken (rxAt { vc := 2, type := 0xC }) (ofType 0xC)).isSome = true := by decide +kernel

/-! ### MigrationsMoveOrFail -/

/-- A device with a frame that waits, stream 5 and a migration of it. -/
def migAt (f : Frame) (st : Stream) (m : Migration) : State :=
  let s := (served.putStream 5 st).setPort 0 { state := .up, peerDev := 1, rx := [f] }
  { s with xr := { s.xr with migs := [m] } }

/-- A MIG frame of transaction 3. -/
def migRx (sub : Nat) (body : List Byte) : Frame := { vc := 1, type := 0xD, txn := 3, payload := leBytes 1 sub ++ body }

/-- The migration of stream 5 at its source, and at its target. -/
def migOut (stage : Nat) : Migration := { sid := 5, source := true, port := 0, txn := 3, stage := stage }
def migIn (stage : Nat) : Migration := { sid := 5, source := false, port := 0, txn := 3, stage := stage, blobLen := 4 }

theorem witness_offer : let st : Stream := { state := .opening, fromPeer := true, peerDev := 1, peerStream := 7 }
    let hit := fun (n : Nat) => (taken { migAt (migRx 1 (leBytes 2 7 ++ leBytes 8 0 ++ leBytes 4 n)) st (migOut 0) with xr :=
        ((served.putStream 5 st).setPort 0 { state := .up, peerDev := 1, rx := [migRx 1 (leBytes 2 7 ++ leBytes 8 0 ++ leBytes 4 n)] }).xr } (ofSub 0xD 1)).map fun x =>
      ((x.2.str.tab.find? fun e => e.2.state == .opening && e.2.fromPeer && e.2.peerDev == (x.2.port 0).peerDev && e.2.peerStream == 7 && (x.2.mig? e.1).isNone).isSome,
       decide (blobMost < leAt x.1.payload 11 4))
    hit 132 = some (true, false) ∧ hit 99999999 = some (true, true)
    ∧ (taken (rxAt (migRx 1 [])) (ofSub 0xD 1)).map (fun x => x.2.str.tab) = some [] := by decide +kernel

theorem witness_mig_frames : (taken (migAt (migRx 2 []) {} (migOut 0)) (ofSub 0xD 2)).map (fun x => x.2.migOf 0 3 true) = some (some (migOut 0))
    ∧ (taken (migAt (migRx 3 []) {} (migOut 2)) (ofSub 0xD 3)).map (fun x => x.2.migOf 0 3 true) = some (some (migOut 2))
    ∧ (taken (migAt (migRx 4 [0, 0, 0, 0, 9]) {} (migIn 2)) (ofSub 0xD 4)).map (fun x => (x.2.migOf 0 3 false, leAt x.1.payload 1 4)) = some (some (migIn 2), 0)
    ∧ (taken (migAt (migRx 5 []) {} (migOut 3)) (ofSub 0xD 5)).map (fun x => (x.2.migOf 0 3 true, (x.2.stream? 5).map (·.exports))) = some (some (migOut 3), some [])
    ∧ (taken (migAt (migRx 6 []) {} (migOut 0)) (ofSub 0xD 6)).map (fun x => x.2.migOf 0 3 true) = some (some (migOut 0)) := by decide +kernel

theorem witness_mig_ends : let held : Stream := { state := .held }
    (taken (migAt (migRx 7 []) held (migIn 3)) (ofSub 0xD 7)).map (fun x => (x.2.migOf 0 3 false, (x.2.stream? 5).map (·.state))) = some (some (migIn 3), some .held)
    ∧ (taken (migAt (migRx 8 []) held (migIn 3)) (ofSub 0xD 8)).map (fun x => (x.2.migOf 0 3 false, (x.2.stream? 5).map (·.state))) = some (some (migIn 3), some .held)
    ∧ (taken (migAt (migRx 8 []) {} (migIn 3)) (ofSub 0xD 8)).map (fun x => (x.2.stream? 5).map (·.state == .held)) = some (some false) := by decide +kernel

theorem witness_mig_timers : (migAt (migRx 9 []) {} (migOut 1)).mig? 5 = some (migOut 1) ∧ (migOut 1).firstOffer + 100000000 ≤ 100000000
    ∧ (migAt (migRx 9 []) {} (migOut 1)).now < (migOut 1).firstOffer + 100000000
    ∧ powered.mig? 5 = none ∧ (withStream .opening).stream? 5 = some { state := .opening }
    ∧ (served.putStream 5 { state := .opening, fromPeer := true }).stream? 5 = some { state := .opening, fromPeer := true } := by decide +kernel

/-! ### LinkFramesAreAcceptedAndResent -/

/-- Port 0 UP with a frame outstanding and one that waits without a credit. -/
def linkAt (retries : Nat) : State := powered.setPort 0
  { state := .up, peerDev := 1, retry := [{ vc := 0, type := 1 }], retryCount := retries, unacked := 1, credit := [0, 48, 8, 16], txQueue := [{ vc := 0, type := 1 }] }

/-- The bytes of a frame with SEQ 0. -/
def goodBytes (f : Frame) : List Byte := lineBytes (({} : XPort).emit f).lanes

theorem witness_link_rx : frameGood [] = false ∧ frameGood (goodBytes { vc := 2, type := 0xD, payload := [1] }) = true
    ∧ (let b := goodBytes { vc := 2, type := 0xD, payload := [1] }
      (frameOf b 0).type = 0xD ∧ (frameOf b 0).vc = 2 ∧ (frameOf b 0).seq = 0 ∧ (((linkAt 0).takeHeader 0 (headWord b)).port 0).rxSeq = 0
      ∧ (((linkAt 0).takeHeader 0 (headWord b)).port 0).state = .up)
    ∧ (frameOf (goodBytes { vc := 2, type := 0 }) 0).type = 0 ∧ frameGood (goodBytes { vc := 2, type := 0 }) = true
    ∧ (frameOf (goodBytes { vc := 1, type := 3, seq := 9 }) 0).seq = 9 ∧ (frameOf (goodBytes { vc := 1, type := 3, seq := 9 }) 0).vc = 1 := by decide +kernel

theorem witness_link_timers : ((linkAt 0).port 0).state = .up ∧ 0 < ((linkAt 0).port 0).unacked ∧ ((linkAt 0).port 0).retry ≠ []
    ∧ ((linkAt 0).port 0).markFollow.goBack.retryCount < 16 ∧ 16 ≤ ((linkAt 15).port 0).markFollow.goBack.retryCount
    ∧ (linkAt 0).rb.cmds = [] ∧ (linkAt 15).str.chunks = [] ∧ (powered.port 0).state ≠ .up
    ∧ nthD ((linkAt 0).port 0).credit (b2n false) = 0 ∧ 0 < nthD ((linkAt 0).port 0).credit 3 ∧ ((linkAt 0).port 0).retry.length < 64
    ∧ (((linkAt 0).port 0).txQueue.find? (·.vc == b2n false)).isSome = true := by decide +kernel

/-! ### PortsTrainStepByStep -/

/-- Port 0 in a state. -/
def trainAt (x : PortState) : State := powered.setPort 0 { state := x }

theorem witness_training : ((trainAt .down).port 0).state = .down ∧ ((trainAt .detect).port 0).state = .detect ∧ ((trainAt .lock).port 0).state = .lock
    ∧ ((trainAt .deskew).port 0).state = .deskew ∧ ((trainAt .ident).port 0).state = .ident ∧ ((trainAt .up).port 0).state = .up := by decide

theorem witness_ident : frameGood (goodBytes { vc := 0, type := 0xF, payload := [0] }) = true
    ∧ bits (headWord (goodBytes { vc := 0, type := 0xF, payload := [0] })) 2 4 = 0xF ∧ frameGood [] = false := by decide +kernel

/-! ### TimeIsCorrectedHeldAndElected -/

/-- The device with its timebase changed. -/
def timed (f : Timebase → Timebase) : State := powered.modTm f

theorem witness_pps : (∃ c, (timed fun x => { x with ppsLastEdge := some 0, cycles := 100 }).tm.ppsLastEdge = some c
      ∧ (timed fun x => { x with ppsLastEdge := some 0, cycles := 100 }).tm.cycles - c < 200)
    ∧ powered.tm.ppsLastEdge = none ∧ powered.tm.ppsValid = false
    ∧ (([1].any fun k => nearSeconds 200000000 k) = true) ∧ (([1, 2, 3].any fun k => nearSeconds 5000 k) = false)
    ∧ (timed fun x => { x with master := 3 }).isMaster = false := ⟨⟨0, rfl, by decide⟩, by decide, by decide, by decide, by decide, by decide⟩

theorem witness_hold : (timed fun x => { x with state := .locked }).mayHold = true ∧ powered.mayHold = false
    ∧ (timed fun x => { x with state := .holdover }).tm.state = .holdover ∧ powered.tm.state ≠ .holdover := by decide

theorem witness_offset : powered.tm.state = .free ∧ powered.offsetOk 5 = true
    ∧ (timed fun x => { x with state := .locked }).offsetOk 0 = true ∧ (timed fun x => { x with state := .locked }).offsetOk 1000000000000000 = false := by
  decide +kernel

/-! ### ExchangesMeasureTheOffset -/

/-- Port 0 with a MGMT_TIME frame from device 1, in a device whose timebase is changed. -/
def timedRx (f : Timebase → Timebase) (payload : List Byte) : State := (rxAt (timeFrame payload)).modTm f

/-- The exchange 7 in progress with master 1. -/
def exch7 (e : Exchange) (x : Timebase) : Timebase := { x with master := 1, exch := some e }

theorem witness_sync : let run := fun (m : Nat) (cls hold : Nat) => (taken (timedRx (fun x => { x with master := m }) [1, BitVec.ofNat 8 cls, BitVec.ofNat 8 hold, 0]) (ofSub 0xE 1)).map fun x =>
      (((x.2.modTm fun y => { y with heard := Tbl.put y.heard 1 (leAt x.1.payload 1 1) }).elect).tm.master, x.2.tm.master, leAt x.1.payload 2 1)
    run 0 2 0 = some (0, 0, 0) ∧ run 0 0 0 = some (1, 0, 0) ∧ run 1 0 0 = some (1, 1, 0) ∧ run 0 0 3 = some (1, 0, 3) := by decide +kernel

theorem witness_exchange : let e : Exchange := { exch := 7, t2 := 0, t3 := some 0, since := 0 }
    (taken (timedRx (exch7 e) [2, 0, 0, 0, 7, 0]) (ofSub 0xE 2)).map (fun x => x.2.exchangeOk 0 x.1) = some (some (e, true))
    ∧ (taken (timedRx (exch7 e) [2, 0, 0, 0, 8, 0]) (ofSub 0xE 2)).map (fun x => x.2.exchangeOk 0 x.1) = some (some (e, false))
    ∧ (taken (timedRx id [2, 0, 0, 0, 8, 0]) (ofSub 0xE 2)).map (fun x => (x.2.exchangeOk 0 x.1).isNone) = some true
    ∧ (taken (timedRx id [3]) (ofSub 0xE 3)).isSome = true
    ∧ (taken (timedRx (exch7 { e with t1 := some 0 }) [4, 0, 0, 0, 7, 0]) (ofSub 0xE 4)).map (fun x => (x.2.exchangeOk 0 x.1).map fun y => (y.1.t1, y.1.t3, y.1.retx, y.2))
      = some (some (some 0, some 0, false, true))
    ∧ (taken (timedRx id [4]) (ofSub 0xE 4)).map (fun x => (x.2.exchangeOk 0 x.1).isNone) = some true := by decide +kernel

/-! ### NetworkStatesAndHeartbeats -/

/-- The device in service in an NMT state. -/
def nmtAt (n : Nmt) : State := { State.reset with ctl := { nmt := n }, pw := { auxPg := true } }

theorem witness_nmt : [Nmt.operational, .stopped, .preop].all (fun n => (nmtAt n).fieldServed && !(nmtAt n).freezing) = true
    ∧ ({ nmtAt .init with boot := { hold := true } } : State).fieldServed = true ∧ (nmtAt .stopped).pw.powerState < 3
    ∧ (nmtAt .preop).obj 0x1017 0 ≠ 0 ∧ (nmtAt .preop).busOff = false ∧ (nmtAt .preop).watched = 0 := by decide +kernel

theorem witness_freeze : let s : State := (nmtAt .operational).freeze .stopped true
    let u : State := (nmtAt .operational).freeze .preop false
    s.fieldServed = true ∧ s.freezing = true ∧ s.frozenOut = true ∧ s.ctl.resetPending = true ∧ u.freezing = true ∧ u.frozenOut = true ∧ u.ctl.resetPending = false
      ∧ u.ctl.nmtWait = [] := by decide +kernel

theorem witness_watched : ((nmtAt .preop).setObj 0x1016 1 0x00030064).watched = 3 := by decide +kernel

/-! ### FieldPortSessionsAndPdos -/

/-- The device in operation with USDO sessions open. -/
def usdoAt (l : List UsdoSession) : State := { nmtAt .operational with ctl := { nmt := .operational, usdo := l } }

theorem witness_usdo : (nmtAt .init).gate .field = .silent ∧ (usdoAt []).gate .field ≠ .silent ∧ (usdoAt []).session? 1 = none
    ∧ (usdoAt [⟨1, 0x2112, 0, true, [1]⟩]).session? 1 = some ⟨1, 0x2112, 0, true, [1]⟩
    ∧ ((usdoAt []).writeObject .field 0x2112 0 [1]).isSome = true ∧ ((usdoAt []).readObject .field 0x1000 0).isSome = true
    ∧ (usdoAt []).sessionRoom 1 = true ∧ (usdoAt [⟨2, 0, 0, true, []⟩, ⟨3, 0, 0, true, []⟩, ⟨4, 0, 0, true, []⟩, ⟨5, 0, 0, true, []⟩]).sessionRoom 1 = false
    ∧ ((usdoAt []).beginWrite .field 0x2112 0).map (fun x => (x.1, x.2.ctl.usdo.length)) = some (0, 0)
    ∧ ((usdoAt []).beginWrite .field 0x7000 0).map (fun x => decide (x.1 = 0)) = some false := by decide +kernel

theorem witness_rpdo : let s := nmtAt .operational
    (s.writeServed .field 0x2111 0 [0x2C, 1]).1 = 0 ∧ ((s.writeServed .field 0x2111 0 [0x2C, 1]).2.writeServed .field 0x2112 0 [3]).1 = 0
    ∧ (s.writeServed .field 0x2111 0 [0, 0]).1 ≠ 0 ∧ ((s.writeServed .field 0x2111 0 [0x2C, 1]).2.writeServed .field 0x2112 0 [9]).1 ≠ 0 := by decide +kernel

theorem witness_tpdo : (nmtAt .operational).tpdoDue 0 = true ∧ (nmtAt .operational).busOff = false ∧ ((nmtAt .operational).setObj 0x4005 9 2).busOff = true
    ∧ (nmtAt .preop).cobTaken 0x123 = false ∧ (nmtAt .preop).cobTaken 0x210 = true := by decide +kernel

theorem witness_emcy : let s : State := { nmtAt .preop with ctl := { nmt := .preop, emcy := [{ code := 0x8110 }] } }
    s.ctl.emcy = [{ code := 0x8110 }] ∧ s.pw.auxPg = true ∧ s.busOff = false ∧ s.ctl.emcyAt = none := by decide +kernel

/-! ### OtherPortsAreServed -/

/-- The device in service with the PCIe link up. -/
def hosted : State :=
  { served with host := { served.host with linkUp := true, perstReleased := true }, boot := { served.boot with step := 10 }, pw := { served.pw with auxPg := true } }

/-- The PF with its mailbox as given. -/
def mailed (m : Mailbox) : State := hosted.setFn 0 { hosted.fn 0 with mbx := m }

theorem witness_go : hosted.hostOk 0 = true ∧ served.hostOk 1 = false ∧ ((mailed { busy := true }).fn 0).mbx.busy = true
    ∧ (mailed { busy := true }).hostOk 0 = true ∧ ((mailed {}).fn 0).mbx.busy = false ∧ (mailed { busy := true }).gate (mailPort 0) = .served
    ∧ ((mailed { busy := true, index := 0x2111 }).readObject (mailPort 0) 0x2111 0).isSome = true
    ∧ ((mailed { busy := true, write := true, first := true, index := 0x2113 }).beginWrite (mailPort 0) 0x2113 0).map (·.1) = some 0
    ∧ ((mailed { busy := true, write := true, first := true, index := 0x2112 }).beginWrite (mailPort 0) 0x2112 0).map (fun x => decide (x.1 ≠ 0)) = some true := by
  decide +kernel

theorem witness_peer_access : let f : Frame := { vc := 2, type := 0xE, payload := [0x10, 0, 0x11, 0x21, 0, 0, 0, 0] }
    let s := ({ hosted with xr := { hosted.xr with ports := [(0, { state := .up, peerDev := 1, rx := [f], open_ := [3] })] } } : State)
    (s.takeFrame 0 (ofSub 0xE 0x10)).map (fun x => (leAt x.1.payload 1 1, (x.2.readObject (.peer 1) 0x2111 0).isSome)) = some (0, true)
    ∧ s.ctl.coresDown.contains 0 = false
    ∧ (let g : Frame := { vc := 2, type := 0xE, payload := [0x11, 0, 0x11, 0x21, 0, 0, 3, 0] }
      let u := ({ hosted with xr := { hosted.xr with ports := [(0, { state := .up, peerDev := 1, rx := [g], open_ := [3] })] } } : State)
      (u.takeFrame 0 (ofSub 0xE 0x11)).map (fun x => (x.2.port 0).open_.contains (leAt x.1.payload 6 2)) = some true) := by decide +kernel

theorem witness_debug : hosted.gate .debug = .silent
    ∧ (let s := ({ hosted with ctl := { hosted.ctl with dbgStrap := true } } : State).setObj 0x5F01 1 1
      s.gate .debug = .served ∧ (s.readObject .debug 0x2111 0).isSome = true) ∧ hosted.ctl.probeJ3 = false := by decide +kernel

/-! ### ObjectsAreWrittenByTheirRules -/

/-- Whether a write passes every check. -/
def passes (s : State) (port : PortClass) (i k : Nat) (data : List Byte) : Bool :=
  s.gate port == .served && match s.checkAccess port true i k with
  | .error _ => false
  | .ok r =>
    let v := if r.len = 0 then 0 else leNat data
    r.lengthOk data.length && (r.rng.holds r.len v && s.ownRange port i k v) && s.stateOk i k && s.ownCondition i k v

theorem witness_writes : passes hosted .field 0x2111 0 [200, 0] = true ∧ passes hosted .field 0x2112 0 [1] = true ∧ passes hosted .pf 0x2210 1 [0, 0, 0, 0, 0, 0, 0, 0] = true
    ∧ passes hosted .field 0x2213 0xD [1] = true ∧ passes hosted .pf 0x3001 0x10 [1] = true := by decide +kernel

theorem witness_writes_more : passes hosted .field 0x4020 0 [1] = true ∧ passes hosted .field 0x4200 0x10 [1] = true
    ∧ passes hosted .pf 0x4102 1 [1] = true ∧ passes hosted .field 0x5F01 1 [1] = true ∧ passes hosted .pf 0x2113 0 [50, 0] = true := by decide +kernel

theorem witness_write_fails : hosted.gate (.vf 3) = .silent ∧ hosted.checkAccess .pf true 0x1234 0 = .error 0x06020000
    ∧ isSelect 0x2800 1 = true ∧ isSelect 0x2113 0 = false ∧ hosted.writeSpecial 0x2113 0 5 [] = none
    ∧ hosted.followsTrusted = false ∧ (hosted.beginWrite .pf 0x5000 8).map (·.1) = some 0 ∧ hosted.beginWrite (.vf 3) 0x5000 8 = none := by decide +kernel

/-! ### RingsTakeDoorbellsAndRegisters -/

theorem witness_rings : (hosted.sq 0 0).enable = true ∧ (hosted.oq 0 0).enable = true ∧ (hosted.sq 0 1).enable = false ∧ (hosted.oq 0 1).enable = false
    ∧ (let q := hosted.sq 0 0; (5 + 2 ^ 32 - q.tail) % 2 ^ 32 < 2 ^ 31 ∧ (5 + 2 ^ 32 - q.head) % 2 ^ 32 ≤ 2 ^ q.log2 ∧ 5 ≠ q.tail
      ∧ ¬((9999999 + 2 ^ 32 - q.head) % 2 ^ 32 ≤ 2 ^ q.log2)) ∧ hosted.hostOk 0 = true ∧ (hosted.oq 0 1).prodWb = 0
    ∧ ((0 + 2 ^ 32 - (hosted.oq 0 0).cons) % 2 ^ 32 ≤ ((hosted.oq 0 0).prod + 2 ^ 32 - (hosted.oq 0 0).cons) % 2 ^ 32) := by decide +kernel

theorem witness_head : let s := hosted.setSq 0 0 { enable := true, head := 3, headWb := 64 }
    ((s.sq 0 0).headWb ≠ 0 ∧ (s.sq 0 0).head ≠ (s.sq 0 0).headWritten ∧ (s.fn 0).bme = true ∧ (s.fn 0).resetting = false)
    ∧ ((hosted.setOq 0 0 { timer := true }).oq 0 0).timer = true ∧ (hosted.oq 0 0).timer = false := by decide +kernel

/-! ### FunctionsResetAndTheDebugWindow -/

theorem witness_window : let s := hosted.setObj 0x5F01 2 1
    s.hostOk 0 = true ∧ s.obj 0x5F01 2 ≠ 0 ∧ ¬(s.obj 0x2010 0 * 512 ≤ 100) ∧ hosted.obj 0x5F01 2 = 0 ∧ served.hostOk 0 = false
    ∧ hosted.quarterOn (rowQuarter 0) = false
    ∧ (({ hosted with rb := { hosted.rb with domain := (List.range 90).map fun n => (n, 2) } } : State).quarterOn (rowQuarter 0)) = true := by decide +kernel

theorem witness_functions : let s := hosted.setFn 3 { present := true }
    s.hostOk 3 = true ∧ (s.fn 3).resetting = false ∧ ((hosted.setFn 3 { present := true, resetting := true }).fn 3).resetting = true
    ∧ hosted.host.numVfs ≤ 4 ∧ ({ s with host := { s.host with numVfs := 3 } } : State).host.numVfs = 3 ∧ (s.closeSilently 5).stream? 5 = none
    ∧ (((withStream .active).closeSilently 5).stream? 5).map (·.state) = some .closed := by decide +kernel

theorem witness_link_up : (hosted.setDomain 90 5).domain 90 ≠ 0 ∧ hosted.host.perstReleased = true ∧ (hosted.setDomain 90 0).domain 90 = 0 := by decide +kernel

/-! ### SuppliesStartAndStopTheDevice -/

theorem witness_supplies : served.pw.auxPg = false ∧ hosted.powered = true ∧ served.pw.ride = false ∧ served.pw.holdupOk = false ∧ hosted.pw.auxPg = true
    ∧ ({ hosted with boot := { hosted.boot with step := 0 } } : State).powered = false
    ∧ strapValue (fun x => x.node % 128) [⟨5, 1, false⟩] = some 5 ∧ strapValue (fun x => x.dev % 8) [⟨5, 1, false⟩] = some 1 := by decide

/-- The device in service with a sound store, riding through. -/
def riding : State := { hosted with pw := { hosted.pw with holdupOk := true, ride := true } }

/-- The device held off after two rail faults. -/
def heldDown : State := { hosted with boot := { hosted.boot with step := 0 }, pw := { hosted.pw with heldOff := true } }

theorem witness_ride : riding.powered = true ∧ riding.pw.holdupOk = true ∧ riding.pw.ride = true ∧ heldDown.powered = false ∧ heldDown.pw.auxPg = true
    ∧ heldDown.pw.vinFell = false ∧ ({ heldDown with pw := { heldDown.pw with vinFell := true } } : State).pw.vinFell = true := by decide

/-! ### SequencerAndStartUpSteps -/

/-- The device at a start-up step, its rails up. -/
def starting (n fails : Nat) : State := { State.reset with boot := { step := n, fails := fails }, pw := { auxPg := true, pgMod := true, railsUp := [1, 2, 3], seqStep := 4 } }

theorem witness_sequencer : (starting 1 0).pw.seqStep ≠ 0 ∧ State.reset.pw.seqStep = 0 ∧ (starting 1 0).powered = true ∧ 2 ∈ (starting 1 0).pw.railsUp
    ∧ 4 ∈ stepRails (starting 1 0).pw.seqStep ∧ (starting 1 0).boot.hold = false ∧ (starting 1 0).pw.pgMod = true ∧ State.reset.pw.pgMod = false
    ∧ (let s : State := { State.reset with pw := { auxPg := true, downCause := .rail, railFaults := 1 } }
       s.pw.auxPg = true ∧ s.powered = false ∧ s.pw.downCause = .rail ∧ s.pw.railFaults = 1) := by decide

theorem witness_startup : (starting 3 0).boot.fails = 0 ∧ (starting 3 1).boot.fails ≠ 0
    ∧ ((starting 3 0).modBoot fun b => { b with bankA := (starting 3 0).judgeBank b.bankA, bankB := (starting 3 0).judgeBank b.bankB }).chooseBank = some 0
    ∧ ((starting 3 0).modBoot fun b => { b with bankA := (starting 3 0).judgeBank {}, bankB := (starting 3 0).judgeBank {} }).chooseBank = none
    ∧ 4 ≤ ((starting 6 0).dropSquares [1, 3]).squaresLeft.length ∧ ((starting 6 0).dropSquares [0, 1, 2, 3, 4]).squaresLeft.length < 4
    ∧ 4 ≤ (((starting 9 0).dropSquares [1]).addObj 0x4200 6 1).squaresLeft.length ∧ (((starting 9 0).dropSquares [0, 1, 2, 3, 4]).addObj 0x4200 6 5).squaresLeft.length < 4 := by decide +kernel

/-! ### TemperatureAndPowerSetTheLevel -/

/-- The device in service with all sensors at a temperature, at a power level. -/
def warm (v : Int) (p : Nat) : State := { hosted with pw := { hosted.pw with sensors := (List.range 21).map fun i => (i, { last := v, seen := true, ok := true }), levelP := p, powerDw := 4000 } }

theorem witness_thermal : atLeast (warm 1060 0).theta 1050 = true ∧ (warm 1060 0).powered = true ∧ atLeast (warm 300 0).theta 1050 = false
    ∧ atLeast (warm 300 0).theta (signedOf 16 ((warm 300 0).obj 0x2300 5) - 30) = false ∧ atLeast (warm 960 0).theta (signedOf 16 ((warm 960 0).obj 0x2300 5)) = true
    ∧ atLeast (warm 960 0).theta 1000 = false ∧ (warm 960 0).pw.coolMs < 99 ∧ (List.replicate 21 (300 : Int)).length = 21
    ∧ implausible (fun _ => 300) 0 ((warm 300 0).sensor 0) = false ∧ implausible (fun _ => 600) 0 ((warm 300 0).sensor 0) = true ∧ ((warm 300 0).sensor 0).ok = true := by decide +kernel

theorem witness_level : Nat.max (warm 300 6).pw.levelP (warm 300 6).pw.levelT = 6 ∧ 10 * (warm 300 6).obj 0x2111 0 < (warm 300 6).pw.powerDw
    ∧ ¬Nat.max (warm 300 1).pw.levelP (warm 300 1).pw.levelT = 6 ∧ 4 < (warm 300 1).boot.step ∧ ¬10 * (warm 300 1).obj 0x2111 0 < 100 ∧ (warm 300 1).pw.lowMs < 99 := by decide +kernel

/-! ### PowerStatesChangeAsAsked -/

/-- The device in service on its way between two power states. -/
def moving (old new : Nat) : State := { hosted with pw := { hosted.pw with powerState := old, target := new, changing := true }, ctl := { hosted.ctl with nmt := .operational } }

theorem witness_crocus : hosted.boot.step = 10 ∧ hosted.obj 0x2112 0 = 0 ∧ hosted.obj 0x2113 0 ≠ 0 ∧ hosted.pw.changing = false ∧ hosted.pw.powerState < 3
    ∧ (∀ e ∈ (hosted.setFn 0 {}).host.fns, ∀ q ∈ e.2.sq, ¬(q.2.enable = true ∧ q.2.head ≠ q.2.tail)) ∧ hosted.str.chunks = [] ∧ hosted.str.tab = [] ∧ hosted.ctl.nmt ≠ .stopped
    ∧ ({ hosted with pw := { hosted.pw with autoCrocus := true } } : State).pw.changing = false ∧ (moving 1 3).pw.changing = true := by decide +kernel

theorem witness_power_moves : (moving 1 2).squaresBusy (moving 1 2).pw.tulipMask = false ∧ (moving 1 2).pw.target = 2 ∧ (moving 1 2).pw.tulipPending = false
    ∧ (moving 1 4).frozenOut = true ∧ (moving 1 4).rb.cmds = [] ∧ (moving 1 4).pw.target = 4 ∧ (moving 4 1).pw.powerState = 4 ∧ (moving 4 1).pw.target ≠ 4
    ∧ (moving 2 1).beginGating.changeReady = true ∧ (moving 4 1).beginGating.changeReady = false ∧ (moving 2 1).pw.waiting = none ∧ (moving 2 1).pw.wake = false
    ∧ ({ moving 2 1 with pw := { (moving 2 1).pw with tulipPending := true, changing := false } } : State).fitsTulip = true := by decide +kernel

theorem witness_schedule : let s := { hosted with tm := { hosted.tm with state := .locked } }.setObj 0x2115 1 1
    s.boot.step = 10 ∧ s.obj 0x2115 1 = 1 ∧ s.tm.state = .locked ∧ s.pw.schedSaved = none ∧ s.pw.schedDay ≠ some s.schedDayNow ∧ s.pw.changing = false
    ∧ ({ s with pw := { s.pw with schedSaved := some 0 } } : State).pw.schedSaved = some 0 := by decide +kernel

/-! ### SquaresQualifyAndWalk -/

/-- The device in service in Sunflower with every engine domain on, its Squares calibrated as given. -/
def calibrated (c : SquareCal) : State :=
  ({ hosted with rb := { hosted.rb with domain := (List.range 90).map fun n => (n, 2) }, ctl := { hosted.ctl with nmt := .operational }, boot := { hosted.boot with squares := (List.range 8).map fun q => (q, c) } } : State).setObj 0x4200 1 1

/-- A qualification with its counts met. -/
def metQual : Qual := { chunks := (List.range 64).map fun i => (0, i), equal := [16, 16, 16, 16, 16, 16] }

theorem witness_margin_walk : (calibrated {}).mayWalk = true ∧ (calibrated {}).obj 0x4200 3 + 5 ≤ ((calibrated {}).cal 0).point ∧ (calibrated { point := 650 }).mayWalk = true
    ∧ ((calibrated { point := 650 }).cal 0).point < (calibrated { point := 650 }).obj 0x4200 3 + 5 ∧ served.mayWalk = false := by decide +kernel

theorem witness_qualify : metQual.met = true ∧ metQual.mismatch = false ∧ ({ mismatch := true } : Qual).met = false ∧ ({} : Qual).met = false
    ∧ ((calibrated { qual := some metQual, stage := .walkStep }).cal 3).qual = some metQual ∧ ((calibrated {}).cal 3).qual = none
    ∧ (let s := (calibrated { stage := .walkStep }).modBoot fun b => { b with walkSquare := some 2 }; s.boot.walkSquare = some 2 ∧ ((s.cal 2).qual.map (·.mismatch)).getD false = false)
    ∧ (let s := (calibrated { stage := .walkFinal, qual := some { mismatch := true } }).modBoot fun b => { b with walkSquare := some 2 }; (s.qualFail 2).boot.walkSquare ≠ some 2) := by decide +kernel

theorem witness_qual_retry : let s := (calibrated { attempts := 3 }).setSquare 2 1
    Tbl.getD s.rb.sqOut 0 2 = 1 ∧ (s.cal 2).capped = false ∧ s.boot.step = 10 ∧ s.squaresBusy 4 = false ∧ 3 ≤ (s.cal 2).attempts
    ∧ (let u := { calibrated { temp := 900 } with pw := (warm 300 0).pw }; u.cooled 2 = true ∧ Tbl.getD u.rb.sqOut 0 2 = 0 ∧ u.boot.step = 10) ∧ (warm 300 0).cooled 2 = false := by decide +kernel

/-- TPDO 1 of the example of R519: 24,100 mV, 3,300 mV, 150.0 W in Sunflower under a 300 W limit. -/
theorem test_tpdo1_example :
    (({ nmtAt .operational with pw := { auxPg := true, powerDw := 1500, powerState := 1, target := 1, mon := [(9, { mv := 24100 }), (10, { mv := 3300 })] } } : State).setObj 0x2111 0 300).tpdoData 0
      = [0x24, 0x5E, 0xE4, 0x0C, 0xDC, 0x05, 0x01, 0x2C, 0x01, 0x00, 0x00, 0x00] := by decide +kernel

/-! ### Ill-formed commands: one for each check of `Instr.wellFormed` -/

/-- Two submissions of one core in a cycle. -/
theorem test_ill_formed_submit : (Instr.descSubmit 1 ⟨0, 0, 0, 0, 0, 0, 0, 0⟩ [(1, ⟨0, 0, 0, 0, 0, 0, 0, 0⟩)]).wellFormed = false := by decide

theorem test_well_formed_submit : (Instr.descSubmit 1 ⟨0, 0, 0, 0, 0, 0, 0, 0⟩ [(2, ⟨0, 0, 0, 0, 0, 0, 0, 0⟩)]).wellFormed = true := by decide

/-- A busy count of more than 64 bits, and a control-memory write beyond 1 MiB. -/
theorem test_ill_formed_completion : (Instr.commandComplete 0 (2 ^ 64)).wellFormed = false ∧ (Instr.mbPost 0x45 {} [(2 ^ 20, 0)]).wellFormed = false := by decide

/-- A narrow write of no byte, one past its row, and a record from a port that forms none (R115). -/
theorem test_ill_formed_narrow : narrowShape 0 0 (.bytes []) = false ∧ narrowShape 0 508 (.bytes [1, 2, 3, 4, 5]) = false ∧ narrowShape 0 507 (.bytes [1, 2, 3, 4, 5]) = true
    ∧ (Instr.narrowWrite 0 0 0 0 0 512 (.bytes [1]) 0 none).wellFormed = false := by decide

/-- The VF port of partition 0 is none (R502). -/
theorem test_ill_formed_port : portOk (.vf 0) = false ∧ portOk (.vf 1) = true ∧ (Instr.timeNsWrite (.vf 0) []).wellFormed = false ∧ (Instr.trustRelease (.vf 0) []).wellFormed = false
    ∧ (Instr.objectWrite (.vf 0) 0x2112 0 [1]).wellFormed = false ∧ (Instr.counterClear (.vf 0) [1]).wellFormed = false
    ∧ (Instr.stateRequest (.vf 0) [1]).wellFormed = false ∧ (Instr.powerLimit (.vf 0) [1]).wellFormed = false ∧ (Instr.jtagEnableWrite (.vf 0) [1]).wellFormed = false
    ∧ (Instr.resetPoints (.vf 0) [1]).wellFormed = false ∧ (Instr.portEnableWrite (.vf 0) 0 [1]).wellFormed = false := by decide

/-- A CAN FD frame of 65 bytes (R487), and a mailbox value of 2,049 bytes (R542). -/
theorem test_ill_formed_frames : (Instr.rpdo1 (List.replicate 65 0)).wellFormed = false ∧ (Instr.usdoRequest 0 (.segment (List.replicate 65 0) true)).wellFormed = false
    ∧ (Instr.rpdo1 (List.replicate 64 0)).wellFormed = true := by decide

theorem test_ill_formed_mailbox : (Instr.go 0 { data := List.replicate 2049 0 }).wellFormed = false ∧ (Instr.clear (.vf 0) 0 [1]).wellFormed = false
    ∧ (Instr.stageImage (.vf 0) true true []).wellFormed = false := by decide +kernel

/-- An access of the debug window of 0 or 65 bytes, or whose data is not of its length. -/
theorem test_ill_formed_window : (Instr.bar4Access 0 false 0 []).wellFormed = false ∧ (Instr.bar4Access 0 false 65 []).wellFormed = false
    ∧ (Instr.bar4Access 0 true 2 [1]).wellFormed = false ∧ (Instr.bar4Access 0 true 2 [1, 2]).wellFormed = true := by decide

/-- More than 15 VFs, an unknown reset cause, rail 9, a Square 8, three straps, 20 temperatures. -/
theorem test_ill_formed_device : (Instr.vfEnableSet 16).wellFormed = false ∧ (Instr.vfEnableClear 16).wellFormed = false ∧ (Instr.hotReset 4).wellFormed = false
    ∧ (Instr.railFault 9 0).wellFormed = false ∧ (Instr.railFault 0 0).wellFormed = false ∧ (Instr.startupStepDone { badSquares := [8] }).wellFormed = false
    ∧ (Instr.vauxGood 3300 [⟨1, 1, false⟩, ⟨1, 1, false⟩, ⟨1, 1, false⟩]).wellFormed = false ∧ (Instr.vauxGood 3300 [⟨128, 1, false⟩, ⟨128, 1, false⟩]).wellFormed = false
    ∧ (Instr.sensorRead (List.replicate 20 300)).wellFormed = false ∧ (Instr.sensorRead (List.replicate 21 300)).wellFormed = true := by decide

end Sys2Proof.Tests
end

section
/-! SUPPORT. No command stops the block (R52, R336, R493). -/

namespace Sys2Proof.Machine

/-- An outcome that is a next state. -/
def Answers (o : Out) : Prop := ∃ t, o = .next t

theorem Answers.next (t : State) : Answers (.next t) := ⟨t, rfl⟩

/-- Every command answers a next state. The commands of the first case have one meaning for every state; each of the others
distinguishes cases of the state, and every branch of it is a next state. -/
theorem exec_answers (c : Instr) (s : State) : Answers (exec c s) := by
  cases c with
  | nop | audio | tokens | openStream | closeDrain | closeAbort | setParams | resume | exportEntry | importEntry | migrateOut | migrateIn |
    modelLoad | modelUnload | audioFetchFail | batchReserve | chunkAbort | replayBackoffExpiry | descSubmit | matmul | tileStore | vxRun |
    vxSoftmax | seScan | seCarry | atAppend | atScore | atValue | atMerge | tkSelect | tkTopk | tkVerify | tkPrefix | tkDetok | egProv |
    egOla | egPublish | egressDrain | inRelease | feCtx | lnCopy | lnHost | lnRwrite | lnRtag | lnRread | tagSet | mbPost | chunkCancel |
    gatherIdleFlush | regulatorRefill | stormSecond | stepBoundary | reclaimFree | write | writeEnd | landed | rtag | rreadReq | rreadData |
    retryRsp | walkReq | walkData | walkEnd | cancel | rxReg | offer | accept | notReady | migData | migAck | refuse | release | migAbort |
    retryTimeout | downWaitExpiry | signalDetect | lanesLocked | blockLockLost | ppsLoss | syncTimer | sync | followUp | delayReq |
    delayResp | electionWindowExpiry | timeNsWrite | trustRelease | nmtStart | nmtStop | nmtEnterPreop | nmtResetNode | nmtResetComm |
    busOff | canOverrun | peerObjectResponse | objectWrite | counterClear | clear | resetPoints | jtagEnableWrite | portEnableWrite |
    stateRequest | powerLimit | headWbTimer | perstNRelease | thermalTick | powerLoopTick | crocusWake | qualWindowExpiry |
    controlCoreRestarted =>
    exact .next _
  -- streams and the entries that open, move and close them
  | exportCapture | blobWriteDone | importBlobReadDone | packageReadDone | entryReadFail | idleTimeout | migrateAckTimeout |
    migrateHeldTimeout | reofferTimer | migrateInTimeout =>
    dsimp only [exec, execExportCapture, execBlobWriteDone, execImportBlobReadDone, execPackageReadDone, execEntryReadFail, execIdleTimeout,
      execMigrateAckTimeout, execMigrateHeldTimeout, execReofferTimer, execMigrateInTimeout]
    repeat' split
    all_goals exact .next _
  -- chunks and batches
  | featureFrame | inputSlotFull | inputExtentCopyDone | batchClose | swapOut | swapIn | chunkCommit | chunkReplay =>
    dsimp only [exec, execFeatureFrame, execInputSlotFull, execInputExtentCopyDone, execBatchClose, execSwapOut, execSwapIn,
      execChunkCommit, execChunkReplay]
    repeat' split
    all_goals exact .next _
  -- the Roundabout and its mailboxes
  | roundaboutIssue | tagClaim | commandComplete | cmdTimeout | nopCmd | mailboxFreed | batchTableWrite | waitReport | ccWatchdog |
    coreMemoryUncorrectable =>
    dsimp only [exec, execRoundaboutIssue, execTagClaim, execCommandComplete, execCmdTimeout, execNopCmd, execMailboxFreed,
      execBatchTableWrite, execWaitReport, execCcWatchdog, execCoreMemoryUncorrectable]
    repeat' split
    all_goals exact .next _
  -- the memories and their scrubbers
  | handleWrite | narrowWrite | scrubVisit | hbmScrubVisit | quarterPowerDown | quarterDrained | drainAbandon | quarterPowerUp |
    quarterWakeDone | mxPowerDown =>
    dsimp only [exec, execHandleWrite, execNarrowWrite, execScrubVisit, execHbmScrubVisit, execQuarterPowerDown, execQuarterDrained,
      execDrainAbandon, execQuarterPowerUp, execQuarterWakeDone, execMxPowerDown]
    repeat' split
    all_goals exact .next _
  -- cache pages
  | pageDemote | pageWaitLimit | tableEdit | prefixLookup | rebuildMark | residencyEvict =>
    dsimp only [exec, execPageDemote, execPageWaitLimit, execTableEdit, execPrefixLookup, execRebuildMark, execResidencyEvict]
    repeat' split
    all_goals exact .next _
  -- Crossings
  | rreadRetryTimer | null | linkFrameRx | ackTimer | portDownTimeout | escapeTimeout | ident | lanesDeskewed | trainingTimeout |
    peerObjectRequest | peerRequestTimeout =>
    dsimp only [exec, execRreadRetryTimer, execNull, execLinkFrameRx, execAckTimer, execPortDownTimeout, execEscapeTimeout, execIdent,
      execLanesDeskewed, execTrainingTimeout, execPeerObjectRequest, execPeerRequestTimeout]
    repeat' split
    all_goals exact .next _
  -- the timebase and the field port
  | ppsEdge | holdoverEntry | holdoverLimitExpiry | freezeDone | heartbeat | heartbeatTimeout | heartbeatProduce | usdoRequest | usdoTimeout
    | rpdo1 | tpdoSend | emcySend | canErrorPassive | busOffRecovered | canFrameIgnored =>
    dsimp only [exec, execPpsEdge, execHoldoverEntry, execHoldoverLimitExpiry, execFreezeDone, execHeartbeat, execHeartbeatTimeout,
      execHeartbeatProduce, execUsdoRequest, execUsdoTimeout, execRpdo1, execTpdoSend, execEmcySend, execCanErrorPassive,
      execBusOffRecovered, execCanFrameIgnored]
    repeat' split
    all_goals exact .next _
  -- the host interface
  | go | mailboxTransferTimeout | debugAccess | stageImage | sqDb | oqCons | sqEnableWrite | oqEnableWrite | ringRegisterWrite |
    msixModTimer | msixUnmask | bar4Access | busMasterEnableChange | flr | flrDone | vfEnableClear | vfEnableSet | hotReset | pcieLinkUp =>
    dsimp only [exec, execGo, execMailboxTransferTimeout, execDebugAccess, execStageImage, execSqDb, execOqCons, execSqEnableWrite,
      execOqEnableWrite, execRingRegisterWrite, execMsixModTimer, execMsixUnmask, execBar4Access, execBusMasterEnableChange, execFlr,
      execFlrDone, execVfEnableClear, execVfEnableSet, execHotReset, execPcieLinkUp]
    repeat' split
    all_goals exact .next _
  -- supplies and power states
  | vauxGood | vauxLost | vinStart | vinOutOfRange | vinUndervoltageLockout | vinReturn | rideThroughExpiry | vinOvervoltageLockout |
    sequencerStepDone | railFault | railRetryTimer | pllLockLoss | sensorRead | thermalTrip | limitUnmetExpiry | crocusIdleExpiry |
    tulipEntry | snowdropEntry | snowdropExit | powerStateChangeDone | scheduleStart | scheduleEnd =>
    dsimp only [exec, execVauxGood, execVauxLost, execVinStart, execVinOutOfRange, execVinUndervoltageLockout, execVinReturn,
      execRideThroughExpiry, execVinOvervoltageLockout, execSequencerStepDone, execRailFault, execRailRetryTimer, execPllLockLoss,
      execSensorRead, execThermalTrip, execLimitUnmetExpiry, execCrocusIdleExpiry, execTulipEntry, execSnowdropEntry, execSnowdropExit,
      execPowerStateChangeDone, execScheduleStart, execScheduleEnd]
    repeat' split
    all_goals exact .next _
  -- start-up and calibration
  | startupStepDone | startupStepFail | probeChange | walkStart | qualificationDone | walkAbandon | qualRetryTimer | tempGuardExpiry =>
    dsimp only [exec, execStartupStepDone, execStartupStepFail, execProbeChange, execWalkStart, execQualificationDone, execWalkAbandon,
      execQualRetryTimer, execTempGuardExpiry]
    repeat' split
    all_goals exact .next _

/-- Settles O7. -/
theorem everyCommandCompletes : Obligations.EveryCommandCompletes := exec_answers

end Sys2Proof.Machine
end


section
/-! SUPPORT. How the entry of a submission ring is consumed: what every ring command does before its own meaning begins (R54, R60). -/

namespace Sys2Proof.Machine

/-! ### One entry -/

/-- While the head of its ring is not consumed, a ring command changes nothing. -/
theorem State.consume_waits {s : State} {p : Part} {ring : Ring} {e : Words8} (mine : Bool) (act : State → State)
    (hc : s.consumes p.val ring.val (isOpener (entOp e)) = false) : s.consume p ring e mine act = s := by
  simp [State.consume, hc]

/-- A consumed entry of the command's kind that breaks a condition of R54 is passed and reported. -/
theorem State.consume_malformed {s : State} {p : Part} {ring : Ring} {e : Words8} {mine : Bool} (act : State → State) {code : Nat}
    (hc : s.consumes p.val ring.val (isOpener (entOp e)) = true) (hm : mine = true) (he : s.entryError p.val e = some code) :
    s.consume p ring e mine act = (s.passed p ring).entryFault p.val ring.val e code := by
  simp [State.consume, State.passed, hc, hm, he]

/-- A consumed entry of the command's kind that is well formed is passed, and the command acts. -/
theorem State.consume_taken {s : State} {p : Part} {ring : Ring} {e : Words8} {mine : Bool} (act : State → State)
    (hc : s.consumes p.val ring.val (isOpener (entOp e)) = true) (hm : mine = true) (he : s.entryError p.val e = none) :
    s.consume p ring e mine act = act (s.passed p ring) := by
  simp [State.consume, State.passed, hc, hm, he]

/-- HEAD of the ring advances by one, and every other submission ring stays. -/
theorem State.sq_passed (s : State) (p : Part) (ring : Ring) (q k : Nat) :
    (s.passed p ring).sq q k = if q = p.val ∧ k = ring.val
      then { s.sq p.val ring.val with head := ((s.sq p.val ring.val).head + 1) % 2 ^ 32 } else s.sq q k :=
  State.sq_setSq s p.val ring.val _ q k

/-! ### The fifteen ring commands -/

/-- The mask of every part of the state but the submission rings. -/
abbrev besideSubRings : Nat := 2 ^ 75 - 1 - 2 ^ 34

/-- A change beside the submission rings leaves every submission ring as it was. -/
theorem Moves.sq {s t : State} (h : Moves besideSubRings s t) (q k : Nat) : t.sq q k = s.sq q k := by
  unfold State.sq State.fn
  rw [h.frame.host.fsq (by decide) q]

/-- Every ring command consumes its entry, and what it then does touches no submission ring. -/
theorem exec_ringEntry {c : Instr} {p : Part} {ring : Ring} {e : Words8} (h : ringEntry c = some (p, ring, e)) :
    ∃ act : State → State, (∀ s, exec c s = .next (s.consume p ring e (standsFor c e) act)) ∧ ∀ s, Moves besideSubRings s (act s) := by
  have start := Moves.rfl' besideSubRings
  cases c <;> cases h
  case nop => exact ⟨_, fun _ => rfl, start⟩
  case audio =>
    refine ⟨_, fun _ => rfl, fun s => State.inputEntry_moves (start s) (by decide) _ _ fun u hu => ?_⟩
    exact State.endAtEou_moves (State.audioIn_moves (State.chargePart_moves hu (by decide) _ _ _) (by decide) _ _ _) (by decide) _
  case tokens =>
    refine ⟨_, fun _ => rfl, fun s => State.inputEntry_moves (start s) (by decide) _ _ fun u hu => State.tokensIn_moves ?_ (by decide) _ _⟩
    split
    · exact hu
    · exact State.chargePart_moves hu (by decide) _ _ _
  case audioFetchFail =>
    refine ⟨_, fun _ => rfl, fun s => State.inputEntry_moves (start s) (by decide) _ _ fun u hu => ?_⟩
    exact State.endAtEou_moves (State.descError_moves (State.hostReadFault_moves hu (by decide) _ _) (by decide) ..) (by decide) _
  case openStream =>
    refine ⟨_, fun _ => rfl, fun s => State.opening_moves (start s) (by decide) _ _ _ _ fun sid u hu => ?_⟩
    dsimp only
    split
    · exact State.refuseOpen_moves hu (by decide) ..
    · exact State.openedEvent_moves (State.beginStream_moves hu (by decide) ..) (by decide) ..
  case importEntry => exact ⟨_, fun _ => rfl, fun s => State.opening_moves (start s) (by decide) _ _ _ _ fun _ _ hu => hu⟩
  case migrateIn => exact ⟨_, fun _ => rfl, fun s => State.opening_moves (start s) (by decide) _ _ _ _ fun _ _ hu => hu⟩
  case closeDrain =>
    refine ⟨_, fun _ => rfl, fun s => ?_⟩
    dsimp only
    split
    · exact start s
    · split
      · refine State.settleStream_moves (State.modStream_moves ?_ (by decide) _ _) (by decide) _
        exact State.cutChunks_moves (State.dropExports_moves (start s) (by decide) _ _) (by decide) _ _ _
      · exact State.refuse_moves (start s) (by decide) ..
  case closeAbort =>
    refine ⟨_, fun _ => rfl, fun s => ?_⟩
    dsimp only
    split
    · exact start s
    · split
      · exact State.refuse_moves (start s) (by decide) ..
      · exact State.abortStream_moves (State.dropMig_moves (start s) (by decide) _) (by decide) ..
  case setParams =>
    refine ⟨_, fun _ => rfl, fun s => ?_⟩
    dsimp only
    split
    · exact start s
    · split
      · exact State.streamEvent_moves (start s) (by decide) ..
      · exact State.streamEvent_moves (State.modStream_moves (start s) (by decide) _ _) (by decide) ..
  case resume =>
    refine ⟨_, fun _ => rfl, fun s => ?_⟩
    dsimp only
    split
    · exact start s
    · split
      · exact State.openedEvent_moves (State.modStream_moves (State.dropMig_moves (start s) (by decide) _) (by decide) _ _) (by decide) ..
      · exact State.refuse_moves (start s) (by decide) ..
  case exportEntry =>
    refine ⟨_, fun _ => rfl, fun s => ?_⟩
    dsimp only
    split
    · exact start s
    · split
      · exact State.modStream_moves (start s) (by decide) _ _
      · exact State.refuse_moves (start s) (by decide) ..
  case migrateOut =>
    refine ⟨_, fun _ => rfl, fun s => ?_⟩
    dsimp only
    split
    · exact start s
    · split
      · exact State.refuse_moves (start s) (by decide) ..
      · split
        · exact State.refuse_moves (start s) (by decide) ..
        · exact State.settleMigrate_moves (State.modStream_moves (start s) (by decide) _ _) (by decide) _
  case modelLoad =>
    refine ⟨_, fun _ => rfl, fun s => ?_⟩
    dsimp only
    split
    · exact State.modelEvent_moves (start s) (by decide) ..
    · exact State.setModel_moves (start s) (by decide) ..
  case modelUnload =>
    refine ⟨_, fun _ => rfl, fun s => ?_⟩
    dsimp only
    split
    · exact State.modelEvent_moves (start s) (by decide) ..
    · split
      · exact State.modelEvent_moves (start s) (by decide) ..
      · exact State.modelEvent_moves (State.setModel_moves (start s) (by decide) ..) (by decide) ..

/-- A ring command takes its entry when the head is consumed now, the entry is of its kind, and it is well formed. -/
theorem takes_iff {c : Instr} {p : Part} {ring : Ring} {e : Words8} {s : State} (h : ringEntry c = some (p, ring, e)) :
    takes c s = true ↔ standsFor c e = true ∧ s.consumes p.val ring.val (isOpener (entOp e)) = true ∧ s.entryError p.val e = none := by
  simp [takes, h, and_assoc]

/-- A ring command that takes its entry acts on the state in which HEAD has passed it. -/
theorem exec_taken {c : Instr} {p : Part} {ring : Ring} {e : Words8} {s : State} (act : State → State)
    (hx : exec c s = .next (s.consume p ring e (standsFor c e) act)) (h : ringEntry c = some (p, ring, e)) (ht : takes c s = true) :
    exec c s = .next (act (s.passed p ring)) := by
  obtain ⟨hm, hc, he⟩ := (takes_iff h).1 ht
  rw [hx, State.consume_taken act hc hm he]

/-- The report of a malformed entry, with its fields as R54 and R326 name them. -/
theorem State.entryFault_eq (s : State) (p ring : Nat) (e : Words8) (code : Nat) :
    s.entryFault p ring e code = s.descError p (if namesSid (entOp e) then some (entSid e) else none) (entOp e) (entTag e) code ring
      (if entOp e = 0x01 ∨ entOp e = 0x02 then entSeq e else 0)
      (if entOp e = 0x01 ∨ entOp e = 0x02 then ((s.openIn? p (entSid e)).map fun x => x.ing.entrySeq).getD 0 else 0) := by
  simp [State.entryFault]

/-! ### What all ring entries have in common -/

/-- Settles O9: the entry is consumed first, and what the command then does touches no submission ring. -/
theorem ringEntryIsConsumed : Obligations.RingEntryIsConsumed := by
  intro c p ring e s h hm
  obtain ⟨act, hx, hmove⟩ := exec_ringEntry h
  rw [hx s]
  refine ⟨fun hc => ⟨_, hx s, fun q k => ?_⟩, fun hc => by rw [State.consume_waits _ act hc]⟩
  cases he : s.entryError p.val e with
  | none =>
    rw [State.consume_taken act hc hm he, (hmove _).sq, State.sq_passed]
  | some code =>
    rw [State.consume_malformed act hc hm he,
      (State.entryFault_moves (Moves.rfl' besideSubRings _) (by decide) _ _ _ _).sq, State.sq_passed]

/-- Settles O10: whichever ring command stands for the entry, its report is that of `State.entryFault`, and the codes come in the
order of `State.entryError`. -/
theorem malformedEntryPublishesOneError : Obligations.MalformedEntryPublishesOneError := by
  refine ⟨fun c p ring e s code h hm hc he => ?_, fun s p e h => ?_, fun s p e hp h => ?_, fun s p e h hr hz ho hn => ?_⟩
  · obtain ⟨act, hx, _⟩ := exec_ringEntry h
    rw [hx s, State.consume_malformed act hc hm he, State.entryFault_eq]
    rfl
  · simp [State.entryError, h]
  · have hk : entOp e ∈ entOpcodes := by rcases h with h | h <;> rw [h] <;> decide
    simp [State.entryError, hk, hp, h]
  · have hs : entOp e = 0x11 ∨ entOp e = 0x12 ∨ entOp e = 0x13 ∨ entOp e = 0x20 ∨ entOp e = 0x22 := by simpa using h
    rcases hs with k | k | k | k | k <;> simp [State.entryError, k, hr, hz, ho, hn, namesSid, entOpcodes]

/-- Settles O34: the entry breaks the second condition of R326, and names no stream. -/
theorem onlyThePfLoadsAndUnloads : Obligations.OnlyThePfLoadsAndUnloads := by
  intro p ring e s hp hc
  have hcode := fun h => malformedEntryPublishesOneError.2.2.1 s p.val e hp h
  have report := malformedEntryPublishesOneError.1
  constructor
  · intro ho
    have hs : standsFor (.modelLoad p ring e) e = true := by simp [standsFor, ho]
    have := report (.modelLoad p ring e) p ring e s _ rfl hs (by rw [ho]; exact hc) (hcode (.inl ho))
    simpa [ho, namesSid] using this
  · intro ho
    have hs : standsFor (.modelUnload p ring e) e = true := by simp [standsFor, ho]
    have := report (.modelUnload p ring e) p ring e s _ rfl hs (by rw [ho]; exact hc) (hcode (.inr ho))
    simpa [ho, namesSid] using this

end Sys2Proof.Machine
end

section
/-! SUPPORT. Input entries: when AUDIO, TOKENS and a failed fetch are refused, and what they do to their stream (R27, R73 to R82). -/

namespace Sys2Proof.Machine

/-! ### By the state of the stream -/

/-- An input entry raises the expected ENTRY_SEQ of its stream (R27). -/
def State.countEntry (s : State) (sid : Nat) : State :=
  s.modStream sid fun x => { x with ing := { x.ing with entrySeq := (x.ing.entrySeq + 1) % 2 ^ 32 } }

/-- The states in which a stream takes input (R27). -/
def Stream.takesInput (st : Stream) : Prop := st.state = .active ∨ st.state = .idle ∨ st.state = .parked

theorem State.inputEntry_of_state {s : State} {e : Words8} {st : Stream} (act : State → State) (hs : s.stream? (entSid e) = some st)
    (ha : ¬st.takesInput) : s.inputEntry e act = (s.countEntry (entSid e)).refuse (entSid e) (entOp e) (entTag e) 0x0E := by
  have h : st.state ≠ .active ∧ st.state ≠ .idle ∧ st.state ≠ .parked := by simpa [Stream.takesInput] using ha
  simp only [State.inputEntry, hs, if_pos h]
  rfl

theorem State.inputEntry_of_kind {s : State} {e : Words8} {st : Stream} (act : State → State) (hs : s.stream? (entSid e) = some st)
    (ha : st.takesInput) (hk : entKindFits (entOp e) st = false) :
    s.inputEntry e act = (s.countEntry (entSid e)).refuse (entSid e) (entOp e) (entTag e) 0x08 := by
  have h : ¬(st.state ≠ .active ∧ st.state ≠ .idle ∧ st.state ≠ .parked) := by unfold Stream.takesInput at ha; tauto
  simp only [State.inputEntry, hs, if_neg h, hk]
  rfl

theorem State.inputEntry_taken {s : State} {e : Words8} {st : Stream} (act : State → State) (hs : s.stream? (entSid e) = some st)
    (ha : st.takesInput) (hk : entKindFits (entOp e) st = true) :
    s.inputEntry e act = act ((s.countEntry (entSid e)).wakeInput e) := by
  have h : ¬(st.state ≠ .active ∧ st.state ≠ .idle ∧ st.state ≠ .parked) := by unfold Stream.takesInput at ha; tauto
  simp only [State.inputEntry, hs, if_neg h, hk]
  rfl

theorem entKindFits_iff (op : Nat) (st : Stream) : entKindFits op st = true ↔ (op = 0x02 ↔ st.cfg.inFormat = 5) := by
  unfold entKindFits
  by_cases h : op = 0x02 <;> by_cases k : st.cfg.inFormat = 5 <;> simp [h, k]

/-- The commands that stand for AUDIO and TOKENS entries consume them as input entries. -/
theorem exec_inputEntry {c : Instr} {p : Part} {ring : Ring} {e : Words8} (h : ringEntry c = some (p, ring, e))
    (hm : standsFor c e = true) (ho : entOp e = 0x01 ∨ entOp e = 0x02) :
    ∃ act : State → State, ∀ s, exec c s = .next (s.consume p ring e (standsFor c e) fun t => t.inputEntry e act) := by
  have other : ∀ n, n ≠ 0x01 → n ≠ 0x02 → entOp e ≠ n := by omega
  cases c <;> cases h
  case audio => exact ⟨_, fun _ => rfl⟩
  case tokens => exact ⟨_, fun _ => rfl⟩
  case audioFetchFail => exact ⟨_, fun _ => rfl⟩
  all_goals exact absurd hm (by simp [standsFor, other])

/-- An AUDIO or TOKENS entry opens no stream. -/
theorem isOpener_input {op : Nat} (h : op = 0x01 ∨ op = 0x02) : isOpener op = false := by
  rcases h with h | h <;> rw [h] <;> rfl

/-- Settles O12: an input entry is refused by the state of its stream and then by its kind; an entry that cannot be read is one
step of its own. -/
theorem inputEntriesAreRefused : Obligations.InputEntriesAreRefused := by
  refine ⟨fun c p ring e s st h hm ho hc he hs => ?_, fun p ring fault s hc => ?_, fun p ring fault s hc => ?_⟩
  · obtain ⟨act, hx⟩ := exec_inputEntry h hm ho
    have hs' : (s.passed p ring).stream? (entSid e) = some st := hs
    rw [hx s, State.consume_taken _ (by rw [isOpener_input ho]; exact hc) hm he]
    refine ⟨fun ha hi hp => ?_, fun ha hk => ?_⟩
    · rw [State.inputEntry_of_state act hs' (by simp [Stream.takesInput, ha, hi, hp])]
      rfl
    · have misfit : ¬entKindFits (entOp e) st = true := by rw [entKindFits_iff]; tauto
      rw [State.inputEntry_of_kind act hs' ha (by simpa using misfit)]
      rfl
  · show (if s.consumes p.val ring.val false = true then _ else _) = _
    rw [if_pos hc]
  · show (if s.consumes p.val ring.val false = true then _ else _) = _
    rw [hc]
    rfl

/-! ### What ingest leaves as it was -/

/-- The numbers of an ingest that only the entries themselves move. -/
structure SameCount (g h : Ingest) : Prop where
  entrySeq : h.entrySeq = g.entrySeq
  samplesIn : h.samplesIn = g.samplesIn
  expectedPts : h.expectedPts = g.expectedPts

theorem SameCount.refl (g : Ingest) : SameCount g g := ⟨rfl, rfl, rfl⟩

theorem SameCount.trans {f g h : Ingest} (a : SameCount f g) (b : SameCount g h) : SameCount f h :=
  ⟨b.entrySeq.trans a.entrySeq, b.samplesIn.trans a.samplesIn, b.expectedPts.trans a.expectedPts⟩

theorem SameCount.foldl {α : Type} {f : Ingest → α → Ingest} (hf : ∀ g x, SameCount g (f g x)) (l : List α) (g : Ingest) :
    SameCount g (l.foldl f g) := by
  induction l generalizing g with
  | nil => exact .refl g
  | cons x l ih => exact (hf g x).trans (ih (f g x))

theorem Ingest.emit_sameCount (g : Ingest) (dc : Bool) (y ts : Nat) (z : Bool) : SameCount g (g.emit dc y ts z) := by
  cases dc <;> exact ⟨rfl, rfl, rfl⟩

theorem Ingest.input_sameCount (m : ModelSlot) (cfg : StreamCfg) (g : Ingest) (x ts : Nat) (z : Bool) :
    SameCount g (g.input m cfg x ts z) := by
  have delayed : SameCount g { g with inCount := g.inCount + 1, delay := (x :: g.delay).take 48 } := ⟨rfl, rfl, rfl⟩
  unfold Ingest.input
  dsimp only
  split
  · exact delayed.trans (Ingest.emit_sameCount ..)
  · refine delayed.trans (.foldl (fun h _ => ?_) _ _)
    split
    · exact Ingest.emit_sameCount ..
    · exact .refl h

theorem Ingest.inputs_sameCount (m : ModelSlot) (cfg : StreamCfg) (ts : Nat) (z : Bool) (g : Ingest) (xs : List Nat) :
    SameCount g (g.inputs m cfg ts z xs) := .foldl (fun h x => h.input_sameCount m cfg x ts z) xs g

/-- A stream that stands in the same state with the same parameters and the same ingest numbers. -/
structure SameInput (a b : Stream) : Prop where
  state : b.state = a.state
  cfg : b.cfg = a.cfg
  ing : SameCount a.ing b.ing

theorem SameInput.refl (a : Stream) : SameInput a a := ⟨rfl, rfl, .refl _⟩

theorem SameInput.trans {a b c : Stream} (h : SameInput a b) (k : SameInput b c) : SameInput a c :=
  ⟨k.state.trans h.state, k.cfg.trans h.cfg, h.ing.trans k.ing⟩

/-- A stream, where it exists, keeps its state, its parameters and its ingest numbers. -/
structure KeepsInput (sid : Nat) (s t : State) : Prop where
  get : ∀ st, s.stream? sid = some st → ∃ x, t.stream? sid = some x ∧ SameInput st x

theorem KeepsInput.of_eq {sid : Nat} {s t : State} (h : t.stream? sid = s.stream? sid) : KeepsInput sid s t :=
  ⟨fun st e => ⟨st, h.trans e, .refl st⟩⟩

theorem KeepsInput.refl (sid : Nat) (s : State) : KeepsInput sid s s := .of_eq rfl

theorem KeepsInput.trans {sid : Nat} {s t u : State} (h : KeepsInput sid s t) (k : KeepsInput sid t u) : KeepsInput sid s u := by
  refine ⟨fun st e => ?_⟩
  obtain ⟨x, hx, sx⟩ := h.get st e
  obtain ⟨y, hy, sy⟩ := k.get x hx
  exact ⟨y, hy, sx.trans sy⟩

theorem State.modStream_keepsInput (s : State) (sid : Nat) (f : Stream → Stream) (hf : ∀ x, SameInput x (f x)) :
    KeepsInput sid s (s.modStream sid f) :=
  ⟨fun st e => ⟨f st, by rw [State.stream?_modStream_self, e]; rfl, hf st⟩⟩

/-! ### Forming and ending chunks -/

theorem State.beginChunk_keepsInput (s : State) (sid : Nat) : KeepsInput sid s (s.beginChunk sid) := by
  refine .of_eq ?_
  unfold State.beginChunk
  split
  · rfl
  · split <;> rfl

theorem State.endChunk_keepsInput (s : State) (sid owned : Nat) (ended : Bool) (dc : Nat × Nat) :
    KeepsInput sid s (s.endChunk sid owned ended dc) := by
  unfold State.endChunk
  split
  · exact .of_eq rfl
  · refine KeepsInput.trans (.of_eq ?_) (State.modStream_keepsInput _ sid _ ?_)
    · rfl
    · exact fun x => ⟨rfl, rfl, ⟨rfl, rfl, rfl⟩⟩

theorem State.fillChunks_keepsInput (sid n : Nat) (s : State) : KeepsInput sid s (State.fillChunks sid n s) := by
  induction n generalizing s with
  | zero => exact .of_eq rfl
  | succ n ih =>
    unfold State.fillChunks
    dsimp only
    refine (s.beginChunk_keepsInput sid).trans ?_
    split
    · exact .of_eq rfl
    · split
      · exact (State.endChunk_keepsInput ..).trans (ih _)
      · exact .of_eq rfl

theorem State.completeChunks_stream? (s : State) (sid q : Nat) : (s.completeChunks sid).stream? q = s.stream? q := by
  unfold State.completeChunks
  split <;> rfl

theorem State.formChunks_keepsInput (s : State) (sid : Nat) : KeepsInput sid s (s.formChunks sid) :=
  (State.fillChunks_keepsInput sid _ s).trans (.of_eq (State.completeChunks_stream? _ sid sid))

/-- Setting the ingest state of a stream sets its ingest numbers. -/
theorem State.withIngest_stream? {s : State} {sid : Nat} {st : Stream} (h : s.stream? sid = some st) (g : Ingest) :
    ∃ x, (s.withIngest sid g).stream? sid = some x ∧ SameInput { st with ing := g } x :=
  (State.formChunks_keepsInput _ sid).get _ (by rw [State.stream?_modStream_self, h]; rfl)

theorem State.cutChunks_keepsInput (s : State) (sid ts : Nat) (drain : Bool) : KeepsInput sid s (s.cutChunks sid ts drain) := by
  unfold State.cutChunks
  split
  · exact .of_eq rfl
  · dsimp only
    refine KeepsInput.trans (t := if _ then s else _) ?_ (.of_eq (by split <;> rfl))
    split
    · exact .of_eq rfl
    · refine KeepsInput.trans (State.modStream_keepsInput s sid _ ?_) (State.endChunk_keepsInput ..)
      exact fun x => ⟨rfl, rfl, ⟨rfl, rfl, rfl⟩⟩

theorem State.endAtEou_keepsInput (s : State) (e : Words8) : KeepsInput (entSid e) s (s.endAtEou e) := by
  unfold State.endAtEou
  split
  · refine (State.cutChunks_keepsInput s (entSid e) s.now false).trans (.of_eq ?_)
    unfold State.endsExactly
    split <;> rfl
  · exact .of_eq rfl

/-! ### Gaps and samples -/

theorem State.shortGap_keepsInput (s : State) (sid gap ts : Nat) : KeepsInput sid s (s.shortGap sid gap ts) := by
  refine ⟨fun st h => ?_⟩
  simp only [State.shortGap, h]
  obtain ⟨x, hx, k⟩ := State.withIngest_stream? h _
  refine ⟨x, hx, k.state, k.cfg, SameCount.trans ?_ ((Ingest.inputs_sameCount ..).trans k.ing)⟩
  exact ⟨rfl, rfl, rfl⟩

theorem State.longGap_keepsInput (s : State) (sid gap ts : Nat) : KeepsInput sid s (s.longGap sid gap ts) := by
  refine ⟨fun st h => ?_⟩
  simp only [State.longGap, h]
  obtain ⟨x, hx, k⟩ := State.withIngest_stream? h _
  rw [State.stream?_modStream_self, hx]
  have filled := Ingest.inputs_sameCount (s.model st.cfg.model) st.cfg ts true st.ing
    (List.replicate (st.ing.zerosToEnd (s.model st.cfg.model) st.cfg) 0)
  exact ⟨_, rfl, k.state, k.cfg, k.ing.entrySeq.trans filled.entrySeq, k.ing.samplesIn.trans filled.samplesIn,
    k.ing.expectedPts.trans filled.expectedPts⟩

theorem State.takePts_keepsInput (s : State) (sid pts ts : Nat) : KeepsInput sid s (s.takePts sid pts ts) := by
  unfold State.takePts
  split
  · exact .refl sid s
  · split
    · exact .refl sid s
    · dsimp only
      split
      · exact State.modStream_keepsInput s sid _ fun x => ⟨rfl, rfl, ⟨rfl, rfl, rfl⟩⟩
      · split
        · exact .refl sid s
        · split
          · exact State.shortGap_keepsInput ..
          · exact State.longGap_keepsInput ..

theorem length_chunksOf {α : Type} (n k : Nat) (l : List α) (hn : 0 < n) (h : k * n ≤ l.length) : (chunksOf k n l).length = k := by
  induction k generalizing l with
  | zero => rfl
  | succ k ih =>
    cases l with
    | nil => simp [Nat.succ_mul] at h; omega
    | cons x l =>
      simp only [chunksOf, List.length_cons]
      rw [ih]
      simp only [List.length_drop, Nat.succ_mul] at h ⊢
      omega

/-- A buffer of `len` bytes holds as many samples as containers fit. -/
theorem length_convBuffer (format : Nat) (buf : List Byte) : (convBuffer format buf).length = buf.length / container format := by
  simp only [convBuffer, List.length_map]
  cases Nat.eq_zero_or_pos (container format) with
  | inl h => rw [h, Nat.div_zero]; rfl
  | inr h => exact length_chunksOf _ _ _ h (Nat.div_mul_le_self _ _)

/-- The ingest of a stream after the samples of an AUDIO entry (R27, R77, R78). -/
def Ingest.take (m : ModelSlot) (cfg : StreamCfg) (ts : Nat) (pts : Option Nat) (cs : List Conv) (g : Ingest) : Ingest :=
  Ingest.inputs m cfg ts false
    { g.count cs with expectedPts := (pts.or g.expectedPts).map fun b => b + cs.length * 1000000000 / inHz cfg.inRate }
    (cs.map (·.x))

theorem Ingest.take_sameCount (m : ModelSlot) (cfg : StreamCfg) (ts : Nat) (pts : Option Nat) (cs : List Conv) (g : Ingest) :
    SameCount { g with samplesIn := (g.samplesIn + cs.length) % 2 ^ 32
                       expectedPts := (pts.or g.expectedPts).map fun b => b + cs.length * 1000000000 / inHz cfg.inRate }
      (g.take m cfg ts pts cs) := by
  refine SameCount.trans ?_ (Ingest.inputs_sameCount ..)
  exact ⟨rfl, rfl, rfl⟩

/-- A stream has taken `n` samples: they count in SAMPLES_IN and move the expected PTS on from the entry's, or without one from the
former expectation (R27, R78). -/
structure TookSamples (pts : Option Nat) (n : Nat) (st x : Stream) : Prop where
  state : x.state = st.state
  entrySeq : x.ing.entrySeq = st.ing.entrySeq
  samplesIn : x.ing.samplesIn = (st.ing.samplesIn + n) % 2 ^ 32
  expectedPts : x.ing.expectedPts = (pts.or st.ing.expectedPts).map fun b => b + n * 1000000000 / inHz st.cfg.inRate

theorem TookSamples.congr {pts : Option Nat} {n : Nat} {st y x : Stream} (h : SameInput st y) (k : TookSamples pts n y x) :
    TookSamples pts n st x :=
  ⟨k.state.trans h.state, k.entrySeq.trans h.ing.entrySeq, by rw [k.samplesIn, h.ing.samplesIn],
    by rw [k.expectedPts, h.ing.expectedPts, h.cfg]⟩

theorem State.withIngest_took {s : State} {sid : Nat} {y : Stream} (h : s.stream? sid = some y) (m : ModelSlot) (ts : Nat)
    (pts : Option Nat) (cs : List Conv) :
    ∃ x, (s.withIngest sid (y.ing.take m y.cfg ts pts cs)).stream? sid = some x ∧ TookSamples pts cs.length y x := by
  obtain ⟨x, hx, sx⟩ := State.withIngest_stream? h (y.ing.take m y.cfg ts pts cs)
  have sg := (Ingest.take_sameCount m y.cfg ts pts cs y.ing).trans sx.ing
  exact ⟨x, hx, sx.state, sg.entrySeq, sg.samplesIn, sg.expectedPts⟩

theorem State.audioIn_took {s : State} {sid : Nat} {st : Stream} (h : s.stream? sid = some st) (pts : Option Nat) (buf : List Byte) :
    ∃ x, (s.audioIn sid pts buf).stream? sid = some x ∧ TookSamples pts (buf.length / container st.cfg.inFormat) st x := by
  rw [← length_convBuffer]
  cases pts with
  | none =>
    simp only [State.audioIn, h]
    exact State.withIngest_took h _ _ none _
  | some p =>
    obtain ⟨y, hy, sy⟩ := (State.takePts_keepsInput s sid p s.now).get st h
    obtain ⟨x, hx, took⟩ := State.withIngest_took hy (s.model st.cfg.model) s.now (some p) (convBuffer st.cfg.inFormat buf)
    simp only [State.audioIn, h, hy]
    exact ⟨x, by rw [← hx, sy.cfg]; rfl, took.congr sy⟩

/-! ### What an entry does to its stream -/

/-- A stream whose input entry is consumed: ENTRY_SEQ has advanced, and an IDLE stream is ACTIVE (R24, R27). -/
structure Woken (st x : Stream) : Prop where
  state : x.state = if st.state = .idle then .active else st.state
  cfg : x.cfg = st.cfg
  entrySeq : x.ing.entrySeq = (st.ing.entrySeq + 1) % 2 ^ 32
  samplesIn : x.ing.samplesIn = st.ing.samplesIn
  expectedPts : x.ing.expectedPts = st.ing.expectedPts
  chunkNo : x.ing.chunkNo = st.ing.chunkNo

/-- A stream that takes input is neither CLOSED nor LOST once it is woken. -/
theorem Woken.isOpen {st x : Stream} (h : Woken st x) (ha : st.takesInput) : x.state ≠ .closed ∧ x.state ≠ .lost := by
  rw [h.state]
  rcases ha with k | k | k <;> rw [k] <;> decide

theorem State.wakeInput_woken {s : State} {e : Words8} {st : Stream} (h : s.stream? (entSid e) = some st) (ha : st.takesInput) :
    ∃ x, ((s.countEntry (entSid e)).wakeInput e).stream? (entSid e) = some x ∧ Woken st x := by
  have woken : ∃ x, ((s.countEntry (entSid e)).modStream (entSid e) fun x =>
      { x with ing := { x.ing with lastTs := s.now, idlePending := false }
               state := if x.state = .idle then .active else x.state }).stream? (entSid e) = some x ∧ Woken st x := by
    simp only [State.countEntry, State.stream?_modStream_self, h]
    exact ⟨_, rfl, rfl, rfl, rfl, rfl, rfl, rfl⟩
  obtain ⟨x, hx, kx⟩ := woken
  unfold State.wakeInput
  dsimp only
  split
  · obtain ⟨n, hn⟩ := State.streamEvent_renumbered _ _ _ _ _ _ _ _ x hx (kx.isOpen ha).1 (kx.isOpen ha).2
    exact ⟨_, hn, kx.state, kx.cfg, kx.entrySeq, kx.samplesIn, kx.expectedPts, kx.chunkNo⟩
  · exact ⟨x, hx, kx⟩

theorem State.chargePart_stream? (s : State) (p reg n q : Nat) : (s.chargePart p reg n).stream? q = s.stream? q := by
  unfold State.chargePart
  dsimp only
  split <;> rfl

theorem State.hostReadFault_stream? (s : State) (p : Nat) (f : ReadFault) (q : Nat) : (s.hostReadFault p f).stream? q = s.stream? q := by
  cases f <;> rfl

theorem State.descError_renumbered (s : State) (p : Nat) (q : Option Nat) (op tag code ring seq expected sid : Nat) :
    Renumbered s (s.descError p q op tag code ring seq expected) sid := by
  unfold State.descError
  split
  · split
    · exact s.publish_renumbered _ _ _ sid
    · exact .refl s sid
  · exact s.publish_renumbered _ _ _ sid

/-- Below chunk 2^32 a TOKENS entry forms one complete chunk of its token IDs (R26, R36, R73). -/
theorem State.tokensIn_chunk {s : State} {sid : Nat} {st : Stream} (h : s.stream? sid = some st) (toks : List Nat)
    (hn : st.ing.chunkNo < 2 ^ 32) :
    (∃ x, (s.tokensIn sid toks).stream? sid = some x ∧ SameInput st x ∧ x.ing.chunkNo = st.ing.chunkNo + 1)
    ∧ ∃ c ∈ (s.tokensIn sid toks).str.chunks, c.sid = sid ∧ c.no = st.ing.chunkNo ∧ c.tokens = toks ∧ c.owned = toks.length
      ∧ c.complete = true := by
  simp only [State.tokensIn, h, if_neg (Nat.not_le.2 hn), State.stream?_modStream_self]
  refine ⟨⟨_, congrArg (Option.map _) h, ⟨rfl, rfl, ⟨rfl, rfl, rfl⟩⟩, rfl⟩, ?_⟩
  exact ⟨_, List.mem_append_right _ (List.mem_singleton_self _), rfl, rfl, rfl, rfl, rfl⟩

theorem State.tokensIn_keepsInput (s : State) (sid : Nat) (toks : List Nat) : KeepsInput sid s (s.tokensIn sid toks) := by
  refine ⟨fun st h => ?_⟩
  by_cases hn : st.ing.chunkNo < 2 ^ 32
  · obtain ⟨⟨x, hx, kx, _⟩, _⟩ := State.tokensIn_chunk h toks hn
    exact ⟨x, hx, kx⟩
  · simp only [State.tokensIn, h, if_pos (Nat.not_lt.1 hn)]
    exact ⟨st, rfl, .refl st⟩

/-- A well-formed input entry of the stream's kind wakes its stream, and the command acts (R27). -/
theorem exec_input_taken {c : Instr} {p : Part} {ring : Ring} {e : Words8} {s : State} {st : Stream} (act : State → State)
    (hx : exec c s = .next (s.consume p ring e (standsFor c e) fun t => t.inputEntry e act)) (hm : standsFor c e = true)
    (ho : entOp e = 0x01 ∨ entOp e = 0x02) (hk : entOp e = 0x02 ↔ st.cfg.inFormat = 5)
    (hc : s.consumes p.val ring.val false = true) (he : s.entryError p.val e = none) (hs : s.stream? (entSid e) = some st)
    (ha : st.takesInput) : exec c s = .next (act (((s.passed p ring).countEntry (entSid e)).wakeInput e)) := by
  rw [hx, State.consume_taken _ (by rw [isOpener_input ho]; exact hc) hm he]
  exact congrArg _ (State.inputEntry_taken act hs ha ((entKindFits_iff _ _).2 hk))

/-- Settles O11: the entry wakes its stream, and what AUDIO, TOKENS and a failed fetch then do keeps its state and ENTRY_SEQ. -/
theorem inputEntriesAreTaken : Obligations.InputEntriesAreTaken := by
  intro p ring e buf fault s st hc he hs ha
  obtain ⟨y, hy, ky⟩ := State.wakeInput_woken (s := s.passed p ring) hs ha
  refine ⟨fun ho hf => ?_, fun ho hf => ?_, fun ho => ?_⟩
  · obtain ⟨x, hx, kx⟩ := State.audioIn_took ((State.chargePart_stream? _ p.val 4 (ent e 2 0 32) _).trans hy)
      (if entPtsValid e then some (entWord e 3) else none) (slice buf 0 (ent e 2 0 32))
    obtain ⟨z, hz, kz⟩ := (State.endAtEou_keepsInput _ e).get x hx
    refine ⟨_, exec_input_taken _ rfl (by simp [standsFor, ho]) (.inl ho) (by simp [ho, hf]) hc he hs ha, z, hz, ⟨?_, ?_⟩, ?_, ?_⟩
    · rw [kz.ing.entrySeq, kx.entrySeq, ky.entrySeq]
    · rw [kz.state, kx.state, ky.state]
    · rw [kz.ing.samplesIn, kx.samplesIn, ky.samplesIn, ky.cfg, slice_length]
    · rw [kz.ing.expectedPts, kx.expectedPts, ky.expectedPts, ky.cfg, slice_length]
      cases entPtsValid e <;> rfl
  · refine ⟨_, exec_input_taken _ rfl (by simp [standsFor, ho]) (.inr ho) (by simp [ho, hf]) hc he hs ha, ?_⟩
    have charged : ∀ u : State, u.stream? (entSid e) = some y →
        (if ent e 1 0 64 = 0 then u else u.chargePart p.val 4 (2 * ent e 2 0 32)).stream? (entSid e) = some y := by
      intro u hu
      split
      · exact hu
      · exact (State.chargePart_stream? ..).trans hu
    obtain ⟨x, hx, kx⟩ := (State.tokensIn_keepsInput _ _ (entTokens e buf)).get y (charged _ hy)
    refine ⟨x, hx, ⟨by rw [kx.ing.entrySeq, ky.entrySeq], by rw [kx.state, ky.state]⟩, fun hn => ?_⟩
    obtain ⟨⟨z, hz, _, no⟩, c, mem, hsid, hno, htok, howned, hdone⟩ := State.tokensIn_chunk (charged _ hy) (entTokens e buf) (by rw [ky.chunkNo]; exact hn)
    have same : z = x := Option.some.inj (hz.symm.trans hx)
    refine ⟨by rw [← same, no, ky.chunkNo], c, mem, hsid, by rw [hno, ky.chunkNo], htok, ?_, hdone⟩
    rw [howned]
    simp [entTokens]
  · have hm : standsFor (.audioFetchFail p ring e fault) e = true := by
      rcases ho with ⟨k, _⟩ | ⟨k, n, _⟩
      · simp [standsFor, k]
      · simp [standsFor, k, n]
    have hk : entOp e = 0x02 ↔ st.cfg.inFormat = 5 := by
      rcases ho with ⟨k, n⟩ | ⟨k, _, n⟩ <;> simp [k, n]
    obtain ⟨n, hn⟩ := State.descError_renumbered _ p.val (some (entSid e)) (entOp e) (entTag e) 0x08 ring.val (entSeq e) (entSeq e) _ y
      ((State.hostReadFault_stream? _ p.val fault _).trans hy) (ky.isOpen ha).1 (ky.isOpen ha).2
    obtain ⟨z, hz, kz⟩ := (State.endAtEou_keepsInput _ e).get _ hn
    refine ⟨_, exec_input_taken _ rfl hm (ho.imp And.left And.left) hk hc he hs ha, z, hz, ⟨?_, ?_⟩, ?_, ?_⟩
    · rw [kz.ing.entrySeq, ky.entrySeq]
    · rw [kz.state, ky.state]
    · rw [kz.ing.samplesIn, ky.samplesIn]
    · rw [kz.ing.expectedPts, ky.expectedPts]

end Sys2Proof.Machine
end

section
/-! SUPPORT. The entries that close, change, resume, export and move an open stream, and what follows them (R24, R25, R58 to R67, R69). -/

namespace Sys2Proof.Machine

/-- Settles O15: each command takes its entry, and then goes by the state of the stream. -/
theorem streamEntriesAct : Obligations.StreamEntriesAct := by
  intro p ring e s st hs
  have hs' : (s.passed p ring).stream? (entSid e) = some st := hs
  refine ⟨fun ht => ?closeDrain, fun ht => ?closeAbort, fun ht => ?setParams, fun ht => ?resume, fun ht => ?exportEntry,
    fun ht => ?migrateOut⟩ <;> rw [exec_taken _ rfl rfl ht] <;> simp only [hs']
  case closeDrain => exact ⟨fun h => by rw [if_pos h], fun h => by rw [if_neg h]⟩
  case closeAbort => exact ⟨fun h => by rw [if_neg h], fun h => by rw [if_pos h]⟩
  case setParams => exact ⟨fun r h => by rw [h], fun h => by rw [h]⟩
  case resume => exact ⟨fun h => by rw [if_pos h], fun h => by rw [if_neg h]⟩
  case exportEntry => exact ⟨fun h => by rw [if_pos (by tauto)], fun h k => by rw [if_neg (by tauto)]⟩
  case migrateOut =>
    refine ⟨fun h => by rw [if_pos (by simp [h])], fun h k => ?_, fun h k => ?_⟩
    · rw [if_neg (by simp [h]), if_pos (by simp [k])]
    · rw [if_neg (by simp [h]), if_neg (by simpa using k)]

/-! ### Captures (R63, R67, R69) -/

section
variable {sid : Sid} {s : State} {st : Stream} {e : ExportReq} {es : List ExportReq}

/-- Before the boundary of the oldest export has been reached, nothing is captured. -/
theorem exec_exportCapture_early (hs : s.stream? sid.val = some st) (hr : s.captureReady sid.val st = false) :
    exec (.exportCapture sid) s = .next s := by
  show execExportCapture sid s = _
  simp only [execExportCapture, hs, hr]
  split <;> rfl

/-- At the boundary of a MIGRATE_OUT the stream is frozen. -/
theorem exec_exportCapture_migrates (hs : s.stream? sid.val = some st) (he : st.exports = e :: es)
    (hr : s.captureReady sid.val st = true) (ho : e.opcode = 0x22) : exec (.exportCapture sid) s = .next (s.settleMigrate sid.val) := by
  show execExportCapture sid s = _
  simp only [execExportCapture, hs, he, hr, ho]
  rfl

/-- At the boundary of an EXPORT the length of the blob decides between refusal and capture. -/
theorem exec_exportCapture_export {x : Stream} (hs : s.stream? sid.val = some st) (he : st.exports = e :: es)
    (hr : s.captureReady sid.val st = true) (ho : e.opcode ≠ 0x22) (hx : (s.repairCommitted sid.val).stream? sid.val = some x)
    (hl : x.state ≠ .lost) : exec (.exportCapture sid) s =
      let u := s.repairCommitted sid.val
      if e.bufLen < (u.blobOf sid.val x).length then .next ((u.refuse sid.val 0x20 e.hostTag 0x17).popExport sid.val [])
      else .next (u.modStream sid.val fun y =>
        { y with exports := { e with blob := u.blobOf sid.val x, captured := true } :: y.exports.drop 1 }) := by
  show execExportCapture sid s = _
  simp only [execExportCapture, hs, he, hr, hx, ho, hl, Bool.not_true, Bool.false_eq_true, if_false]

/-! ### Writes of a blob (R67, R544) -/

/-- The write waits for its capture and for Bus Master Enable. -/
theorem exec_blobWriteDone_waits (hs : s.stream? sid.val = some st) (he : st.exports = e :: es)
    (hw : e.captured = false ∨ e.opcode ≠ 0x20 ∨ (s.fn st.cfg.part).bme = false) : exec (.blobWriteDone sid) s = .next s := by
  show execBlobWriteDone sid s = _
  simp only [execBlobWriteDone, hs, he]
  rw [if_pos]
  rcases hw with h | h | h <;> simp [h]

/-- The captured blob lies at the address of its EXPORT, and EXPORT_DONE follows. -/
theorem exec_blobWriteDone_written (hs : s.stream? sid.val = some st) (he : st.exports = e :: es) (hc : e.captured = true)
    (ho : e.opcode = 0x20) (hb : (s.fn st.cfg.part).bme = true) (hf : (s.fn st.cfg.part).resetting = false) :
    exec (.blobWriteDone sid) s =
      let done := exportDoneRec sid.val st.lastChunk e.hostTag e.blob.length st.nextSeq st.samplePos
      let u := s.hostWrite e.bufAddr e.blob
      .next (if e.detach then u.detach sid.val e done else u.popExport sid.val [(done, [])]) := by
  show execBlobWriteDone sid s = _
  simp only [execBlobWriteDone, hs, he]
  rw [if_neg (by simp [hc, ho, hb, hf])]

/-! ### The idle timer (R24, R82, R495) -/

/-- The idle timer runs out for an ACTIVE or PARKED stream of a device in service. -/
theorem exec_idleTimeout_eq (hs : s.stream? sid.val = some st) : exec (.idleTimeout sid) s =
    if (st.state = .active ∨ st.state = .parked) ∧ s.ctl.nmt = .operational ∧ s.frozen = false then
      .next (((s.cutChunks sid.val st.ing.lastTs false).modStream sid.val fun x =>
        { x with ing := { x.ing with idlePending := true } }).settleStream sid.val)
    else .next s := by
  show execIdleTimeout sid s = _
  simp only [execIdleTimeout, hs, Bool.not_eq_eq_eq_not, Bool.not_true]

end

/-- Settles O18: one lemma for each way in which a capture, a write of a blob or the idle timer goes. -/
theorem streamFollowUpsAct : Obligations.StreamFollowUpsAct := by
  intro sid s st e es hs
  refine ⟨exec_exportCapture_early hs, exec_exportCapture_migrates hs, fun x he hr ho hx hl => ⟨fun hb => ?_, fun hb => ?_⟩,
    exec_blobWriteDone_waits hs, exec_blobWriteDone_written hs, fun ha hn hz => ?_, fun h => ?_⟩
  · rw [exec_exportCapture_export hs he hr ho hx hl, if_pos hb]
  · refine ⟨_, (exec_exportCapture_export hs he hr ho hx hl).trans (if_neg (Nat.not_lt.2 hb)), ?_⟩
    exact ⟨_, (State.stream?_modStream_self ..).trans (congrArg _ hx), rfl⟩
  · rw [exec_idleTimeout_eq hs, if_pos ⟨ha, hn, hz⟩]
  · rw [exec_idleTimeout_eq hs, if_neg]
    rintro ⟨ha, hn, hz⟩
    rcases h with ⟨k, l⟩ | h | h
    · exact ha.elim k l
    · exact h hn
    · exact absurd hz (by rw [h]; decide)

end Sys2Proof.Machine
end

section
/-! SUPPORT. How streams begin: OPEN, and the imports that a blob completes (R19, R28, R32, R57, R61, R66, R68, R621). -/

namespace Sys2Proof.Machine

/-! ### What changes beside the streams leave of them -/

theorem Moves.stream? {k : Nat} {s t : State} (h : Moves k s t) (hk : k.testBit 26 = false) (q : Nat) : t.stream? q = s.stream? q := by
  unfold State.stream?
  rw [h.frame.str.tab hk]

theorem State.passed_earlyFault (s : State) (p : Part) (ring : Ring) (cfg : StreamCfg) : (s.passed p ring).earlyFault cfg = s.earlyFault cfg := by
  unfold State.earlyFault State.passed State.advanceHead
  dsimp only
  rw [State.oq_setSq]
  rfl

/-! ### Taking an entry of the stream table -/

theorem State.opening_refused {s : State} {p ring : Nat} {e : Words8} {r : Nat} (act : Nat → State → State)
    (h : s.earlyFault (entCfg p e) = some r) : s.opening p ring e act = s.refuseOpen p (entOp e) (entTag e) r none := by
  unfold State.opening
  rw [h]

theorem State.opening_taken {s : State} {p ring : Nat} {e : Words8} {sid : Nat} (act : Nat → State → State)
    (h : s.earlyFault (entCfg p e) = none) (hf : s.freeSid = some sid) :
    s.opening p ring e act = act sid (s.allocStream sid (entStream p ring e)) := by
  unfold State.opening
  rw [h, hf]

theorem State.freeSid_lt {s : State} {sid : Nat} (h : s.freeSid = some sid) : sid < 8192 := by
  unfold State.freeSid firstIndex at h
  exact List.mem_range.1 (List.mem_of_find?_eq_some h)

theorem State.stream?_allocStream_self (s : State) (sid : Nat) (x : Stream) :
    (s.allocStream sid x).stream? sid = some { x with state := .opening } := State.stream?_putStream_self s sid _

theorem State.stream?_allocStream_ne (s : State) {sid q : Nat} (x : Stream) (h : q ≠ sid) :
    (s.allocStream sid x).stream? q = s.stream? q := State.stream?_putStream_ne s _ h

theorem State.epoch_allocStream (s : State) (sid : Nat) (x : Stream) :
    Tbl.getD (s.allocStream sid x).str.epoch 0 sid = (Tbl.getD s.str.epoch 0 sid + 1) % 2 ^ 32 := Tbl.getD_put_self ..

/-! ### The stream begins (R28, R44, R57) -/

/-- An OPENING stream as it begins in a state: parameters, loads and pages, and every counter 0. -/
def Stream.begun (x : Stream) (m : ModelSlot) (cfg : StreamCfg) (state : StreamState) (now : Nat) : Stream :=
  { state := state, cfg := cfg, running := cfg.model, load := if cfg.cls = 0 then m.lcLoad cfg.chunkMs else 0
    lcPages := if cfg.cls = 0 then m.field 0x88 4 else 0, peerDev := x.peerDev, peerStream := x.peerStream, hostTag := x.hostTag
    entRing := x.entRing, heldSince := now }

/-- Beginning a stream moves its sequence at most, beside its mirror buffers and its table entry. -/
theorem State.beginStream_eq (s : State) (sid : Nat) (cfg : StreamCfg) (state : StreamState) :
    Moves 0x800000 (State.modStream { s with str := { s.str with mirror := Mem.clearRange s.str.mirror (sid * 2 * 196608) (2 * 196608) } }
      sid fun x => x.begun (s.model cfg.model) cfg state s.now) (s.beginStream sid cfg state) := by
  unfold State.beginStream
  simp only [decide_eq_true_eq]
  split
  · exact State.beginSeq_moves (Moves.rfl' _ _) (Covers.refl _) _ _
  · exact Moves.rfl' _ _

theorem State.stream?_beginStream_self {s : State} {sid : Nat} {x : Stream} (h : s.stream? sid = some x) (cfg : StreamCfg)
    (state : StreamState) : (s.beginStream sid cfg state).stream? sid = some (x.begun (s.model cfg.model) cfg state s.now) := by
  rw [(s.beginStream_eq sid cfg state).stream? (by decide), State.stream?_modStream_self]
  exact congrArg _ h

theorem State.stream?_beginStream_ne (s : State) {sid q : Nat} (cfg : StreamCfg) (state : StreamState) (h : q ≠ sid) :
    (s.beginStream sid cfg state).stream? q = s.stream? q := by
  rw [(s.beginStream_eq sid cfg state).stream? (by decide), State.stream?_modStream_ne _ _ h]
  rfl

theorem State.epoch_beginStream (s : State) (sid : Nat) (cfg : StreamCfg) (state : StreamState) :
    (s.beginStream sid cfg state).str.epoch = s.str.epoch := (s.beginStream_eq sid cfg state).frame.str.epoch (by decide)

theorem State.model_beginStream (s : State) (sid : Nat) (cfg : StreamCfg) (state : StreamState) (k : Nat) :
    (s.beginStream sid cfg state).model k = s.model k := by
  unfold State.model
  rw [(s.beginStream_eq sid cfg state).frame.str.models (by decide)]
  rfl

/-- Both mirror buffers of a stream that begins hold zeros (R44). -/
theorem State.mirror_beginStream (s : State) {sid a : Nat} (cfg : StreamCfg) (state : StreamState) (h : sid * 393216 ≤ a)
    (k : a < (sid + 1) * 393216) : Mem.read (s.beginStream sid cfg state).str.mirror a = 0 := by
  rw [(s.beginStream_eq sid cfg state).frame.str.mirror (by decide)]
  refine (Mem.read_clearRange _ _ _ _).trans (if_pos ?_)
  omega

/-! ### OPENED and IMPORTED -/

/-- Of an ACTIVE stream a publication moves the number of its next record alone. -/
theorem Renumbered.of_active {s t : State} {sid : Nat} {st : Stream} (h : Renumbered s t sid) (hs : s.stream? sid = some st)
    (ha : st.state = .active) : ∃ n, t.stream? sid = some { st with eg := { st.eg with pubNext := n } } :=
  h st hs (by rw [ha]; decide) (by rw [ha]; decide)

theorem State.openedEvent_renumbered (s : State) (q op tag sid : Nat) : Renumbered s (s.openedEvent q op tag) sid := by
  unfold State.openedEvent
  split
  · refine Renumbered.trans (.of_eq ?_) (State.streamEvent_renumbered _ _ _ _ _ _ _ sid)
    rfl
  · exact .refl s sid

theorem State.openedEvent_other (s : State) {sid q : Nat} (op tag : Nat) (hs : sid < 8192) (hq : q ≠ sid) :
    (s.openedEvent sid op tag).stream? q = s.stream? q := by
  unfold State.openedEvent
  split
  · exact State.streamEvent_other _ _ _ _ _ _ hs hq
  · rfl

theorem State.openedEvent_epoch (s : State) (sid op tag : Nat) : (s.openedEvent sid op tag).str.epoch = s.str.epoch := by
  unfold State.openedEvent
  split
  · unfold State.streamEvent
    split
    · exact State.publish_epoch ..
    · rfl
  · rfl

theorem State.openedEvent_mirror (s : State) (sid op tag : Nat) : (s.openedEvent sid op tag).str.mirror = s.str.mirror :=
  (State.openedEvent_moves (Moves.rfl' 0x400092c800000 s) (Covers.refl _) sid op tag).frame.str.mirror (by decide)

/-- Settles O13: the checks of R621 in their order; the stream that passes them all begins, and OPENED moves its record number alone. -/
theorem openIsAdmittedOrRefused : Obligations.OpenIsAdmittedOrRefused := by
  intro p ring e s ht
  have op : entOp e = 0x10 := by simpa [standsFor] using ((takes_iff rfl).1 ht).1
  refine ⟨fun r hr => ?_, fun sid hn hf => ?_⟩
  · rw [exec_taken _ rfl rfl ht, State.opening_refused _ ((State.passed_earlyFault ..).trans hr), op]
  have early := (s.passed_earlyFault p ring _).trans hn
  refine ⟨fun r hr => ?_, fun hr => ⟨_, exec_taken _ rfl rfl ht, ?_⟩⟩
  · rw [exec_taken _ rfl rfl ht, State.opening_taken _ early hf]
    simp only [hr]
  · rw [State.opening_taken _ early hf]
    simp only [hr]
    have begun := State.stream?_beginStream_self ((s.passed p ring).stream?_allocStream_self sid (entStream p.val ring.val e))
      (entCfg p.val e) .active
    obtain ⟨n, hx⟩ := (State.openedEvent_renumbered _ sid 0x10 (entTag e) sid).of_active begun rfl
    refine ⟨⟨_, hx, rfl, rfl, rfl, rfl, rfl, rfl, rfl, rfl, rfl, rfl⟩, ?_, fun a h k => ?_, fun q hq => ?_⟩
    · rw [State.openedEvent_epoch, State.epoch_beginStream, State.epoch_allocStream]
      rfl
    · rw [State.openedEvent_mirror, State.mirror_beginStream _ _ _ h k]
    · rw [State.openedEvent_other _ _ _ (State.freeSid_lt hf) hq, State.stream?_beginStream_ne _ _ _ hq, State.stream?_allocStream_ne _ _ hq]
      rfl

end Sys2Proof.Machine
end

section
/-! SUPPORT. What an accepted blob gives to the stream that it opens (R32, R66, R68). -/

namespace Sys2Proof.Machine

/-! ### The blob that passed the checks -/

theorem getD_slice (l : List Byte) (o n i : Nat) (h : i < n) : (slice l o n).getD i 0 = (l.drop o).getD i 0 := by
  simp only [slice, List.getD_eq_getElem?_getD]
  by_cases k : i < ((l.drop o).take n).length
  · rw [List.getElem?_append_left k, List.getElem?_take_of_lt h]
  · have past : (l.drop o).length ≤ i := by
      simp only [List.length_take] at k
      omega
    rw [List.getElem?_append_right (by omega), List.getElem?_eq_none past, List.getElem?_replicate]
    split <;> rfl

/-- A blob that passes the checks has state planes that a mirror buffer holds. -/
theorem State.importFault_rows {s : State} {cfg : StreamCfg} {b : List Byte} (h : s.importFault cfg b = none) :
    (s.model cfg.model).stateRows + (s.model cfg.model).residualRows ≤ 384 := by
  have header : blobFault b = none := by
    cases k : blobFault b with
    | none => rfl
    | some r => simp [State.importFault, k] at h
  have layout : blobLayoutOk (s.model cfg.model) b = true := by
    cases k : blobLayoutOk (s.model cfg.model) b with
    | true => rfl
    | false =>
      simp only [State.importFault, header, k] at h
      split_ifs at h
      all_goals contradiction
  have bounds : leAt b 0x48 4 ≤ 256 ∧ leAt b 0x4C 4 ≤ 128 := by
    unfold blobFault at header
    dsimp only at header
    split at header
    · cases header
    · next k =>
      simp only [not_or, within, Bool.not_eq_true', Bool.not_eq_false, decide_eq_true_eq] at k
      omega
  simp only [blobLayoutOk, Bool.and_eq_true, beq_iff_eq] at layout
  omega

/-- An accepted blob in its stream: the state planes in both mirror buffers, the counts in the table entry, the context of FE. -/
def State.placeBlob (s : State) (sid slot : Nat) (b : List Byte) : State :=
  let m := s.model slot
  let planes := slice b 128 (512 * (m.stateRows + m.residualRows))
  let steps := leAt b 0x38 8
  let pos := leAt b 0x40 8
  let t := State.modStream { s with str := { s.str with
      mirror := Mem.writeBytes (Mem.writeBytes s.str.mirror (mirrorAddr sid false) planes) (mirrorAddr sid true) planes } } sid fun x =>
    { x with nextSeq := steps, samplePos := pos, ing := { x.ing with bufPos := pos, chunkNo := steps, chunkStart := pos }
             cr := { x.cr with committed := decide (0 < steps), commitSeq := steps - 1, model := slot } }
  if m.kind = 2 then t else t.loadContext sid m (blobRow b)

theorem State.placeBlob_mirror (s : State) (sid slot : Nat) (b : List Byte) :
    let planes := slice b 128 (512 * ((s.model slot).stateRows + (s.model slot).residualRows))
    (s.placeBlob sid slot b).str.mirror =
      Mem.writeBytes (Mem.writeBytes s.str.mirror (mirrorAddr sid false) planes) (mirrorAddr sid true) planes := by
  unfold State.placeBlob
  dsimp only
  split <;> rfl

/-- Beside its stream and its mirror buffers, an accepted blob moves pages at most. -/
theorem State.importBlob_pages {s : State} {sid : Nat} {st : Stream} (h : s.stream? sid = some st) (b : List Byte) :
    Moves 0x4000001800006 (s.placeBlob sid st.cfg.model b) (s.importBlob sid b) := by
  have placed := Moves.rfl' 0x4000001800006 (s.placeBlob sid st.cfg.model b)
  simp only [State.importBlob, h]
  split
  · exact State.importPages_moves (State.modSeq_moves placed (by decide) _ _) (by decide) _ _
  · exact placed

/-- An accepted blob sets where its stream goes on. -/
theorem State.importBlob_stream? {s : State} {sid : Nat} {st : Stream} (h : s.stream? sid = some st) (b : List Byte) :
    ∃ x, (s.importBlob sid b).stream? sid = some x ∧ x.state = st.state ∧ x.cfg = st.cfg ∧ x.nextSeq = leAt b 0x38 8
      ∧ x.ing.chunkNo = leAt b 0x38 8 ∧ x.samplePos = leAt b 0x40 8 ∧ x.ing.entrySeq = st.ing.entrySeq := by
  rw [(State.importBlob_pages h b).stream? (by decide)]
  unfold State.placeBlob
  dsimp only
  split
  · exact ⟨_, (State.stream?_modStream_self ..).trans (congrArg _ h), rfl, rfl, rfl, rfl, rfl, rfl⟩
  · unfold State.loadContext
    rw [State.stream?_modStream_self, State.stream?_modStream_self]
    exact ⟨_, congrArg (fun y => Option.map _ (Option.map _ y)) h, rfl, rfl, rfl, rfl, rfl, rfl⟩

/-- Both mirror buffers hold the state planes of an accepted blob. -/
theorem State.importBlob_mirror {s : State} {sid : Nat} {st : Stream} (h : s.stream? sid = some st) (b : List Byte) (buf : Bool) {i : Nat}
    (hr : (s.model st.cfg.model).stateRows + (s.model st.cfg.model).residualRows ≤ 384)
    (hi : i < 512 * ((s.model st.cfg.model).stateRows + (s.model st.cfg.model).residualRows)) :
    Mem.read (s.importBlob sid b).str.mirror (mirrorAddr sid buf + i) = (b.drop 128).getD i 0 := by
  rw [(State.importBlob_pages h b).frame.str.mirror (by decide), State.placeBlob_mirror, ← getD_slice b 128 _ i hi]
  generalize (s.model st.cfg.model).stateRows + (s.model st.cfg.model).residualRows = rows at hr hi
  have len := slice_length b 128 (512 * rows)
  cases buf with
  | true => exact Mem.read_writeBytes_in _ _ _ _ (by rw [len]; exact hi)
  | false =>
    rw [Mem.read_writeBytes_out]
    · exact Mem.read_writeBytes_in _ _ _ _ (by rw [len]; exact hi)
    · left
      simp only [mirrorAddr, b2n, Bool.false_eq_true, if_false, if_true]
      omega

/-! ### The read of a blob has ended (R66, R439, R621) -/

section
variable {sid : Sid} {blob : List Byte} {s : State} {st : Stream}

/-- An entry that is not OPENING, or that waits for a peer's blob, takes no notice. -/
theorem exec_importBlobReadDone_other (hs : s.stream? sid.val = some st) (fault : Option ReadFault)
    (h : st.state ≠ .opening ∨ st.fromPeer = true) : exec (.importBlobReadDone sid fault blob) s = .next s := by
  show execImportBlobReadDone sid fault blob s = _
  simp only [execImportBlobReadDone, hs, if_pos h]

variable (hs : s.stream? sid.val = some st) (ho : st.state = .opening) (hp : st.fromPeer = false)
include hs ho hp

/-- A failed read is reported, and the entry goes with the report. -/
theorem exec_importBlobReadDone_failed (f : ReadFault) : exec (.importBlobReadDone sid (some f) blob) s =
    .next ((s.hostReadFault st.cfg.part f).publishW { part := st.cfg.part, ring := 0, frees := some sid.val
                                                      recs := [(descErrorFields (mkRec0 0x0B st.hostTag) 0x08 0x21 st.entRing 0 0, [])] }) := by
  show execImportBlobReadDone sid (some f) blob s = _
  simp [execImportBlobReadDone, hs, ho, hp]

/-- A blob with a fault of the later checks is refused, and the entry goes with the refusal. -/
theorem exec_importBlobReadDone_refused {r : Nat} (hr : s.importFault st.cfg (slice blob 0 st.blobLen) = some r) :
    exec (.importBlobReadDone sid none blob) s = .next (s.refuseOpen st.cfg.part 0x21 st.hostTag r (some sid.val)) := by
  show execImportBlobReadDone sid none blob s = _
  simp [execImportBlobReadDone, hs, ho, hp, hr]

/-- A blob without a fault opens the stream. -/
theorem exec_importBlobReadDone_admitted (hr : s.importFault st.cfg (slice blob 0 st.blobLen) = none) :
    exec (.importBlobReadDone sid none blob) s = .next
      (((s.beginStream sid.val (st.cfg.ofBlob (slice blob 0 st.blobLen)) .active).importBlob sid.val (slice blob 0 st.blobLen)).openedEvent
        sid.val 0x21 st.hostTag) := by
  show execImportBlobReadDone sid none blob s = _
  simp [execImportBlobReadDone, hs, ho, hp, hr]

end

/-- Settles O14: the entry is taken as by OPEN; the blob that opens the stream says where it goes on, and what both mirror buffers hold. -/
theorem importAndMigrateInTakeAnEntry : Obligations.ImportAndMigrateInTakeAnEntry := by
  refine ⟨fun c p ring e s hc ht => ?_, fun sid fault blob s st hs => ⟨exec_importBlobReadDone_other hs fault, fun ho hp =>
    ⟨fun f hf => ?_, fun r hf hr => ?_, fun hf hr => ⟨_, hf ▸ exec_importBlobReadDone_admitted hs ho hp hr, ?_⟩⟩⟩⟩
  · have taken : exec c s = .next ((s.passed p ring).opening p.val ring.val e fun _ u => u) := by
      rcases hc with rfl | rfl <;> exact exec_taken _ rfl rfl ht
    rw [taken]
    refine ⟨fun r hr => ?_, fun sid hn hf => ?_⟩
    · rw [State.opening_refused _ ((State.passed_earlyFault ..).trans hr)]
    · rw [State.opening_taken _ ((State.passed_earlyFault ..).trans hn) hf]
  · rw [hf, exec_importBlobReadDone_failed hs ho hp]
  · rw [hf, exec_importBlobReadDone_refused hs ho hp hr]
  · have begun := State.stream?_beginStream_self hs (st.cfg.ofBlob (slice blob 0 st.blobLen)) .active
    obtain ⟨x, hx, state, cfg, next, no, pos, seq⟩ := State.importBlob_stream? begun (slice blob 0 st.blobLen)
    obtain ⟨n, hy⟩ := (State.openedEvent_renumbered _ sid.val 0x21 st.hostTag sid.val).of_active hx state
    refine ⟨⟨_, hy, state, cfg, next, no, pos, seq⟩, fun buf i hi => ?_⟩
    rw [State.openedEvent_mirror]
    have slot := s.model_beginStream sid.val (st.cfg.ofBlob (slice blob 0 st.blobLen)) .active st.cfg.model
    exact State.importBlob_mirror begun _ buf (slot.symm ▸ State.importFault_rows hr) (slot.symm ▸ hi)

end Sys2Proof.Machine
end

section
/-! SUPPORT. Migrations: what their frames and timers do (R69, R70, R463, R468). -/

namespace Sys2Proof.Machine

/-! ### Frames that a port has taken -/

/-- A command that acts on the next frame of a kind acts on the frame taken. -/
theorem exec_frame {c : Instr} {p : Nat} {sel : Frame → Bool} {act : Frame → State → State} {s u : State} {f : Frame}
    (hc : exec c s = .next (s.onFrame p sel act)) (h : s.takeFrame p sel = some (f, u)) : exec c s = .next (act f u) := by
  rw [hc]
  unfold State.onFrame
  rw [h]

/-! ### The list of migrations beside the frames that are sent -/

/-- Sets the list of migrations. -/
def State.withMigs (s : State) (ms : List Migration) : State := { s with xr := { s.xr with migs := ms } }

theorem State.port_withMigs (s : State) (ms : List Migration) (p : Nat) : (s.withMigs ms).port p = s.port p := rfl

theorem State.send_withMigs (s : State) (ms : List Migration) (p : Nat) (f : Frame) :
    (s.withMigs ms).send p f = (s.send p f).withMigs ms := by
  unfold State.send
  dsimp only
  rw [State.port_withMigs]
  split <;> rfl

theorem State.sendAll_withMigs (s : State) (ms : List Migration) (p : Nat) (fs : List Frame) :
    (s.withMigs ms).sendAll p fs = (s.sendAll p fs).withMigs ms := by
  induction fs generalizing s with
  | nil => rfl
  | cons f fs ih =>
    show ((s.withMigs ms).send p f).sendAll p fs = ((s.send p f).sendAll p fs).withMigs ms
    rw [State.send_withMigs, ih]

theorem State.send_str (s : State) (p : Nat) (f : Frame) : (s.send p f).str = s.str := by
  unfold State.send
  dsimp only
  split <;> rfl

theorem State.send_pg (s : State) (p : Nat) (f : Frame) : (s.send p f).pg = s.pg := by
  unfold State.send
  dsimp only
  split <;> rfl

theorem State.sendAll_str (s : State) (p : Nat) (fs : List Frame) : (s.sendAll p fs).str = s.str := by
  induction fs generalizing s with
  | nil => rfl
  | cons f fs ih => exact (ih (s.send p f)).trans (s.send_str p f)

theorem State.stream?_send (s : State) (p : Nat) (f : Frame) (q : Nat) : (s.send p f).stream? q = s.stream? q := by
  unfold State.stream?
  rw [State.send_str]

/-! ### A migration that is dropped, and one that fails (R70) -/

theorem State.mig?_dropMig (s : State) (sid : Nat) : (s.dropMig sid).mig? sid = none := by
  simp [State.mig?, State.dropMig, List.find?_eq_none]

theorem Moves.mig? {k : Nat} {s t : State} (h : Moves k s t) (hk : k.testBit 46 = false) (q : Nat) : t.mig? q = s.mig? q := by
  unfold State.mig?
  rw [h.frame.xr.migs hk]

/-- The stream of a failing migration before MIGRATE_FAILED is published. -/
def State.goesOn (s : State) (sid : Nat) : State := (s.dropMig sid).modStream sid fun x => { x with state := .active, exports := [] }

/-- A failed migration is gone: what is published and sent names no migration. -/
theorem State.mig?_failMig (s : State) (m : Migration) : (s.failMig m).mig? m.sid = none := by
  have sent := State.send_moves (State.streamEvent_moves (Moves.rfl' 0x4092c800000 (s.goesOn m.sid)) (by decide) m.sid 0x0A 0 0x22
    ((((s.stream? m.sid).bind fun st => st.exports.head?).map (·.hostTag)).getD 0) 0) (by decide) m.port (migFrame 3 m.txn 0x08 [])
  exact (sent.mig? (by decide) m.sid).trans (s.mig?_dropMig m.sid)

/-- The stream of a failed migration goes on without exports. -/
theorem State.stream?_failMig {s : State} {m : Migration} {st : Stream} (hs : s.stream? m.sid = some st) :
    ∃ n, (s.failMig m).stream? m.sid = some { st with state := .active, exports := [], eg := { st.eg with pubNext := n } } := by
  have on : (s.goesOn m.sid).stream? m.sid = some { st with state := .active, exports := [] } :=
    (State.stream?_modStream_self ..).trans (congrArg _ hs)
  unfold State.failMig
  dsimp only
  rw [State.stream?_send]
  exact (State.streamEvent_renumbered _ m.sid _ _ _ _ _ m.sid).of_active on rfl

/-- A held copy that is released is ACTIVE, and its migration is gone (R69). -/
theorem State.release_held {u : State} {m : Migration} {st : Stream} (hs : u.stream? m.sid = some st) (tag : Nat) :
    let t := ((u.dropMig m.sid).modStream m.sid fun x => { x with state := .active }).openedEvent m.sid 0x23 tag
    t.mig? m.sid = none ∧ ∃ n, t.stream? m.sid = some { st with state := .active, eg := { st.eg with pubNext := n } } := by
  constructor
  · have moved := State.openedEvent_moves (Moves.rfl' 0x400092c800000 ((u.dropMig m.sid).modStream m.sid fun x =>
      { x with state := .active })) (Covers.refl _) m.sid 0x23 tag
    exact (moved.mig? (by decide) m.sid).trans (u.mig?_dropMig m.sid)
  · have on : ((u.dropMig m.sid).modStream m.sid fun x => { x with state := .active }).stream? m.sid = some { st with state := .active } :=
      (State.stream?_modStream_self ..).trans (congrArg _ hs)
    exact (State.openedEvent_renumbered _ m.sid 0x23 tag m.sid).of_active on rfl

/-- MIGRATE_HELD of a held copy moves its record number alone. -/
theorem State.held_reported {s : State} {m : Migration} {sid : Nat} {st : Stream} (hs : s.stream? sid = some st) (hh : st.state = .held) (tag : Nat) :
    let t := (s.putMig m).streamEvent sid 0x0B 0 0x23 tag 0
    t.xr.migs = (s.putMig m).xr.migs ∧ ∃ n, t.stream? sid = some { st with eg := { st.eg with pubNext := n } } := by
  refine ⟨?_, State.streamEvent_renumbered _ sid _ _ _ _ _ sid st hs (by rw [hh]; decide) (by rw [hh]; decide)⟩
  exact (State.streamEvent_moves (Moves.rfl' 0x92c800000 _) (Covers.refl _) sid 0x0B 0 0x23 tag 0).frame.xr.migs (by decide)

/-! ### The timers (R70, R468) -/

section
variable {sid : Sid} {s : State} {m : Migration}

theorem exec_reofferTimer (h : s.mig? sid.val = some m) : exec (.reofferTimer sid) s =
    if m.source = false ∨ 2 ≤ m.stage then .next s
    else if m.firstOffer + 100000000 ≤ s.now then .next (s.failMig m)
    else if m.stage = 1 then .next ((s.putMig { m with stage := 0 }).sendOffer m) else .next s := by
  show execReofferTimer sid s = _
  simp [execReofferTimer, h]

theorem exec_migrateAckTimeout (h : s.mig? sid.val = some m) : exec (.migrateAckTimeout sid) s =
    if m.source = true ∧ m.stage = 3 then .next (s.failMig m) else .next s := by
  show execMigrateAckTimeout sid s = _
  simp [execMigrateAckTimeout, h]

theorem exec_migrateHeldTimeout_other (h : s.mig? sid.val = some m) (hm : m.source = true ∨ m.stage ≠ 3) :
    exec (.migrateHeldTimeout sid) s = .next s := by
  show execMigrateHeldTimeout sid s = _
  unfold execMigrateHeldTimeout
  rw [h]
  cases s.stream? sid.val with
  | none => rfl
  | some st =>
    refine if_neg ?_
    rcases hm with k | k <;> simp [k]

theorem exec_migrateHeldTimeout_held {st : Stream} (h : s.mig? sid.val = some m) (hsrc : m.source = false) (hst : m.stage = 3)
    (hs : s.stream? sid.val = some st) (hh : st.state = .held) : exec (.migrateHeldTimeout sid) s =
      .next ((s.putMig { m with stage := 4 }).streamEvent sid.val 0x0B 0 0x23 st.hostTag 0) := by
  show execMigrateHeldTimeout sid s = _
  simp [execMigrateHeldTimeout, h, hs, hsrc, hst, hh]

theorem exec_migrateInTimeout {st : Stream} (hs : s.stream? sid.val = some st) : exec (.migrateInTimeout sid) s =
    if st.state = .opening ∧ st.fromPeer = true ∧ s.mig? sid.val = none then
      .next (s.refuseOpen st.cfg.part 0x23 st.hostTag 0x0F (some sid.val)) else .next s := by
  show execMigrateInTimeout sid s = _
  simp [execMigrateInTimeout, hs]

end

/-- Settles O45: each frame acts on the migration that it names in the stage it is for, and each timer on the one that waits. -/
theorem migrationsMoveOrFail : Obligations.MigrationsMoveOrFail := by
  refine ⟨fun port s u f h => ?offer, fun port s u f h => ?accept, fun port s u f h => ?notReady, fun port s u f h => ?data,
    fun port s u f h => ?ack, fun port s u f h => ?refuse, fun port s u f h => ?release, fun port s u f h => ?abort,
    fun sid s => ⟨fun hm => ?idle, fun m hm => ?timers, fun st hs => ?inTimeout, fun hs => ?noStream⟩,
    fun s m st hs => ⟨s.mig?_failMig m, State.stream?_failMig hs⟩⟩
  case offer =>
    rw [exec_frame (c := .offer port) rfl h]
    refine ⟨fun he => by simp only [he], fun e he => ⟨fun hl => by simp only [he, if_pos hl], fun hl => ⟨_, exec_frame (c := .offer port) rfl h, ?_⟩⟩⟩
    simp only [he, if_neg (Nat.not_lt.2 hl)]
    have beside := u.send_withMigs (u.xr.migs ++ [{ sid := e.1, source := false, port := port.val, txn := f.txn
                                                    peerStream := leAt f.payload 1 2, stage := 2, blobLen := leAt f.payload 11 4 }])
      port.val (migFrame 1 f.txn 0x02 [])
    have sent := congrArg (·.port port.val) beside
    rw [State.port_withMigs] at sent
    exact ⟨State.send_str .., State.send_pg .., sent, congrArg (·.xr.migs) beside⟩
  case accept =>
    refine ⟨fun hm => ?_, fun m hm => ⟨fun hg => ?_, fun hg => ⟨_, exec_frame (c := .accept port) rfl h, ?_⟩⟩⟩
    · rw [exec_frame (c := .accept port) rfl h]
      simp only [hm]
    · rw [exec_frame (c := .accept port) rfl h]
      simp only [hm, if_neg (Nat.not_le.2 hg)]
    · simp only [hm, if_pos hg]
      have beside := u.sendAll_withMigs (u.putMig { m with stage := 3 }).xr.migs port.val (dataFrames f.txn m.blob)
      have sent := congrArg (·.port port.val) beside
      rw [State.port_withMigs] at sent
      exact ⟨State.sendAll_str .., congrArg (·.xr.migs) beside, sent⟩
  case notReady =>
    rw [exec_frame (c := .notReady port) rfl h]
    refine ⟨fun hm => by simp only [hm], fun m hm => ⟨fun hg => by simp only [hm, if_neg hg], fun hg =>
      ⟨u.putMig { m with stage := 1 }, ?_, rfl, rfl⟩⟩⟩
    rw [exec_frame (c := .notReady port) rfl h]
    simp only [hm, if_pos hg]
  case data =>
    rw [exec_frame (c := .migData port) rfl h]
    refine ⟨fun hm => by simp only [hm], fun m hm => ⟨fun hg => by simp only [hm, if_pos hg], fun hg ho => ?_⟩⟩
    simp only [hm, if_neg (show ¬(m.stage ≠ 2 ∨ leAt f.payload 1 4 ≠ m.blob.length) by simp [hg, ho])]
    exact ⟨fun hl => by rw [if_pos hl], fun hl => by rw [if_neg (Nat.not_lt.2 hl)]⟩
  case ack =>
    rw [exec_frame (c := .migAck port) rfl h]
    refine ⟨fun hm => by simp only [hm], fun m hm => ⟨fun hg => by simp only [hm, if_pos hg], fun hg => ⟨fun hs => ?_, fun st e rest hs he => ?_⟩⟩⟩
    · simp only [hm, if_neg (not_not.2 hg)]
      cases k : u.stream? m.sid with
      | none => rfl
      | some st =>
        have none_left : st.exports = [] := by simpa [k] using hs
        simp only [none_left]
    · simp only [hm, if_neg (not_not.2 hg), hs, he]
  case refuse =>
    rw [exec_frame (c := .refuse port) rfl h]
    exact ⟨fun hm => by simp only [hm], fun m hm => by simp only [hm]⟩
  case release =>
    rw [exec_frame (c := .release port) rfl h]
    refine ⟨fun hm => by simp only [hm], fun m hm => ⟨fun hn => ?_, fun st hs hh => ⟨_, exec_frame (c := .release port) rfl h, ?_⟩⟩⟩
    · simp only [hm]
      cases k : u.stream? m.sid with
      | none => rfl
      | some st => simp only [if_neg (hn st k)]
    · simp only [hm, hs, if_pos hh]
      exact State.release_held hs st.hostTag
  case abort =>
    rw [exec_frame (c := .migAbort port) rfl h]
    refine ⟨fun hm => by simp only [hm], fun m hm => ⟨fun hn => ?_, fun st hs hh => by simp only [hm, hs, if_pos hh]⟩⟩
    simp only [hm]
    cases k : u.stream? m.sid with
    | none => rfl
    | some st => simp only [if_neg (hn st k)]
  case idle =>
    refine ⟨?_, ?_, ?_⟩
    · show execReofferTimer sid s = _
      simp only [execReofferTimer, hm]
    · show execMigrateAckTimeout sid s = _
      simp only [execMigrateAckTimeout, hm]
    · show execMigrateHeldTimeout sid s = _
      simp only [execMigrateHeldTimeout, hm]
  case timers =>
    rw [exec_reofferTimer hm, exec_migrateAckTimeout hm]
    refine ⟨fun h => if_pos h, fun hs hg hd => ?_, fun hs hg hd => ?_, fun hs hg hd => ?_, fun h => if_neg ?_, fun hs hg => if_pos ⟨hs, hg⟩,
      exec_migrateHeldTimeout_other hm, fun st hsrc hg hs hh => ?_⟩
    · rw [if_neg (by simp [hs]; omega), if_pos hd]
    · rw [if_neg (by simp [hs, hg]), if_neg (Nat.not_le.2 hd), if_neg (by omega)]
    · rw [if_neg (by simp [hs, hg]), if_neg (Nat.not_le.2 hd), if_pos hg]
    · rcases h with k | k <;> simp [k]
    · exact ⟨_, exec_migrateHeldTimeout_held hm hsrc hg hs hh, State.held_reported hs hh st.hostTag⟩
  case inTimeout =>
    rw [exec_migrateInTimeout hs]
    refine ⟨fun h => if_neg ?_, fun ho hp hm => if_pos ⟨ho, hp, hm⟩⟩
    rintro ⟨ho, hp, hm⟩
    simp [ho, hp, hm] at h
  case noStream =>
    show execMigrateInTimeout sid s = _
    simp only [execMigrateInTimeout, hs]

end Sys2Proof.Machine
end

section
/-! SUPPORT. The reset state (R18, R107, R139, R169, R471, R475, R493). -/

namespace Sys2Proof.Machine

/-- The rate stands at nominal, so a cycle counts 5 ns. -/
theorem incr_reset : State.reset.tm.incr = 5 * 2 ^ 32 := by
  have cycle : ⌊((5 * nsUnit : Nat) : ℚ) * (1 + 0) + 1 / 2⌋ = 5 * 2 ^ 32 := by norm_num [nsUnit]
  exact congrArg Int.toNat cycle

/-- Settles O3: every table, list and store of the reset state is empty, and the registers stand at their defaults. -/
theorem resetValues : Obligations.ResetValues :=
  ⟨fun _ => rfl, rfl, fun _ => rfl, fun _ => rfl, fun _ => rfl, fun _ => rfl, fun _ => rfl, fun _ => rfl, rfl, incr_reset, rfl, rfl,
    fun _ _ => rfl, rfl, rfl⟩

end Sys2Proof.Machine
end

section
/-! SUPPORT. What a command leaves beside its rows once its datapath has landed (R92, R95, R280, R300, R309 to R316, R320, R329,
R330). -/

namespace Sys2Proof.Machine

/-! ### A datapath whose result has landed -/

/-- Start checks end with a row or with a failed check, never with data. -/
theorem State.checksEnd_ne_data (s : State) (c : Cmd) (i : OpInfo) (sp : List Span) (ks : List StartCheck) (now : State) (r : Result) :
    (s.checksEnd c i sp ks).2 ≠ some (.data now r) := by
  induction ks generalizing s with
  | nil => exact nofun
  | cons x ks ih =>
    unfold State.checksEnd
    dsimp only
    split
    · exact nofun
    · split
      · exact nofun
      · exact ih _

/-- Start checks that all pass hand their state on. -/
theorem State.startChecks_passed {s : State} {c : Cmd} {i : OpInfo} {sp : List Span} {ks : List StartCheck} (go : State → State)
    (h : (s.checksEnd c i sp ks).2 = none) : s.startChecks c i sp ks go = go (s.checksEnd c i sp ks).1 := by
  induction ks generalizing s with
  | nil => rfl
  | cons x ks ih =>
    unfold State.checksEnd at h ⊢
    dsimp only at h ⊢
    split at h
    · cases h
    · next hrow =>
      split at h
      · cases h
      · next hcheck =>
        simp only [State.startChecks, State.readOr, hrow, hcheck]
        exact ih h

section
variable {s v w : State} {p : Datapath} {k : Cmd}

/-- A datapath that computes its result lands it in the state then. -/
theorem State.runOn_data {i : OpInfo} {now : State} {r : Result} (hi : opInfo k.desc = some i) (h : s.pathEnd p k i = .data now r) :
    r = p.data (now.viewOf k.desc.engine) k ∧ s.runOn p k = now.landPath p k i (s.spans k.desc k.ops) := by
  unfold State.pathEnd at h
  dsimp only at h
  split at h
  · next e he => exact absurd (he.trans (congrArg some h)) (s.checksEnd_ne_data k i _ p.checks now r)
  · next passed =>
    split at h
    · cases h
    · next hrow =>
      split at h
      · cases h
      · next htile =>
        cases h
        refine ⟨rfl, ?_⟩
        simp only [State.runOn, hi, State.startChecks_passed _ passed, State.readOr, hrow, State.readTilesOr, htile]

/-- A result that no overlap havocs and no flag stops lands as it is, and the command goes on to what it does beside. -/
theorem State.landPath_clean {i : OpInfo} {sp : List Span} {r : Result} (hr : r = p.data (s.viewOf k.desc.engine) k)
    (ho : overlaps k i.roles sp r = false)
    (hf : (hasAbortFlag r.flags || (hasCheckFlag r.flags && !r.writes) || hasPtFlag r.flags || k.shadow) = false) :
    s.landPath p k i sp = p.after (s.viewOf k.desc.engine) k
      (s.finish { k with far := k.farOf (p.allRows s k i sp ++ r.rowsWritten k) } r) := by
  subst hr
  simp [State.landPath, ho, hf]

/-- Once a datapath has landed, its run leaves what the opcode does beside its writes. -/
theorem State.runPath_landed {e : Nat} {hw : Hw} (h : s.landed? e hw p = some (k, v, w)) : s.runPath e hw p = p.after v k w := by
  unfold State.landed? at h
  split at h
  · cases h
  · next k0 hready =>
    dsimp only at h
    split at h
    · cases h
    · next i hi =>
      split at h
      · next now r hend =>
        split at h
        · cases h
        · next clean =>
          simp only [Bool.not_eq_true, Bool.or_eq_false_iff] at clean
          obtain ⟨⟨⟨⟨⟨hctl, hover⟩, habort⟩, hcheck⟩, hpt⟩, hshadow⟩ := clean
          obtain ⟨hr, hrun⟩ := State.runOn_data (k := { k0 with ctl := k0.ctl.or (ctlLost hw) }) hi hend
          cases h
          simp only [State.runPath, State.atCommand, hready, hctl]
          exact hrun.trans (State.landPath_clean hr hover (by simp [habort, hcheck, hpt, hshadow]))
      · cases h

/-- A command that stands for a datapath at an engine ends, once it has landed, with what the opcode does beside its writes. -/
theorem exec_landed {x : Instr} {eng : Eng} {hw : Hw} {t : State} (hx : exec x s = .next (s.runPath eng.toNat hw p))
    (h : s.landed? eng.toNat hw p = some (k, v, w)) (ht : p.after v k w = t) : exec x s = .next t :=
  hx.trans (congrArg Host.Outcome.next ((State.runPath_landed h).trans ht))

end

/-! ### A command of one chunk -/

section
variable {w : State} {d : Desc} {m : Nat × Chunk}

theorem KeepsChunk.ite {f : Chunk → Chunk} (P : Prop) [Decidable P] (hf : KeepsChunk f) : KeepsChunk fun x => if P then f x else x := by
  intro x
  dsimp only
  split
  · exact hf x
  · exact ⟨rfl, rfl⟩

theorem State.modChunk_only (w : State) (m : Nat × Chunk) {f : Chunk → Chunk} (hf : KeepsChunk f) :
    (w.modChunk m.1 m.2.no f).chunk? m.1 m.2.no = (w.chunk? m.1 m.2.no).map f
      ∧ ∀ q n, ¬(q = m.1 ∧ n = m.2.no) → (w.modChunk m.1 m.2.no f).chunk? q n = w.chunk? q n :=
  ⟨w.chunk?_modChunk_self m.1 m.2.no f hf, fun q n h => by rw [w.chunk?_modChunk m.1 m.2.no q n f hf, if_neg h]⟩

theorem State.eachChunk_single (h : w.cmdChunks d = [m]) (f : TokenDesc → Chunk → Chunk) :
    w.eachChunk d f =
      w.modChunk m.1 m.2.no (f (w.model (m.2.model.getD (((w.stream? m.1).map (·.cfg.model)).getD 0))).table.token) := by
  simp [State.eachChunk, h]

/-- A change of every chunk of a command of one chunk changes that chunk, and no other. -/
theorem State.eachChunk_only (h : w.cmdChunks d = [m]) {f : TokenDesc → Chunk → Chunk} (hf : ∀ t, KeepsChunk (f t)) :
    (w.eachChunk d f).chunk? m.1 m.2.no =
        (w.chunk? m.1 m.2.no).map (f (w.model (m.2.model.getD (((w.stream? m.1).map (·.cfg.model)).getD 0))).table.token)
      ∧ ∀ q n, ¬(q = m.1 ∧ n = m.2.no) → (w.eachChunk d f).chunk? q n = w.chunk? q n := by
  rw [State.eachChunk_single h]
  exact w.modChunk_only m (hf _)

end

/-! ### What each opcode does beside its rows -/

section
variable {v w : State} {k : Cmd}

/-- A TK_PREFIX gives its chunks the first of the prefixes after the frame (R311). -/
theorem tkPrefixAfter_best {p : CtcPrefix} {ps : List CtcPrefix} (h : (v.prefixesOut k).1 = p :: ps) :
    tkPrefixAfter v k w = w.eachChunk k.desc fun t x =>
      if t.select = .ctcPrefix then { x with dec := { x.dec with tokens := p.ids, label := some (if flt p.b p.nb then p.last else t.blankId) } }
      else x := by
  simp only [tkPrefixAfter, h]

theorem tkDetokAfter_single {m : Nat × Chunk} (h : v.cmdChunks k.desc = [m]) :
    tkDetokAfter v k w = w.modChunk m.1 m.2.no fun x =>
      { x with committedTokens := v.detokTokens k, staged := (v.detokOf k m).recs, replaced := (v.detokOf k m).replaced } := by
  simp only [tkDetokAfter, h, List.foldl_cons, List.foldl_nil]

theorem feCtxAfter_single {m : Nat × Nat} (h : v.members k.desc = [m]) :
    feCtxAfter v k w = w.loadContext m.1 (v.model (v.cmdModelNo k.desc)) fun r =>
      v.opRow (k.ops.getD 0 {}) ((k.ops.getD 0 {}).off + r) := by
  simp only [feCtxAfter, h, List.foldl_cons, List.foldl_nil]

/-- The sequence that an append of one member leaves: the edited table in the copy that the command took (R280, R294). -/
theorem appendAfter_single {q : Nat} {tb : PageTable} {x : Sequence} {wk : Nat × Bool}
    (ha : v.appendAll k (v.atModel k.desc).cache.tokensPerPage k.atMembers = .ok [(q, tb)]) (hx : Tbl.get? w.pg.seqs q = some x)
    (hw : k.walks.find? (·.1 == q) = some wk) :
    ∃ y, appendAfter v k w = w.putSeq q y ∧ (if wk.2 then y.copyB = tb ∧ y.copyA = x.copyA else y.copyA = tb ∧ y.copyB = x.copyB)
      ∧ y.cur = x.cur ∧ y.gen = x.gen ∧ y.rebuild = (x.rebuild && y.table.rebuilding) := by
  simp only [appendAfter, ha, State.appendTables, List.foldl_cons, List.foldl_nil, hx, hw]
  refine ⟨_, rfl, ?_⟩
  cases wk.2 with
  | true => exact ⟨⟨rfl, rfl⟩, rfl, rfl, rfl⟩
  | false => exact ⟨⟨rfl, rfl⟩, rfl, rfl, rfl⟩

end

/-- Settles O27: every clause is what its datapath does on the state in which the result has landed, for one member. -/
theorem tokenAttentionAndEgressCommands : Obligations.TokenAttentionAndEgressCommands := by
  intro eng hw s k v w
  refine ⟨fun q tb x wk h ha hx hwk => ?append, fun m h hm => ⟨_, exec_landed rfl h rfl, ?select⟩,
    fun m h hm => ⟨_, exec_landed rfl h rfl, ?topk⟩, fun m h hm => ⟨_, exec_landed rfl h rfl, ?verify⟩,
    fun m p ps h hm hp => ⟨_, exec_landed rfl h (tkPrefixAfter_best hp), ?best⟩,
    fun m h hm => ⟨_, exec_landed rfl h (tkDetokAfter_single hm), ?detok⟩, fun m h hm => exec_landed rfl h ?provisional,
    fun m h hm => exec_landed rfl h ?audio, fun m h hm => ⟨_, exec_landed rfl h (feCtxAfter_single hm), ?context⟩⟩
  case append =>
    obtain ⟨y, after, copies, cur, gen, rebuild⟩ := appendAfter_single ha hx hwk
    exact ⟨_, exec_landed rfl h after, y, Tbl.get?_put_self .., copies, cur, gen, rebuild, fun j hj => Tbl.get?_put_ne _ _ hj⟩
  case select => exact State.eachChunk_only hm fun _ _ => ⟨rfl, rfl⟩
  case topk => exact State.eachChunk_only hm fun _ => .ite _ fun _ => ⟨rfl, rfl⟩
  case verify => exact State.eachChunk_only hm fun _ _ => ⟨rfl, rfl⟩
  case best => exact State.eachChunk_only hm fun _ => .ite _ fun _ => ⟨rfl, rfl⟩
  case detok => exact w.modChunk_only m fun _ => ⟨rfl, rfl⟩
  case provisional => simp only [egProvPath, egProvAfter, hm, List.foldl_cons, List.foldl_nil]
  case audio => simp only [egOlaPath, egOlaAfter, hm, List.foldl_cons, List.foldl_nil]
  case context => exact ⟨State.stream?_modStream_self .., fun q hq => State.stream?_modStream_ne w _ hq⟩

end Sys2Proof.Machine
end

section
/-! SUPPORT. What stands for the effect of a command at an engine, before its own meaning begins (R414, R434), and what a change leaves
of tags and domains. -/

namespace Sys2Proof.Machine

variable {s t : State} {m : Nat}

/-! ### What a change beside a part leaves of it -/

theorem Moves.tag (h : Moves m s t) (hm : m.testBit 3 = false) (n : Nat) : t.tag n = s.tag n := by
  unfold State.tag
  rw [h.frame.st.tags hm]

theorem Moves.tileTag (h : Moves m s t) (hm : m.testBit 7 = false) (n : Nat) : t.tileTag n = s.tileTag n := by
  unfold State.tileTag
  rw [h.frame.st.tileTags hm]

theorem Moves.domain (h : Moves m s t) (hm : m.testBit 21 = false) (d : Nat) : t.domain d = s.domain d := by
  unfold State.domain
  rw [h.frame.rb.domain hm]

theorem Moves.cmdsWith (h : Moves m s t) (hm : m.testBit 12 = false) (c : Cmd) : t.cmdsWith c = s.cmdsWith c := by
  unfold State.cmdsWith
  rw [h.frame.rb.cmds hm]

/-- The mask of the scratchpad, the accumulator stores, the tags and HBM. -/
abbrev storesMask : Nat := 2 ^ 1 ||| 2 ^ 3 ||| 2 ^ 6 ||| 2 ^ 7 ||| 2 ^ 8

/-- A change beside the stores leaves them as they were. -/
theorem Moves.sameStores (h : Moves m s t) (hm : m &&& storesMask = 0) : SameStores s t := by
  have off : ∀ i, storesMask.testBit i = true → m.testBit i = false := by
    intro i hi
    have := congrArg (Nat.testBit · i) hm
    simpa [Nat.testBit_and, hi] using this
  exact ⟨h.frame.st.sp (off 1 (by decide)), h.frame.st.acc (off 6 (by decide)), h.frame.st.tags (off 3 (by decide)),
    h.frame.st.tileTags (off 7 (by decide)), h.frame.st.hbm (off 8 (by decide))⟩

theorem SameStores.of_st (h : t.st = s.st) : SameStores s t := by
  unfold SameStores
  simp [h]

theorem SameStores.trans {u : State} (h : SameStores s t) (k : SameStores t u) : SameStores s u := by
  obtain ⟨sp, acc, tags, tiles, hbm⟩ := h
  obtain ⟨sp', acc', tags', tiles', hbm'⟩ := k
  exact ⟨sp'.trans sp, acc'.trans acc, tags'.trans tags, tiles'.trans tiles, hbm'.trans hbm⟩

/-! ### Commands put back -/

@[simp] theorem State.putCmd_cmds (s : State) (c : Cmd) : (s.putCmd c).rb.cmds = s.cmdsWith c := rfl

theorem State.cmdsWith_putCmd (s : State) {c d : Cmd} (hseq : d.seq = c.seq) (hsh : d.shadow = c.shadow) :
    (s.putCmd c).cmdsWith d = s.cmdsWith d := by
  simp only [State.cmdsWith, State.putCmd_cmds, List.map_map]
  refine List.map_congr_left fun x _ => ?_
  by_cases h : x.seq = c.seq ∧ x.shadow = c.shadow
  · simp [h, hseq, hsh]
  · simp [h, hseq, hsh]

/-! ### The effect of a command at an engine -/

/-- What the hardware does beside a command, and the command with the control word that it lost. -/
abbrev State.struck (s : State) (e : Nat) (hw : Hw) (c : Cmd) : State := (s.upset e hw).putCmd { c with ctl := c.ctl.or (ctlLost hw) }

theorem State.struck_moves (s : State) (e : Nat) (hw : Hw) (c : Cmd) : Moves 0x4000001001004 s (s.struck e hw c) :=
  State.putCmd_moves (State.upset_moves (Moves.rfl' _ s) (by decide) e hw) (by decide) _

/-- The commands after a strike and a further change of the same command. -/
theorem State.cmdsWith_struck (s : State) (e : Nat) (hw : Hw) {c d : Cmd} (hseq : d.seq = c.seq) (hsh : d.shadow = c.shadow) :
    (s.struck e hw c).cmdsWith d = s.cmdsWith d :=
  ((s.upset e hw).cmdsWith_putCmd (c := { c with ctl := c.ctl.or (ctlLost hw) }) hseq hsh).trans
    ((State.upset_moves (Moves.rfl' 0x4000001000004 s) (by decide) e hw).cmdsWith (by decide) d)

section
variable {e op : Nat} {hw : Hw} {c : Cmd} (go : State → Cmd → State)

theorem State.atCommand_waits (h : s.ready? e op = none) : s.atCommand e op hw go = s := by
  simp only [State.atCommand, h]

theorem State.atCommand_lost (h : s.ready? e op = some c) (hl : c.ctl.or (ctlLost hw) ≠ none) :
    s.atCommand e op hw go = (s.struck e hw c).putCmd { c with ctl := c.ctl.or (ctlLost hw), phase := .ended } := by
  simp only [State.atCommand, h]
  exact if_pos (Option.isSome_iff_ne_none.2 hl)

theorem State.atCommand_runs (h : s.ready? e op = some c) (hl : c.ctl.or (ctlLost hw) = none) :
    s.atCommand e op hw go = go (s.struck e hw c) { c with ctl := c.ctl.or (ctlLost hw) } := by
  simp only [State.atCommand, h]
  exact if_neg (by simp [hl])

/-- A command whose control word is lost ends, and no store changes. -/
theorem State.atCommand_lost_stores (h : s.ready? e op = some c) (hl : c.ctl.or (ctlLost hw) ≠ none) :
    SameStores s (s.atCommand e op hw go)
      ∧ (s.atCommand e op hw go).rb.cmds = s.cmdsWith { c with ctl := c.ctl.or (ctlLost hw), phase := .ended } := by
  rw [State.atCommand_lost go h hl]
  exact ⟨((s.struck_moves e hw c).sameStores (by decide)).trans (.of_st rfl), s.cmdsWith_struck e hw rfl rfl⟩

/-- A command that loses no control word goes on as it is. -/
theorem State.atCommand_sound (h : s.ready? e op = some c) (hc : c.ctl = none) (hl : ctlLost hw = none) :
    s.atCommand e op hw go = go (s.struck e hw c) c := by
  have same : { c with ctl := c.ctl.or (ctlLost hw) } = c := by
    rw [hl, hc, Option.or_none, ← hc]
  rw [State.atCommand_runs go h (by simp [hc, hl]), same]

end

end Sys2Proof.Machine
end

section
/-! SUPPORT. The commands of the control cores: a tag set at once, a payload posted (R111, R137, R150, R351). -/

namespace Sys2Proof.Machine

/-! ### The tag that TAG_SET leaves -/

theorem Tag.set_state (g : Tag) (st : TagState) (r : Nat) :
    (g.set st r).state = if st = .empty ∧ g.claims ≠ 0 then .draining else st := by
  unfold Tag.set
  split <;> rfl

theorem Tag.set_readers (g : Tag) (st : TagState) (r : Nat) :
    (g.set st r).readers = if st = .empty ∧ g.claims ≠ 0 then 0 else r := by
  unfold Tag.set
  split <;> rfl

@[simp] theorem Tag.set_claims (g : Tag) (st : TagState) (r : Nat) : (g.set st r).claims = g.claims := by
  unfold Tag.set
  split <;> rfl

/-! ### TAG_SET -/

section
variable {eng : Eng} {hw : Hw} {s : State} {c : Cmd}

/-- The flush of a core's gather port before a tag that it sets to FULL. -/
def State.flushForSet (s : State) (e : Nat) (st : TagState) : State :=
  match gatherOf e with
  | some g => if st = TagState.full then s.flushPort g fun _ => true else s
  | none => s

/-- The state in which a TAG_SET changes its tag. -/
def State.beforeSet (s : State) (e : Nat) (hw : Hw) (c : Cmd) : State :=
  (s.struck e hw c).flushForSet e (TagState.ofCode (c.desc.param 0 2))

theorem State.flushForSet_moves {fp : Nat} {s0 s : State} (h : Moves fp s0 s) (hm : Covers 0xa4000000000026 fp) (e : Nat) (st : TagState) :
    Moves fp s0 (s.flushForSet e st) := by
  unfold State.flushForSet
  split
  · split
    · exact State.flushPort_moves h hm ..
    · exact h
  · exact h

/-- What precedes the change of the tag touches neither tags nor domains. -/
theorem State.beforeSet_moves (s : State) (e : Nat) (hw : Hw) (c : Cmd) : Moves 0xa4000001001026 s (s.beforeSet e hw c) :=
  State.flushForSet_moves (State.putCmd_moves (State.upset_moves (Moves.rfl' _ s) (by decide) e hw) (by decide) _) (by decide) e _

/-- The commands that a TAG_SET leaves: its own has ended. -/
theorem State.cmdsWith_beforeSet (s : State) (e : Nat) (hw : Hw) (c : Cmd) :
    (s.beforeSet e hw c).cmdsWith { c with phase := .ended } = s.cmdsWith { c with phase := .ended } :=
  ((State.flushForSet_moves (Moves.rfl' 0xa4000000000026 _) (by decide) e _).cmdsWith (by decide) _).trans (s.cmdsWith_struck e hw rfl rfl)

theorem exec_tagSet_slot (h : s.ready? eng.toNat 0x7C = some c) (hc : c.ctl = none) (hl : ctlLost hw = none) (ht : c.desc.param 6 1 ≠ 1) :
    exec (.tagSet eng hw) s =
      let u := s.beforeSet eng.toNat hw c
      let o := c.ops.getD 0 {}
      let k := slotTag o o.off
      .next (if o.slotRows = 0 then u.endCmd c
        else (u.setTag k (((u.tag k).set (TagState.ofCode (c.desc.param 0 2)) (c.desc.param 2 4)).by c.desc)).endCmd c) :=
  congrArg Host.Outcome.next ((State.atCommand_sound _ h hc hl).trans (if_neg ht))

theorem exec_tagSet_tile (h : s.ready? eng.toNat 0x7C = some c) (hc : c.ctl = none) (hl : ctlLost hw = none) (ht : c.desc.param 6 1 = 1) :
    exec (.tagSet eng hw) s =
      let u := s.beforeSet eng.toNat hw c
      let key := mxIndex (c.desc.param 7 8) * 8 + c.desc.param 15 3
      .next (((u.setTileTag key (((u.tileTag key).set (TagState.ofCode (c.desc.param 0 2)) (c.desc.param 2 4)).by c.desc)).settleEngine
        (c.desc.param 7 8)).endCmd c) :=
  congrArg Host.Outcome.next ((State.atCommand_sound _ h hc hl).trans (if_pos ht))

/-- An engine whose domain does not close is not settled. -/
theorem State.settleEngine_idle {s : State} {e : Nat} (h : ∀ d, engineDomain e = some d → s.domain d ≠ 3) : s.settleEngine e = s := by
  unfold State.settleEngine
  split
  · rfl
  · next d hd => exact if_pos (h d hd)

end

/-! ### MB_POST -/

/-- The entry that an MB_POST delivers: its 32 bytes, of KIND 2. -/
def Cmd.postEntry (c : Cmd) : Mail := ⟨2, [c.desc.word 3, c.desc.word 4, c.desc.word 5, c.desc.word 6], some c.desc⟩

/-- The state in which the writes of the poster have landed and the entry is posted. -/
def State.posted (s : State) (e : Nat) (hw : Hw) (ws : List (Nat × Byte)) (c : Cmd) : State :=
  ((s.struck e hw c).writeCtl c.core ws).postMail (e - 0x50) e c.postEntry none (some c.seq)

theorem exec_mbPost {eng : Eng} {hw : Hw} {ws : List (Nat × Byte)} {s : State} {c : Cmd} (h : s.ready? eng.toNat 0x7D = some c) (hc : c.ctl = none)
    (hl : ctlLost hw = none) : exec (.mbPost eng hw ws) s = .next ((s.posted eng.toNat hw ws c).endCmd c) :=
  congrArg Host.Outcome.next (State.atCommand_sound _ h hc hl)

theorem State.cmdsWith_posted (s : State) (e : Nat) (hw : Hw) (ws : List (Nat × Byte)) (c : Cmd) :
    (s.posted e hw ws c).cmdsWith { c with phase := .ended } = s.cmdsWith { c with phase := .ended } :=
  have post : Moves 0x40200 (s.struck e hw c) (s.posted e hw ws c) :=
    State.postMail_moves (State.writeCtl_moves (Moves.rfl' _ _) (by decide) c.core ws) (by decide) ..
  (post.cmdsWith (by decide) _).trans (s.cmdsWith_struck e hw rfl rfl)

/-- A post leaves control memory as the writes of its poster left it. -/
theorem State.posted_ctl (s : State) (e : Nat) (hw : Hw) (ws : List (Nat × Byte)) (c : Cmd) :
    (s.posted e hw ws c).st.ctl = ws.foldl (fun m w => Tbl.setD m 0 (w.1 % 2 ^ 20) w.2) s.st.ctl := by
  have post : Moves 0x40000 ((s.struck e hw c).writeCtl c.core ws) (s.posted e hw ws c) := State.postMail_moves (Moves.rfl' _ _) (by decide) ..
  rw [post.frame.st.ctl (by decide)]
  show ws.foldl _ (s.struck e hw c).st.ctl = _
  rw [(s.struck_moves e hw c).frame.st.ctl (by decide)]

/-- A posted entry lies in the mailbox of its core, or waits for it. -/
theorem State.postMail_delivered (s : State) (core src : Nat) (m : Mail) (slot : Option Bool) (cmd : Option Nat) :
    let t := s.postMail core src m slot cmd
    m ∈ Tbl.getD t.rb.mail [] core ∨ ∃ h ∈ t.rb.heldMail, h.core = core ∧ h.mail = m := by
  simp only [State.postMail]
  split
  · exact .inl (by simp)
  · exact .inr ⟨⟨core, src, m, s.now, false, slot, cmd⟩, List.mem_append_right _ (List.mem_singleton_self _), rfl, rfl⟩

/-- Settles O28: the tag is set in a state that differs from the first one in no tag and no domain; the post lands beside the stores. -/
theorem coresSetTagsAndPost : Obligations.CoresSetTagsAndPost := by
  refine ⟨fun eng hw s => ⟨fun h => ?waits, fun c h hl => ⟨_, rfl, State.atCommand_lost_stores _ h hl⟩, fun c h hc hl => ⟨fun ht ho => ?untagged,
      fun ht ho => ?slot, fun ht hd => ?tile⟩⟩,
    fun g st r => ⟨g.set_state st r, g.set_readers st r, g.set_claims st r⟩,
    fun eng hw ws s => ⟨fun h => ?postWaits, fun c h hl => ⟨_, rfl, State.atCommand_lost_stores _ h hl⟩, fun c h hc hl => ?post⟩⟩
  case waits => exact congrArg Host.Outcome.next (State.atCommand_waits _ h)
  case postWaits => exact congrArg Host.Outcome.next (State.atCommand_waits _ h)
  case untagged =>
    have before := s.beforeSet_moves eng.toNat hw c
    refine ⟨_, exec_tagSet_slot h hc hl ht, ?_⟩
    rw [if_pos ho]
    exact ⟨s.cmdsWith_beforeSet eng.toNat hw c, before.frame.st.tags (by decide), before.frame.st.tileTags (by decide)⟩
  case slot =>
    have before := s.beforeSet_moves eng.toNat hw c
    refine ⟨_, exec_tagSet_slot h hc hl ht, ?_⟩
    rw [if_neg ho]
    refine ⟨s.cmdsWith_beforeSet eng.toNat hw c, ?_, fun n hn => ?_, before.frame.st.tileTags (by decide)⟩
    · rw [← before.tag (by decide)]
      exact (State.tag_setTag ..).trans (if_pos rfl)
    · exact ((State.tag_setTag ..).trans (if_neg hn)).trans (before.tag (by decide) n)
  case tile =>
    have before := s.beforeSet_moves eng.toNat hw c
    refine ⟨_, exec_tagSet_tile h hc hl ht, ?_⟩
    rw [State.settleEngine_idle fun d hd' => ?_]
    · refine ⟨s.cmdsWith_beforeSet eng.toNat hw c, ?_, fun n hn => ?_, before.frame.st.tags (by decide)⟩
      · rw [← before.tileTag (by decide)]
        exact (State.tileTag_setTileTag ..).trans (if_pos rfl)
      · exact ((State.tileTag_setTileTag ..).trans (if_neg hn)).trans (before.tileTag (by decide) n)
    · exact (before.domain (by decide) d).trans_ne (hd d hd')
  case post => exact ⟨_, exec_mbPost h hc hl, s.cmdsWith_posted eng.toNat hw ws c, s.posted_ctl eng.toNat hw ws c, State.postMail_delivered ..⟩

end Sys2Proof.Machine
end

section
/-! SUPPORT. What the gather ports hold and what the scratchpad reads after narrow writes have landed (R115 to R118), and what is left of
a store of which a part is cleared. -/

namespace Sys2Proof.Machine

/-! ### Tables and bytes -/

theorem Tbl.get?_filter_key {α : Type} (p : Nat → Bool) (t : Tbl α) (k : Nat) :
    Tbl.get? (t.filter fun x => p x.1) k = if p k then Tbl.get? t k else none := by
  induction t with
  | nil => simp
  | cons x t ih =>
    by_cases hx : x.1 = k
    · subst hx
      cases hp : p x.1 <;> simp [hp, ih, Tbl.get?_cons]
    · cases hp : p x.1 <;> simp [hp, ih, Tbl.get?_cons, hx]

theorem Tbl.getD_filter_key {α : Type} (p : Nat → Bool) (t : Tbl α) (d : α) (k : Nat) :
    Tbl.getD (t.filter fun x => p x.1) d k = if p k then Tbl.getD t d k else d := by
  unfold Tbl.getD
  rw [Tbl.get?_filter_key]
  split <;> rfl

/-- Bytes of a range of `n`, the `q`-th of its size, are cleared, and every other stays. -/
theorem Mem.read_clearBlock (m : Mem) (q n a : Nat) (hn : 0 < n) :
    Mem.read (Mem.clearRange m (q * n) n) a = if a / n = q then 0 else Mem.read m a := by
  rw [Mem.read_clearRange]
  refine if_congr ?_ rfl rfl
  rw [Nat.div_eq_iff hn, Nat.mul_comm]
  omega

variable {s : State}

@[simp] theorem State.gatherPort_setGather (s : State) (g : Nat) (l : List GatherBuf) (k : Nat) :
    (s.setGather g l).gatherPort k = if k = g then l else s.gatherPort k :=
  Tbl.getD_setD s.st.gather [] g k l

theorem Moves.gatherPort {m : Nat} {t : State} (h : Moves m s t) (hm : m.testBit 5 = false) (g : Nat) : t.gatherPort g = s.gatherPort g := by
  unfold State.gatherPort
  rw [h.frame.st.gather hm]

/-- Writing a row changes no byte outside it. -/
theorem State.sp_writeRow (s : State) (r : Nat) (bs : List Byte) {a : Nat} (h : a / 512 ≠ r) :
    Mem.read (s.writeRow r bs).st.sp a = Mem.read s.st.sp a := by
  refine Mem.read_writeBytes_out _ _ _ _ ?_
  rw [slice_length]
  omega

/-! ### One buffer, one port, every port -/

theorem State.gatherPort_flushBuf (s : State) (g : Nat) (b : GatherBuf) (k : Nat) : (s.flushBuf g b).gatherPort k = s.gatherPort k :=
  (State.flushBuf_moves (Moves.rfl' 0xa4000000000006 s) (by decide) g b).gatherPort (by decide) k

/-- A flush changes no byte outside the row of its buffer. -/
theorem State.sp_flushBuf (s : State) (g : Nat) (b : GatherBuf) {a : Nat} (h : a / 512 ≠ b.row) :
    Mem.read (s.flushBuf g b).st.sp a = Mem.read s.st.sp a := by
  unfold State.flushBuf
  split
  · exact s.sp_writeRow _ _ h
  · split
    · rw [(State.logFault_moves (State.spUncorrected_moves (Moves.rfl' 0xa4000000000000 s) (by decide) _ _) (by decide) _).frame.st.sp (by decide)]
    · dsimp only
      rw [State.sp_writeRow _ _ _ h, (State.countReads_moves (Moves.rfl' 0x4000000000000 s) (by decide) _).fst.frame.st.sp (by decide)]

/-- The buffers that a flush of a port selects go; every other port stays. -/
theorem State.gatherPort_flushPort (s : State) (g : Nat) (p : GatherBuf → Bool) (k : Nat) :
    (s.flushPort g p).gatherPort k = if k = g then (s.gatherPort g).filter (fun b => !p b) else s.gatherPort k := by
  have all : ∀ (l : List GatherBuf) (t : State), (l.foldl (fun t b => t.flushBuf g b) t).gatherPort k = t.gatherPort k := by
    intro l
    induction l with
    | nil => exact fun _ => rfl
    | cons b l ih => exact fun t => (ih _).trans (t.gatherPort_flushBuf g b k)
  exact (all _ _).trans (s.gatherPort_setGather g _ k)

/-- A flush of a port changes no byte outside the rows that it selects. -/
theorem State.sp_flushPort (s : State) (g : Nat) (p : GatherBuf → Bool) {a : Nat} (h : ∀ b, p b = true → a / 512 ≠ b.row) :
    Mem.read (s.flushPort g p).st.sp a = Mem.read s.st.sp a := by
  have all : ∀ (l : List GatherBuf) (t : State), (∀ b ∈ l, a / 512 ≠ b.row) →
      Mem.read (l.foldl (fun t b => t.flushBuf g b) t).st.sp a = Mem.read t.st.sp a := by
    intro l
    induction l with
    | nil => exact fun _ _ => rfl
    | cons b l ih =>
      intro t hl
      exact (ih _ fun x hx => hl x (List.mem_cons_of_mem _ hx)).trans (t.sp_flushBuf g b (hl b List.mem_cons_self))
  exact all _ _ fun b hb => h b (List.mem_filter.1 hb).2

/-- A flush of some ports leaves in each of them only what it does not select. -/
theorem State.gatherPort_flushPorts (p : Nat → GatherBuf → Bool) (l : List Nat) (s : State) (k : Nat) :
    (l.foldl (fun t g => t.flushPort g (p g)) s).gatherPort k = if k ∈ l then (s.gatherPort k).filter (fun b => !p k b) else s.gatherPort k := by
  induction l generalizing s with
  | nil => rfl
  | cons g l ih =>
    rw [List.foldl_cons, ih, State.gatherPort_flushPort]
    by_cases hk : k = g
    · subst hk
      by_cases hl : k ∈ l <;> simp [hl, List.filter_filter]
    · simp [hk]

theorem State.gatherPort_flushAll (s : State) (p : Nat → GatherBuf → Bool) {k : Nat} (h : k < 9) :
    (s.flushAll p).gatherPort k = (s.gatherPort k).filter fun b => !p k b :=
  (State.gatherPort_flushPorts p (List.range 9) s k).trans (if_pos (List.mem_range.2 h))

theorem State.sp_flushAll (s : State) (p : Nat → GatherBuf → Bool) {a : Nat} (h : ∀ g b, p g b = true → a / 512 ≠ b.row) :
    Mem.read (s.flushAll p).st.sp a = Mem.read s.st.sp a := by
  have all : ∀ (l : List Nat) (t : State), Mem.read (l.foldl (fun t g => t.flushPort g (p g)) t).st.sp a = Mem.read t.st.sp a := by
    intro l
    induction l with
    | nil => exact fun _ => rfl
    | cons g l ih => exact fun t => (ih _).trans (t.sp_flushPort g (p g) (h g))
  unfold State.flushAll
  exact all _ s

end Sys2Proof.Machine
end

section
/-! SUPPORT. Quarters and MX domains: what each step of their power sequences does (R126 to R128, R169). -/

namespace Sys2Proof.Machine

/-! ### What is cleared with a quarter or with an MX -/

/-- The rows of a quarter read 0 and its tags are EMPTY; all other bytes and tags stay. -/
theorem State.clearQuarter_tag (s : State) (q n : Nat) :
    ((s.clearQuarterTags q).clearQuarterRows q).tag n = if n / 4096 = q then {} else s.tag n := by
  refine (Tbl.getD_filter_key (fun k => k / 4096 != q) s.st.tags {} n).trans ?_
  by_cases h : n / 4096 = q <;> simp [h, State.tag]

theorem State.clearQuarter_domain (s : State) (q d : Nat) : ((s.clearQuarterTags q).clearQuarterRows q).domain d = s.domain d := rfl

theorem State.clearQuarter_sp (s : State) (q a : Nat) :
    Mem.read ((s.clearQuarterTags q).clearQuarterRows q).st.sp a = if a / 8388608 = q then 0 else Mem.read s.st.sp a :=
  Mem.read_clearBlock s.st.sp q 8388608 a (by decide)

theorem State.clearMx_tileTag (s : State) (mx n : Nat) : (s.clearMx mx).tileTag n = if n / 8 = mx then {} else s.tileTag n := by
  refine (Tbl.getD_filter_key (fun k => k / 8 != mx) s.st.tileTags {} n).trans ?_
  by_cases h : n / 8 = mx <;> simp [h, State.tileTag]

theorem State.clearMx_acc (s : State) (mx a : Nat) : Mem.read (s.clearMx mx).st.acc a = if a / 135168 = mx then 0 else Mem.read s.st.acc a :=
  Mem.read_clearBlock s.st.acc mx 135168 a (by decide)

theorem State.domain_setDomain_ne (s : State) {d e : Nat} (v : Nat) (h : e ≠ d) : (s.setDomain d v).domain e = s.domain e := by
  rw [State.domain_setDomain, if_neg h]

theorem State.setDomain_tag (s : State) (d v n : Nat) : (s.setDomain d v).tag n = s.tag n := rfl

/-! ### The power sequence of a quarter -/

/-- A flush of the buffers of one quarter changes no byte of another. -/
theorem State.sp_flushQuarter (s : State) (q : Nat) {a : Nat} (h : a / 8388608 % 32 ≠ q) :
    Mem.read (s.flushAll fun _ b => rowQuarter b.row == q).st.sp a = Mem.read s.st.sp a := by
  refine s.sp_flushAll _ fun _ b hb ha => h ?_
  have hq : rowQuarter b.row = q := by simpa using hb
  rw [← hq, ← ha, rowQuarter, Nat.div_div_eq_div_mul]

theorem State.flushQuarter_moves (s : State) (q : Nat) : Moves 0xa4000000000026 s (s.flushAll fun _ b => rowQuarter b.row == q) :=
  State.flushAll_moves (Moves.rfl' _ s) (by decide) _

/-- The state with other times at which its quarters became CLOSING. -/
def State.withClosing (s : State) (l : Tbl Nat) : State := { s with st := { s.st with closingSince := l } }

@[simp] theorem State.withClosing_domain (s : State) (l : Tbl Nat) (d : Nat) : (s.withClosing l).domain d = s.domain d := rfl
@[simp] theorem State.withClosing_tag (s : State) (l : Tbl Nat) (n : Nat) : (s.withClosing l).tag n = s.tag n := rfl
@[simp] theorem State.withClosing_sp (s : State) (l : Tbl Nat) : (s.withClosing l).st.sp = s.st.sp := rfl
@[simp] theorem State.withClosing_gatherPort (s : State) (l : Tbl Nat) (g : Nat) : (s.withClosing l).gatherPort g = s.gatherPort g := rfl

/-- The state in which a quarter is switched off, once what the ports held of it has landed. -/
def State.switchedOff (s : State) (q : Nat) : State :=
  (((s.flushAll fun _ b => rowQuarter b.row == q).clearQuarterTags q).clearQuarterRows q).setDomain (quarterDomain q) 0

theorem State.switchedOff_domain (s : State) (q d : Nat) : (s.switchedOff q).domain d = if d = quarterDomain q then 0 else s.domain d := by
  unfold State.switchedOff
  rw [State.domain_setDomain, State.clearQuarter_domain, (s.flushQuarter_moves q).domain (by decide)]

theorem State.switchedOff_tag (s : State) (q n : Nat) : (s.switchedOff q).tag n = if n / 4096 = q then {} else s.tag n := by
  unfold State.switchedOff
  rw [State.setDomain_tag, State.clearQuarter_tag, (s.flushQuarter_moves q).tag (by decide)]

theorem State.switchedOff_sp (s : State) (q a : Nat) : Mem.read (s.switchedOff q).st.sp a =
    if a / 8388608 = q then 0 else Mem.read (s.flushAll fun _ b => rowQuarter b.row == q).st.sp a := by
  unfold State.switchedOff
  rw [State.setDomain_st, State.clearQuarter_sp]

section
variable (q : QuarterNo) (s : State)

/-- A quarter that closes: CLOSING, and no port holds a buffer of its rows. -/
theorem quarterPowerDown_closes (h : s.quarterOn q.val = true) : Completes (.quarterPowerDown q) s fun t =>
    t.domain (quarterDomain q.val) = 3 ∧ (∀ k, k ≠ quarterDomain q.val → t.domain k = s.domain k)
      ∧ ∀ g, g < 9 → ∀ b ∈ t.gatherPort g, rowQuarter b.row ≠ q.val := by
  have flush := (s.setDomain (quarterDomain q.val) 3).flushQuarter_moves q.val
  refine ⟨State.withClosing _ _, if_pos h, ?_, fun k hk => ?_, fun g hg b hb => ?_⟩
  · rw [State.withClosing_domain, flush.domain (by decide), State.domain_setDomain_self]
  · rw [State.withClosing_domain, flush.domain (by decide), State.domain_setDomain_ne s 3 hk]
  · rw [State.withClosing_gatherPort, State.gatherPort_flushAll _ _ hg] at hb
    simpa using (List.mem_filter.1 hb).2

theorem exec_quarterDrained (hd : s.domain (quarterDomain q.val) = 3) (hh : (s.rb.cmds.any fun c => s.holdsQuarter q.val c) = false) :
    exec (.quarterDrained q) s = .next ((s.switchedOff q.val).withClosing (Tbl.erase (s.switchedOff q.val).st.closingSince q.val)) := by
  show execQuarterDrained q s = _
  unfold execQuarterDrained
  rw [if_pos ⟨hd, by simp [hh]⟩]
  rfl

/-- A CLOSING quarter into which no command holds a resolution: OFF, its tags EMPTY, its rows 0. -/
theorem quarterDrained_off (hd : s.domain (quarterDomain q.val) = 3) (hh : (s.rb.cmds.any fun c => s.holdsQuarter q.val c) = false) :
    Completes (.quarterDrained q) s fun t =>
      t.domain (quarterDomain q.val) = 0 ∧ (∀ k, k ≠ quarterDomain q.val → t.domain k = s.domain k)
      ∧ (∀ n, n / 4096 = q.val → t.tag n = {}) ∧ (∀ n, n / 4096 ≠ q.val → t.tag n = s.tag n)
      ∧ (∀ a, a / 8388608 = q.val → Mem.read t.st.sp a = 0)
      ∧ (∀ a, a / 8388608 % 32 ≠ q.val → Mem.read t.st.sp a = Mem.read s.st.sp a) := by
  refine ⟨_, exec_quarterDrained q s hd hh, ?_⟩
  simp only [State.withClosing_domain, State.withClosing_tag, State.withClosing_sp, State.switchedOff_domain, State.switchedOff_tag,
    State.switchedOff_sp]
  refine ⟨by simp, fun k hk => if_neg hk, fun n hn => if_pos hn, fun n hn => if_neg hn, fun a ha => if_pos ha, fun a ha => ?_⟩
  have other : a / 8388608 ≠ q.val := fun e => ha (by rw [e, Nat.mod_eq_of_lt q.isLt])
  rw [if_neg other, s.sp_flushQuarter q.val ha]

/-- A parked command that holds a resolution into a CLOSING quarter: the quarter is ON again. -/
theorem drainAbandon_returns (hd : s.domain (quarterDomain q.val) = 3)
    (hp : (s.rb.cmds.any fun c => c.phase == .parked && s.holdsQuarter q.val c) = true) : Completes (.drainAbandon q) s fun t =>
      t.domain (quarterDomain q.val) = 2 ∧ (∀ k, k ≠ quarterDomain q.val → t.domain k = s.domain k)
      ∧ t.obj 0x4001 6 = (s.obj 0x4001 6 + 1) % 2 ^ 32 ∧ t.st.sp = s.st.sp ∧ t.st.tags = s.st.tags :=
  ⟨_, if_pos ⟨hd, hp⟩, s.domain_setDomain_self _ 2, fun _ hk => s.domain_setDomain_ne 2 hk,
    (s.setDomain (quarterDomain q.val) 2).obj_incObj_self 0x4001 6, rfl, rfl⟩

/-- A quarter that woke: ON, its tags EMPTY, its rows 0. -/
theorem quarterWakeDone_on (hd : s.domain (quarterDomain q.val) = 1) : Completes (.quarterWakeDone q) s fun t =>
      t.domain (quarterDomain q.val) = 2 ∧ (∀ k, k ≠ quarterDomain q.val → t.domain k = s.domain k)
      ∧ (∀ n, n / 4096 = q.val → t.tag n = {}) ∧ (∀ n, n / 4096 ≠ q.val → t.tag n = s.tag n)
      ∧ (∀ a, a / 8388608 = q.val → Mem.read t.st.sp a = 0)
      ∧ (∀ a, a / 8388608 ≠ q.val → Mem.read t.st.sp a = Mem.read s.st.sp a) :=
  ⟨_, if_pos hd, State.domain_setDomain_self _ _ 2, fun _ hk => State.domain_setDomain_ne _ 2 hk,
    fun n hn => (s.clearQuarter_tag q.val n).trans (if_pos hn), fun n hn => (s.clearQuarter_tag q.val n).trans (if_neg hn),
    fun a ha => (s.clearQuarter_sp q.val a).trans (if_pos ha), fun a ha => (s.clearQuarter_sp q.val a).trans (if_neg ha)⟩

end

/-! ### MX domains -/

theorem exec_mxPowerDown {mx : MxNo} {d : Nat} (s : State) (h : engineDomain (mxEngine mx.val) = some d) :
    exec (.mxPowerDown mx) s =
      if s.domain d = 2 ∨ s.domain d = 3 then
        (if s.mxIdle mx.val then .next ((s.clearMx mx.val).setDomain d 0) else .next (s.setDomain d 3))
      else .next s := by
  show execMxPowerDown mx s = _
  simp only [execMxPowerDown, h]

/-- Settles O37: each step by what it flushes, clears and sets. -/
theorem quartersAndMxDomainsSwitch : Obligations.QuartersAndMxDomainsSwitch := by
  refine ⟨fun q s => ⟨fun h => if_neg (by simp [h]), quarterPowerDown_closes q s, fun h => if_neg ?_, quarterDrained_off q s,
      fun h => if_neg ?_, drainAbandon_returns q s, fun h => if_neg h,
      fun h => ⟨_, if_pos h, s.domain_setDomain_self _ 1, fun _ hk => s.domain_setDomain_ne 1 hk⟩, fun h => if_neg h, quarterWakeDone_on q s⟩,
    fun mx s d hd => ⟨fun on closing => ?_, fun powered busy => ?_, fun powered idle => ?_⟩⟩
  · rintro ⟨closing, free⟩
    rcases h with h | h
    · exact h closing
    · simp [h] at free
  · rintro ⟨closing, parked⟩
    rcases h with h | h
    · exact h closing
    · simp [h] at parked
  · rw [exec_mxPowerDown s hd, if_neg (by simp [on, closing])]
  · refine ⟨s.setDomain d 3, ?_, s.domain_setDomain_self d 3, fun _ hk => s.domain_setDomain_ne 3 hk, rfl⟩
    rw [exec_mxPowerDown s hd, if_pos powered, busy]
    rfl
  · refine ⟨(s.clearMx mx.val).setDomain d 0, ?_, State.domain_setDomain_self _ d 0, fun _ hk => State.domain_setDomain_ne _ 0 hk,
      fun a ha => (s.clearMx_acc mx.val a).trans (if_pos ha), fun a ha => (s.clearMx_acc mx.val a).trans (if_neg ha),
      fun n hn => (s.clearMx_tileTag mx.val n).trans (if_pos hn), fun n hn => (s.clearMx_tileTag mx.val n).trans (if_neg hn)⟩
    rw [exec_mxPowerDown s hd, if_pos powered, if_pos idle]

end Sys2Proof.Machine
end

section
/-! SUPPORT. What the handle unit accepts, and handle 0xFF (R102, R104). -/

namespace Sys2Proof.Machine

/-- An accepted entry keeps the conditions of R102. -/
theorem handleAccepts_conditions {w : Word × Word} (h : handleAccepts w = true) :
    let e := HandleEntry.of w
    e.base / 65536 = (e.base + e.bound - 1) / 65536 ∧ e.mask ≠ 0 ∧ (e.slotRows ≠ 0 → e.base % 4 = 0 ∧ e.bound % e.slotRows = 0) := by
  simp only [handleAccepts, Bool.and_eq_true, Bool.or_eq_true, decide_eq_true_eq] at h
  obtain ⟨⟨⟨-, square⟩, mask⟩, slots⟩ := h
  refine ⟨square, mask, fun ne => ?_⟩
  obtain ⟨-, -, -, base, bound⟩ := slots.resolve_left ne
  exact ⟨base, bound⟩

/-- An entry that breaks a condition of R102 is not accepted. -/
theorem handleAccepts_broken {w : Word × Word}
    (h : let e := HandleEntry.of w
      e.base / 65536 ≠ (e.base + e.bound - 1) / 65536 ∨ e.mask = 0 ∨ (e.slotRows ≠ 0 ∧ (e.base % 4 ≠ 0 ∨ e.bound % e.slotRows ≠ 0))) :
    handleAccepts w ≠ true := by
  intro a
  obtain ⟨square, mask, slots⟩ := handleAccepts_conditions a
  rcases h with k | k | ⟨ne, k | k⟩
  · exact k square
  · exact mask k
  · exact k (slots ne).1
  · exact k (slots ne).2

/-- A state in which one entry of the handle tables was stored: handle 0xFF of any partition stays invalid. -/
theorem State.handle_stored (s : State) (p h : Nat) (w : Word × Word) (q k : Nat) :
    State.handle { s with st := { s.st with handles := Tbl.setD s.st.handles (0, 0) (p * 256 + h) w } } q k =
      if k = 0xFF then (0, 0) else if q * 256 + k = p * 256 + h then w else s.handle q k := by
  unfold State.handle
  split
  · rfl
  · rw [Tbl.getD_setD]

/-- No narrow write is made through handle 0xFF. -/
theorem State.narrowOk_invalid (s : State) (p off : Nat) : s.narrowOk p 0xFF off = false := by
  simp [State.narrowOk]

/-- Settles O32: an accepted entry is stored, any other is counted, and handle 0xFF reads as invalid wherever it is used. -/
theorem handleUnitAcceptsOrKeeps : Obligations.HandleUnitAcceptsOrKeeps := by
  refine ⟨fun p h w0 w1 s => ⟨handleAccepts_conditions, fun broken => ?_, fun accepted => ?_⟩, fun r hr => ?_, State.narrowOk_invalid⟩
  · exact ⟨s.incObj 0x4001 5, if_neg (handleAccepts_broken broken), rfl, s.obj_incObj_self 0x4001 5⟩
  · refine ⟨_, if_pos accepted, ?_, fun q k ne => ?_⟩
    · rw [State.handle_stored, if_pos rfl]
    · rw [State.handle_stored, if_neg ne]
      split
      · next e => exact (if_pos e).symm
      · rfl
  · simpa [Operand.ofRec] using hr

end Sys2Proof.Machine
end

section
/-! SUPPORT. Narrow writes, idle flushes, the batch table and the transposed read of a tile (R108, R113 to R118, R340). -/

namespace Sys2Proof.Machine

/-! ### Changes of the control plane alone -/

/-- Nothing but object values, the fault log and emergency messages may differ. -/
def CtlOnly (s t : State) : Prop := t = { s with ctl := t.ctl }

section
variable {s t u : State}

theorem CtlOnly.refl (s : State) : CtlOnly s s := rfl

theorem CtlOnly.trans (h : CtlOnly s t) (k : CtlOnly t u) : CtlOnly s u := by
  unfold CtlOnly at *
  rw [h] at k
  exact k

theorem CtlOnly.st (h : CtlOnly s t) : t.st = s.st := by
  unfold CtlOnly at h
  rw [h]

theorem CtlOnly.rb (h : CtlOnly s t) : t.rb = s.rb := by
  unfold CtlOnly at h
  rw [h]

theorem CtlOnly.foldl {α : Type} {f : State → α → State} (hf : ∀ t x, CtlOnly t (f t x)) (l : List α) (s : State) :
    CtlOnly s (l.foldl f s) := by
  induction l generalizing s with
  | nil => exact .refl s
  | cons x l ih => exact (hf s x).trans (ih (f s x))

theorem State.incObj_ctlOnly (s : State) (i b : Nat) : CtlOnly s (s.incObj i b) := rfl

theorem State.emcyEvent_ctlOnly (s : State) (code : Nat) (mfr : List Nat) : CtlOnly s (s.emcyEvent code mfr) := by
  unfold State.emcyEvent State.queueEmcy
  split <;> rfl

theorem State.logFault_ctlOnly (s : State) (f : FaultInfo) : CtlOnly s (s.logFault f) := rfl

theorem State.countReads_ctlOnly (s : State) (rows : List Nat) : CtlOnly s (s.countReads rows).1 :=
  .foldl (fun t r => (t.incObj_ctlOnly 0x4001 1).trans (State.incObj_ctlOnly _ 0x4001 (0x10 + r / 65536))) _ s

theorem State.spUncorrected_ctlOnly (s : State) (r source : Nat) : CtlOnly s (s.spUncorrected r source) :=
  ((s.incObj_ctlOnly 0x4001 2).trans (State.incObj_ctlOnly _ _ _)).trans (State.emcyEvent_ctlOnly _ _ _)

/-- The event of a row that cannot be read. -/
theorem State.rowEvent_ctlOnly (s : State) (r source : Nat) (f : FaultInfo) : CtlOnly s ((s.spUncorrected r source).logFault f) :=
  (s.spUncorrected_ctlOnly r source).trans (State.logFault_ctlOnly _ f)

end

/-! ### What a narrow write leaves in its port -/

/-- The bytes of a narrow write put into a buffer. -/
abbrev putBytes (t : Tbl Byte) (off : Nat) (bs : List Byte) : Tbl Byte :=
  (List.range bs.length).foldl (fun t i => Tbl.put t (off + i) (bs.getD i 0)) t

theorem putBytes_get? (t : Tbl Byte) (off : Nat) (bs : List Byte) {i : Nat} {x : Byte} (h : bs[i]? = some x) :
    Tbl.get? (putBytes t off bs) (off + i) = some x := by
  have key : ∀ n, i < n → Tbl.get? ((List.range n).foldl (fun t i => Tbl.put t (off + i) (bs.getD i 0)) t) (off + i) = some (bs.getD i 0) := by
    intro n
    induction n with
    | zero => exact fun h => absurd h (Nat.not_lt_zero i)
    | succ n ih =>
      intro hi
      rw [List.range_succ, List.foldl_append, List.foldl_cons, List.foldl_nil, Tbl.get?_put]
      split
      · next e => rw [show i = n by omega]
      · next ne => exact ih (by omega)
  obtain ⟨hi, hx⟩ := List.getElem?_eq_some_iff.1 h
  rw [putBytes, key bs.length hi, List.getD_eq_getElem?_getD, h]
  rfl

/-- A port holds bytes at their places of a row. -/
def State.holdsBytes (s : State) (g row off : Nat) (bs : List Byte) : Prop :=
  ∃ b ∈ s.gatherPort g, b.row = row ∧ ∀ i x, bs[i]? = some x → Tbl.get? b.bytes (off + i) = some x

theorem State.narrowWrite_holds (s : State) (g row off : Nat) (bs : List Byte) (own : List (Nat × Nat)) :
    (s.narrowWrite g row off bs own).holdsBytes g row off bs := by
  have added : ∀ (b : GatherBuf) (l : List GatherBuf) (os : List (Nat × Nat)) (t : State), b.row = row →
      t.gatherPort g = l ++ [{ b with bytes := putBytes b.bytes off bs, owners := os }] → t.holdsBytes g row off bs := by
    intro b l os t hb ht
    exact ⟨{ b with bytes := putBytes b.bytes off bs, owners := os }, ht ▸ List.mem_append_right l (List.mem_singleton_self _), hb,
      fun i x hx => putBytes_get? b.bytes off bs hx⟩
  unfold State.narrowWrite
  dsimp only
  split
  · next b hb => exact added b _ _ _ (by simpa using List.find?_some hb) (by rw [State.gatherPort_setGather, if_pos rfl])
  · split
    · exact added { row := row } _ _ _ rfl (by rw [State.gatherPort_setGather, if_pos rfl])
    · next full =>
      split
      · next empty => simp [empty] at full
      · exact added { row := row } _ _ _ rfl (by rw [State.gatherPort_flushBuf, State.gatherPort_setGather, if_pos rfl])

/-! ### NARROW_WRITE -/

theorem narrowFits_iff (g at_ : Nat) (data : NarrowData) (bs : List Byte) :
    narrowFits g at_ data bs = true ↔ (1 ≤ bs.length ∧ bs.length ≤ 64 ∧ at_ + bs.length ≤ 512) ∧ (narrowReads data = [] ∨ 4 ≤ g) := by
  simp [narrowFits]

theorem narrowFits_broken {g at_ : Nat} {data : NarrowData} {bs : List Byte}
    (h : bs.length = 0 ∨ 64 < bs.length ∨ 512 < at_ + bs.length ∨ (narrowReads data ≠ [] ∧ g < 4)) : narrowFits g at_ data bs = false := by
  rw [← Bool.not_eq_true, narrowFits_iff]
  rintro ⟨⟨h1, h64, h512⟩, hcore⟩
  rcases h with k | k | k | ⟨forms, low⟩
  · omega
  · omega
  · omega
  · exact hcore.elim forms (Nat.not_le.2 low)

section
variable {s : State} {g off at_ : Nat} {e : HandleEntry} {own : List (Nat × Nat)} {bs : List Byte} {mode : Nat}

/-- The tag of the slot that a narrow write through a handle enters. -/
abbrev HandleEntry.tagAt (e : HandleEntry) (off : Nat) : Nat := slotTag { used := true, base := e.base, slotRows := e.slotRows } off

theorem State.placeNarrow_untagged (fin : Option Nat) (h : e.slotRows = 0) :
    s.placeNarrow g e off at_ own bs mode fin = s.narrowWrite g (e.base + off) at_ bs own := if_pos h

theorem State.placeNarrow_waits (fin : Option Nat) (h : e.slotRows ≠ 0)
    (hc : narrowClaim (s.tag (e.tagAt off)) (gatherSource g) mode = none) :
    s.placeNarrow g e off at_ own bs mode fin = s := by
  simp only [State.placeNarrow, if_neg h, hc]

theorem State.placeNarrow_claimed {t : Tag} (fin : Option Nat) (h : e.slotRows ≠ 0)
    (hc : narrowClaim (s.tag (e.tagAt off)) (gatherSource g) mode = some t) :
    s.placeNarrow g e off at_ own bs mode fin =
      let u := (s.setTag (e.tagAt off) t).narrowWrite g (e.base + off) at_ bs own
      match fin with
      | some n => u.narrowFinish g (e.tagAt off) e.slotRows (n % 16)
      | none => u := by
  cases fin <;> simp only [State.placeNarrow, if_neg h, hc]

/-- The tag that a claimed write entered, before its unit ends the fill. -/
theorem State.tag_narrowWrite_setTag (s : State) (k : Nat) (t : Tag) (g row at_ : Nat) (bs : List Byte) (own : List (Nat × Nat)) :
    ((s.setTag k t).narrowWrite g row at_ bs own).tag k = t := by
  rw [(State.narrowWrite_moves (Moves.rfl' 0xa4000000000026 _) (by decide) g row at_ bs own).tag (by decide), State.tag_setTag, if_pos rfl]

/-- The end of a fill leaves its tag FULL with the declared reads. -/
theorem State.tag_narrowFinish (s : State) (g k rows readers : Nat) : (s.narrowFinish g k rows readers).tag k = (s.tag k).fill readers := by
  unfold State.narrowFinish
  rw [State.tag_setTag, if_pos rfl, (State.flushPort_moves (Moves.rfl' 0xa4000000000026 s) (by decide) g _).tag (by decide)]

end

section
variable {port : NarrowNo} {p : Part} {sid : Sid} {h : Byte} {off : BitVec 16} {at_ : Nat} {data : NarrowData} {mode : Nat}
  {fin : Option Nat} {s : State}

theorem exec_narrowWrite_dropped
    (hbad : narrowFits port.val at_ data (s.narrowBytes port.val sid.val data) = false ∨ s.narrowOk p.val h.toNat off.toNat = false) :
    exec (.narrowWrite port p sid h off at_ data mode fin) s = .next s :=
  if_pos (by rcases hbad with k | k <;> simp [k])

theorem exec_narrowWrite_poisoned {row : Nat} (hfit : narrowFits port.val at_ data (s.narrowBytes port.val sid.val data) = true)
    (hok : s.narrowOk p.val h.toNat off.toNat = true) (hr : (s.countReads (narrowReads data)).2 = some row) :
    exec (.narrowWrite port p sid h off at_ data mode fin) s =
      .next (((s.countReads (narrowReads data)).1.spUncorrected row (gatherSource port.val)).logFault
        { cls := 2, source := gatherSource port.val, action := 8, addr := row }) := by
  refine (if_neg (by simp [hfit, hok])).trans ?_
  rw [hr]

theorem exec_narrowWrite_placed (hfit : narrowFits port.val at_ data (s.narrowBytes port.val sid.val data) = true)
    (hok : s.narrowOk p.val h.toNat off.toNat = true) (hr : (s.countReads (narrowReads data)).2 = none) :
    exec (.narrowWrite port p sid h off at_ data mode fin) s =
      .next ((s.countReads (narrowReads data)).1.placeNarrow port.val (HandleEntry.of (s.handle p.val h.toNat)) off.toNat at_
        [(p.val, sid.val)] (s.narrowBytes port.val sid.val data) mode fin) := by
  refine (if_neg (by simp [hfit, hok])).trans ?_
  rw [hr]

end

/-! ### GATHER_IDLE_FLUSH -/

theorem State.readRow_congr {s t : State} (h : t.st = s.st) (r : Nat) : t.readRow r = s.readRow r := by
  unfold State.readRow State.row State.rowErr
  rw [h]

/-- A row that can be read holds, after the flush of a buffer in part, the buffered bytes over what it held. -/
theorem State.readRow_flushBuf {s : State} {g : Nat} {b : GatherBuf} (hn : b.bytes.length ≠ 512) (hp : s.rowPoisoned b.row = false) :
    (s.flushBuf g b).readRow b.row = slice (mergeBytes (s.readRow b.row) b.bytes) 0 512 := by
  unfold State.flushBuf
  rw [if_neg hn, if_neg (by simp [hp]), State.readRow_writeRow, if_pos rfl]

/-- A port of which one buffer is selected flushes that one. -/
theorem State.flushPort_single {s : State} {g : Nat} {p : GatherBuf → Bool} {b : GatherBuf} (h : (s.gatherPort g).filter p = [b]) :
    s.flushPort g p = (s.setGather g ((s.gatherPort g).filter fun b => !p b)).flushBuf g b := by
  unfold State.flushPort
  rw [h]
  rfl

/-! ### The transposed read -/

theorem slice_append_left {l r : List Byte} {n : Nat} (h : l.length = n) : slice (l ++ r) 0 n = l := by
  subst h
  simp [slice]

theorem slice_append_right (l r : List Byte) (o n : Nat) : slice (l ++ r) (l.length + o) n = slice r o n := by
  have past : List.drop (l.length + o) l = [] := List.drop_eq_nil_of_le (Nat.le_add_right _ _)
  simp [slice, List.drop_append, past]

/-- The `p`-th of pieces of one length put in a row. -/
theorem slice_flatMap_range {f : Nat → List Byte} {e n p : Nat} (hf : ∀ i, (f i).length = e) (hp : p < n) :
    slice ((List.range n).flatMap f) (p * e) e = f p := by
  induction p generalizing f n with
  | zero =>
    obtain ⟨n, rfl⟩ := Nat.exists_eq_add_of_lt hp
    rw [Nat.zero_mul, Nat.zero_add, List.range_succ_eq_map, List.flatMap_cons, slice_append_left (hf 0)]
  | succ p ih =>
    obtain ⟨n, rfl⟩ : ∃ k, n = k + 1 := ⟨n - 1, by omega⟩
    rw [List.range_succ_eq_map, List.flatMap_cons, Nat.succ_mul, Nat.add_comm, ← hf 0, slice_append_right, hf 0, List.flatMap_map]
    exact ih (fun i => hf (i + 1)) (by omega)

theorem length_flatMap_range {f : Nat → List Byte} {e : Nat} (hf : ∀ i, (f i).length = e) (n : Nat) :
    ((List.range n).flatMap f).length = n * e := by
  simp [List.length_flatMap, hf]

theorem State.transposedTile_row (s : State) (o stride e : Nat) {j : Nat} (hj : j < 32) :
    (s.transposedTile o stride e).getD j [] = s.transposedRow o stride e j := by
  simp [State.transposedTile, List.getD_eq_getElem?_getD, hj]

/-! ### BATCH_TABLE_WRITE -/

theorem State.batchEntry_write (s : State) (k : Nat) (e : BatchEntry) (n : Nat) :
    State.batchEntry { s with rb := { s.rb with batches := Tbl.setD s.rb.batches {} k e } } n = if n = k then e else s.batchEntry n :=
  Tbl.getD_setD s.rb.batches {} k n e

/-- Settles O33: a narrow write by what its port and its tag hold, a flush by what its row then reads, a batch entry by the table, a
transposed row by its pieces. -/
theorem narrowWritesAndBatchTable : Obligations.NarrowWritesAndBatchTable := by
  refine ⟨fun port p sid h off at_ data mode fin s => ?narrow, fun port row s => ⟨_, rfl, ?kept, fun k hk => ?others, fun b hb hn hp => ?read⟩,
    fun bid valid members s => ⟨fun hv hm => if_pos ?_, fun hv => ⟨_, if_neg ?_, ?_, fun n hn => ?_⟩⟩,
    fun s o stride e j p he hj hp => ?_⟩
  case narrow =>
    intro e row c bytes tag reads holds
    have only := s.countReads_ctlOnly (narrowReads data)
    have tags : reads.1.tag tag = s.tag tag := by rw [State.tag, only.st]; rfl
    refine ⟨fun hbad => exec_narrowWrite_dropped ?_, fun h1 h64 h512 hcore hok => ?_⟩
    · by_cases hok : s.narrowOk p.val h.toNat off.toNat = false
      · exact .inr hok
      · exact .inl (narrowFits_broken (by tauto))
    · have hfit : narrowFits port.val at_ data bytes = true := (narrowFits_iff ..).2 ⟨⟨h1, h64, h512⟩, hcore⟩
      refine ⟨fun bad hr => ⟨_, exec_narrowWrite_poisoned hfit hok hr, ?_⟩,
        fun hr => ⟨fun hs => ?_, fun hs hc => ?_, fun g hs hc => ⟨?_, ?_⟩⟩⟩
      · exact ⟨(only.trans (State.rowEvent_ctlOnly ..)).st, (only.trans (State.rowEvent_ctlOnly ..)).rb⟩
      · refine ⟨_, exec_narrowWrite_placed hfit hok hr, ?_⟩
        rw [State.placeNarrow_untagged fin hs]
        exact State.narrowWrite_holds ..
      · refine (exec_narrowWrite_placed hfit hok hr).trans ?_
        rw [State.placeNarrow_waits fin hs (tags ▸ hc)]
      · rintro rfl
        refine ⟨_, exec_narrowWrite_placed hfit hok hr, ?_⟩
        rw [State.placeNarrow_claimed none hs (tags ▸ hc)]
        exact ⟨State.narrowWrite_holds .., State.tag_narrowWrite_setTag ..⟩
      · rintro n rfl
        refine ⟨_, exec_narrowWrite_placed hfit hok hr, ?_⟩
        rw [State.placeNarrow_claimed (some n) hs (tags ▸ hc)]
        exact (State.tag_narrowFinish ..).trans (congrArg (Tag.fill · (n % 16)) (State.tag_narrowWrite_setTag ..))
  case kept => rw [State.gatherPort_flushPort, if_pos rfl]
  case others => rw [State.gatherPort_flushPort, if_neg hk]
  case read =>
    have hrow : b.row = row := by
      have : b ∈ (s.gatherPort port.val).filter fun b => b.row == row := hb ▸ List.mem_singleton_self b
      simpa using (List.mem_filter.1 this).2
    subst hrow
    rw [State.flushPort_single hb]
    exact State.readRow_flushBuf (s := s.setGather port.val _) hn hp
  · rcases hm with hm | hm <;> simp [hv, hm]
  · rcases hv with hv | ⟨hm, hl⟩
    · simp [hv]
    · simp [hm, hl]
  · rw [State.batchEntry_write, if_pos rfl]
  · rw [State.batchEntry_write, if_neg hn]
  · have pos : 512 / e * e = 512 := by rcases he with rfl | rfl | rfl <;> rfl
    rw [State.transposedTile_row s o stride e hj]
    refine ⟨by simp [State.transposedTile], ?_, ?_⟩
    · exact (length_flatMap_range (fun _ => slice_length _ _ e) _).trans pos
    · exact slice_flatMap_range (fun _ => slice_length _ _ e) hp

end Sys2Proof.Machine
end

section
/-! SUPPORT. Remote writes, their ends, their answers, and remote tag sets (R111, R116, R463 to R467). -/

namespace Sys2Proof.Machine

theorem CtlOnly.xr {s t : State} (h : CtlOnly s t) : t.xr = s.xr := by
  unfold CtlOnly at h
  rw [h]

theorem CtlOnly.ite {s a b : State} (P : Prop) [Decidable P] (ha : CtlOnly s a) (hb : CtlOnly s b) :
    CtlOnly s (if P then a else b) := by
  split
  · exact ha
  · exact hb

/-! ### Frames sent, descriptors put back -/

theorem State.send_st (s : State) (p : Nat) (f : Frame) : (s.send p f).st = s.st := by
  unfold State.send
  dsimp only
  split <;> rfl

theorem State.tag_congr {s t : State} (h : t.st = s.st) (k : Nat) : t.tag k = s.tag k :=
  congrArg (fun st : Store => Tbl.getD st.tags {} k) h

theorem State.send_rxDescs (s : State) (p : Nat) (f : Frame) : (s.send p f).xr.rxDescs = s.xr.rxDescs :=
  (State.send_moves (Moves.rfl' 0x40000000000 s) (by decide) p f).frame.xr.rxDescs (by decide)

@[simp] theorem State.putDesc_rxDescs_self (s : State) (n : Nat) (d : RxDesc) : Tbl.get? (s.putDesc n d).xr.rxDescs n = some d :=
  Tbl.get?_put_self s.xr.rxDescs n d

/-! ### Settling a descriptor (R464) -/

section
variable {s : State} {p n : Nat} {f : Frame} {d : RxDesc} {e : Nat × Nat × Nat × Nat}

/-- A descriptor none of whose ends is met stays. -/
theorem State.settleDesc_waits (h : Tbl.get? s.xr.rxDescs n = some d) (hd : d.ends.filter d.done = []) : s.settleDesc p n f = s := by
  simp only [State.settleDesc, h]
  exact if_pos hd

/-- The state whose tag `k` a FILL or CLOSE with `readers` READERS has made FULL, if it claimed one (R464). -/
def State.filled (s : State) (k : Option Nat) (readers : Nat) : State :=
  match k with
  | some k => s.setTag k ((s.tag k).fill readers)
  | none => s

theorem State.filled_tag (s : State) (j : Option Nat) (readers k : Nat) :
    (s.filled j readers).tag k = if j = some k then (s.tag k).fill readers else s.tag k := by
  cases j with
  | none => rfl
  | some j =>
    refine (s.tag_setTag j _ k).trans ?_
    by_cases h : k = j
    · rw [if_pos h, if_pos (congrArg some h.symm), h]
    · rw [if_neg h, if_neg fun e => h (Option.some.inj e).symm]

theorem State.filled_frame (s : State) (k : Option Nat) (readers : Nat) :
    (s.filled k readers).st.sp = s.st.sp ∧ (s.filled k readers).xr = s.xr := by
  cases k <;> exact ⟨rfl, rfl⟩

/-- The one end of a descriptor is met, and is that of a FILL or CLOSE: the descriptor goes, and its tag is FULL. -/
theorem State.settleDesc_fills (h : Tbl.get? s.xr.rxDescs n = some d) (he : d.ends = [e]) (hd : d.done e = true) (hm : e.2.2.1 = 1 ∨ e.2.2.1 = 4) :
    s.settleDesc p n f =
      ({ s with xr := { s.xr with rxDescs := Tbl.erase s.xr.rxDescs n } }.filled d.tag e.2.2.2).send p (landedFrame f 0 0) := by
  have fin : (e.2.2.1 == 1 || e.2.2.1 == 4) = true := by simpa using hm
  simp only [State.settleDesc, h, he, List.filter_cons, List.filter_nil, hd, if_true, List.find?_cons, fin]
  cases d.tag <;> rfl

/-- The one end of a descriptor is met, and is that of no FILL or CLOSE: the descriptor stays without what had landed of it. -/
theorem State.settleDesc_ends (h : Tbl.get? s.xr.rxDescs n = some d) (he : d.ends = [e]) (hd : d.done e = true)
    (hm : ¬(e.2.2.1 = 1 ∨ e.2.2.1 = 4)) :
    s.settleDesc p n f =
      (s.putDesc n { d with ends := [], landed := d.landed.filter fun k => !([e].any fun e => (quarterKeys e.1 e.2.1).contains k) }).send p
        (landedFrame f 0 0) := by
  have open_ : (e.2.2.1 == 1 || e.2.2.1 == 4) = false := by simpa using hm
  simp only [State.settleDesc, h, he, List.filter_cons, List.filter_nil, hd, if_true, List.find?_cons, open_]
  rfl

end

/-! ### WRITE -/

/-- The four frames of a row, in order, once all are there. -/
theorem filterMap_four {part : Nat → Option (Nat × List Byte)} {w x y z : Nat × List Byte} (hw : part 0 = some w) (hx : part 1 = some x)
    (hy : part 2 = some y) (hz : part 3 = some z) : (List.range 4).filterMap (fun q => (part q).map (·.2)) = [w.2, x.2, y.2, z.2] := by
  simp [List.range_succ, hw, hx, hy, hz]

/-- While a frame of a row is missing, fewer than four are there. -/
theorem filterMap_missing {part : Nat → Option (Nat × List Byte)} {q : Nat} (hq : q < 4) (h : part q = none) :
    ((List.range 4).filterMap fun q => (part q).map (·.2)).length ≠ 4 := by
  intro full
  have all := List.filterMap_length_eq_length.1 (full.trans List.length_range.symm)
  simpa [h] using all q (List.mem_range.2 hq)

/-- The frames of the row that arrives now, with one more. -/
abbrev RxDesc.runWith (d : RxDesc) (f : Frame) : List (Nat × List Byte) :=
  (d.run.filter fun x => x.1 / 4 == f.frame / 4 && x.1 != f.frame) ++ [(f.frame, slice f.payload 0 128)]

section
variable {s : State} {n : Nat} {d : RxDesc} {f : Frame}

theorem State.landWrite_whole {w x y z : Nat × List Byte} (hw : (d.runWith f).find? (fun x => x.1 % 4 == 0) = some w)
    (hx : (d.runWith f).find? (fun x => x.1 % 4 == 1) = some x) (hy : (d.runWith f).find? (fun x => x.1 % 4 == 2) = some y)
    (hz : (d.runWith f).find? (fun x => x.1 % 4 == 3) = some z) :
    s.landWrite n d f = (s.writeRow (d.base + f.frame / 4) (w.2 ++ x.2 ++ y.2 ++ z.2)).putDesc n
      { d with landed := dedup (d.landed ++ [f.frame]), run := [] } := by
  have four := filterMap_four (part := fun q => (d.runWith f).find? fun x => x.1 % 4 == q) hw hx hy hz
  simp only [State.landWrite, four, List.length_cons, List.length_nil, if_true]
  simp

theorem State.landWrite_part {q : Nat} (hq : q < 4) (h : (d.runWith f).find? (fun x => x.1 % 4 == q) = none) :
    s.landWrite n d f = (s.landQuarter (d.base + f.frame / 4) (f.frame % 4) f.payload).putDesc n
      { d with landed := dedup (d.landed ++ [f.frame]), run := d.runWith f } := by
  have some_missing := filterMap_missing (part := fun q => (d.runWith f).find? fun x => x.1 % 4 == q) hq h
  simp only [State.landWrite, if_neg some_missing]

end

@[simp] theorem State.putDesc_readRow (s : State) (n : Nat) (d : RxDesc) (r : Nat) : (s.putDesc n d).readRow r = s.readRow r := rfl
@[simp] theorem State.putDesc_rowPoisoned (s : State) (n : Nat) (d : RxDesc) (r : Nat) : (s.putDesc n d).rowPoisoned r = s.rowPoisoned r := rfl

/-- A row just written holds no error. -/
theorem State.rowPoisoned_writeRow (s : State) (r : Nat) (bs : List Byte) : (s.writeRow r bs).rowPoisoned r = false := by
  have clean : (s.writeRow r bs).rowErr r = [] := (Tbl.getD_setD s.st.spErr [] r r []).trans (if_pos rfl)
  unfold State.rowPoisoned
  rw [clean]
  decide

/-- A quarter that lands in a sound row replaces its 128 bytes. -/
theorem State.readRow_landQuarter (s : State) {row : Nat} (q : Nat) (bs : List Byte) (h : s.rowPoisoned row = false) (r : Nat) :
    (s.landQuarter row q bs).readRow r =
      if r = row then slice (spliceBytes (s.readRow row) (128 * q) (slice bs 0 128)) 0 512 else s.readRow r := by
  unfold State.landQuarter
  rw [if_neg (by simp [h]), State.readRow_writeRow, State.readRow_congr (s.countReads_ctlOnly [row]).st]

/-- A quarter that comes for a poisoned row is not written. -/
theorem State.landQuarter_poisoned (s : State) {row : Nat} (q : Nat) (bs : List Byte) (h : s.rowPoisoned row = true) :
    (s.landQuarter row q bs).st = s.st := by
  unfold State.landQuarter
  rw [if_pos h]
  exact (s.rowEvent_ctlOnly row 0xFF _).st

theorem State.readRow_landQuarter_ne (s : State) {row : Nat} (q : Nat) (bs : List Byte) {r : Nat} (h : r ≠ row) :
    (s.landQuarter row q bs).readRow r = s.readRow r := by
  cases hp : s.rowPoisoned row with
  | true => exact State.readRow_congr (s.landQuarter_poisoned q bs hp) r
  | false => rw [s.readRow_landQuarter q bs hp, if_neg h]

section
variable {port : PortNo} {s u : State} {f : Frame}

theorem exec_write_discarded (h : s.takeFrame port.val (ofType 0x1) = some (f, u))
    (hd : ∀ d, u.descOf port.val f = some d → d.rows ≤ f.frame / 4) : exec (.write port) s = .next (u.discardRx port.val f) := by
  rw [exec_frame (c := .write port) rfl h]
  split
  · next d e => rw [if_neg (Nat.not_lt.2 (hd d e))]
  · rfl

/-- A WRITE that lands in a descriptor without a waiting end. -/
theorem exec_write_lands {d : RxDesc} (h : s.takeFrame port.val (ofType 0x1) = some (f, u)) (hd : u.descOf port.val f = some d)
    (hr : f.frame / 4 < d.rows) (he : d.ends = []) : exec (.write port) s = .next (u.landWrite f.txn d f) := by
  rw [exec_frame (c := .write port) rfl h]
  simp only [hd, if_pos hr]
  exact congrArg Host.Outcome.next (State.settleDesc_waits (State.putDesc_rxDescs_self ..) (by rw [he]; rfl))

/-- A descriptor with the end that a WRITE_END asks for, as its only one. -/
def RxDesc.endWith (d : RxDesc) (a : Addr) : RxDesc :=
  { d with run := [], ends := [(a.off - d.first, a.rows, a.mode, a.readers)] }

/-- A WRITE_END of a descriptor without another waiting end. -/
theorem exec_writeEnd_settles {d : RxDesc} (h : s.takeFrame port.val (ofType 0x2) = some (f, u)) (hd : u.descOf port.val f = some d)
    (he : d.ends = []) :
    exec (.writeEnd port) s = .next ((u.putDesc f.txn (d.endWith (Addr.of f.payload))).settleDesc port.val f.txn f) := by
  rw [exec_frame (c := .writeEnd port) rfl h]
  simp only [hd, he]
  rfl

end

/-! ### LANDED -/

/-- The command of a remote operation after one of its answers, with the flag of a refusal (R464, R466, R467). -/
def Cmd.answer (c : Cmd) (o : RemoteOp) (flag : Option Nat) : Cmd :=
  let flags := flag.elim c.flags (withFlag c.flags)
  let c1 := { c with remoteLeft := c.remoteLeft - 1, flags := flags }
  if ¬(c.remoteLeft - 1 = 0 ∧ (o.forPart = false ∨ flags ≠ 0)) then c1
  else if c.phase = .parked then { c1 with answered := true } else { c1 with phase := .ended }

/-- The flags of an answer that carries a flag only where it refuses. -/
theorem elim_withFlag (P : Prop) [Decidable P] (flags b : Nat) :
    (if P then some b else none).elim flags (withFlag flags) = if P then withFlag flags b else flags := by
  split <;> rfl

section
variable {s : State} {o : RemoteOp}

/-- An answer for which no command waits takes its operation away. -/
theorem State.endOp_alone (flag : Option Nat) (h : (s.rb.cmds.find? fun x => x.seq == o.cmd) = none) :
    s.endOp o flag = { s with xr := { s.xr with ops := s.xr.ops.erase o } } := by
  simp only [State.endOp, h]

/-- An answer takes its operation away and changes its command; a PT flag is logged. -/
theorem State.endOp_answers {c : Cmd} (flag : Option Nat) (h : (s.rb.cmds.find? fun x => x.seq == o.cmd) = some c) :
    CtlOnly ({ s with xr := { s.xr with ops := s.xr.ops.erase o } }.putCmd (c.answer o flag)) (s.endOp o flag) := by
  unfold State.endOp Cmd.answer
  cases flag <;> simp only [h, Option.elim, Bool.not_eq_true', decide_eq_false_iff_not]
  all_goals exact .ite _ (State.logFault_ctlOnly _ _) (.refl _)

theorem State.endOp_xr (s : State) (o : RemoteOp) (flag : Option Nat) : (s.endOp o flag).xr = { s.xr with ops := s.xr.ops.erase o } := by
  cases h : s.rb.cmds.find? fun x => x.seq == o.cmd with
  | none => rw [State.endOp_alone flag h]
  | some c => exact (State.endOp_answers flag h).xr

end

section
variable {port : PortNo} {s u : State} {f : Frame}

/-- The state in which the grant that a FILL or CLOSE used up is gone (R464). -/
def State.dropGrant (s : State) (p : Nat) (f : Frame) (o : RemoteOp) : State :=
  let mode := (Addr.of o.req.payload).mode
  if o.req.type = 0x2 ∧ (mode = 1 ∨ mode = 4) then
    { s with xr := { s.xr with grants := s.xr.grants.filter fun g => !(g.peer == (s.port p).peerDev && g.number == f.txn) } }
  else s

theorem State.dropGrant_rb (s : State) (p : Nat) (f : Frame) (o : RemoteOp) : (s.dropGrant p f o).rb = s.rb := by
  unfold State.dropGrant
  dsimp only
  split <;> rfl

theorem State.dropGrant_ops (s : State) (p : Nat) (f : Frame) (o : RemoteOp) : (s.dropGrant p f o).xr.ops = s.xr.ops := by
  unfold State.dropGrant
  dsimp only
  split <;> rfl

theorem State.dropGrant_grants (s : State) (p : Nat) (f : Frame) (o : RemoteOp) :
    let mode := (Addr.of o.req.payload).mode
    (s.dropGrant p f o).xr.grants = if o.req.type = 0x2 ∧ (mode = 1 ∨ mode = 4) then
      s.xr.grants.filter fun g => !(g.peer == (s.port p).peerDev && g.number == f.txn) else s.xr.grants := by
  unfold State.dropGrant
  dsimp only
  split <;> rfl

theorem exec_landed_unknown (h : s.takeFrame port.val (ofType 0x3) = some (f, u)) (ho : u.opOf port.val f.txn [0x2, 0x4, 0x5, 0x8] = none) :
    exec (.landed port) s = .next u := by
  rw [exec_frame (c := .landed port) rfl h]
  simp only [ho]

theorem exec_landed_answers {o : RemoteOp} (h : s.takeFrame port.val (ofType 0x3) = some (f, u))
    (ho : u.opOf port.val f.txn [0x2, 0x4, 0x5, 0x8] = some o) :
    exec (.landed port) s =
      .next ((u.dropGrant port.val f o).endOp o (if leAt f.payload 0 1 = 2 then some (leAt f.payload 1 1) else none)) := by
  rw [exec_frame (c := .landed port) rfl h]
  simp only [ho]
  rfl

/-! ### RTAG -/

theorem exec_rtag_refused {b : Nat} (h : s.takeFrame port.val (ofType 0x4) = some (f, u))
    (hb : u.resolveRemote f.part (Addr.of f.payload).handle (Addr.of f.payload).off 1 false false = .error b) :
    exec (.rtag port) s = .next (u.send port.val (landedFrame f 2 b)) := by
  rw [exec_frame (c := .rtag port) rfl h]
  simp only [hb]

theorem exec_rtag_resolved {o : Operand} (h : s.takeFrame port.val (ofType 0x4) = some (f, u))
    (ho : u.resolveRemote f.part (Addr.of f.payload).handle (Addr.of f.payload).off 1 false false = .ok o) :
    exec (.rtag port) s = let a := Addr.of f.payload
      .next ((if o.slotRows = 0 then u else
        u.setTag (slotTag o a.off) ((u.tag (slotTag o a.off)).set (TagState.ofCode (a.tstate % 4)) a.readers)).send port.val
          (landedFrame f 0 0)) := by
  rw [exec_frame (c := .rtag port) rfl h]
  simp only [ho]

end

/-- Settles O43: a WRITE by the row that it leaves, a WRITE_END by how its descriptor settles, an answer by the change of its command, a
tag set by the tag. -/
theorem remoteWritesLandAndTagsAreSet : Obligations.RemoteWritesLandAndTagsAreSet := by
  refine ⟨fun port s u f h => ⟨fun hd => exec_write_discarded h (by simp [hd]), fun d hd => ⟨fun hr => exec_write_discarded h ?_,
      fun hr he => ⟨?part, fun w x y z hw hx hy hz => ?whole⟩⟩⟩,
    fun port s u f h => ⟨fun hd => ?_, fun d hd he => ⟨fun hdone => ?waits, fun hdone hm => ?fills, fun hdone hm => ?ends⟩⟩,
    fun port s u f h => ⟨exec_landed_unknown h, fun o ho => ⟨_, exec_landed_answers h ho, ?_, ?_, fun c hc => ?_⟩⟩,
    fun port s u f h => ⟨fun b hb => exec_rtag_refused h hb, fun o ho => ⟨fun hs => ?_, fun hs => ⟨_, exec_rtag_resolved h ho, ?_⟩⟩⟩⟩
  · intro d' e
    cases hd.symm.trans e
    exact hr
  case part =>
    rintro ⟨q, hq, missing⟩
    refine ⟨_, (exec_write_lands h hd hr he).trans (by rw [State.landWrite_part hq missing]), ?_⟩
    simp only [State.putDesc_rxDescs_self, State.putDesc_readRow, State.putDesc_st]
    refine ⟨trivial, fun r hr => u.readRow_landQuarter_ne _ _ hr, fun sound => ?_, fun bad => ?_⟩
    · rw [u.readRow_landQuarter _ _ sound, if_pos rfl]
    · rw [u.landQuarter_poisoned _ _ bad]
      exact ⟨rfl, rfl⟩
  case whole =>
    refine ⟨_, (exec_write_lands h hd hr he).trans (by rw [State.landWrite_whole hw hx hy hz]), ?_⟩
    simp only [State.putDesc_rxDescs_self, State.putDesc_readRow, State.putDesc_rowPoisoned]
    exact ⟨trivial, fun r hr => (u.readRow_writeRow ..).trans (if_neg hr), (u.readRow_writeRow ..).trans (if_pos rfl), u.rowPoisoned_writeRow _ _⟩
  · rw [exec_frame (c := .writeEnd port) rfl h]
    simp only [hd]
  case waits =>
    refine ⟨_, (exec_writeEnd_settles h hd he).trans (congrArg Host.Outcome.next (State.settleDesc_waits (State.putDesc_rxDescs_self ..) ?_)),
      State.putDesc_rxDescs_self .., rfl⟩
    exact List.filter_eq_nil_iff.2 fun e he => by rw [List.mem_singleton.1 he]; exact Bool.not_eq_true _ ▸ hdone
  case fills =>
    refine ⟨_, (exec_writeEnd_settles h hd he).trans
      (congrArg Host.Outcome.next (State.settleDesc_fills (State.putDesc_rxDescs_self ..) rfl hdone hm)), ?_⟩
    refine ⟨?_, fun k hk => ?_, fun k hk => ?_, ?_⟩
    · rw [State.send_rxDescs, (State.filled_frame ..).2]
      exact Tbl.get?_erase_self ..
    · exact (State.tag_congr (State.send_st ..) k).trans ((State.filled_tag ..).trans (if_pos hk))
    · exact (State.tag_congr (State.send_st ..) k).trans ((State.filled_tag ..).trans (if_neg hk))
    · rw [State.send_st, (State.filled_frame ..).1]
      rfl
  case ends =>
    refine ⟨_, (exec_writeEnd_settles h hd he).trans
      (congrArg Host.Outcome.next (State.settleDesc_ends (State.putDesc_rxDescs_self ..) rfl hdone hm)),
      ⟨_, (congrArg (Tbl.get? · f.txn) (State.send_rxDescs ..)).trans (State.putDesc_rxDescs_self ..)⟩, State.send_st ..⟩
  · rw [State.endOp_xr]
    exact congrArg (List.erase · o) (u.dropGrant_ops ..)
  · rw [State.endOp_xr]
    exact u.dropGrant_grants ..
  · rw [← u.dropGrant_rb port.val f o] at hc
    have cmds : ∀ d, (u.dropGrant port.val f o).cmdsWith d = u.cmdsWith d := fun d => by rw [State.cmdsWith, u.dropGrant_rb, State.cmdsWith]
    rw [(State.endOp_answers _ hc).rb]
    refine ⟨fun more => ?_, fun last parked => ?_, fun last parked => ?_⟩ <;> refine (cmds _).trans (congrArg u.cmdsWith ?_) <;>
      simp only [Cmd.answer, elim_withFlag]
    · exact if_pos more
    · rw [if_neg (not_not_intro last), if_pos parked]
    · rw [if_neg (not_not_intro last), if_neg parked]
  · exact (exec_rtag_resolved h ho).trans (congrArg (fun t : State => Host.Outcome.next (t.send _ _)) (if_pos hs))
  · simp only [State.send_st, State.tag_congr (State.send_st ..), if_neg hs, State.tag_setTag, if_true]
    exact ⟨trivial, fun k hk => if_neg hk, rfl⟩

end Sys2Proof.Machine
end

section
/-! SUPPORT. The choice of a command for an engine, and the claim of a tag (R108, R374 to R378, R402, R593). -/

namespace Sys2Proof.Machine

/-! ### The choice (R375) -/

theorem argMin_eq_none {α : Type} {key : α → Nat} {l : List α} (h : argMin key l = none) : l = [] := by
  cases l with
  | nil => rfl
  | cons x xs =>
    rw [argMin] at h
    split at h
    · cases h
    · split at h <;> cases h

/-- `argMin` finds an element of the list, and none has a lesser key. -/
theorem argMin_least {α : Type} {key : α → Nat} {l : List α} {y : α} (h : argMin key l = some y) :
    y ∈ l ∧ ∀ x ∈ l, key y ≤ key x := by
  induction l generalizing y with
  | nil => cases h
  | cons x xs ih =>
    rw [argMin] at h
    split at h
    · next e =>
      cases h
      simp [argMin_eq_none e]
    · next z e =>
      obtain ⟨mem, least⟩ := ih e
      split at h <;> cases h <;> simp only [List.mem_cons, forall_eq_or_imp]
      · next lt => exact ⟨.inr mem, lt.le, least⟩
      · next ge => exact ⟨.inl trivial, le_rfl, fun w hw => (Nat.le_of_not_lt ge).trans (least w hw)⟩

section
variable {s u : State} {e : Nat} {l : List Cmd} {c : Cmd}

/-- Without BE commands the choice is the earliest deadline (R375). -/
theorem State.choose_lc (hl : ∀ x ∈ l, x.desc.isBe = false) (h : s.choose e l = some (c, u)) : pickEdf l = some c := by
  have be : l.filter (fun x => x.desc.isBe) = [] := List.filter_eq_nil_iff.2 fun x hx => by simp [hl x hx]
  have lc : l.filter (fun x => !x.desc.isBe) = l := List.filter_eq_self.2 fun x hx => by simp [hl x hx]
  simp only [State.choose, be, lc, ne_eq, not_true_eq_false, false_and, if_false, Option.map_eq_some_iff] at h
  obtain ⟨d, hd, eq⟩ := h
  cases eq
  exact hd

/-- An engine that a command holds is not free. -/
theorem State.engineFree_held (h : s.atEngine? e = some c) : s.engineFree e = false := by
  simp [State.engineFree, h]

end

/-! ### Claims (R108) -/

section
variable {s : State} {cl : Claim} (t : Tag)

theorem State.setClaimTag_claimTag (s : State) (cl : Claim) (t : Tag) : (s.setClaimTag cl t).claimTag cl = t := by
  unfold State.setClaimTag State.claimTag
  split
  · exact (s.tileTag_setTileTag ..).trans (if_pos rfl)
  · exact (s.tag_setTag ..).trans (if_pos rfl)

theorem State.setClaimTag_slot (h : cl.isTile = false) : s.setClaimTag cl t = s.setTag cl.key t := by simp [State.setClaimTag, h]

theorem State.setClaimTag_tile (h : cl.isTile = true) : s.setClaimTag cl t = s.setTileTag cl.key t := by simp [State.setClaimTag, h]

end

/-- The state after a claim: its tag taken, the command with one claim more, and as far on as it then comes. -/
def State.claimed (s : State) (c : Cmd) (cl : Claim) (rest : List Claim) (t : Tag) : State :=
  (((s.setClaimTag cl (t.by c.desc)).putCmd { c with wanted := rest, held := c.held ++ [cl], waitSince := s.now, waitReported := false }).advance
    c.seq c.shadow).advance c.seq c.shadow

/-- Beside its tag a claim changes no tag. -/
theorem State.claimed_moves (s : State) (c : Cmd) (cl : Claim) (rest : List Claim) (t : Tag) :
    Moves 0xa4000200801000 (s.setClaimTag cl (t.by c.desc)) (s.claimed c cl rest t) :=
  State.advance_moves (State.advance_moves (State.putCmd_moves (Moves.rfl' _ _) (by decide) _) (by decide) _ _) (by decide) _ _

section
variable {eng : Eng} {s : State} {c : Cmd}

theorem exec_tagClaim_idle (h : s.atEngine? eng.toNat = none) : exec (.tagClaim eng) s = .next s := by
  show execTagClaim eng s = _
  simp only [execTagClaim, h]

theorem exec_tagClaim_done (h : s.atEngine? eng.toNat = some c) (hw : c.wanted = []) :
    exec (.tagClaim eng) s = .next (s.advance c.seq c.shadow) := by
  show execTagClaim eng s = _
  simp only [execTagClaim, h, hw]

variable {cl : Claim} {rest : List Claim}

theorem exec_tagClaim_waits (h : s.atEngine? eng.toNat = some c) (hw : c.wanted = cl :: rest) (ht : (s.claimTag cl).claim cl.mode = none) :
    exec (.tagClaim eng) s = .next s := by
  show execTagClaim eng s = _
  simp only [execTagClaim, h, hw, ht]

theorem exec_tagClaim_claims {t : Tag} (h : s.atEngine? eng.toNat = some c) (hw : c.wanted = cl :: rest)
    (ht : (s.claimTag cl).claim cl.mode = some t) : exec (.tagClaim eng) s = .next (s.claimed c cl rest t) := by
  show execTagClaim eng s = _
  simp only [execTagClaim, h, hw, ht]
  unfold State.claimed State.setClaimTag
  split <;> rfl

end

/-! ### ROUNDABOUT_ISSUE -/

section
variable {eng : Eng} {s : State}

/-- The queued commands of an engine that are eligible. -/
abbrev State.fresh (s : State) (e : Nat) : List Cmd :=
  s.rb.cmds.filter fun c => c.desc.engine == e && c.phase == .queued && s.eligible c

/-- The parked commands of an engine that are eligible. -/
abbrev State.old (s : State) (e : Nat) : List Cmd :=
  s.rb.cmds.filter fun c => c.desc.engine == e && c.phase == .parked && s.eligible c

/-- A command keeps its engine that is a shadow copy, does not wait, has written, or meets no eligible command (R402). -/
theorem exec_roundaboutIssue_held {c : Cmd} (h : s.atEngine? eng.toNat = some c)
    (hk : c.shadow = true ∨ s.waits c = false ∨ c.wrote = true ∨ s.fresh eng.toNat = []) : exec (.roundaboutIssue eng) s = .next s := by
  have stays : ¬(!c.shadow && s.waits c && !c.wrote && !(s.fresh eng.toNat).isEmpty) = true := by
    simp only [Bool.and_eq_true, Bool.not_eq_true', List.isEmpty_eq_false_iff]
    rintro ⟨⟨⟨sh, w⟩, wr⟩, fr⟩
    rcases hk with k | k | k | k
    · simp [sh] at k
    · simp [w] at k
    · simp [wr] at k
    · exact fr k
  show execRoundaboutIssue eng s = _
  simp only [execRoundaboutIssue, h, if_neg stays, State.engineFree_held h, Bool.not_false, Bool.true_or, if_true]

/-- What an engine without a command chooses: a parked command only where none is queued (R402). -/
abbrev State.pick (s : State) (e : Nat) : Option (Cmd × State) := s.choose e (if (s.fresh e).isEmpty then s.old e else s.fresh e)

theorem exec_roundaboutIssue_off (h : s.atEngine? eng.toNat = none) (off : s.engineFree eng.toNat = false ∨ s.dutyOpen = false) :
    exec (.roundaboutIssue eng) s = .next s := by
  have off : (!s.engineFree eng.toNat || !s.dutyOpen) = true := by rcases off with off | off <;> simp [off]
  show execRoundaboutIssue eng s = _
  simp only [execRoundaboutIssue, h, off, if_true]

theorem exec_roundaboutIssue_issues {c : Cmd} {u : State} (h : s.atEngine? eng.toNat = none) (free : s.engineFree eng.toNat = true)
    (duty : s.dutyOpen = true) (pick : s.pick eng.toNat = some (c, u)) : exec (.roundaboutIssue eng) s = .next (u.issue c) := by
  have on : (!s.engineFree eng.toNat || !s.dutyOpen) = false := by simp [free, duty]
  show execRoundaboutIssue eng s = _
  simp only [execRoundaboutIssue, h, on, Bool.false_eq_true, if_false, pick]

theorem exec_roundaboutIssue_none (h : s.atEngine? eng.toNat = none) (pick : s.pick eng.toNat = none) :
    exec (.roundaboutIssue eng) s = .next s := by
  show execRoundaboutIssue eng s = _
  simp only [execRoundaboutIssue, h, pick, ite_self]

end

/-- Settles O23: an issue by whether the engine is free and what the order chooses, a claim by its tag. -/
theorem commandsAreChosenAndClaim : Obligations.CommandsAreChosenAndClaim := by
  refine ⟨fun eng s => ⟨fun c hc => exec_roundaboutIssue_held hc, exec_roundaboutIssue_off,
    fun c u h free duty => exec_roundaboutIssue_issues h free duty,
    fun h fresh old => exec_roundaboutIssue_none h ?none, fun l c u lc pick => argMin_least (State.choose_lc lc pick)⟩,
    fun eng s => ⟨exec_tagClaim_idle, fun c hc => ⟨exec_tagClaim_done hc, fun cl rest hw => ⟨exec_tagClaim_waits hc hw,
      fun tag ht => ?claims⟩⟩⟩⟩
  case none =>
    have fresh : s.fresh eng.toNat = [] := fresh
    have old : s.old eng.toNat = [] := old
    rw [State.pick, fresh, old]
    rfl
  case claims =>
    refine ⟨_, exec_tagClaim_claims hc hw ht, ?_, fun slot => ?_, fun tile => ?_⟩
    · have moves := s.claimed_moves c cl rest tag
      refine Eq.trans ?_ (s.setClaimTag_claimTag cl (tag.by c.desc))
      simp only [State.claimTag, moves.tag (by decide), moves.tileTag (by decide)]
    · have moves := State.setClaimTag_slot (s := s) (tag.by c.desc) slot ▸ s.claimed_moves c cl rest tag
      simp only [moves.tag (by decide), moves.tileTag (by decide)]
      exact ⟨fun n hn => (s.tag_setTag ..).trans (if_neg hn), fun n => rfl⟩
    · have moves := State.setClaimTag_tile (s := s) (tag.by c.desc) tile ▸ s.claimed_moves c cl rest tag
      simp only [moves.tag (by decide), moves.tileTag (by decide)]
      exact ⟨fun n hn => (s.tileTag_setTileTag ..).trans (if_neg hn), fun n => rfl⟩

end Sys2Proof.Machine
end

section
/-! SUPPORT. The run of a datapath: what it reads and checks, how it ends, what its result leaves (R104, R115, R123, R124, R133, R168,
R353, R355, R434). -/

namespace Sys2Proof.Machine

/-! ### What reading leaves -/

/-- No store and no command changed. -/
def Untouched (s t : State) : Prop := t.st = s.st ∧ t.rb.cmds = s.rb.cmds

section
variable {s t u : State}

theorem Untouched.refl (s : State) : Untouched s s := ⟨rfl, rfl⟩

theorem Untouched.trans (h : Untouched s t) (k : Untouched t u) : Untouched s u := ⟨k.1.trans h.1, k.2.trans h.2⟩

theorem CtlOnly.untouched (h : CtlOnly s t) : Untouched s t := ⟨h.st, congrArg Roundabout.cmds h.rb⟩

theorem Untouched.foldl {α : Type} {f : State → α → State} (hf : ∀ t x, Untouched t (f t x)) (l : List α) (s : State) :
    Untouched s (l.foldl f s) := by
  induction l generalizing s with
  | nil => exact .refl s
  | cons x l ih => exact (hf s x).trans (ih (f s x))

theorem Untouched.cmdsWith (h : Untouched s t) (c : Cmd) : t.cmdsWith c = s.cmdsWith c := by rw [State.cmdsWith, h.2, State.cmdsWith]

/-- A command put back over a state without other changes. -/
theorem Untouched.putCmd (h : Untouched s t) (c : Cmd) : SameStores s (t.putCmd c) ∧ (t.putCmd c).rb.cmds = s.cmdsWith c :=
  ⟨.of_st h.1, h.cmdsWith c⟩

theorem State.addEng_untouched (s : State) (e sub n : Nat) : Untouched s (s.addEng e sub n) := ⟨rfl, rfl⟩

theorem State.countAcc_untouched (s : State) (key : Nat) (rows : List Nat) : Untouched s (s.countAcc key rows) := s.addEng_untouched _ _ _

theorem State.accUncorrected_untouched (s : State) (mx : Nat) : Untouched s (s.accUncorrected mx) :=
  (s.addEng_untouched mx 3 1).trans (State.emcyEvent_ctlOnly _ _ _).untouched

end

/-! ### How a run ends -/

/-- What a run that ends so leaves, where its reads leave the state `now`. -/
def PathEnd.leaves (now : State) (p : Datapath) (c : Cmd) (i : OpInfo) (sp : List Span) (t : State) : PathEnd → Prop
  | .row n => t = now.failRow c n
  | .tile key r => t = now.failTile c key r
  | .check u r => u = now ∧ t = now.finish c r
  | .data u r => u = now ∧ r = p.data (now.viewOf c.desc.engine) c ∧ t = now.landPath p c i sp

section
variable {s : State} {p : Datapath} {c : Cmd} {i : OpInfo} {sp : List Span} {ks : List StartCheck}

theorem State.checksEnd_ctlOnly (s : State) (c : Cmd) (i : OpInfo) (sp : List Span) (ks : List StartCheck) : CtlOnly s (s.checksEnd c i sp ks).1 := by
  induction ks generalizing s with
  | nil => exact .refl s
  | cons x ks ih =>
    have reads := s.countReads_ctlOnly (readRowsOf ((x.ops c).contains ·) i.roles c.desc.opcode c.ops sp)
    unfold State.checksEnd
    dsimp only
    split
    · exact reads
    · split
      · exact reads
      · exact reads.trans (ih _)

/-- Start checks that do not all pass end the command with the row that they met or with the result of the check that failed. -/
theorem State.startChecks_leaves (go : State → State) {e : PathEnd} (h : (s.checksEnd c i sp ks).2 = some e) :
    e.leaves (s.checksEnd c i sp ks).1 p c i sp (s.startChecks c i sp ks go) := by
  induction ks generalizing s with
  | nil => cases h
  | cons x ks ih =>
    unfold State.checksEnd at h ⊢
    dsimp only at h ⊢
    split at h
    · next row hrow =>
      cases h
      simp only [State.startChecks, State.readOr, hrow, PathEnd.leaves]
    · next hrow =>
      split at h
      · next r hcheck =>
        cases h
        simp only [State.startChecks, State.readOr, hrow, hcheck, PathEnd.leaves, and_self]
      · next hcheck =>
        simp only [State.startChecks, State.readOr, hrow, hcheck]
        exact ih h

/-- A run changes no store and no command until it ends, and leaves what its end says. -/
theorem State.runOn_leaves (hi : opInfo c.desc = some i) :
    ∃ now, Untouched s now ∧ (s.pathEnd p c i).leaves now p c i (s.spans c.desc c.ops) (s.runOn p c) := by
  have checks := s.checksEnd_ctlOnly c i (s.spans c.desc c.ops) p.checks
  have reads := checks.trans (State.countReads_ctlOnly _ (p.rows (s.checksEnd c i (s.spans c.desc c.ops) p.checks).1 c i (s.spans c.desc c.ops)))
  unfold State.pathEnd
  simp only [State.runOn, hi]
  split
  · next e he => exact ⟨_, checks.untouched, State.startChecks_leaves _ he⟩
  · next passed =>
    rw [State.startChecks_passed _ passed]
    split
    · next row hrow => exact ⟨_, reads.untouched, by simp only [State.readOr, hrow, PathEnd.leaves]⟩
    · next hrow =>
      split
      · next b hb => exact ⟨_, reads.untouched, by simp only [State.readOr, hrow, State.readTilesOr, hb, PathEnd.leaves]⟩
      · next hb =>
        have counts := Untouched.foldl (f := fun t (k : Nat × List Nat) => t.countAcc k.1 k.2) (fun t k => t.countAcc_untouched k.1 k.2) (p.tiles c)
        refine ⟨_, reads.untouched.trans (counts _), rfl, rfl, ?_⟩
        simp only [State.readOr, hrow, State.readTilesOr, hb]

end

/-! ### What a result leaves -/

/-- Rows written one by one, each at its place. -/
def State.writeEach (s : State) (at_ : Nat × Nat × List Byte → Nat) (rows : List (Nat × Nat × List Byte)) : State :=
  rows.foldl (fun t w => t.writeRow (at_ w) w.2.2) s

section
variable {at_ : Nat × Nat × List Byte → Nat} {rows : List (Nat × Nat × List Byte)}

theorem State.writeEach_readRow_ne {n : Nat} (s : State) (h : n ∉ rows.map at_) : (s.writeEach at_ rows).readRow n = s.readRow n := by
  induction rows generalizing s with
  | nil => rfl
  | cons w rows ih =>
    simp only [List.map_cons, List.mem_cons, not_or] at h
    exact (ih _ h.2).trans ((s.readRow_writeRow ..).trans (if_neg h.1))

/-- Rows written each at a place of its own read back. -/
theorem State.writeEach_readRow (s : State) (h : (rows.map at_).Nodup) :
    ∀ x ∈ rows, (s.writeEach at_ rows).readRow (at_ x) = slice x.2.2 0 512 := by
  induction rows generalizing s with
  | nil => exact nofun
  | cons w rows ih =>
    simp only [List.map_cons, List.nodup_cons] at h
    intro x hx
    rcases List.mem_cons.1 hx with rfl | hx
    · exact (State.writeEach_readRow_ne _ h.1).trans ((s.readRow_writeRow ..).trans (if_pos rfl))
    · exact ih _ h.2 x hx

theorem State.writeEach_sp {a : Nat} (s : State) (h : ∀ x ∈ rows, a / 512 ≠ at_ x) :
    Mem.read (s.writeEach at_ rows).st.sp a = Mem.read s.st.sp a := by
  induction rows generalizing s with
  | nil => rfl
  | cons w rows ih =>
    exact (ih _ fun x hx => h x (List.mem_cons_of_mem _ hx)).trans (s.sp_writeRow _ _ (h w List.mem_cons_self))

end

/-- The device row of a row of a result. -/
abbrev Cmd.rowAt (c : Cmd) (w : Nat × Nat × List Byte) : Nat := (c.ops.getD w.1 {}).base + w.2.1

/-- The scratchpad reads the same in two states: its bytes, and its rows with their errors. -/
def SameRows (s t : State) : Prop := t.st.sp = s.st.sp ∧ t.st.spErr = s.st.spErr

theorem SameRows.readRow {s t : State} (h : SameRows s t) (r : Nat) : t.readRow r = s.readRow r := by
  unfold State.readRow State.row State.rowErr
  rw [h.1, h.2]

section
variable {s : State} {c : Cmd} {r : Result}

/-- Of a result without narrow writes and cache pages the rows land in the scratchpad, and nothing else. -/
theorem State.land_rows (hs : c.shadow = false) (hn : r.narrow = []) (hp : r.pages = []) : SameRows (s.writeEach c.rowAt r.rows) (s.land c r) := by
  have all : (r.rows.filter fun w => !c.shadow || (c.ops.getD w.1 {}).isLocal) = r.rows := List.filter_eq_self.2 fun w _ => by simp [hs]
  unfold State.land
  rw [all, hn, hp, hs]
  cases gatherOf c.desc.engine <;> cases r.tile <;> exact ⟨rfl, rfl⟩

/-! ### The end of a command with its result -/

/-- The state in which the counters of a result have risen. -/
def State.counted (s : State) (c : Cmd) (r : Result) : State := r.counters.foldl (fun t k => t.addEng c.desc.engine k.1 k.2) s

/-- The state in which the summary of a result is posted and its fault-log entry written. -/
def State.reported (s : State) (c : Cmd) (r : Result) : State :=
  let posted := match r.summary with
    | some m => if c.shadow || hasAbortFlag r.flags then s else s.postMail m.1 c.desc.engine ⟨1, m.2, some c.desc⟩ none (some c.seq)
    | none => s
  if r.logs then
    posted.logFault { cls := 0, source := c.desc.engine, action := 8, stream := bits c.desc.w0.toNat 21 13, batch := c.desc.batch
                      chunk := c.desc.chunk, addr := r.logAddr, payload := [r.detail, r.flags, 0, 0] }
  else posted

theorem State.finish_eq (s : State) (c : Cmd) (r : Result) :
    s.finish c r = ((if hasAbortFlag r.flags && !bitAt r.flags flSeResidue then s.counted c r else (s.counted c r).land c r).reported c r).putCmd
      (c.endedWith r) := rfl

theorem State.counted_untouched (s : State) (c : Cmd) (r : Result) : Untouched s (s.counted c r) := .foldl (fun t _ => t.addEng_untouched _ _ _) _ _

theorem State.postMail_untouched (s : State) (core src : Nat) (m : Mail) (slot : Option Bool) (cmd : Option Nat) :
    Untouched s (s.postMail core src m slot cmd) := by
  unfold State.postMail
  dsimp only
  split <;> exact ⟨rfl, rfl⟩

theorem State.reported_untouched (s : State) (c : Cmd) (r : Result) : Untouched s (s.reported c r) := by
  have logged : ∀ (t : State) (f : FaultInfo), Untouched s t → Untouched s (if r.logs then t.logFault f else t) := by
    intro t f h
    split
    · exact h.trans (t.logFault_ctlOnly f).untouched
    · exact h
  refine logged _ _ ?_
  split
  · split
    · exact .refl s
    · exact s.postMail_untouched ..
  · exact .refl s

theorem State.land_cmds (s : State) (c : Cmd) (r : Result) : (s.land c r).rb.cmds = s.rb.cmds :=
  (s.land_moves (Moves.rfl' 0xa4000000000066 s) (by decide) c r).frame.rb.cmds (by decide)

/-- A command that finishes has ended with its result, and no other command changes. -/
theorem State.finish_cmds (s : State) (c : Cmd) (r : Result) : (s.finish c r).rb.cmds = s.cmdsWith (c.endedWith r) := by
  have cmds : ∀ t : State, t.rb.cmds = s.rb.cmds → ((t.reported c r).putCmd (c.endedWith r)).rb.cmds = s.cmdsWith (c.endedWith r) := by
    intro t h
    rw [State.putCmd_cmds, State.cmdsWith, (t.reported_untouched c r).2, h, State.cmdsWith]
  rw [State.finish_eq]
  refine cmds _ ?_
  split
  · exact (s.counted_untouched c r).2
  · exact (State.land_cmds ..).trans (s.counted_untouched c r).2

/-- An abort that leaves no residue writes nothing. -/
theorem State.finish_aborted (h : hasAbortFlag r.flags = true) (hr : bitAt r.flags flSeResidue = false) : SameStores s (s.finish c r) := by
  rw [State.finish_eq, if_pos (by simp [h, hr])]
  exact (((s.counted_untouched c r).trans (State.reported_untouched ..)).putCmd _).1

/-- Without an abort the result lands. -/
theorem State.finish_lands (h : hasAbortFlag r.flags = false) : (s.finish c r).st = ((s.counted c r).land c r).st := by
  rw [State.finish_eq, if_neg (by simp [h])]
  exact (State.reported_untouched ..).1

/-- Without an abort a result of rows alone leaves these in the scratchpad. -/
theorem State.finish_rows (h : hasAbortFlag r.flags = false) (hs : c.shadow = false) (hn : r.narrow = []) (hp : r.pages = []) :
    SameRows ((s.counted c r).writeEach c.rowAt r.rows) (s.finish c r) := by
  unfold SameRows
  rw [State.finish_lands h]
  exact State.land_rows hs hn hp

end

/-! ### A datapath that has computed its result -/

/-- What a command does beside its writes, where its flags let it, over what it saw. -/
def Datapath.goesOn (p : Datapath) (c : Cmd) (r : Result) (v w : State) : State :=
  if hasAbortFlag r.flags || (hasCheckFlag r.flags && !r.writes) || hasPtFlag r.flags || c.shadow then w else p.after v c w

section
variable {s : State} {p : Datapath} {c : Cmd} {i : OpInfo} {sp : List Span} {r : Result} (hr : r = p.data (s.viewOf c.desc.engine) c)
include hr

/-- A command that reads what it writes leaves free values (R133). -/
theorem State.landPath_free (ho : overlaps c i.roles sp r = true) :
    s.landPath p c i sp = p.goesOn c r (s.viewOf c.desc.engine)
      ((s.havoc r).2.finish { c with far := c.farOf (p.allRows s c i sp ++ (s.havoc r).1.rowsWritten c) } (s.havoc r).1) := by
  subst hr
  simp only [State.landPath, ho, if_true, Datapath.goesOn]

theorem State.landPath_settled (ho : overlaps c i.roles sp r = false) :
    s.landPath p c i sp = p.goesOn c r (s.viewOf c.desc.engine)
      (s.finish { c with far := c.farOf (p.allRows s c i sp ++ r.rowsWritten c) } r) := by
  subst hr
  simp only [State.landPath, ho, Bool.false_eq_true, if_false, Datapath.goesOn]

end

/-- A command that reads a poisoned row ends with ECC_UNCORR and the row. -/
theorem Untouched.failRow {s t : State} (h : Untouched s t) (c : Cmd) (row : Nat) :
    SameStores s (t.failRow c row)
      ∧ (t.failRow c row).rb.cmds = s.cmdsWith { c with phase := .ended, flags := withFlag c.flags flEccUncorr, addr := row, wanted := [] } :=
  (h.trans (t.spUncorrected_ctlOnly row c.desc.engine).untouched).putCmd _

/-- A command that reads an uncorrectable word of a tile ends with ECC_UNCORR, the row, and the MX whose tile it is. -/
theorem Untouched.failTile {s t : State} (h : Untouched s t) (c : Cmd) (key row : Nat) :
    SameStores s (t.failTile c key row)
      ∧ (t.failTile c key row).rb.cmds = s.cmdsWith { c with
        phase := .ended, flags := withFlag c.flags flEccUncorr, inTile := true, addr := key % 8 * 33 + row, source := some (mxEngine (key / 8)) } :=
  (h.trans (t.accUncorrected_untouched _)).putCmd _

theorem SameStores.of_untouched {s t u : State} (h : Untouched s t) (k : SameStores t u) : SameStores s u := (SameStores.of_st h.1).trans k

/-- What the rows of a result leave where they land. -/
theorem State.finish_rows_landed {s t : State} {c : Cmd} {r : Result} (same : Untouched s t) (h : hasAbortFlag r.flags = false)
    (hs : c.shadow = false) (hn : r.narrow = []) (hp : r.pages = []) :
    ((r.rows.map c.rowAt).Nodup → ∀ x ∈ r.rows, (t.finish c r).readRow (c.rowAt x) = slice x.2.2 0 512)
      ∧ ∀ a, (∀ x ∈ r.rows, a < c.rowAt x * 512 ∨ c.rowAt x * 512 + 512 ≤ a) → Mem.read (t.finish c r).st.sp a = Mem.read s.st.sp a := by
  have rows := t.finish_rows h hs hn hp
  refine ⟨fun nodup x hx => (rows.readRow _).trans (State.writeEach_readRow _ nodup x hx), fun a outside => ?_⟩
  rw [rows.1, State.writeEach_sp _ fun x hx => ?_, (t.counted_untouched c r).1, same.1]
  have := outside x hx
  omega

/-! ### The commands -/

theorem exec_datapath {c : Instr} {e : Eng} {hw : Hw} {p : Datapath} (s : State) (h : datapath c = some (e, hw, p)) :
    exec c s = .next (s.runPath e.toNat hw p) := by
  unfold datapath at h
  split at h <;> cases h <;> rfl

/-- AT_SCORE or AT_VALUE. -/
def Instr.walks (c : Instr) (e : Eng) (hw : Hw) (owner : Option PortNo) (p : Datapath) : Prop :=
  (c = .atScore e hw owner ∧ p = atScorePath hw) ∨ (c = .atValue e hw owner ∧ p = atValuePath hw)

theorem exec_walk {c : Instr} {e : Eng} {hw : Hw} {owner : Option PortNo} {p : Datapath} (s : State) (h : Instr.walks c e hw owner p) :
    exec c s = .next (s.runWalk e.toNat hw owner p) := by
  rcases h with ⟨rfl, rfl⟩ | ⟨rfl, rfl⟩ <;> rfl

section
variable {s : State} {p : Datapath} {c : Cmd}

/-- The spilled pages that an AT command walks. -/
abbrev State.spilledPages (s : State) (c : Cmd) : List Nat := (s.walkPages c (s.atModel c.desc).cache.tokensPerPage).filter isSpill

/-- An AT command with the bytes that its walk reads from HBM. -/
abbrev State.withSpill (s : State) (c : Cmd) : Cmd :=
  let m := (s.atModel c.desc).cache
  { c with spillReads := (s.spilledPages c).length * (m.tokensPerPage * m.latBytes) }

theorem State.walkOwn_bad {page : Nat} (h : (s.spilledPages c).find? s.pageBad = some page) :
    s.walkOwn p c = (s.putCmd (s.withSpill c)).spillFault (s.withSpill c) page := by
  simp only [State.walkOwn, h]

theorem State.walkOwn_sound (h : (s.spilledPages c).find? s.pageBad = none) : s.walkOwn p c = (s.putCmd (s.withSpill c)).runOn p (s.withSpill c) := by
  simp only [State.walkOwn, h]

variable {port : Nat}

theorem State.runPart_down (h : (s.port port).state ≠ .up) : s.runPart port p c = s.failPeer c := if_pos h

/-- The sequences of a part whose table the owner has not sent. -/
abbrev State.absentSeqs (s : State) (c : Cmd) : List Nat := (dedup (c.atMembers.map (·.1))).filter fun q => !(s.partTables c).any fun t => t.1 == q

/-- The pages of a part that the owner has not sent. -/
abbrev State.absentPages (s : State) (c : Cmd) : List (Nat × Nat) :=
  (s.partPages c (s.atModel c.desc).cache.tokensPerPage).filter fun x => !s.xr.peerPages.any fun y => y.cmd == c.seq && y.page == x.2

theorem State.runPart_tables (h : (s.port port).state = .up) (hs : s.absentSeqs c ≠ []) :
    s.runPart port p c = ((s.absentSeqs c).foldl (fun t q => t.askTable port c q) s).awaitPeer c (s.absentSeqs c).length false :=
  (if_neg (not_not_intro h)).trans (if_pos hs)

theorem State.runPart_pages (h : (s.port port).state = .up) (hs : s.absentSeqs c = []) (hp : s.absentPages c ≠ []) :
    s.runPart port p c = ((s.absentPages c).foldl (fun t x => t.askPage port c (s.atModel c.desc).cache x.1 x.2) s).awaitPeer c
      (s.absentPages c).length false :=
  (if_neg (not_not_intro h)).trans ((if_neg (not_not_intro hs)).trans (if_pos hp))

theorem State.runPart_computes (h : (s.port port).state = .up) (hs : s.absentSeqs c = []) (hp : s.absentPages c = []) :
    s.runPart port p c = s.computePart p c :=
  (if_neg (not_not_intro h)).trans ((if_neg (not_not_intro hs)).trans (if_neg (not_not_intro hp)))

end

/-- Settles O26: every command runs its datapath at its engine, and a run leaves what its end says. -/
theorem datapathsRunAndLand : Obligations.DatapathsRunAndLand := by
  refine ⟨fun c e hw p s hc => ?runs, fun p u k i hi => ?ends, fun e hw owner s c p hc => ?walks⟩
  case runs =>
    have run := exec_datapath s hc
    exact ⟨fun h => run.trans (congrArg _ (State.atCommand_waits _ h)),
      fun k0 h => ⟨fun lost => run.trans (congrArg _ (State.atCommand_lost _ h lost)),
        fun sound => run.trans (congrArg _ (State.atCommand_runs _ h sound))⟩⟩
  case ends =>
    obtain ⟨now, same, leaves⟩ := State.runOn_leaves (s := u) (p := p) hi
    dsimp only
    revert leaves
    cases u.pathEnd p k i with
    | row n =>
      rintro run
      exact run ▸ same.failRow k n
    | tile key row =>
      rintro run
      exact run ▸ same.failTile k key row
    | check t r =>
      rintro ⟨rfl, run⟩
      exact ⟨run, same⟩
    | data t r =>
      rintro ⟨rfl, hr, run⟩
      have moves := fun k' => State.finish_moves (Moves.rfl' 0xa4000000141066 t) (by decide) k' r
      refine ⟨same.1, same.2, fun ho => run.trans (State.landPath_free hr ho), fun ho => ⟨run.trans (State.landPath_settled hr ho),
        (t.finish_cmds _ r).trans (same.cmdsWith _), ?_, ?_, ?_, fun ha hx => .of_untouched same (State.finish_aborted ha hx),
        fun ha hs hn hp => State.finish_rows_landed same ha hs hn hp⟩⟩
      · rw [(moves _).frame.st.tags (by decide), same.1]
      · rw [(moves _).frame.st.tileTags (by decide), same.1]
      · rw [(moves _).frame.st.hbm (by decide), same.1]
  case walks =>
    have run := exec_walk s hc
    refine ⟨fun h => run.trans (congrArg _ (State.atCommand_waits _ h)), fun k0 h =>
      ⟨fun lost => run.trans (congrArg _ (State.atCommand_lost _ h lost)), fun sound own => ?own, fun port sound peer => ?part⟩⟩
    all_goals
      have goes := run.trans (congrArg _ (State.atCommand_runs _ h sound))
    case own =>
      subst own
      exact ⟨fun page bad => goes.trans (congrArg _ (State.walkOwn_bad bad)), fun good => goes.trans (congrArg _ (State.walkOwn_sound good))⟩
    case part =>
      subst peer
      exact ⟨fun down => goes.trans (congrArg _ (State.runPart_down down)), fun up seqs => goes.trans (congrArg _ (State.runPart_tables up seqs)),
        fun up none pages => goes.trans (congrArg _ (State.runPart_pages up none pages)),
        fun up none none' => goes.trans (congrArg _ (State.runPart_computes up none none'))⟩

end Sys2Proof.Machine
end

section
/-! SUPPORT. The queue of waiting commands, and what each command leaves as it was (R133). -/

namespace Sys2Proof.Machine

/-- Settles O1: the rest of the queue is what `State.popped` leaves of it. -/
theorem frontCommandRuns : Obligations.FrontCommandRuns := by
  intro c rest s h
  simp [step, State.popped, h]

/-- A command that stays within a footprint stays within the parts that `changes` names, if these cover the footprint. -/
theorem Out.moves.within {k : Nat} {c : Instr} {s : State} (h : ∀ m, Covers k m → Out.moves m s (exec c s))
    (hk : Covers k (maskOf (changes c)) := by dsimp only [changes]; decide) : Out.moves (maskOf (changes c)) s (exec c s) := h _ hk

/-- Whatever a command does keeps the queue and the invariant, and stays within the parts that `changes` names: the footprint of
its meaning, as the lemma of that meaning gives it, is covered by them. -/
theorem exec_moves (c : Instr) (s : State) : Out.moves (maskOf (changes c)) s (exec c s) := by
  cases c with
  | nop => exact .within fun _ h => execNop_moves (.rfl' _ s) h ..
  | audio => exact .within fun _ h => execAudio_moves (.rfl' _ s) h ..
  | tokens => exact .within fun _ h => execTokens_moves (.rfl' _ s) h ..
  | openStream => exact .within fun _ h => execOpenStream_moves (.rfl' _ s) h ..
  | closeDrain => exact .within fun _ h => execCloseDrain_moves (.rfl' _ s) h ..
  | closeAbort => exact .within fun _ h => execCloseAbort_moves (.rfl' _ s) h ..
  | setParams => exact .within fun _ h => execSetParams_moves (.rfl' _ s) h ..
  | resume => exact .within fun _ h => execResume_moves (.rfl' _ s) h ..
  | exportEntry => exact .within fun _ h => execExportEntry_moves (.rfl' _ s) h ..
  | exportCapture => exact .within fun _ h => execExportCapture_moves (.rfl' _ s) h ..
  | blobWriteDone => exact .within fun _ h => execBlobWriteDone_moves (.rfl' _ s) h ..
  | importEntry => exact .within fun _ h => execImportEntry_moves (.rfl' _ s) h ..
  | importBlobReadDone => exact .within fun _ h => execImportBlobReadDone_moves (.rfl' _ s) h ..
  | migrateOut => exact .within fun _ h => execMigrateOut_moves (.rfl' _ s) h ..
  | migrateIn => exact .within fun _ h => execMigrateIn_moves (.rfl' _ s) h ..
  | modelLoad => exact .within fun _ h => execModelLoad_moves (.rfl' _ s) h ..
  | packageReadDone => exact .within fun _ h => execPackageReadDone_moves (.rfl' _ s) h ..
  | modelUnload => exact .within fun _ h => execModelUnload_moves (.rfl' _ s) h ..
  | audioFetchFail => exact .within fun _ h => execAudioFetchFail_moves (.rfl' _ s) h ..
  | entryReadFail => exact .within fun _ h => execEntryReadFail_moves (.rfl' _ s) h ..
  | idleTimeout => exact .within fun _ h => execIdleTimeout_moves (.rfl' _ s) h ..
  | featureFrame => exact .within fun _ h => execFeatureFrame_moves (.rfl' _ s) h ..
  | inputSlotFull => exact .within fun _ h => execInputSlotFull_moves (.rfl' _ s) h ..
  | inputExtentCopyDone => exact .within fun _ h => execInputExtentCopyDone_moves (.rfl' _ s) h ..
  | batchClose model cls ms => exact .within fun _ h => execBatchClose_moves (.rfl' _ s) h model cls ms
  | batchReserve => exact .within fun _ h => execBatchReserve_moves (.rfl' _ s) h ..
  | swapOut => exact .within fun _ h => execSwapOut_moves (.rfl' _ s) h ..
  | swapIn => exact .within fun _ h => execSwapIn_moves (.rfl' _ s) h ..
  | chunkCommit => exact .within fun _ h => execChunkCommit_moves (.rfl' _ s) h ..
  | chunkAbort => exact .within fun _ h => execChunkAbort_moves (.rfl' _ s) h ..
  | chunkReplay => exact .within fun _ h => execChunkReplay_moves (.rfl' _ s) h ..
  | replayBackoffExpiry => exact .within fun _ h => execReplayBackoffExpiry_moves (.rfl' _ s) h ..
  | descSubmit => exact .within fun _ h => execDescSubmit_moves (.rfl' _ s) h ..
  | roundaboutIssue => exact .within fun _ h => execRoundaboutIssue_moves (.rfl' _ s) h ..
  | tagClaim => exact .within fun _ h => execTagClaim_moves (.rfl' _ s) h ..
  | commandComplete => exact .within fun _ h => execCommandComplete_moves (.rfl' _ s) h ..
  | cmdTimeout => exact .within fun _ h => execCmdTimeout_moves (.rfl' _ s) h ..
  | nopCmd => exact .within fun _ h => execNopCmd_moves (.rfl' _ s) h ..
  | matmul => exact .within fun _ h => execMatmul_moves (.rfl' _ s) h ..
  | tileStore => exact .within fun _ h => execTileStore_moves (.rfl' _ s) h ..
  | vxRun => exact .within fun _ h => execVxRun_moves (.rfl' _ s) h ..
  | vxSoftmax => exact .within fun _ h => execVxSoftmax_moves (.rfl' _ s) h ..
  | seScan => exact .within fun _ h => execSeScan_moves (.rfl' _ s) h ..
  | seCarry => exact .within fun _ h => execSeCarry_moves (.rfl' _ s) h ..
  | atAppend => exact .within fun _ h => execAtAppend_moves (.rfl' _ s) h ..
  | atScore => exact .within fun _ h => execAtScore_moves (.rfl' _ s) h ..
  | atValue => exact .within fun _ h => execAtValue_moves (.rfl' _ s) h ..
  | atMerge => exact .within fun _ h => execAtMerge_moves (.rfl' _ s) h ..
  | tkSelect => exact .within fun _ h => execTkSelect_moves (.rfl' _ s) h ..
  | tkTopk => exact .within fun _ h => execTkTopk_moves (.rfl' _ s) h ..
  | tkVerify => exact .within fun _ h => execTkVerify_moves (.rfl' _ s) h ..
  | tkPrefix => exact .within fun _ h => execTkPrefix_moves (.rfl' _ s) h ..
  | tkDetok => exact .within fun _ h => execTkDetok_moves (.rfl' _ s) h ..
  | egProv => exact .within fun _ h => execEgProv_moves (.rfl' _ s) h ..
  | egOla => exact .within fun _ h => execEgOla_moves (.rfl' _ s) h ..
  | egPublish => exact .within fun _ h => execEgPublish_moves (.rfl' _ s) h ..
  | egressDrain => exact .within fun _ h => execEgressDrain_moves (.rfl' _ s) h ..
  | inRelease => exact .within fun _ h => execInRelease_moves (.rfl' _ s) h ..
  | feCtx => exact .within fun _ h => execFeCtx_moves (.rfl' _ s) h ..
  | lnCopy => exact .within fun _ h => execLnCopy_moves (.rfl' _ s) h ..
  | lnHost => exact .within fun _ h => execLnHost_moves (.rfl' _ s) h ..
  | lnRwrite => exact .within fun _ h => execLnRwrite_moves (.rfl' _ s) h ..
  | lnRtag => exact .within fun _ h => execLnRtag_moves (.rfl' _ s) h ..
  | lnRread => exact .within fun _ h => execLnRread_moves (.rfl' _ s) h ..
  | tagSet => exact .within fun _ h => execTagSet_moves (.rfl' _ s) h ..
  | mbPost => exact .within fun _ h => execMbPost_moves (.rfl' _ s) h ..
  | mailboxFreed => exact .within fun _ h => execMailboxFreed_moves (.rfl' _ s) h ..
  | chunkCancel => exact .within fun _ h => execChunkCancel_moves (.rfl' _ s) h ..
  | batchTableWrite => exact .within fun _ h => execBatchTableWrite_moves (.rfl' _ s) h ..
  | handleWrite => exact .within fun _ h => execHandleWrite_moves (.rfl' _ s) h ..
  | narrowWrite => exact .within fun _ h => execNarrowWrite_moves (.rfl' _ s) h ..
  | gatherIdleFlush => exact .within fun _ h => execGatherIdleFlush_moves (.rfl' _ s) h ..
  | scrubVisit => exact .within fun _ h => execScrubVisit_moves (.rfl' _ s) h ..
  | hbmScrubVisit => exact .within fun _ h => execHbmScrubVisit_moves (.rfl' _ s) h ..
  | quarterPowerDown => exact .within fun _ h => execQuarterPowerDown_moves (.rfl' _ s) h ..
  | quarterDrained => exact .within fun _ h => execQuarterDrained_moves (.rfl' _ s) h ..
  | drainAbandon => exact .within fun _ h => execDrainAbandon_moves (.rfl' _ s) h ..
  | quarterPowerUp => exact .within fun _ h => execQuarterPowerUp_moves (.rfl' _ s) h ..
  | quarterWakeDone => exact .within fun _ h => execQuarterWakeDone_moves (.rfl' _ s) h ..
  | mxPowerDown => exact .within fun _ h => execMxPowerDown_moves (.rfl' _ s) h ..
  | regulatorRefill => exact .within fun _ h => execRegulatorRefill_moves (.rfl' _ s) h ..
  | stormSecond => exact .within fun _ h => execStormSecond_moves (.rfl' _ s) h ..
  | stepBoundary => exact .within fun _ h => execStepBoundary_moves (.rfl' _ s) h ..
  | pageDemote => exact .within fun _ h => execPageDemote_moves (.rfl' _ s) h ..
  | pageWaitLimit => exact .within fun _ h => execPageWaitLimit_moves (.rfl' _ s) h ..
  | tableEdit => exact .within fun _ h => execTableEdit_moves (.rfl' _ s) h ..
  | reclaimFree => exact .within fun _ h => execReclaimFree_moves (.rfl' _ s) h ..
  | prefixLookup => exact .within fun _ h => execPrefixLookup_moves (.rfl' _ s) h ..
  | rebuildMark => exact .within fun _ h => execRebuildMark_moves (.rfl' _ s) h ..
  | residencyEvict => exact .within fun _ h => execResidencyEvict_moves (.rfl' _ s) h ..
  | waitReport => exact .within fun _ h => execWaitReport_moves (.rfl' _ s) h ..
  | ccWatchdog => exact .within fun _ h => execCcWatchdog_moves (.rfl' _ s) h ..
  | write => exact .within fun _ h => execWrite_moves (.rfl' _ s) h ..
  | writeEnd => exact .within fun _ h => execWriteEnd_moves (.rfl' _ s) h ..
  | landed => exact .within fun _ h => execLanded_moves (.rfl' _ s) h ..
  | rtag => exact .within fun _ h => execRtag_moves (.rfl' _ s) h ..
  | rreadReq => exact .within fun _ h => execRreadReq_moves (.rfl' _ s) h ..
  | rreadData => exact .within fun _ h => execRreadData_moves (.rfl' _ s) h ..
  | retryRsp => exact .within fun _ h => execRetryRsp_moves (.rfl' _ s) h ..
  | rreadRetryTimer => exact .within fun _ h => execRreadRetryTimer_moves (.rfl' _ s) h ..
  | walkReq => exact .within fun _ h => execWalkReq_moves (.rfl' _ s) h ..
  | walkData => exact .within fun _ h => execWalkData_moves (.rfl' _ s) h ..
  | walkEnd => exact .within fun _ h => execWalkEnd_moves (.rfl' _ s) h ..
  | cancel => exact .within fun _ h => execCancel_moves (.rfl' _ s) h ..
  | rxReg => exact .within fun _ h => execRxReg_moves (.rfl' _ s) h ..
  | offer => exact .within fun _ h => execOffer_moves (.rfl' _ s) h ..
  | accept => exact .within fun _ h => execAccept_moves (.rfl' _ s) h ..
  | notReady => exact .within fun _ h => execNotReady_moves (.rfl' _ s) h ..
  | migData => exact .within fun _ h => execMigData_moves (.rfl' _ s) h ..
  | migAck => exact .within fun _ h => execMigAck_moves (.rfl' _ s) h ..
  | refuse => exact .within fun _ h => execRefuse_moves (.rfl' _ s) h ..
  | release => exact .within fun _ h => execRelease_moves (.rfl' _ s) h ..
  | migAbort => exact .within fun _ h => execMigAbort_moves (.rfl' _ s) h ..
  | migrateAckTimeout => exact .within fun _ h => execMigrateAckTimeout_moves (.rfl' _ s) h ..
  | migrateHeldTimeout => exact .within fun _ h => execMigrateHeldTimeout_moves (.rfl' _ s) h ..
  | reofferTimer => exact .within fun _ h => execReofferTimer_moves (.rfl' _ s) h ..
  | migrateInTimeout => exact .within fun _ h => execMigrateInTimeout_moves (.rfl' _ s) h ..
  | null => exact .within fun _ h => execNull_moves (.rfl' _ s) h ..
  | linkFrameRx => exact .within fun _ h => execLinkFrameRx_moves (.rfl' _ s) h ..
  | ackTimer => exact .within fun _ h => execAckTimer_moves (.rfl' _ s) h ..
  | retryTimeout => exact .within fun _ h => execRetryTimeout_moves (.rfl' _ s) h ..
  | portDownTimeout => exact .within fun _ h => execPortDownTimeout_moves (.rfl' _ s) h ..
  | escapeTimeout => exact .within fun _ h => execEscapeTimeout_moves (.rfl' _ s) h ..
  | ident => exact .within fun _ h => execIdent_moves (.rfl' _ s) h ..
  | downWaitExpiry => exact .within fun _ h => execDownWaitExpiry_moves (.rfl' _ s) h ..
  | signalDetect => exact .within fun _ h => execSignalDetect_moves (.rfl' _ s) h ..
  | lanesLocked => exact .within fun _ h => execLanesLocked_moves (.rfl' _ s) h ..
  | lanesDeskewed => exact .within fun _ h => execLanesDeskewed_moves (.rfl' _ s) h ..
  | blockLockLost => exact .within fun _ h => execBlockLockLost_moves (.rfl' _ s) h ..
  | trainingTimeout => exact .within fun _ h => execTrainingTimeout_moves (.rfl' _ s) h ..
  | peerRequestTimeout => exact .within fun _ h => execPeerRequestTimeout_moves (.rfl' _ s) h ..
  | ppsEdge => exact .within fun _ h => execPpsEdge_moves (.rfl' _ s) h ..
  | ppsLoss => exact .within fun _ h => execPpsLoss_moves (.rfl' _ s) h ..
  | syncTimer => exact .within fun _ h => execSyncTimer_moves (.rfl' _ s) h ..
  | sync => exact .within fun _ h => execSync_moves (.rfl' _ s) h ..
  | followUp => exact .within fun _ h => execFollowUp_moves (.rfl' _ s) h ..
  | delayReq => exact .within fun _ h => execDelayReq_moves (.rfl' _ s) h ..
  | delayResp => exact .within fun _ h => execDelayResp_moves (.rfl' _ s) h ..
  | electionWindowExpiry => exact .within fun _ h => execElectionWindowExpiry_moves (.rfl' _ s) h ..
  | holdoverEntry => exact .within fun _ h => execHoldoverEntry_moves (.rfl' _ s) h ..
  | holdoverLimitExpiry => exact .within fun _ h => execHoldoverLimitExpiry_moves (.rfl' _ s) h ..
  | timeNsWrite => exact .within fun _ h => execTimeNsWrite_moves (.rfl' _ s) h ..
  | trustRelease => exact .within fun _ h => execTrustRelease_moves (.rfl' _ s) h ..
  | nmtStart => exact .within fun _ h => execNmtStart_moves (.rfl' _ s) h ..
  | nmtStop => exact .within fun _ h => execNmtStop_moves (.rfl' _ s) h ..
  | nmtEnterPreop => exact .within fun _ h => execNmtEnterPreop_moves (.rfl' _ s) h ..
  | nmtResetNode => exact .within fun _ h => execNmtResetNode_moves (.rfl' _ s) h ..
  | nmtResetComm => exact .within fun _ h => execNmtResetComm_moves (.rfl' _ s) h ..
  | freezeDone => exact .within fun _ h => execFreezeDone_moves (.rfl' _ s) h ..
  | heartbeat node st => exact .within fun _ h => execHeartbeat_moves (.rfl' _ s) h node st
  | heartbeatTimeout => exact .within fun _ h => execHeartbeatTimeout_moves (.rfl' _ s) h ..
  | heartbeatProduce => exact .within fun _ h => execHeartbeatProduce_moves (.rfl' _ s) h ..
  | usdoRequest => exact .within fun _ h => execUsdoRequest_moves (.rfl' _ s) h ..
  | usdoTimeout => exact .within fun _ h => execUsdoTimeout_moves (.rfl' _ s) h ..
  | rpdo1 => exact .within fun _ h => execRpdo1_moves (.rfl' _ s) h ..
  | tpdoSend => exact .within fun _ h => execTpdoSend_moves (.rfl' _ s) h ..
  | emcySend => exact .within fun _ h => execEmcySend_moves (.rfl' _ s) h ..
  | canErrorPassive => exact .within fun _ h => execCanErrorPassive_moves (.rfl' _ s) h ..
  | busOff => exact .within fun _ h => execBusOff_moves (.rfl' _ s) h ..
  | busOffRecovered => exact .within fun _ h => execBusOffRecovered_moves (.rfl' _ s) h ..
  | canOverrun => exact .within fun _ h => execCanOverrun_moves (.rfl' _ s) h ..
  | canFrameIgnored => exact .within fun _ h => execCanFrameIgnored_moves (.rfl' _ s) h ..
  | go => exact .within fun _ h => execGo_moves (.rfl' _ s) h ..
  | peerObjectRequest => exact .within fun _ h => execPeerObjectRequest_moves (.rfl' _ s) h ..
  | peerObjectResponse => exact .within fun _ h => execPeerObjectResponse_moves (.rfl' _ s) h ..
  | debugAccess => exact .within fun _ h => execDebugAccess_moves (.rfl' _ s) h ..
  | objectWrite => exact .within fun _ h => execObjectWrite_moves (.rfl' _ s) h ..
  | counterClear => exact .within fun _ h => execCounterClear_moves (.rfl' _ s) h ..
  | clear => exact .within fun _ h => execClear_moves (.rfl' _ s) h ..
  | stageImage => exact .within fun _ h => execStageImage_moves (.rfl' _ s) h ..
  | resetPoints => exact .within fun _ h => execResetPoints_moves (.rfl' _ s) h ..
  | jtagEnableWrite => exact .within fun _ h => execJtagEnableWrite_moves (.rfl' _ s) h ..
  | portEnableWrite => exact .within fun _ h => execPortEnableWrite_moves (.rfl' _ s) h ..
  | stateRequest => exact .within fun _ h => execStateRequest_moves (.rfl' _ s) h ..
  | powerLimit => exact .within fun _ h => execPowerLimit_moves (.rfl' _ s) h ..
  | sqDb => exact .within fun _ h => execSqDb_moves (.rfl' _ s) h ..
  | oqCons => exact .within fun _ h => execOqCons_moves (.rfl' _ s) h ..
  | sqEnableWrite => exact .within fun _ h => execSqEnableWrite_moves (.rfl' _ s) h ..
  | oqEnableWrite => exact .within fun _ h => execOqEnableWrite_moves (.rfl' _ s) h ..
  | ringRegisterWrite => exact .within fun _ h => execRingRegisterWrite_moves (.rfl' _ s) h ..
  | headWbTimer => exact .within fun _ h => execHeadWbTimer_moves (.rfl' _ s) h ..
  | msixModTimer => exact .within fun _ h => execMsixModTimer_moves (.rfl' _ s) h ..
  | msixUnmask => exact .within fun _ h => execMsixUnmask_moves (.rfl' _ s) h ..
  | bar4Access => exact .within fun _ h => execBar4Access_moves (.rfl' _ s) h ..
  | busMasterEnableChange => exact .within fun _ h => execBusMasterEnableChange_moves (.rfl' _ s) h ..
  | flr => exact .within fun _ h => execFlr_moves (.rfl' _ s) h ..
  | flrDone => exact .within fun _ h => execFlrDone_moves (.rfl' _ s) h ..
  | vfEnableClear => exact .within fun _ h => execVfEnableClear_moves (.rfl' _ s) h ..
  | hotReset => exact .within fun _ h => execHotReset_moves (.rfl' _ s) h ..
  | perstNRelease => exact .within fun _ h => execPerstNRelease_moves (.rfl' _ s) h ..
  | pcieLinkUp => exact .within fun _ h => execPcieLinkUp_moves (.rfl' _ s) h ..
  | vauxGood => exact .within fun _ h => execVauxGood_moves (.rfl' _ s) h ..
  | vauxLost => exact .within fun _ h => execVauxLost_moves (.rfl' _ s) h ..
  | vinStart => exact .within fun _ h => execVinStart_moves (.rfl' _ s) h ..
  | vinOutOfRange => exact .within fun _ h => execVinOutOfRange_moves (.rfl' _ s) h ..
  | vinUndervoltageLockout => exact .within fun _ h => execVinUndervoltageLockout_moves (.rfl' _ s) h ..
  | vinReturn => exact .within fun _ h => execVinReturn_moves (.rfl' _ s) h ..
  | rideThroughExpiry => exact .within fun _ h => execRideThroughExpiry_moves (.rfl' _ s) h ..
  | vinOvervoltageLockout => exact .within fun _ h => execVinOvervoltageLockout_moves (.rfl' _ s) h ..
  | sequencerStepDone => exact .within fun _ h => execSequencerStepDone_moves (.rfl' _ s) h ..
  | railFault => exact .within fun _ h => execRailFault_moves (.rfl' _ s) h ..
  | railRetryTimer => exact .within fun _ h => execRailRetryTimer_moves (.rfl' _ s) h ..
  | pllLockLoss => exact .within fun _ h => execPllLockLoss_moves (.rfl' _ s) h ..
  | startupStepDone => exact .within fun _ h => execStartupStepDone_moves (.rfl' _ s) h ..
  | startupStepFail => exact .within fun _ h => execStartupStepFail_moves (.rfl' _ s) h ..
  | sensorRead => exact .within fun _ h => execSensorRead_moves (.rfl' _ s) h ..
  | thermalTick => exact .within fun _ h => execThermalTick_moves (.rfl' _ s) h ..
  | thermalTrip => exact .within fun _ h => execThermalTrip_moves (.rfl' _ s) h ..
  | powerLoopTick => exact .within fun _ h => execPowerLoopTick_moves (.rfl' _ s) h ..
  | limitUnmetExpiry => exact .within fun _ h => execLimitUnmetExpiry_moves (.rfl' _ s) h ..
  | crocusIdleExpiry => exact .within fun _ h => execCrocusIdleExpiry_moves (.rfl' _ s) h ..
  | crocusWake => exact .within fun _ h => execCrocusWake_moves (.rfl' _ s) h ..
  | tulipEntry => exact .within fun _ h => execTulipEntry_moves (.rfl' _ s) h ..
  | snowdropEntry => exact .within fun _ h => execSnowdropEntry_moves (.rfl' _ s) h ..
  | snowdropExit => exact .within fun _ h => execSnowdropExit_moves (.rfl' _ s) h ..
  | powerStateChangeDone => exact .within fun _ h => execPowerStateChangeDone_moves (.rfl' _ s) h ..
  | scheduleStart => exact .within fun _ h => execScheduleStart_moves (.rfl' _ s) h ..
  | scheduleEnd => exact .within fun _ h => execScheduleEnd_moves (.rfl' _ s) h ..
  | probeChange => exact .within fun _ h => execProbeChange_moves (.rfl' _ s) h ..
  | walkStart => exact .within fun _ h => execWalkStart_moves (.rfl' _ s) h ..
  | qualificationDone => exact .within fun _ h => execQualificationDone_moves (.rfl' _ s) h ..
  | walkAbandon => exact .within fun _ h => execWalkAbandon_moves (.rfl' _ s) h ..
  | qualWindowExpiry => exact .within fun _ h => execQualWindowExpiry_moves (.rfl' _ s) h ..
  | qualRetryTimer => exact .within fun _ h => execQualRetryTimer_moves (.rfl' _ s) h ..
  | tempGuardExpiry => exact .within fun _ h => execTempGuardExpiry_moves (.rfl' _ s) h ..
  | mailboxTransferTimeout => exact .within fun _ h => execMailboxTransferTimeout_moves (.rfl' _ s) h ..
  | vfEnableSet => exact .within fun _ h => execVfEnableSet_moves (.rfl' _ s) h ..
  | controlCoreRestarted => exact .within fun _ h => execControlCoreRestarted_moves (.rfl' _ s) h ..
  | coreMemoryUncorrectable => exact .within fun _ h => execCoreMemoryUncorrectable_moves (.rfl' _ s) h ..

/-- Settles O6: the first part of `exec_moves`. -/
theorem execKeepsQueue : Obligations.ExecKeepsQueue := fun c s t h => ((exec_moves c s).get t h).pending

/-- Settles O8: a part that `changes` does not name lies outside the footprint. -/
theorem frameOfParts : Obligations.FrameOfParts := fun c s t h p hp => ((exec_moves c s).get t h).frame.outside p hp

end Sys2Proof.Machine
end

section
/-! SUPPORT. Submissions: how one descriptor is retried, refused or accepted (R133, R334 to R336, R352). -/

namespace Sys2Proof.Machine

/-! ### One submission -/

section
variable {s : State} {core : Nat} {d : Desc}

/-- The port cannot keep a descriptor: no command slot of its class is free, or the queue of its engine is full (R335). -/
abbrev State.portFull (s : State) (d : Desc) : Prop :=
  s.slotFree d.isBe = false ∨ ((unitOf d.engine).isSome = true ∧ s.queueFull d.engine d.isBe = true)

theorem State.portFull_iff : (!s.slotFree d.isBe || ((unitOf d.engine).isSome && s.queueFull d.engine d.isBe)) = true ↔ s.portFull d := by
  simp

theorem State.submit_retry (h : s.portFull d) : s.submit core d = s.setReport core .retry := if_pos (State.portFull_iff.2 h)

/-- A refused descriptor, posted to its core. -/
def State.postRefusal (s : State) (core : Nat) (d : Desc) (code : Nat) : State :=
  (s.setReport core (.refused code)).postMail core d.engine ⟨0, compWords d .refused code 0 s.now 0, some d⟩ none none

theorem State.submit_refused {code : Nat} (h : ¬ s.portFull d) (hr : s.refusal core d = some code) :
    s.submit core d = if code = 0x43 then s.postRefusal core d code else (s.postRefusal core d code).incObj 0x4004 4 := by
  refine (if_neg (mt State.portFull_iff.1 h)).trans ?_
  rw [hr]
  rfl

/-- A refusal adds no command, takes no number, and the port keeps its report. -/
theorem State.postRefusal_report (s : State) (core : Nat) (d : Desc) (code : Nat) :
    let t := if code = 0x43 then s.postRefusal core d code else (s.postRefusal core d code).incObj 0x4004 4
    t.rb.cmds = s.rb.cmds ∧ t.rb.nextSeq = s.rb.nextSeq ∧ Tbl.get? t.rb.report core = some (.refused code) := by
  intro t
  have post : Moves 0x4000000040000 (s.setReport core (.refused code)) (s.postRefusal core d code) :=
    State.postMail_moves (Moves.rfl' _ _) (by decide) ..
  have moves : Moves 0x4000000040000 (s.setReport core (.refused code)) t := by
    unfold t
    split
    · exact post
    · exact State.incObj_moves post (by decide) ..
  exact ⟨moves.frame.rb.cmds (by decide), moves.frame.rb.nextSeq (by decide),
    (congrArg (Tbl.get? · core) (moves.frame.rb.report (by decide))).trans (Tbl.get?_put_self ..)⟩

theorem State.submit_accepted (h : ¬ s.portFull d) (hr : s.refusal core d = none) :
    s.submit core d =
      let s1 := s.setReport core .accepted
      { s1 with rb := { s1.rb with cmds := s1.rb.cmds ++ [{ seq := s1.rb.nextSeq, desc := d, core := core, waitSince := s1.now }]
                                   nextSeq := s1.rb.nextSeq + 1, lastCore := core } } := by
  refine (if_neg (mt State.portFull_iff.1 h)).trans ?_
  rw [hr]

end

/-! ### The submissions of one cycle -/

/-- One submission is served, whichever core was last: its core is one of the four behind that one. -/
theorem turnOrder_single (last : Nat) (x : Core × Words8) : turnOrder last [x] = [x] := by
  obtain ⟨core, d⟩ := x
  have hlast : last % 4 < 4 := Nat.mod_lt _ (by decide)
  have turn : ∀ k, (last + 1 + k) % 4 = (last % 4 + 1 + k) % 4 := by omega
  unfold turnOrder
  simp only [turn]
  generalize last % 4 = l at hlast
  interval_cases l <;> fin_cases core <;> rfl

section
variable {core : Core} {d : Words8} {s : State}

theorem exec_descSubmit_alone (h : s.coreRuns core.val = true) : exec (.descSubmit core d []) s = .next (s.submit core.val d) := by
  simp [exec, execDescSubmit, turnOrder_single, h]

theorem exec_descSubmit_down (h : s.coreRuns core.val = false) : exec (.descSubmit core d []) s = .next s := by
  simp [exec, execDescSubmit, turnOrder_single, h]

end

/-- Settles O22: a submission that stands alone is that of `State.submit`, whose three outcomes exclude each other. -/
theorem descriptorsAreAcceptedOrRefused : Obligations.DescriptorsAreAcceptedOrRefused := by
  refine ⟨fun _ _ _ _ => rfl, fun _ _ _ h => exec_descSubmit_down h, fun core d s h => ?runs, fun s core d h => ?unknown⟩
  case runs =>
    have alone := exec_descSubmit_alone (d := d) h
    refine ⟨fun full => ?_, fun code room hr => ?_, fun room hr => ⟨_, alone, ?_⟩⟩
    · rw [alone, State.submit_retry full]
    · rw [State.submit_refused room hr] at alone
      exact ⟨alone, _, alone, s.postRefusal_report core d code⟩
    · rw [State.submit_accepted room hr]
      exact ⟨rfl, rfl, Tbl.get?_put_self .., rfl, rfl⟩
  case unknown =>
    unfold State.refusal
    rw [h]

end Sys2Proof.Machine
end

section
/-! SUPPORT. How a command at an engine ends and leaves the command list (R132, R346, R354, R394, R415, R435). -/

namespace Sys2Proof.Machine

/-! ### Commands that leave the list -/

/-- Commands that are dropped one by one, with changes between that leave the list, leave all the others in it. -/
theorem foldl_dropCmd_cmds {f : State → Cmd → State} (hf : ∀ t x, (f t x).rb.cmds = t.rb.cmds) (l : List Cmd) (s : State) :
    (l.foldl (fun t x => (f t x).dropCmd x) s).rb.cmds = s.rb.cmds.filter fun x => l.all fun y => !(x.seq == y.seq && x.shadow == y.shadow) := by
  induction l generalizing s with
  | nil => simp
  | cons y l ih =>
    rw [List.foldl_cons, ih]
    show ((f s y).rb.cmds.filter _).filter _ = _
    rw [hf, List.filter_filter]
    simp only [List.all_cons, Bool.and_comm]

/-- The shadow copies of a command. -/
def State.copiesOf (s : State) (c : Cmd) : List Cmd := s.rb.cmds.filter fun x => x.shadow && x.seq == c.seq

/-- A command and its shadow copies are the commands of its number. -/
theorem State.copiesOf_self (s : State) {c : Cmd} (h : c.shadow = false) :
    (s.rb.cmds.filter fun x => (s.copiesOf c).all fun y => !(x.seq == y.seq && x.shadow == y.shadow)).filter
      (fun x => !(x.seq == c.seq && x.shadow == c.shadow)) = s.rb.cmds.filter fun x => x.seq != c.seq := by
  rw [List.filter_filter]
  refine List.filter_congr fun x hx => ?_
  rw [Bool.eq_iff_iff]
  simp only [State.copiesOf, Bool.and_eq_true, List.all_eq_true, List.mem_filter, Bool.not_eq_true', Bool.and_eq_false_iff,
    beq_eq_false_iff_ne, bne_iff_ne, beq_iff_eq, h]
  constructor
  · rintro ⟨own, copies⟩ same
    cases hs : x.shadow with
    | false => simp [same, hs] at own
    | true => simpa using copies x ⟨hx, hs, same⟩
  · exact fun other => ⟨.inl other, fun y hy => .inl fun same => other (same.trans hy.2.2)⟩

/-! ### Completion (R354) -/

section
variable {s : State} {c : Cmd} {busy : Nat}

/-- Whether the slots and tiles that a command fills or closes become FULL at its end (R108, R111). -/
def Cmd.fills (c : Cmd) : Bool :=
  !hasAbortFlag c.flags && (!hasCheckFlag c.flags || c.wrote) && !bitAt c.flags flTrap && !hasPtFlag c.flags && c.ctl.isNone

/-- The claims, walkers and parts of a command have ended. -/
def State.freed (s : State) (c : Cmd) : State := (((s.flushForFill c).releaseClaims c c.fills).endWalks c).endParts c.seq

/-- The shadow copies of a command have been compared and have left (R593 to R595). -/
def State.compared (s : State) (c : Cmd) : State :=
  (s.copiesOf c).foldl (fun t x => ((t.releaseClaims x c.fills).comparePair c x).dropCmd x) (s.freed c)

/-- A command's use of the device has been charged and counted (R370, R394). -/
def State.accounted (s : State) (c : Cmd) (busy : Nat) : State :=
  ((if unitOf c.desc.engine = some .ln then s else s.charge c.desc 2 (c.far * 512)).charge c.desc 0 c.spillReads).account c.desc busy

/-- A command without a fault has left the list with its copies, and its completion entry has been posted. -/
def State.completed (s : State) (c : Cmd) (busy : Nat) : State :=
  (((s.compared c).accounted c busy).dropCmd c).complete c.desc .done c.code c.flags c.detail

/-- A command whose copies have ended and none of whose records waits, without a fault, completes. -/
theorem State.completeCmd_sound (copies : ∀ x ∈ s.rb.cmds, x.shadow = true → x.seq = c.seq → x.phase = .ended)
    (held : ∀ h ∈ s.rb.heldMail, h.cmd ≠ some c.seq) (abort : hasAbortFlag c.flags = false) (ctl : c.ctl = none) :
    s.completeCmd c busy = ((s.completed c busy).settleEngine c.desc.engine).settleMxs.settleAborts := by
  have ready : ¬(((s.rb.cmds.filter fun x => x.shadow && x.seq == c.seq).any fun x => x.phase != .ended)
      || s.rb.heldMail.any (·.cmd == some c.seq)) = true := by
    simpa using ⟨copies, held⟩
  refine (if_neg ready).trans ?_
  simp [State.completed, State.accounted, State.compared, State.freed, Cmd.fills, State.copiesOf, ctl, abort]

/-- A command does not complete while a record of its own waits for a mailbox (R132). -/
theorem State.completeCmd_waits (held : ∃ h ∈ s.rb.heldMail, h.cmd = some c.seq) : s.completeCmd c busy = s := by
  obtain ⟨h, mem, own⟩ := held
  have waits : s.rb.heldMail.any (·.cmd == some c.seq) = true := List.any_eq_true.2 ⟨h, mem, by simp [own]⟩
  exact if_pos (by simp [waits])

/-- The end of a command's claims, walkers and parts touches neither the list nor the time. -/
theorem State.freed_moves {fp : Nat} {s0 s : State} (h : Moves fp s0 s) (hm : Covers 0xa48402008000ae fp) (c : Cmd) : Moves fp s0 (s.freed c) :=
  State.endParts_moves (State.endWalks_moves (State.releaseClaims_moves (State.flushForFill_moves h (hm.mono (by decide)) c)
    (hm.mono (by decide)) c _) (hm.mono (by decide)) c) (hm.mono (by decide)) _

theorem State.accounted_moves (s : State) (c : Cmd) (busy : Nat) : Moves 0x4000000090000 s (s.accounted c busy) := by
  refine State.account_moves (State.charge_moves ?_ (by decide) ..) (by decide) ..
  split
  · exact Moves.rfl' _ s
  · exact State.charge_moves (Moves.rfl' _ s) (by decide) ..

/-- The comparison of one shadow copy. -/
theorem State.compare_moves {fp : Nat} {s0 t : State} (h : Moves fp s0 t) (hm : Covers 0x4000004000000000088 fp) (c x : Cmd) :
    Moves fp s0 ((t.releaseClaims x c.fills).comparePair c x) :=
  State.comparePair_moves (State.releaseClaims_moves h (hm.mono (by decide)) ..) (hm.mono (by decide)) ..

theorem State.compared_cmds (s : State) (c : Cmd) :
    (s.compared c).rb.cmds = s.rb.cmds.filter fun x => (s.copiesOf c).all fun y => !(x.seq == y.seq && x.shadow == y.shadow) := by
  have freed : (s.freed c).rb.cmds = s.rb.cmds :=
    (State.freed_moves (Moves.rfl' 0xa48402008000ae s) (by decide) c).frame.rb.cmds (by decide)
  refine (foldl_dropCmd_cmds (fun t x => ?_) ..).trans (congrArg _ freed)
  exact (State.compare_moves (Moves.rfl' 0x4000004000000000088 t) (by decide) c x).frame.rb.cmds (by decide)

/-- The copies leave without a change of the time. -/
theorem State.compared_moves (s : State) (c : Cmd) : Moves 0x40000a48402008010ae s (s.compared c) :=
  Moves.foldl _ (State.freed_moves (Moves.rfl' _ s) (by decide) c) fun _ x ht =>
    State.dropCmd_moves (State.compare_moves ht (by decide) c x) (by decide) x

/-- A command that leaves takes its copies with it, and every other command stays. -/
theorem State.completed_cmds (busy : Nat) (h : c.shadow = false) :
    (s.completed c busy).rb.cmds = s.rb.cmds.filter fun x => x.seq != c.seq := by
  have post : Moves 0x40000 (((s.compared c).accounted c busy).dropCmd c) (s.completed c busy) :=
    State.complete_moves (Moves.rfl' _ _) (by decide) ..
  rw [post.frame.rb.cmds (by decide)]
  show ((s.compared c).accounted c busy).rb.cmds.filter _ = _
  rw [((s.compared c).accounted_moves c busy).frame.rb.cmds (by decide), s.compared_cmds, s.copiesOf_self h]

/-- The completion entry of a command that posts one, with the time of its completion, is delivered. -/
theorem State.completed_mail (busy : Nat) (h : mustPost c.desc .done c.flags = true) :
    let t := s.completed c busy
    let m : Mail := ⟨0, compWords c.desc .done c.code c.flags s.now c.detail, some c.desc⟩
    m ∈ Tbl.getD t.rb.mail [] c.desc.compCc ∨ ∃ e ∈ t.rb.heldMail, e.core = c.desc.compCc ∧ e.mail = m := by
  have now : (((s.compared c).accounted c busy).dropCmd c).now = s.now := congrArg (· / 2 ^ 32)
    ((((s.compared c).accounted_moves c busy).frame.tm.t (by decide)).trans ((s.compared_moves c).frame.tm.t (by decide)))
  unfold State.completed State.complete
  rw [if_pos h, now]
  exact State.postMail_delivered ..

end

/-! ### The commands -/

section
variable {eng : Eng} {busy : Nat} {s : State} {c : Cmd}

theorem exec_commandComplete_idle (h : s.atEngine? eng.toNat = none) : exec (.commandComplete eng busy) s = .next s := by
  simp only [exec, execCommandComplete, h]

theorem exec_commandComplete_running (h : s.atEngine? eng.toNat = some c) (hp : c.phase ≠ .ended ∨ c.shadow = true) :
    exec (.commandComplete eng busy) s = .next s := by
  simp only [exec, execCommandComplete, h]
  exact if_neg (by rcases hp with k | k <;> simp [k])

theorem exec_commandComplete_ended (h : s.atEngine? eng.toNat = some c) (hp : c.phase = .ended) (hs : c.shadow = false) :
    exec (.commandComplete eng busy) s = .next (s.completeCmd c busy) := by
  simp only [exec, execCommandComplete, h]
  exact if_pos (by simp [hp, hs])

theorem exec_cmdTimeout_idle (h : s.atEngine? eng.toNat = none) : exec (.cmdTimeout eng) s = .next s := by
  simp only [exec, execCmdTimeout, h]

theorem exec_cmdTimeout_waits (h : s.atEngine? eng.toNat = some c) (hw : c.phase ≠ .issued ∨ s.waits c = true ∨ s.waitsForRoom c = true) :
    exec (.cmdTimeout eng) s = .next s := by
  simp only [exec, execCmdTimeout, h]
  exact if_neg (by rcases hw with k | k | k <;> simp [k])

theorem exec_cmdTimeout_ends (h : s.atEngine? eng.toNat = some c) (hp : c.phase = .issued) (hw : s.waits c = false)
    (hr : s.waitsForRoom c = false) :
    exec (.cmdTimeout eng) s =
      let c1 := { c with phase := .ended, flags := withFlag c.flags flTimeout, wanted := [] }
      .next (if c.shadow then s.putCmd c1 else (s.putCmd c1).completeCmd c1 0) := by
  simp only [exec, execCmdTimeout, h]
  rw [if_pos (by simp [hp, hw, hr])]
  split <;> rfl

end

/-- Settles O24: what follows the completion of a command touches neither the list nor the mailboxes. -/
theorem commandsComplete : Obligations.CommandsComplete := by
  refine ⟨fun eng s c h => ?nop, fun eng busy s => ⟨fun h => ⟨exec_commandComplete_idle h, exec_cmdTimeout_idle h⟩, fun c h =>
    ⟨exec_commandComplete_running h, fun hp hs copies held abort ctl => ?completes, fun hp hs held => ?held, exec_cmdTimeout_waits h,
      exec_cmdTimeout_ends h⟩⟩⟩
  case nop =>
    refine ⟨s.putCmd { c with phase := .ended }, ?_, rfl⟩
    simp only [exec, execNopCmd, h]
  case completes =>
    refine ⟨((s.completed c busy).settleEngine c.desc.engine).settleMxs, ?_, ?_⟩
    · rw [exec_commandComplete_ended h hp hs, State.completeCmd_sound copies held abort ctl]
    · have settle : Moves 0x2000c4 (s.completed c busy) ((s.completed c busy).settleEngine c.desc.engine).settleMxs :=
        State.settleMxs_moves (State.settleEngine_moves (Moves.rfl' _ _) (by decide) _) (by decide)
      rw [settle.frame.rb.cmds (by decide), settle.frame.rb.mail (by decide), settle.frame.rb.heldMail (by decide)]
      exact ⟨State.completed_cmds busy hs, State.completed_mail busy⟩
  case held => rw [exec_commandComplete_ended h hp hs, State.completeCmd_waits held]

end Sys2Proof.Machine
end

section
/-! SUPPORT. Mailboxes that are read, seconds that end, waits that are reported (R150, R232, R392, R408, R409). -/

namespace Sys2Proof.Machine

/-! ### What an emergency message leaves of the objects -/

section
variable {s : State} {i b : Nat}

/-- A message counts in 0x4005:06 when the queue overflows, and in no other object (R501). -/
theorem State.obj_queueEmcy (m : Emcy) (h : objKey i b ≠ objKey 0x4005 0x06) : (s.queueEmcy m).obj i b = s.obj i b := by
  unfold State.queueEmcy
  split
  · rfl
  · exact State.obj_incObj_ne _ h

theorem State.obj_emcyRaise (code : Nat) (mfr : List Nat) (h : objKey i b ≠ objKey 0x4005 0x06) :
    (s.emcyRaise code mfr).obj i b = s.obj i b := by
  unfold State.emcyRaise
  split
  · rfl
  · exact State.obj_queueEmcy _ h

theorem State.obj_emcyEnd (code : Nat) (p : List Nat → Bool) (h : objKey i b ≠ objKey 0x4005 0x06) :
    (s.emcyEnd code p).obj i b = s.obj i b :=
  List.foldlRecOn (motive := fun t : State => t.obj i b = s.obj i b) _ _ rfl fun _ ht _ _ => (State.obj_queueEmcy _ h).trans ht

end

/-! ### STORM_SECOND (R392) -/

section
variable {s : State}

/-- The end of a second clears its misses: messages and objects do not touch them. -/
theorem State.closeSecond_missSecond (s : State) (whole : Bool) : (s.closeSecond whole).str.missSecond = 0 := by
  have keeps : ∀ {t u : State}, Moves 0x84000000000000 t u → u.str.missSecond = t.str.missSecond := fun h => h.frame.str.missSecond (by decide)
  unfold State.closeSecond
  dsimp only
  split
  · split
    · rfl
    · exact keeps (State.emcyRaise_moves (State.setObj_moves (Moves.rfl' _ _) (by decide) ..) (by decide) ..)
  · split
    · exact keeps (State.emcyEnd_moves (State.setObj_moves (Moves.rfl' _ _) (by decide) ..) (by decide) ..)
    · rfl

/-- Misses above the limit set STORM_ACTIVE. -/
theorem State.closeSecond_storm (whole : Bool) (h : s.inForce 0x2500 9 < s.str.missSecond) : (s.closeSecond whole).obj 0x2500 0xA = 1 := by
  unfold State.closeSecond
  dsimp only
  rw [if_pos h]
  split
  · next active => exact active
  · rw [State.obj_emcyRaise _ _ (by decide), State.obj_setObj_self]

/-- A whole second without a storm clears STORM_ACTIVE. -/
theorem State.closeSecond_calm (h : s.str.missSecond ≤ s.inForce 0x2500 9) :
    (s.closeSecond true).obj 0x2500 0xA = if s.obj 0x2500 0xA = 1 then 0 else s.obj 0x2500 0xA := by
  unfold State.closeSecond
  dsimp only
  rw [if_neg (Nat.not_lt.2 h)]
  by_cases active : s.obj 0x2500 0xA = 1
  · rw [if_pos (by simp [active]), if_pos active, State.obj_emcyEnd _ _ (by decide), State.obj_setObj_self]
  · rw [if_neg (by simp [active]), if_neg active]
    rfl

end

/-! ### MAILBOX_FREED (R232) -/

/-- The mailbox of a core without its oldest entry, and with the entry held longest for it, if one is. -/
def State.freeEntry (s : State) (core : Nat) (rest : List Mail) : State :=
  match s.rb.heldMail.find? fun h => h.core == core with
  | none => { s with rb := { s.rb with mail := Tbl.setD s.rb.mail [] core rest } }
  | some h => { s with rb := { s.rb with mail := Tbl.put s.rb.mail core (rest ++ [h.mail])
                                         heldMail := s.rb.heldMail.eraseIdx ((s.rb.heldMail.findIdx? fun x => x.core == core).getD 0) } }

section
variable {s : State} {core : Core} {bad : Bool}

theorem exec_mailboxFreed_idle (h : s.coreRuns core.val = false ∨ Tbl.getD s.rb.mail [] core.val = []) :
    exec (.mailboxFreed core bad) s = .next s := by
  simp only [exec, execMailboxFreed]
  rcases h with down | empty
  · exact if_pos (by simp [down])
  · rw [empty]
    exact ite_self _

theorem exec_mailboxFreed_reads {m : Mail} {rest : List Mail} (h : s.coreRuns core.val = true) (hm : Tbl.getD s.rb.mail [] core.val = m :: rest) :
    exec (.mailboxFreed core bad) s = .next ((s.freeEntry core.val rest).takeMail core.val m bad) := by
  simp only [exec, execMailboxFreed, State.freeEntry]
  rw [if_neg (by simp [h]), hm]
  cases s.rb.heldMail.find? fun h => h.core == core.val <;> rfl

theorem State.freeEntry_mail (s : State) (n : Nat) (rest : List Mail) (k : Nat) :
    Tbl.getD (s.freeEntry n rest).rb.mail [] k =
      if k = n then rest ++ ((s.rb.heldMail.find? fun h => h.core == n).map (·.mail)).toList else Tbl.getD s.rb.mail [] k := by
  unfold State.freeEntry
  split
  · next hn =>
    rw [hn]
    exact (Tbl.getD_setD ..).trans (by simp)
  · next h hh =>
    rw [hh]
    exact Tbl.getD_put ..

theorem State.freeEntry_st (s : State) (n : Nat) (rest : List Mail) : (s.freeEntry n rest).st = s.st := by
  unfold State.freeEntry
  split <;> rfl

/-- An entry that can be read leaves the mailboxes as they are. -/
theorem State.takeMail_mail (s : State) (n : Nat) (m : Mail) : (s.takeMail n m false).rb.mail = s.rb.mail := by
  unfold State.takeMail
  rw [if_neg Bool.false_ne_true]
  split <;> rfl

/-- A message shows its core control memory as it stands (R150). -/
theorem State.takeMail_view (s : State) (n : Nat) {m : Mail} (h : m.kind = 2) :
    Tbl.getD (s.takeMail n m false).st.ctlView [] n = s.st.ctl := by
  unfold State.takeMail
  rw [if_neg Bool.false_ne_true, if_pos h]
  exact Tbl.getD_setD_self ..

end

/-! ### WAIT_REPORT (R408, R409) -/

/-- The report of a wait on a command, which then goes on, is one entry of the fault log, with the payload in its last words. -/
theorem State.logWait_faultLog (s : State) (src : Nat) (d : Option Desc) (pay : List Nat) :
    ∃ e : FaultEntry, e.words.drop 4 = pay ∧ (s.logWait src d pay).ctl.faultLog = pushRing 4096 s.ctl.faultLog e := by
  cases d with
  | none => exact ⟨_, rfl, rfl⟩
  | some d => exact ⟨_, rfl, rfl⟩

section
variable {seq : Nat} {s : State} {c : Cmd}

/-- The wait of a command is reported and counted. -/
def State.reportWait (s : State) (c : Cmd) : State := (s.putCmd { c with waitReported := true }).incObj 0x4018 3

theorem exec_waitReport_none (h : s.rb.cmds.find? (fun c => c.seq == seq && !c.shadow) = none) :
    exec (.waitReport (.cmd seq)) s = .next s := by
  simp only [exec, execWaitReport, h]

theorem exec_waitReport_over (h : s.rb.cmds.find? (fun c => c.seq == seq && !c.shadow) = some c)
    (hw : c.waitReported = true ∨ (c.wanted = [] ∧ c.remoteLeft = 0)) : exec (.waitReport (.cmd seq)) s = .next s := by
  simp only [exec, execWaitReport, h]
  refine if_neg fun ⟨_, waits, fresh⟩ => ?_
  rcases hw with done | ⟨hc, hr⟩
  · simp [done] at fresh
  · simp [hc, hr] at waits

theorem exec_waitReport_waits (h : s.rb.cmds.find? (fun c => c.seq == seq && !c.shadow) = some c) (hn : c.waitReported = false)
    (hp : c.phase = .issued ∨ c.phase = .parked) (hw : c.wanted ≠ [] ∨ 0 < c.remoteLeft) :
    exec (.waitReport (.cmd seq)) s = .next (
      if s.inForce 0x4018 2 = 1 then
        if c.desc.nostr = true then ((s.reportWait c).logWait c.desc.engine none (s.waitPayload c)).cancelCmd c
        else ((s.reportWait c).cancelCmd c).faultCommand c.desc c.desc.engine 6 0 0 0 (s.waitPayload c)
      else (s.reportWait c).logWait c.desc.engine (some c.desc) (s.waitPayload c)) := by
  simp only [exec, execWaitReport, h]
  rw [if_pos ⟨hp, hw, by simp [hn]⟩]
  split
  · split <;> rfl
  · rfl

theorem exec_waitReport_mail {n : Nat} {h : HeldMail} (hm : s.rb.heldMail[n]? = some h) (hr : h.reported = false) :
    let u := ({ s with rb := { s.rb with heldMail := s.rb.heldMail.set n { h with reported := true } } } : State).incObj 0x4018 3
    exec (.waitReport (.mail n)) s = .next (match h.mail.desc with
      | some d => if s.inForce 0x4018 2 = 1 ∧ d.nostr = false then u.faultCommand d h.src 6 0 0 0 (s.holdPayload h)
          else u.logWait h.src (some d) (s.holdPayload h)
      | none => u.logWait h.src none (s.holdPayload h)) := by
  simp only [exec, execWaitReport, hm]
  rw [if_neg (by simp [hr])]
  cases h.mail.desc with
  | none => rfl
  | some d =>
    dsimp only
    by_cases act : s.inForce 0x4018 2 = 1 ∧ d.nostr = false
    · rw [if_pos (by simpa using act), if_pos act]
    · rw [if_neg (by simpa using act), if_neg act]

end

/-- Settles O25: a core reads from the mailboxes that `State.freeEntry` leaves, a second ends as `State.closeSecond` says, and a wait is
reported once. -/
theorem reportsMailboxesAndStorms : Obligations.ReportsMailboxesAndStorms := by
  refine ⟨fun core bad s => ⟨exec_mailboxFreed_idle, fun m rest runs box => ?reads⟩,
    fun s => ⟨_, rfl, s.closeSecond_missSecond true, State.closeSecond_storm true, State.closeSecond_calm⟩,
    fun seq s => ⟨exec_waitReport_none, fun c h => ⟨exec_waitReport_over h, fun hn hp hw act => ?logged, fun hn hp hw act => ?aborted⟩⟩,
    fun n s => ⟨fun hm => ?gone, fun h hm => ⟨fun hr => ?reported, exec_waitReport_mail hm⟩⟩⟩
  case reads =>
    refine ⟨_, exec_mailboxFreed_reads runs box, ?_, fun k hk => ?_, State.takeMail_mail .., fun kind a => ?_⟩
    · rw [State.freeEntry_mail, if_pos rfl]
    · rw [State.freeEntry_mail, if_neg hk]
    · rw [State.takeMail_view _ _ kind, State.freeEntry_st]
  case logged =>
    refine ⟨_, exec_waitReport_waits h hn hp hw, ?_⟩
    rw [if_neg act]
    obtain ⟨e, words, log⟩ := (s.reportWait c).logWait_faultLog c.desc.engine (some c.desc) (s.waitPayload c)
    exact ⟨e, words, log, rfl⟩
  case aborted =>
    rw [exec_waitReport_waits h hn hp hw, if_pos act]
    rfl
  case gone => simp only [exec, execWaitReport, hm]
  case reported =>
    simp only [exec, execWaitReport, hm]
    exact if_pos hr

end Sys2Proof.Machine
end

section
/-! SUPPORT. Sequences, their tables and the page pools: what an edit leaves (R279), a join (R290), a demotion (R271, R274), a page that
cannot be read (R294). -/

namespace Sys2Proof.Machine

-- One proof at a time: proofs elaborated side by side wait on shared realisations, one thread each, and run out of threads.
set_option Elab.async false

/-! ### The root and the table that a new copy leaves -/

/-- A sequence after the reclaim list of a copy without walkers is freed (R279). -/
def Sequence.reclaimed (x : Sequence) (copyB : Bool) : Sequence :=
  if copyB then (if x.walkersB = 0 then { x with reclaimB := [] } else x) else if x.walkersA = 0 then { x with reclaimA := [] } else x

section
variable (x : Sequence) (t : PageTable)

@[simp] theorem Sequence.publish_table : (x.publish t).table = { t with gen := (x.gen + 1) % 65536 } := by
  unfold Sequence.publish Sequence.table
  cases x.cur <;> rfl

@[simp] theorem Sequence.publish_valid : (x.publish t).valid = x.valid := by
  unfold Sequence.publish
  cases x.cur <;> rfl

@[simp] theorem Sequence.publish_due : (x.publish t).due = x.due := by
  unfold Sequence.publish
  cases x.cur <;> rfl

@[simp] theorem Sequence.publish_joined : (x.publish t).joined = x.joined := by
  unfold Sequence.publish
  cases x.cur <;> rfl

@[simp] theorem Sequence.publish_admittedAt : (x.publish t).admittedAt = x.admittedAt := by
  unfold Sequence.publish
  cases x.cur <;> rfl

variable (copyB : Bool)

/-- Only the reclaim lists change. -/
theorem Sequence.reclaimed_eq : ∃ a b, x.reclaimed copyB = { x with reclaimA := a, reclaimB := b } := by
  unfold Sequence.reclaimed
  split
  · split
    · exact ⟨x.reclaimA, [], rfl⟩
    · exact ⟨x.reclaimA, x.reclaimB, rfl⟩
  · split
    · exact ⟨[], x.reclaimB, rfl⟩
    · exact ⟨x.reclaimA, x.reclaimB, rfl⟩

@[simp] theorem Sequence.reclaimed_table : (x.reclaimed copyB).table = x.table := by
  obtain ⟨a, b, e⟩ := x.reclaimed_eq copyB
  rw [e]
  rfl

@[simp] theorem Sequence.reclaimed_valid : (x.reclaimed copyB).valid = x.valid := by
  obtain ⟨a, b, e⟩ := x.reclaimed_eq copyB
  rw [e]

@[simp] theorem Sequence.reclaimed_due : (x.reclaimed copyB).due = x.due := by
  obtain ⟨a, b, e⟩ := x.reclaimed_eq copyB
  rw [e]

@[simp] theorem Sequence.reclaimed_joined : (x.reclaimed copyB).joined = x.joined := by
  obtain ⟨a, b, e⟩ := x.reclaimed_eq copyB
  rw [e]

@[simp] theorem Sequence.reclaimed_admittedAt : (x.reclaimed copyB).admittedAt = x.admittedAt := by
  obtain ⟨a, b, e⟩ := x.reclaimed_eq copyB
  rw [e]

@[simp] theorem Sequence.reclaimed_rebuild : (x.reclaimed copyB).rebuild = x.rebuild := by
  obtain ⟨a, b, e⟩ := x.reclaimed_eq copyB
  rw [e]

end

/-- What a waiting edit leaves of a table that loses its pages from place `i` on (R294). -/
theorem PageTable.lose_committed {t : PageTable} {tp page i : Nat} (hi : t.entries.findIdx? (fun e => e.valid && e.page == page) = some i)
    (hc : i * tp < t.committedLen) :
    t.lose tp page = some { t with entries := t.entries.take i, rebuiltLen := Nat.min t.rebuiltLen (i * tp) } := by
  unfold PageTable.lose
  rw [hi]
  exact if_pos hc

/-! ### Putting and reading a sequence -/

theorem Tbl.erase_insertSorted_self {α : Type} (t : Tbl α) (k : Nat) (v : α) : Tbl.erase (Tbl.insertSorted t k v) k = Tbl.erase t k := by
  induction t with
  | nil => simp [Tbl.insertSorted, Tbl.erase]
  | cons e t ih =>
    by_cases before : k < e.1
    · simp [Tbl.insertSorted, before, Tbl.erase]
    · simp [Tbl.insertSorted, before, Tbl.erase, ih]

theorem Tbl.erase_erase_self {α : Type} (t : Tbl α) (k : Nat) : Tbl.erase (Tbl.erase t k) k = Tbl.erase t k := by
  induction t with
  | nil => rfl
  | cons e t ih => by_cases at_ : e.1 = k <;> simp [Tbl.erase, at_, ih]

theorem Tbl.put_put_self {α : Type} (t : Tbl α) (k : Nat) (v w : α) : Tbl.put (Tbl.put t k v) k w = Tbl.put t k w := by
  unfold Tbl.put
  rw [Tbl.erase_insertSorted_self, Tbl.erase_erase_self]

section
variable {s : State} {q : Nat} {x : Sequence}

theorem State.putSeq_putSeq (s : State) (q : Nat) (x y : Sequence) : (s.putSeq q x).putSeq q y = s.putSeq q y := by
  unfold State.putSeq
  rw [Tbl.put_put_self]

theorem State.seq?_some (h : s.seq? q = some x) : Tbl.get? s.pg.seqs q = some x ∧ x.valid = true :=
  Option.filter_eq_some_iff.1 h

theorem State.seq?_congr {s t : State} (h : t.pg.seqs = s.pg.seqs) (q : Nat) : t.seq? q = s.seq? q := by
  unfold State.seq?
  rw [h]

theorem State.seq?_putSeq_self (s : State) (q : Nat) {x : Sequence} (h : x.valid = true) : (s.putSeq q x).seq? q = some x := by
  unfold State.seq? State.putSeq
  rw [Tbl.get?_put_self, Option.filter_some, if_pos h]

theorem State.get?_putSeq_ne (s : State) (x : Sequence) {q k : Nat} (hk : k ≠ q) :
    Tbl.get? (s.putSeq q x).pg.seqs k = Tbl.get? s.pg.seqs k := Tbl.get?_put_ne _ _ hk

theorem State.modSeq_some (h : s.seq? q = some x) (f : Sequence → Sequence) : s.modSeq q f = s.putSeq q (f x) := by
  unfold State.modSeq
  rw [h]

/-- A sequence that is put stays when a reclaim list of it is freed. -/
theorem State.putSeq_reclaim (s : State) (q : Nat) (hv : x.valid = true) (copyB : Bool) :
    (s.putSeq q x).reclaim q copyB = s.putSeq q (x.reclaimed copyB) := by
  rw [← State.putSeq_putSeq s q x (x.reclaimed copyB)]
  unfold State.reclaim
  rw [(State.seq?_some (State.seq?_putSeq_self s q hv)).1]
  exact if_neg (c := (!(x.reclaimed copyB).valid && _ && _ && _ && _) = true) (by simp [hv])

/-- An edit puts the new table in the other copy (R279). -/
theorem State.editSeq_some (h : s.seq? q = some x) (f : PageTable → PageTable) :
    s.editSeq q f = s.putSeq q ((x.publish (f x.table)).reclaimed x.cur) := by
  unfold State.editSeq
  rw [h]
  exact State.putSeq_reclaim s q ((x.publish_valid _).trans (State.seq?_some h).2) x.cur

theorem State.seq?_editSeq (h : s.seq? q = some x) (f : PageTable → PageTable) :
    (s.editSeq q f).seq? q = some ((x.publish (f x.table)).reclaimed x.cur) := by
  rw [State.editSeq_some h]
  exact State.seq?_putSeq_self s q (by simp [(State.seq?_some h).2])

end

/-! ### STEP_BOUNDARY (R290, R291) -/

/-- No sequence is a member of a batch. -/
def State.Unjoined (s : State) : Prop := ∀ q ∈ s.seqIds, ∀ x, s.seq? q = some x → x.joined = none

section
variable {s : State}

theorem State.Unjoined.no_member (h : s.Unjoined) {q : Nat} (hq : q ∈ s.seqIds) (p : Sequence → Bool) :
    ((s.seq? q).map fun x => x.joined.isSome && p x).getD false = false := by
  cases e : s.seq? q with
  | none => rfl
  | some x => simp [h q hq x e]

theorem State.leaveAll_unjoined (h : s.Unjoined) : s.leaveAll = s := by
  unfold State.leaveAll
  rw [List.filter_eq_nil_iff.2 fun q hq => by simp only [h.no_member hq, Bool.false_and, Bool.false_eq_true, not_false_eq_true]]
  rfl

theorem State.refillAll_unjoined (h : s.Unjoined) : s.refillAll = s := by
  unfold State.refillAll
  rw [List.filter_eq_nil_iff.2 fun q hq => by simp only [h.no_member hq, Bool.false_eq_true, not_false_eq_true]]
  rfl

/-- Without a member a step boundary is its joins. -/
theorem State.atBoundary_unjoined (h : s.Unjoined) :
    s.atBoundary = s.joinAll (s.seqIds.filter fun q => ((s.placedChunk (q / 8)).map fun c => c.phase == .placed).getD false) := by
  unfold State.atBoundary
  rw [State.leaveAll_unjoined h, State.refillAll_unjoined h]

theorem State.joinAll_singleton (s : State) (q : Nat) : s.joinAll [q] = s.joinSeq q := by
  unfold State.joinAll State.serviceOrder
  cases lc : s.seqLc q <;> simp [lc, sortBy, insertBy]

theorem State.relieveFor_mayTake {q n : Nat} (h : s.mayTake q n = true) (k : Nat) : State.relieveFor q n k s = s := by
  cases k with
  | zero => rfl
  | succ k => exact if_pos h

/-- A table whose empty headroom slot takes a frame. -/
def PageTable.takeHeadroom (f : Nat) (t : PageTable) : PageTable := { t with headroom := t.headroom.or (some f) }

theorem PageTable.takeHeadroom_empty {t : PageTable} (h : t.headroom = none) (f : Nat) : t.takeHeadroom f = { t with headroom := some f } := by
  unfold PageTable.takeHeadroom
  rw [h]
  rfl

/-- A join whose only need is a headroom frame, which it may take. -/
theorem State.joinSeq_headroom {q : Nat} {x : Sequence} (hx : s.seq? q = some x) (hj : x.joined = none) (he : s.mayEdit q = true)
    (ht : s.tailsToCopy x = []) (hh : x.table.headroom = none) (take : s.mayTake q 1 = true) :
    s.joinSeq q = ((s.claimFrames [lowestFree s.usedOnchip] (s.seqLc q)).joined q).editSeq q
      (PageTable.takeHeadroom (lowestFree s.usedOnchip)) := by
  unfold State.joinSeq
  rw [hx]
  simp only [hj, he, ht, hh, take, State.relieveFor_mayTake take, State.laneTails, lowestFrees, List.zip_nil_left, List.foldl_nil,
    List.length_nil, Option.isSome_none, Option.isNone_none, if_true, Nat.zero_add, Nat.one_ne_zero, if_false, Bool.not_true,
    Bool.false_eq_true, or_self, List.getLast?_singleton]
  rfl

theorem State.claimFrames_seqs (s : State) (fs : List Nat) (lc : Bool) : (s.claimFrames fs lc).pg.seqs = s.pg.seqs :=
  (Moves.foldl fs (Moves.rfl' 0x6 _) fun _ _ h => State.writeRows_moves h (Covers.refl _) ..).frame.pg.seqs (by decide)

theorem State.claimFrames_placedChunk (s : State) (fs : List Nat) (lc : Bool) (sid : Nat) :
    (s.claimFrames fs lc).placedChunk sid = s.placedChunk sid := by
  unfold State.placedChunk
  rw [(State.claimFrames_moves (Moves.rfl' _ s) (Covers.refl _) fs lc).frame.str.chunks (by decide)]

theorem State.claimFrames_now (s : State) (fs : List Nat) (lc : Bool) : (s.claimFrames fs lc).now = s.now := by
  unfold State.now
  rw [(State.claimFrames_moves (Moves.rfl' _ s) (Covers.refl _) fs lc).frame.tm.t (by decide)]

/-- A sequence that is a member of a batch with a chunk since a time. -/
def Sequence.memberOf (x : Sequence) (no since : Nat) : Sequence := { x with joined := some no, admittedAt := since }

@[simp] theorem Sequence.memberOf_table (x : Sequence) (no since : Nat) : (x.memberOf no since).table = x.table := rfl
@[simp] theorem Sequence.memberOf_gen (x : Sequence) (no since : Nat) : (x.memberOf no since).gen = x.gen := rfl
@[simp] theorem Sequence.memberOf_joined (x : Sequence) (no since : Nat) : (x.memberOf no since).joined = some no := rfl
@[simp] theorem Sequence.memberOf_admittedAt (x : Sequence) (no since : Nat) : (x.memberOf no since).admittedAt = since := rfl

/-- The sequence that joins is a member with its stream's admitted chunk from now on. -/
theorem State.seq?_joined {q : Nat} {x : Sequence} {c : Chunk} (hx : s.seq? q = some x) (hc : s.placedChunk (q / 8) = some c) :
    (s.joined q).seq? q = some (x.memberOf c.no s.now) := by
  unfold State.joined
  rw [State.modSeq_some hx, hc]
  exact State.seq?_putSeq_self _ _ (State.seq?_some hx).2

/-- At a step boundary the only sequence, of a placed chunk, takes the lowest free frame as headroom and is a member (R290). -/
theorem exec_stepBoundary_joins {q : Nat} {x : Sequence} {c : Chunk} (ids : s.seqIds = [q]) (hx : s.seq? q = some x) (hj : x.joined = none)
    (hc : s.placedChunk (q / 8) = some c) (hp : c.phase = .placed) (he : s.mayEdit q = true) (ht : s.tailsToCopy x = [])
    (hh : x.table.headroom = none) (take : s.mayTake q 1 = true) :
    exec .stepBoundary s = .next (((s.claimFrames [lowestFree s.usedOnchip] (s.seqLc q)).joined q).editSeq q
      (PageTable.takeHeadroom (lowestFree s.usedOnchip))) := by
  have alone : s.Unjoined := by
    intro k hk y hy
    rw [ids, List.mem_singleton] at hk
    rw [hk, hx] at hy
    exact Option.some.inj hy ▸ hj
  have joins : (s.seqIds.filter fun k => ((s.placedChunk (k / 8)).map fun c => c.phase == .placed).getD false) = [q] := by
    simp [ids, hc, hp]
  show Host.Outcome.next s.atBoundary = _
  rw [State.atBoundary_unjoined alone, joins, State.joinAll_singleton, State.joinSeq_headroom hx hj he ht hh take]

end

/-! ### PAGE_DEMOTE (R271, R274) -/

theorem isSpill_spillPage {f : Nat} (h : f < 524288) : isSpill (spillPage f) = true := by
  unfold isSpill spillPage bitAt
  rw [show (2 ^ 19 + f) / 2 ^ 19 = 1 by omega]
  rfl

section
variable {s u : State}

/-- A spill frame that is taken lies in the pool. -/
theorem State.nextSpill_lt {f : Nat} (h : s.nextSpill = some f) : f < s.obj 0x2900 2 := by
  obtain ⟨i, -, hi⟩ := List.exists_of_findSome?_eq_some h
  obtain ⟨j, hj, rfl⟩ := Option.map_eq_some_iff.1 hi
  have free := List.find?_some hj
  simp only [Bool.and_eq_true, decide_eq_true_eq] at free
  exact free.1

theorem CtlOnly.pg (h : CtlOnly s u) : u.pg = s.pg := by
  unfold CtlOnly at h
  rw [h]

/-- A Lane that can read a page only counts what was corrected. -/
theorem State.lanePage_readable {page : Nat} {bs : List Byte} (h : s.lanePage page = (u, some bs)) : CtlOnly s u := by
  unfold State.lanePage at h
  split at h
  · split at h
    · cases h
    · cases h
      exact .refl s
  · dsimp only at h
    split at h
    · cases h
    · cases h
      exact s.countReads_ctlOnly _

/-- The bytes of a page in a spill frame, and its tree nodes with them. -/
def State.spilled (s : State) (page fr : Nat) (bs : List Byte) : State :=
  let s1 := (s.claimSpill fr).writePage (spillPage fr) bs
  { s1 with pg := { s1.pg with nodes := s1.pg.nodes.map fun n => (n.1, if n.2.page = page then { n.2 with page := spillPage fr } else n.2) } }

section
variable {fr : Nat} (h : fr < 524288) (page : Nat) (bs : List Byte)
include h

theorem State.spilled_seqs : (s.spilled page fr bs).pg.seqs = s.pg.seqs := by
  unfold State.spilled State.writePage
  rw [if_pos (isSpill_spillPage h)]
  rfl

theorem State.spilled_spill :
    (s.spilled page fr bs).pg.spill = Mem.writeBytes s.pg.spill (pageFrame (spillPage fr) * 32768) (slice bs 0 32768) := by
  unfold State.spilled State.writePage
  rw [if_pos (isSpill_spillPage h)]
  rfl

end

theorem State.demote_noSpill {q : Nat} (h : s.nextSpill = none) : s.demote q = none := by
  unfold State.demote
  rw [h]
  split
  · next e => cases e
  · rfl

section
variable {q i fr page : Nat} {x : Sequence} (hi : s.demotable q = some i) (hx : s.seq? q = some x) (hf : s.nextSpill = some fr)
  (hp : (x.table.entries.getD i {}).page = page)
include hi hx hf hp

theorem State.demote_lost (hl : s.lanePage page = (u, none)) : s.demote q = some u := by
  unfold State.demote
  simp only [hi, hx, hf, hp, hl]

/-- The page of one sequence that can be read: its copy lands, then the entry that names it is edited. -/
theorem State.demote_spilled {bs : List Byte} (hl : s.lanePage page = (u, some bs)) (hn : s.seqsNaming page = [q]) :
    s.demote q = some ((u.spilled page fr bs).editSeq q (·.renamePage page (spillPage fr))) := by
  unfold State.demote
  simp only [hi, hx, hf, hp, hl, hn, List.foldl_cons, List.foldl_nil]
  rfl

end

section
variable {sid : Sid}

theorem exec_pageDemote_noIdle (h : s.demoteOrder = []) : exec (.pageDemote sid) s = .next s := by
  simp only [exec, execPageDemote, h]

variable {q : Nat} {rest : List Nat} (h : s.demoteOrder = q :: rest)
include h

theorem exec_pageDemote_idle (hn : s.obj 0x2900 4 ≤ s.freeOnchip ∨ q / 8 ≠ sid.val) : exec (.pageDemote sid) s = .next s := by
  simp only [exec, execPageDemote, h]
  exact if_neg (by omega)

theorem exec_pageDemote_demotes (low : s.freeOnchip < s.obj 0x2900 4) (own : q / 8 = sid.val) :
    exec (.pageDemote sid) s = .next ((s.demote q).getD s) := by
  simp only [exec, execPageDemote, h]
  exact if_pos ⟨low, own⟩

end

end

/-! ### PAGE_WAIT_LIMIT (R292, R293) -/

/-- Since when a sequence waits for a page. -/
abbrev State.waitsSince (s : State) (q : Nat) : Nat := ((s.seq? q).map (·.waitSince)).getD 0

/-- The sequences that wait for a page, the one that has waited longest first. -/
abbrev State.pageWaiters (s : State) : List Nat :=
  sortBy s.waitsSince (s.seqIds.filter fun q => ((s.seq? q).map (·.pageWait)).getD false)

section
variable {s : State}

theorem exec_pageWaitLimit_none (h : s.pageWaiters = []) : exec .pageWaitLimit s = .next s := by
  simp only [exec, execPageWaitLimit, h]

variable {q : Nat} {rest : List Nat} (h : s.pageWaiters = q :: rest)
include h

theorem exec_pageWaitLimit_early (hn : s.now < s.waitsSince q + s.obj 0x2900 5 * 1000000) : exec .pageWaitLimit s = .next s := by
  simp only [exec, execPageWaitLimit, h]
  exact if_neg (Nat.not_le.2 hn)

theorem exec_pageWaitLimit_over (hn : s.waitsSince q + s.obj 0x2900 5 * 1000000 ≤ s.now) :
    exec .pageWaitLimit s = .next (s.preemptYoungest (some q)) := by
  simp only [exec, execPageWaitLimit, h]
  exact if_pos hn

end

/-! ### REBUILD_MARK (R279, R294) -/

section
variable {s : State} {q : Nat} {x : Sequence}

theorem State.settleSeq_settled (hx : s.seq? q = some x) (hd : x.due = []) (n : Nat) : s.settleSeq q n = s := by
  cases n with
  | zero => rfl
  | succ n => simp only [State.settleSeq, hx, hd]

/-- An edit waits behind those that wait, as long as walkers read the other copy. -/
theorem State.editWhenFree_waits (hx : s.seq? q = some x) (he : x.editable = false) (e : DueEdit) :
    s.editWhenFree q e = s.putSeq q { x with due := x.due ++ [e] } := by
  have put := State.seq?_putSeq_self s q (x := { x with due := x.due ++ [e] }) (State.seq?_some hx).2
  have held : ({ x with due := x.due ++ [e] } : Sequence).editable = false := he
  unfold State.editWhenFree
  rw [State.modSeq_some hx]
  simp only [State.settleSeq, put]
  split
  · rfl
  · rw [if_neg (by simp [held])]

/-- A sequence with a table that a waiting edit cut: the root is marked where committed positions have no page. -/
def Sequence.cutTo (x : Sequence) (t : PageTable) : Sequence := { x.publish t with rebuild := t.rebuilding, rebuildAt := none }

theorem Sequence.cutTo_rebuild (x : Sequence) (t : PageTable) : (x.cutTo t).rebuild = (x.cutTo t).table.rebuilding := by
  show t.rebuilding = PageTable.rebuilding (x.publish t).table
  rw [Sequence.publish_table]
  rfl

theorem State.applyDue_lost {page : Nat} {t : PageTable} (hx : s.seq? q = some x) (ht : x.table.lose (s.seqTp x) page = some t) :
    s.applyDue q (.lost page) = (s.putSeq q ((x.cutTo t).reclaimed x.cur)).incObj 0x2900 0x0B := by
  rw [← State.putSeq_reclaim s q (x := x.cutTo t) ((x.publish_valid t).trans (State.seq?_some hx).2)]
  simp only [State.applyDue, hx, DueEdit.apply, ht]
  rfl

/-- The first waiting edit of a sequence is made when no walker reads the other copy. -/
theorem State.settleSeq_makes {e : DueEdit} {es : List DueEdit} (hx : s.seq? q = some x) (hd : x.due = e :: es) (he : x.editable = true)
    (n : Nat) : s.settleSeq q (n + 1) = ((s.putSeq q { x with due := es }).applyDue q e).settleSeq q n := by
  simp only [State.settleSeq, hx, hd, he, if_true]

/-- A page that is lost while no walker reads the other copy leaves the table at once, with the pages after it, and REBUILDS is
counted. -/
theorem State.editWhenFree_loses {page : Nat} {t : PageTable} (hx : s.seq? q = some x) (he : x.editable = true) (hd : x.due = [])
    (ht : x.table.lose (s.seqTp x) page = some t) :
    s.editWhenFree q (.lost page) = (s.putSeq q ((x.cutTo t).reclaimed x.cur)).incObj 0x2900 0x0B := by
  have valid := (State.seq?_some hx).2
  have back : ({ x with due := [] } : Sequence) = x := by rw [← hd]
  have cut := State.seq?_putSeq_self s q (x := (x.cutTo t).reclaimed x.cur)
    (((x.cutTo t).reclaimed_valid x.cur).trans ((x.publish_valid t).trans valid))
  calc s.editWhenFree q (.lost page)
      = (s.putSeq q { x with due := [.lost page] }).settleSeq q 8 := by
        rw [State.editWhenFree, State.modSeq_some hx, hd, List.nil_append]
    _ = ((s.putSeq q x).applyDue q (.lost page)).settleSeq q 7 := by
        rw [State.settleSeq_makes (State.seq?_putSeq_self s q (x := { x with due := [.lost page] }) valid) rfl he, back, State.putSeq_putSeq]
    _ = ((s.putSeq q ((x.cutTo t).reclaimed x.cur)).incObj 0x2900 0x0B).settleSeq q 7 := by
        rw [State.applyDue_lost (State.seq?_putSeq_self s q valid) ht, State.putSeq_putSeq]
    _ = _ := State.settleSeq_settled (s := (s.putSeq q _).incObj _ _) cut
        (((x.cutTo t).reclaimed_due x.cur).trans ((x.publish_due t).trans hd)) 7

section
variable {no : SeqNo}

theorem exec_rebuildMark_none (h : s.seq? no.val = none) : exec (.rebuildMark no) s = .next s := by
  simp only [exec, execRebuildMark, h]

theorem exec_rebuildMark_readable (hx : s.seq? no.val = some x)
    (h : (x.table.entries.find? fun e => e.valid && s.pageBad e.page) = none) : exec (.rebuildMark no) s = .next s := by
  simp only [exec, execRebuildMark, hx, h]

theorem exec_rebuildMark_bad {e : PageEntry} (hx : s.seq? no.val = some x)
    (h : (x.table.entries.find? fun e => e.valid && s.pageBad e.page) = some e) :
    exec (.rebuildMark no) s = .next (s.editWhenFree no.val (.lost e.page)) := by
  simp only [exec, execRebuildMark, hx, h]

end

end

/-- Settles O40: a step boundary without members is its joins, a page that is read moves to a spill frame and one that is not is lost,
and a page that cannot be read leaves the table once the other copy is free. -/
theorem stepBoundariesJoinAndShortageDemotes : Obligations.StepBoundariesJoinAndShortageDemotes := by
  refine ⟨fun s ids => ?empty, fun s q x c ids hx hj hc hp he ht hh take => ?joins,
    fun sid s => ⟨exec_pageDemote_noIdle, fun q rest order => ⟨exec_pageDemote_idle order, fun low own full => ?full,
      fun i x fr low own hi hx hf pool => ⟨fun u lost => ?lost, fun u bs read alone => ?spilled⟩⟩⟩,
    fun s => ⟨exec_pageWaitLimit_none, fun q rest order => ⟨exec_pageWaitLimit_early order, fun late noBe => ?calm, fun v late be => ?preempts⟩⟩,
    fun q s => ⟨exec_rebuildMark_none, fun x hx => ⟨exec_rebuildMark_readable hx, fun e bad => ⟨fun busy => ?waits,
      fun i free hd at_ committed => ?cut⟩⟩⟩⟩
  case empty =>
    have unjoined : s.Unjoined := by simp [State.Unjoined, ids]
    show Host.Outcome.next s.atBoundary = _
    rw [State.atBoundary_unjoined unjoined, ids]
    rfl
  case joins =>
    have claimed := (State.seq?_congr (s.claimFrames_seqs [lowestFree s.usedOnchip] (s.seqLc q)) q).trans hx
    have member := State.seq?_joined claimed ((s.claimFrames_placedChunk ..).trans hc)
    refine ⟨_, exec_stepBoundary_joins ids hx hj hc hp he ht hh take, _, State.seq?_editSeq member _, by simp, by simp [State.claimFrames_now],
      by simp [PageTable.takeHeadroom_empty hh]⟩
  case full => rw [exec_pageDemote_demotes order low own, State.demote_noSpill full, Option.getD_none]
  case lost => rw [exec_pageDemote_demotes order low own, State.demote_lost hi hx hf rfl lost, Option.getD_some]
  case spilled =>
    have inPool : fr < 524288 := lt_of_lt_of_le (State.nextSpill_lt hf) pool
    have pages := (State.lanePage_readable read).pg
    have seqs := (u.spilled_seqs inPool (x.table.entries.getD i {}).page bs).trans (congrArg Pages.seqs pages)
    have named := (State.seq?_congr seqs q).trans hx
    refine ⟨_, (exec_pageDemote_demotes order low own).trans (by rw [State.demote_spilled hi hx hf rfl read alone, Option.getD_some]),
      ⟨_, State.seq?_editSeq named _, by simp⟩, fun k hk => ?_, ?_⟩
    · rw [State.editSeq_some named, State.get?_putSeq_ne _ _ hk, seqs]
    · rw [State.editSeq_some named, ← pages]
      exact State.spilled_spill inPool (x.table.entries.getD i {}).page bs
  case calm => rw [exec_pageWaitLimit_over order late, State.preemptYoungest, noBe]
  case preempts => rw [exec_pageWaitLimit_over order late, State.preemptYoungest, be]
  case waits =>
    have due := State.editWhenFree_waits hx busy (.lost e.page)
    refine ⟨_, (exec_rebuildMark_bad hx bad).trans (congrArg _ due), _, State.seq?_putSeq_self s _ (State.seq?_some hx).2, rfl, rfl, rfl⟩
  case cut =>
    have loses := State.editWhenFree_loses hx free hd (PageTable.lose_committed at_ committed)
    refine ⟨_, (exec_rebuildMark_bad hx bad).trans (congrArg _ loses), ⟨_, State.seq?_putSeq_self s _ ?_, ?_, ?_⟩, State.obj_incObj_self .., rfl⟩
    · simp [Sequence.cutTo, (State.seq?_some hx).2]
    · rw [Sequence.reclaimed_table]
      exact x.publish_table _
    · rw [Sequence.reclaimed_rebuild, Sequence.reclaimed_table, Sequence.cutTo_rebuild]

end Sys2Proof.Machine
end

section
/-! SUPPORT. Lane commands: what LN_COPY and LN_HOST move, and how a failed read ends them (R351, R413, R433, R434, R439, R544). -/

namespace Sys2Proof.Machine

/-! ### The command at its Lane -/

/-- The state in which a command that lost no control word begins. -/
abbrev State.begun (s : State) (e : Nat) (hw : Hw) (c : Cmd) : State := (s.upset e hw).putCmd c

theorem State.atCommand_begun {s : State} {e op : Nat} {hw : Hw} {c : Cmd} (go : State → Cmd → State) (h : s.ready? e op = some c)
    (hc : c.ctl = none) (hl : ctlLost hw = none) : s.atCommand e op hw go = go (s.begun e hw c) c := by
  have same : { c with ctl := c.ctl.or (ctlLost hw) } = c := by rw [hl, hc, Option.or_none, ← hc]
  rw [State.atCommand_sound go h hc hl, State.struck, same]

theorem State.begun_moves (s : State) (e : Nat) (hw : Hw) (c : Cmd) : Moves 0x4000001001004 s (s.begun e hw c) :=
  State.putCmd_moves (State.upset_moves (Moves.rfl' _ s) (by decide) e hw) (by decide) _

/-- A Lane command with its opcode. -/
def OfLane (x : Instr) (eng : Eng) (hw : Hw) (op : Nat) : Prop :=
  (x = .lnCopy eng hw ∧ op = 0x70) ∨ (∃ f data, x = .lnHost eng hw f data ∧ op = 0x71) ∨ (x = .lnRwrite eng hw ∧ op = 0x72)
    ∨ (x = .lnRtag eng hw ∧ op = 0x73) ∨ (x = .lnRread eng hw ∧ op = 0x74)

/-- A Lane command acts on the command that holds its Lane. -/
theorem exec_ofLane {x : Instr} {eng : Eng} {hw : Hw} {op : Nat} (s : State) (h : OfLane x eng hw op) :
    ∃ go, exec x s = .next (s.atCommand eng.toNat op hw go) := by
  rcases h with ⟨rfl, rfl⟩ | ⟨f, data, rfl, rfl⟩ | ⟨rfl, rfl⟩ | ⟨rfl, rfl⟩ | ⟨rfl, rfl⟩ <;> exact ⟨_, rfl⟩

/-! ### What comes from HBM -/

section
variable {s : State} {c : Cmd} {a n : Nat} (go : State → List Byte → State)

theorem State.fromHbm_read (h : (s.laneRead c.desc.engine a n).2.2 = none) :
    s.fromHbm c a n go = go (s.laneRead c.desc.engine a n).2.1 (s.laneRead c.desc.engine a n).1 := by
  simp only [State.fromHbm, h]

theorem State.fromHbm_unread {line : Nat} (h : (s.laneRead c.desc.engine a n).2.2 = some line) :
    s.fromHbm c a n go = (s.laneRead c.desc.engine a n).2.1.failLine c line := by
  simp only [State.fromHbm, h]

end

theorem State.hbmUncorrected_ctlOnly (s : State) (line source : Nat) : CtlOnly s (s.hbmUncorrected line source) :=
  ((s.incObj_ctlOnly 0x4003 2).trans (State.incObj_ctlOnly _ _ _)).trans (State.emcyEvent_ctlOnly _ _ _)

/-- A command whose line stays unreadable ends with ECC_UNCORR and the line (R413). -/
theorem State.failLine_ends (s : State) (c : Cmd) (line : Nat) :
    (s.failLine c line).rb.cmds = s.cmdsWith { c with phase := .ended, flags := withFlag c.flags flEccUncorr, addr := line, inHbm := true }
      ∧ (s.failLine c line).st = s.st :=
  have same := (s.hbmUncorrected_ctlOnly line c.desc.engine).untouched
  ⟨same.cmdsWith _, same.1⟩

/-! ### A command whose host read failed -/

/-- It ends with TIMEOUT and the bytes that came before (R439), and no store changes. -/
theorem State.failHost_ends (s : State) (c : Cmd) (f : ReadFault) (off : Nat) :
    SameStores s (s.failHost c f off)
      ∧ (s.failHost c f off).rb.cmds =
        s.cmdsWith { c with phase := .ended, flags := withFlag c.flags flTimeout, detail := off, hostRead := true } :=
  have moves := State.hostReadFault_moves (Moves.rfl' 0x2000000000 s) (by decide) (s.tablePart c.desc) f
  ⟨(moves.sameStores (by decide)).trans (.of_st rfl), moves.cmdsWith (by decide) _⟩

/-! ### Rows that leave the scratchpad -/

/-- A result that writes nothing meets no row that a command reads. -/
theorem overlaps_empty (c : Cmd) (roles : List Role) (sp : List Span) : overlaps c roles sp {} = false := by
  simp [overlaps]

/-- A result that writes nothing only ends its command. -/
theorem State.finish_empty (s : State) (c : Cmd) : s.finish c {} = s.putCmd (c.endedWith {}) := by
  have land : s.land c {} = s := by
    unfold State.land
    cases c.shadow <;> cases gatherOf c.desc.engine <;> rfl
  have lands : s.finish c {} = (s.land c {}).putCmd (c.endedWith {}) := rfl
  rw [lands, land]

/-- A transfer out of the scratchpad whose rows can all be read hands them on once its command has ended. -/
theorem State.runOn_rowsOut {s now : State} {op n : Nat} {put : State → Cmd → List Byte → State} {c : Cmd} {i : OpInfo} {x : Result}
    (hi : opInfo c.desc = some i) (hs : c.shadow = false) (h : s.pathEnd (rowsOutPath op n put) c i = .data now x) :
    ∃ f, s.runOn (rowsOutPath op n put) c =
      put (now.putCmd (Cmd.endedWith { c with far := f } {})) c
        ((now.viewOf c.desc.engine).opRows (c.ops.getD 0 {}) (c.ops.getD 0 {}).off n) := by
  have clean := State.landPath_clean (s := now) (p := rowsOutPath op n put) (k := c) (r := {}) rfl (overlaps_empty c i.roles (s.spans c.desc c.ops))
    (by rw [hs]; rfl)
  rw [State.finish_empty] at clean
  exact ⟨_, (State.runOn_data hi h).2.trans clean⟩

/-- Reading those rows changes no store and no command. -/
theorem State.pathEnd_untouched {s now : State} {p : Datapath} {c : Cmd} {i : OpInfo} {x : Result} (hi : opInfo c.desc = some i)
    (h : s.pathEnd p c i = .data now x) : Untouched s now := by
  obtain ⟨t, same, leaves⟩ := State.runOn_leaves (s := s) (p := p) hi
  rw [h] at leaves
  exact leaves.1 ▸ same

/-- Nor does it change host memory: the transfer that does nothing with its rows leaves what reading them left. -/
theorem State.pathEnd_hostMem {s now : State} {op n : Nat} {put : State → Cmd → List Byte → State} {c : Cmd} {i : OpInfo} {x : Result}
    (hi : opInfo c.desc = some i) (hs : c.shadow = false) (h : s.pathEnd (rowsOutPath op n put) c i = .data now x) :
    now.host.mem = s.host.mem := by
  obtain ⟨f, run⟩ := State.runOn_rowsOut (put := fun t _ _ => t) hi hs h
  have moves := State.runOn_moves (Moves.rfl' 0xa4000000141067 s) (by decide) (rowsOutPath op n fun t _ _ => t) c fun _ _ _ h => h
  exact (congrArg (·.host.mem) run).symm.trans (moves.frame.host.mem (by decide))

/-! ### LN_COPY -/

section
variable {eng : Eng} {hw : Hw} {s : State} {c : Cmd} (h : s.ready? eng.toNat 0x70 = some c) (hc : c.ctl = none) (hl : ctlLost hw = none)
include h hc hl

theorem exec_lnCopy_in (hd : c.desc.param 0 2 = 0) :
    exec (.lnCopy eng hw) s = .next ((s.begun eng.toNat hw c).fromHbm c (bits (c.desc.word 4) 0 36) (c.desc.param 2 17 * 512)
      fun u bs => u.runOn (rowsInPath 0x70 0 (c.desc.param 2 17) fun _ _ => bs) c) := by
  simp only [exec, execLnCopy, State.atCommand_begun _ h hc hl, hd]

theorem exec_lnCopy_out (hd : c.desc.param 0 2 = 1) :
    exec (.lnCopy eng hw) s = .next ((s.begun eng.toNat hw c).runOn
      (rowsOutPath 0x70 (c.desc.param 2 17) fun u _ bs => u.writeHbm (bits (c.desc.word 4) 0 36) bs) c) := by
  simp only [exec, execLnCopy, State.atCommand_begun _ h hc hl, hd]

theorem exec_lnCopy_rows (hd : 2 ≤ c.desc.param 0 2) :
    exec (.lnCopy eng hw) s = .next ((s.begun eng.toNat hw c).runOn (rowsInPath 0x70 1 (c.desc.param 2 17) fun v x =>
      v.opRows (x.ops.getD 0 {}) (x.ops.getD 0 {}).off (c.desc.param 2 17)) c) := by
  obtain ⟨k, hk⟩ := Nat.exists_eq_add_of_le' hd
  simp only [exec, execLnCopy, State.atCommand_begun _ h hc hl, hk]

end

/-! ### LN_HOST -/

section
variable {eng : Eng} {hw : Hw} {fault : Option ReadFault} {data : List Byte} {s : State} {c : Cmd}
  (h : s.ready? eng.toNat 0x71 = some c) (hc : c.ctl = none) (hl : ctlLost hw = none)
include h hc hl

theorem exec_lnHost_waits (off : ((s.begun eng.toNat hw c).fn ((s.begun eng.toNat hw c).tablePart c.desc)).bme = false) :
    exec (.lnHost eng hw fault data) s = .next s := by
  simp only [exec, execLnHost, State.atCommand_begun _ h hc hl, off, Bool.not_false, if_true]

variable (on : ((s.begun eng.toNat hw c).fn ((s.begun eng.toNat hw c).tablePart c.desc)).bme = true)
include on

theorem exec_lnHost_fails (f : ReadFault) (hd : c.desc.param 0 2 = 0 ∨ c.desc.param 0 2 = 2) :
    exec (.lnHost eng hw (some f) data) s = .next ((s.begun eng.toNat hw c).failHost c f data.length) := by
  rcases hd with hd | hd <;>
    simp only [exec, execLnHost, State.atCommand_begun _ h hc hl, on, hd, Bool.not_true, Bool.false_eq_true, if_false]

theorem exec_lnHost_toRows (hd : c.desc.param 0 2 = 0) :
    exec (.lnHost eng hw none data) s = .next ((s.begun eng.toNat hw c).runOn
      (rowsInPath 0x71 0 ((c.desc.param 2 32 + 511) / 512) fun _ _ => slice data 0 (c.desc.param 2 32)) c) := by
  simp only [exec, execLnHost, State.atCommand_begun _ h hc hl, on, hd, Bool.not_true, Bool.false_eq_true, if_false]

theorem exec_lnHost_fromRows (hd : c.desc.param 0 2 = 1) :
    exec (.lnHost eng hw fault data) s = .next ((s.begun eng.toNat hw c).runOn
      (rowsOutPath 0x71 ((c.desc.param 2 32 + 511) / 512) fun u _ bs => u.hostWrite (c.desc.word 4) (bs.take (c.desc.param 2 32))) c) := by
  simp only [exec, execLnHost, State.atCommand_begun _ h hc hl, on, hd, Bool.not_true, Bool.false_eq_true, if_false]

theorem exec_lnHost_toHbm (hd : c.desc.param 0 2 = 2) :
    exec (.lnHost eng hw none data) s = .next
      (((s.begun eng.toNat hw c).writeHbm (bits (c.desc.word 5) 0 36) (slice data 0 (c.desc.param 2 32))).endCmd c) := by
  simp only [exec, execLnHost, State.atCommand_begun _ h hc hl, on, hd, Bool.not_true, Bool.false_eq_true, if_false]

theorem exec_lnHost_fromHbm (hd : c.desc.param 0 2 = 3) :
    exec (.lnHost eng hw fault data) s = .next ((s.begun eng.toNat hw c).fromHbm c (bits (c.desc.word 5) 0 36) (c.desc.param 2 32)
      fun u bs => (u.hostWrite (c.desc.word 4) bs).endCmd c) := by
  simp only [exec, execLnHost, State.atCommand_begun _ h hc hl, on, hd, Bool.not_true, Bool.false_eq_true, if_false]

end

/-- Settles O30: each direction of LN_COPY and LN_HOST by what it reads and where its bytes go. -/
theorem lanesMoveData : Obligations.LanesMoveData := by
  refine ⟨fun eng hw s x op hx => ?lane, fun eng hw s c h hc hl => ?copy, fun eng hw fault data s c h hc hl => ?host⟩
  case lane =>
    obtain ⟨go, run⟩ := exec_ofLane s hx
    exact ⟨fun h => run.trans (congrArg _ (State.atCommand_waits go h)), fun c h lost => ⟨_, run, State.atCommand_lost_stores go h lost⟩⟩
  case copy =>
    refine ⟨fun hd read => (exec_lnCopy_in h hc hl hd).trans (congrArg _ (State.fromHbm_read _ read)),
      fun line hd unread => ⟨_, (exec_lnCopy_in h hc hl hd).trans (congrArg _ (State.fromHbm_unread _ unread)), State.failLine_ends ..⟩,
      fun i now x put hd hi hs hput read => ?out, exec_lnCopy_rows h hc hl⟩
    case out =>
      subst hput
      have same := State.pathEnd_untouched hi read
      obtain ⟨f, run⟩ := State.runOn_rowsOut hi hs read
      refine ⟨_, (exec_lnCopy_out h hc hl hd).trans (congrArg _ run), Mem.readBytes_writeBytes .., fun j hj => ?_,
        (congrArg Store.sp same.1 :), f, same.cmdsWith _⟩
      exact (Mem.read_writeBytes_out _ _ _ _ hj).trans (by rw [State.putCmd_st, same.1])
  case host =>
    refine ⟨exec_lnHost_waits h hc hl, fun on => ⟨fun f hf hd => ?fails, fun hf hd => hf ▸ exec_lnHost_toRows h hc hl on hd,
      fun hf hd => ?toHbm, fun i now x put hd hi hs hput read => ?fromRows, fun hd => ⟨fun read => ?fromHbm, fun line unread =>
        ⟨_, (exec_lnHost_fromHbm h hc hl on hd).trans (congrArg _ (State.fromHbm_unread _ unread)), (State.failLine_ends ..).symm⟩⟩⟩⟩
    case fails =>
      subst hf
      obtain ⟨stores, cmds⟩ := (s.begun eng.toNat hw c).failHost_ends c f data.length
      exact ⟨_, exec_lnHost_fails h hc hl on f hd, ((s.begun_moves ..).sameStores (by decide)).trans stores, cmds⟩
    case toHbm =>
      subst hf
      have len := slice_length data 0 (c.desc.param 2 32)
      have written := Mem.readBytes_writeBytes (s.begun eng.toNat hw c).st.hbm (bits (c.desc.word 5) 0 36) (slice data 0 (c.desc.param 2 32))
      rw [len] at written
      exact ⟨_, exec_lnHost_toHbm h hc hl on hd, rfl, written, rfl, fun j hj => Mem.read_writeBytes_out _ _ _ _ (by rwa [len])⟩
    case fromRows =>
      subst hput
      have same := State.pathEnd_untouched hi read
      obtain ⟨f, run⟩ := State.runOn_rowsOut hi hs read
      refine ⟨_, (exec_lnHost_fromRows h hc hl on hd).trans (congrArg _ run), Mem.readBytes_writeBytes .., fun j hj => ?_,
        .of_st same.1, f, same.cmdsWith _⟩
      exact (Mem.read_writeBytes_out _ _ _ _ hj).trans (by rw [State.putCmd_host, State.pathEnd_hostMem hi hs read])
    case fromHbm =>
      exact ⟨_, (exec_lnHost_fromHbm h hc hl on hd).trans (congrArg _ (State.fromHbm_read _ read)), Mem.readBytes_writeBytes .., rfl⟩

end Sys2Proof.Machine
end

section
/-! SUPPORT. The submissions of a cycle in which the ports keep none of them (R335). -/

namespace Sys2Proof.Machine

/-- The state in which the ports of the cores of some submissions report RETRY. -/
def State.retryAll (s : State) (l : List (Core × Words8)) : State := l.foldl (fun t x => t.setReport x.1.val .retry) s

section
variable {s : State} {l : List (Core × Words8)}

/-- Submissions that no port can keep are all retried: a report frees no slot and fills no queue. -/
theorem State.submit_foldl_retry (full : ∀ x ∈ l, s.portFull x.2) : l.foldl (fun t x => t.submit x.1.val x.2) s = s.retryAll l := by
  induction l generalizing s with
  | nil => rfl
  | cons x l ih =>
    rw [List.foldl_cons, State.submit_retry (full x List.mem_cons_self)]
    exact ih fun y hy => (full y (List.mem_cons_of_mem _ hy) : s.portFull y.2)

theorem State.retryAll_only (s : State) (l : List (Core × Words8)) :
    s.retryAll l = { s with rb := { s.rb with report := (s.retryAll l).rb.report } } := by
  induction l generalizing s with
  | nil => rfl
  | cons x l ih => exact ih (s.setReport x.1.val .retry)

theorem State.retryAll_report (s : State) (l : List (Core × Words8)) (core : Nat) :
    Tbl.get? (s.retryAll l).rb.report core = if ∃ x ∈ l, x.1.val = core then some .retry else Tbl.get? s.rb.report core := by
  induction l generalizing s with
  | nil => simp [State.retryAll]
  | cons x l ih =>
    refine (ih (s.setReport x.1.val .retry)).trans ?_
    by_cases later : ∃ y ∈ l, y.1.val = core
    · rw [if_pos later, if_pos (later.imp fun y hy => ⟨List.mem_cons_of_mem _ hy.1, hy.2⟩)]
    · simp only [later, if_false, List.mem_cons, or_and_right, exists_or, exists_eq_left, or_false]
      refine (Tbl.get?_put ..).trans ?_
      simp only [eq_comm]

end

theorem mem_of_mem_turnOrder {last : Nat} {l : List (Core × Words8)} {x : Core × Words8} (h : x ∈ turnOrder last l) : x ∈ l := by
  obtain ⟨k, -, found⟩ := List.mem_filterMap.1 h
  exact List.mem_of_find?_eq_some found

/-- Settles O35: the submissions that are served are retried one after another, and a report changes nothing that the next one meets. -/
theorem fullSubmissionsAreRetried : Obligations.FullSubmissionsAreRetried := by
  intro core d others s full
  have retried := State.submit_foldl_retry (s := s) (l := (turnOrder s.rb.lastCore ((core, d) :: others)).filter fun x => s.coreRuns x.1.val)
    fun x hx => (full x (mem_of_mem_turnOrder (List.mem_of_mem_filter hx))).symm
  refine ⟨_, congrArg Host.Outcome.next retried, s.retryAll_only _, fun x hx runs => ?_, fun c hc => ?_⟩
  · rw [State.retryAll_report, if_pos ⟨x, List.mem_filter.2 ⟨hx, runs⟩, rfl⟩]
  · rw [State.retryAll_report, if_neg fun ⟨x, hx, same⟩ => hc x (List.mem_of_mem_filter hx) same]

end Sys2Proof.Machine
end

section
/-! SUPPORT. The tick of the regulators, and a charge (R369, R394). -/

namespace Sys2Proof.Machine

/-! ### A pass over the keys of a table -/

section
variable {ι α : Type} [DecidableEq α] (d : α) (key : ι → Nat) (g : ι → α → α)

/-- Every key of a list is set anew, one after another, from what it holds. -/
def Tbl.pass (l : List ι) (t : Tbl α) : Tbl α := l.foldl (fun u i => Tbl.setD u d (key i) (g i (Tbl.getD u d (key i)))) t

theorem Tbl.getD_pass_other {l : List ι} {k : Nat} (h : k ∉ l.map key) (t : Tbl α) : Tbl.getD (Tbl.pass d key g l t) d k = Tbl.getD t d k := by
  induction l generalizing t with
  | nil => rfl
  | cons i l ih =>
    rw [List.map_cons, List.mem_cons, not_or] at h
    exact (ih h.2 _).trans (by rw [Tbl.getD_setD, if_neg h.1])

/-- Where no key stands twice, each is set once, from what it held at first. -/
theorem Tbl.getD_pass {l : List ι} (distinct : (l.map key).Nodup) {i : ι} (hi : i ∈ l) (t : Tbl α) :
    Tbl.getD (Tbl.pass d key g l t) d (key i) = g i (Tbl.getD t d (key i)) := by
  induction l generalizing t with
  | nil => cases hi
  | cons j l ih =>
    rw [List.map_cons, List.nodup_cons] at distinct
    rcases List.mem_cons.1 hi with rfl | later
    · exact (Tbl.getD_pass_other d key g distinct.1 _).trans (Tbl.getD_setD_self ..)
    · have other : key i ≠ key j := fun same => distinct.1 (same ▸ List.mem_map_of_mem later)
      exact (ih distinct.2 later _).trans (by rw [Tbl.getD_setD, if_neg other])

end

/-! ### The tick -/

/-- The five regulators of the sixteen partitions. -/
def regulators : List (Nat × Nat) := List.range 16 ×ˢ List.range 5

/-- Where the count and the charges of a regulator stand. -/
def regKey (x : Nat × Nat) : Nat := x.1 * 8 + x.2

theorem mem_regulators {p r : Nat} : (p, r) ∈ regulators ↔ p < 16 ∧ r < 5 := by
  simp [regulators]

theorem regKey_nodup : (regulators.map regKey).Nodup := by
  refine (List.nodup_range.product List.nodup_range).map_on fun ⟨p, r⟩ hx ⟨q, k⟩ hy same => ?_
  have small := (mem_regulators.1 hx).2
  have small' := (mem_regulators.1 hy).2
  simp only [regKey] at same
  exact Prod.ext (by dsimp only; omega) (by dsimp only; omega)

/-- The count of a regulator after a microsecond. -/
def State.ticked (s : State) (x : Nat × Nat) (n : Int) : Int :=
  refill n (s.obj (0x2400 + x.1) (6 + 2 * x.2)) (s.obj (0x2400 + x.1) (7 + 2 * x.2)) (Tbl.getD s.rb.charges 0 (regKey x))

theorem exec_regulatorRefill (s : State) :
    exec .regulatorRefill s = .next { s with rb := { s.rb with bucket := Tbl.pass 0 regKey s.ticked regulators s.rb.bucket, charges := [] } } := by
  have nested : Tbl.pass 0 regKey s.ticked regulators s.rb.bucket = (List.range 16).foldl (fun t p => (List.range 5).foldl (fun u r =>
      Tbl.setD u 0 (regKey (p, r)) (s.ticked (p, r) (Tbl.getD u 0 (regKey (p, r))))) t) s.rb.bucket := by
    simp only [Tbl.pass, regulators, SProd.sprod, List.product, List.foldl_flatMap, List.foldl_map]
  rw [nested]
  rfl

theorem refill_rate {rate : Nat} (h : rate ≠ 0) (n : Int) (burst charge : Nat) :
    refill n rate burst charge = min (n + rate) (burst * 1024 : Nat) - charge := if_neg h

theorem refill_noRate {rate : Nat} (h : rate = 0) (n : Int) (burst charge : Nat) :
    refill n rate burst charge = max (min (n + rate) (burst * 1024 : Nat) - charge) 0 := if_pos h

/-! ### A charge -/

theorem State.chargePart_charges (s : State) (p r x : Nat) :
    (s.chargePart p r x).rb.charges = Tbl.setD s.rb.charges 0 (p * 8 + r) (Tbl.getD s.rb.charges 0 (p * 8 + r) + x) := by
  unfold State.chargePart
  dsimp only
  split <;> rfl

theorem State.chargePart_counts (s : State) {p r x c : Nat} (h : regCounter r = some c) :
    (s.chargePart p r x).obj (0x3000 + p) c = (s.obj (0x3000 + p) c + x) % 2 ^ 64 := by
  unfold State.chargePart
  rw [h]
  exact State.obj_setObj_self ..

/-- Settles O36: a tick sets every regulator once, from its own count and charges; a charge adds to its own. -/
theorem regulatorsTickAsStated : Obligations.RegulatorsTickAsStated := by
  refine ⟨fun s => ⟨_, exec_regulatorRefill s, rfl, fun p r hp hr => ?tick⟩, fun s p r x => ⟨?charge, fun c hc => s.chargePart_counts hc⟩⟩
  case tick =>
    have count := Tbl.getD_pass 0 regKey s.ticked regKey_nodup (mem_regulators.2 ⟨hp, hr⟩) s.rb.bucket
    refine ⟨fun rate => count.trans (refill_rate rate ..), fun noRate => ?_⟩
    have floored := count.trans (refill_noRate noRate ..)
    exact ⟨floored, le_of_le_of_eq (le_max_right _ _) floored.symm⟩
  case charge => rw [State.chargePart_charges, Tbl.getD_setD_self]

end Sys2Proof.Machine
end

section
/-! SUPPORT. Batches: how one closes, what each level of its reservation takes, and a block that leaves residency (R380 to R386, R395,
R396). -/

namespace Sys2Proof.Machine

/-! ### Closing (R380 to R383) -/

section
variable {model : ModelNo} {cls : Bool} {ms : Nat} {s : State}

theorem exec_batchClose_waits (h : s.freeBatch = none ∨ s.closes model.val (b2n cls) ms (s.forming model.val (b2n cls) ms) = false) :
    exec (.batchClose model cls ms) s = .next s := by
  show execBatchClose model cls ms s = _
  unfold execBatchClose
  rcases h with h | h
  · rw [h]
  · split
    · exact if_neg (Bool.not_eq_true _ ▸ h)
    · rfl

theorem exec_batchClose_closes {bid : Nat} (free : s.freeBatch = some bid)
    (due : s.closes model.val (b2n cls) ms (s.forming model.val (b2n cls) ms) = true) :
    exec (.batchClose model cls ms) s = .next (s.closeBatch model.val (b2n cls) ms bid
      ((s.forming model.val (b2n cls) ms).take ((s.model model.val).bMax ms))) := by
  show execBatchClose model cls ms s = _
  unfold execBatchClose
  rw [free]
  exact if_pos due

end

/-- A batch that finds a Square is in the list, with the members that closed it, and holds nothing yet. -/
theorem State.closeBatch_batch {s : State} {m cls ms bid aff : Nat} {l : List Chunk}
    (h : bestSquare ((s.useBlocks m).finishEstimate (l.map fun c => (c.sid, c.no))) (s.useBlocks m).placeSquares = some aff) :
    ∃ b, Tbl.get? (s.closeBatch m cls ms bid l).str.batches bid = some b ∧ b.model = m ∧ b.cls = cls ∧ b.chunkMs = ms
      ∧ b.members = l.map (fun c => (c.sid, c.no)) ∧ b.level = 0 ∧ b.closedAt = s.now := by
  unfold State.closeBatch
  dsimp only
  rw [h]
  exact ⟨_, Tbl.get?_put_self .., rfl, rfl, rfl, rfl, rfl, rfl⟩

/-! ### Reservation, level by level (R395, R396) -/

/-- The level that a batch holds; 9 where there is none. -/
def State.batchLevel (s : State) (bid : Nat) : Nat := ((Tbl.get? s.str.batches bid).map (·.level)).getD 9

/-- A step of the reservation of a batch, taken from the level for which it is meant. -/
def State.fromLevel (bid n : Nat) (f : State → State) (s : State) : State := if s.batchLevel bid = n then f s else s

theorem exec_batchReserve (bid : BatchId) (parts : List RxReg) (s : State) :
    exec (.batchReserve bid parts) s = .next (State.fromLevel bid.val 4 (·.levelFive bid.val)
      (State.fromLevel bid.val 3 (·.levelFour bid.val parts) (State.fromLevel bid.val 2 (·.levelThree bid.val)
        (State.fromLevel bid.val 1 (·.levelTwo bid.val) (State.fromLevel bid.val 0 (·.levelOne bid.val) s))))) := rfl

section
variable {s : State} {bid : Nat}

theorem State.batchLevel_some {b : Batch} (h : Tbl.get? s.str.batches bid = some b) : s.batchLevel bid = b.level := by
  rw [State.batchLevel, h, Option.map_some, Option.getD_some]

theorem State.batchLevel_none (h : Tbl.get? s.str.batches bid = none) : s.batchLevel bid = 9 := by
  rw [State.batchLevel, h, Option.map_none, Option.getD_none]

theorem State.batchLevel_putBatch (s : State) (bid : Nat) (b : Batch) : (s.putBatch bid b).batchLevel bid = b.level :=
  State.batchLevel_some (Tbl.get?_put_self ..)

theorem State.fromLevel_at {n : Nat} (f : State → State) (h : s.batchLevel bid = n) : State.fromLevel bid n f s = f s := if_pos h

theorem State.fromLevel_off {n : Nat} (f : State → State) (h : s.batchLevel bid ≠ n) : State.fromLevel bid n f s = s := if_neg h

/-- After level 1 a batch holds it, or has lost its members and is gone. -/
theorem State.levelOne_leaves (s : State) (bid : Nat) : (s.levelOne bid).batchLevel bid ≠ 0 := by
  unfold State.levelOne
  split
  · next gone => simp [State.batchLevel_none gone]
  · dsimp only
    split
    · next gone => simp [State.batchLevel_none gone]
    · split
      · exact ne_of_eq_of_ne (State.batchLevel_none (Tbl.get?_erase_self ..)) (by decide)
      · exact ne_of_eq_of_ne (State.batchLevel_putBatch ..) one_ne_zero

variable {b : Batch} (h : Tbl.get? s.str.batches bid = some b)
include h

theorem State.levelTwo_waits (no : s.mustYield bid b 1 = true ∨ s.workFits b = false) : s.levelTwo bid = s := by
  simp only [State.levelTwo, h]
  exact if_pos (no.imp_right fun full => by rw [full]; rfl)

theorem State.levelTwo_takes (first : s.mustYield bid b 1 = false) (fits : s.workFits b = true) :
    s.levelTwo bid =
      s.putBatch bid { b with level := 2, handles := (s.model b.model).table.workHandles, rows := (s.model b.model).table.workRows } := by
  simp only [State.levelTwo, h]
  exact if_neg (by simp [first, fits])

theorem State.levelFive_waits (no : s.mustYield bid b 4 = true ∨ (s.slotLedger b.cls).2 < (s.slotLedger b.cls).1 + s.inForce 0x4018 4) :
    s.levelFive bid = s := by
  simp only [State.levelFive, h]
  exact if_pos no

theorem State.levelFive_takes (first : s.mustYield bid b 4 = false)
    (fits : (s.slotLedger b.cls).1 + s.inForce 0x4018 4 ≤ (s.slotLedger b.cls).2) :
    s.levelFive bid = s.putBatch bid { b with level := 5, slots := s.inForce 0x4018 4 } := by
  simp only [State.levelFive, h]
  exact if_neg (by simp [first, fits])

end

section
variable {s t : State} {bid : BatchId} (parts : List RxReg)

/-- Without a batch that waits there is nothing to take. -/
theorem exec_batchReserve_idle (h : 5 ≤ s.batchLevel bid.val) : exec (.batchReserve bid parts) s = .next s := by
  have off : ∀ n, n < 5 → s.batchLevel bid.val ≠ n := fun n hn => by omega
  simp only [exec_batchReserve, State.fromLevel_off _ (off _ _), Nat.reduceLT]

/-- A batch at level 0 takes level 1 and goes on from what that leaves. -/
theorem exec_batchReserve_zero (h : s.batchLevel bid.val = 0) :
    exec (.batchReserve bid parts) s = exec (.batchReserve bid parts) (s.levelOne bid.val) := by
  rw [exec_batchReserve, State.fromLevel_at _ h, exec_batchReserve, State.fromLevel_off _ (s.levelOne_leaves bid.val)]

theorem exec_batchReserve_one (h : s.batchLevel bid.val = 1) (two : s.levelTwo bid.val = t) (ht : t.batchLevel bid.val = 2) :
    exec (.batchReserve bid parts) s = exec (.batchReserve bid parts) t := by
  have zero : s.batchLevel bid.val ≠ 0 := h ▸ one_ne_zero
  have off : ∀ n, n < 2 → t.batchLevel bid.val ≠ n := fun n hn => by omega
  rw [exec_batchReserve, State.fromLevel_off _ zero, State.fromLevel_at _ h, two, exec_batchReserve,
    State.fromLevel_off _ (off 0 (by decide)), State.fromLevel_off _ (off 1 (by decide))]

theorem exec_batchReserve_stuck (h : s.batchLevel bid.val = 1) (two : s.levelTwo bid.val = s) :
    exec (.batchReserve bid parts) s = .next s := by
  have off : ∀ n, n ≠ 1 → s.batchLevel bid.val ≠ n := fun n hn => by omega
  rw [exec_batchReserve, State.fromLevel_off _ (off 0 (by decide)), State.fromLevel_at _ h, two, State.fromLevel_off _ (off 2 (by decide)),
    State.fromLevel_off _ (off 3 (by decide)), State.fromLevel_off _ (off 4 (by decide))]

theorem exec_batchReserve_four (h : s.batchLevel bid.val = 4) : exec (.batchReserve bid parts) s = .next (s.levelFive bid.val) := by
  have off : ∀ n, n ≠ 4 → s.batchLevel bid.val ≠ n := fun n hn => by omega
  rw [exec_batchReserve, State.fromLevel_off _ (off 0 (by decide)), State.fromLevel_off _ (off 1 (by decide)),
    State.fromLevel_off _ (off 2 (by decide)), State.fromLevel_off _ (off 3 (by decide)), State.fromLevel_at _ h]

end

/-! ### Residency (R385, R386) -/

theorem ModelSlot.isResident_filter (m : ModelSlot) (block k : Nat) :
    ModelSlot.isResident { m with resident := m.resident.filter fun r => r.1 != block } k = (k != block && m.isResident k) := by
  have step : ∀ r : Nat × Nat × Nat, (r.1 != block && r.1 == k) = (k != block && r.1 == k) := fun r => by
    by_cases here : r.1 = k
    · rw [here]
    · rw [beq_false_of_ne here, Bool.and_false, Bool.and_false]
  simp only [ModelSlot.isResident, List.any_filter, step, List.and_any_distrib_left]

/-- The block leaves residency, and no other one of its slot does. -/
theorem State.evictBlock_isResident (s : State) (m block k : Nat) :
    ((s.evictBlock m block).model m).isResident k = (k != block && (s.model m).isResident k) := by
  unfold State.evictBlock
  dsimp only
  split
  · rw [State.model_setModel_self, ModelSlot.isResident_filter]
  · next absent =>
    by_cases same : k = block
    · simp [same, absent]
    · simp [same]

theorem exec_residencyEvict_keeps {slot : ModelNo} {block : Nat} {s : State} (h : s.residency slot.val = 2 ∨ s.modelBusy slot.val = true) :
    exec (.residencyEvict slot block) s = .next s := if_pos h

theorem exec_residencyEvict_evicts {slot : ModelNo} {block : Nat} {s : State} (movable : s.residency slot.val ≠ 2)
    (idle : s.modelBusy slot.val = false) : exec (.residencyEvict slot block) s = .next (s.evictBlock slot.val block) :=
  if_neg (by simp [movable, idle])

/-- Settles O19: a batch closes as `State.closeBatch` says; its reservation goes by the level that it holds; a block is evicted alone. -/
theorem batchesFormAndReserve : Obligations.BatchesFormAndReserve := by
  refine ⟨fun model cls ms s => ⟨exec_batchClose_waits, fun bid aff free due best =>
      ⟨_, exec_batchClose_closes free due, State.closeBatch_batch best⟩⟩,
    fun bid parts s => ⟨fun absent => exec_batchReserve_idle parts (by rw [State.batchLevel_none absent]; decide), fun b hb => ?reserve⟩,
    fun slot block s => ⟨exec_residencyEvict_keeps, fun movable idle => ⟨_, exec_residencyEvict_evicts movable idle, ?evicted, fun k hk => ?kept⟩⟩⟩
  case reserve =>
    have level := State.batchLevel_some hb
    exact ⟨fun h0 => exec_batchReserve_zero parts (level.trans h0),
      fun h1 no => exec_batchReserve_stuck parts (level.trans h1) (State.levelTwo_waits hb no),
      fun h1 first fits => exec_batchReserve_one parts (level.trans h1) (State.levelTwo_takes hb first fits) (State.batchLevel_putBatch ..),
      fun h4 no => (exec_batchReserve_four parts (level.trans h4)).trans (congrArg _ (State.levelFive_waits hb no)),
      fun h4 first fits => (exec_batchReserve_four parts (level.trans h4)).trans (congrArg _ (State.levelFive_takes hb first fits)),
      fun h5 => exec_batchReserve_idle parts (level.trans h5).ge⟩
  case evicted => simp [State.evictBlock_isResident]
  case kept => simp [State.evictBlock_isResident, hk]

end Sys2Proof.Machine
end

section
/-! SUPPORT. The link layer of a Crossing port: the blocks of a frame, what a received frame does to its port, going back N, and the
loss of a port while nothing waits for its peer (R404, R451, R452, R456 to R459, R462). -/

namespace Sys2Proof.Machine

/-! ### The blocks of a frame (R451, R452) -/

theorem flatten_chunksOf {α : Type} (k n : Nat) (l : List α) : (chunksOf k n l).flatten = l.take (k * n) := by
  induction k generalizing l with
  | zero => simp [chunksOf]
  | succ k ih =>
    cases l with
    | nil => simp [chunksOf]
    | cons x l => simp [chunksOf, ih, ← List.take_add, Nat.succ_mul, Nat.add_comm n]

theorem lineBytes_filter (l : List Block) : lineBytes (l.filter fun b => !betweenFrames b) = lineBytes l := by
  simp only [lineBytes, List.filter_filter, Bool.and_self]

theorem filter_frameBlocks (bs : List Byte) : (frameBlocks bs ++ [Block.idle]).filter (!betweenFrames ·) = frameBlocks bs := by
  simp [frameBlocks, betweenFrames, List.filter_map, Function.comp_def]

/-- What stands in the start block, the data blocks and the terminate block together is the frame. -/
theorem frameBlocks_bytes (bs : List Byte) :
    bs.take 7 ++ (chunksOf ((bs.drop 7).length / 8) 8 (bs.drop 7)).flatten ++ (bs.drop 7).drop ((bs.drop 7).length / 8 * 8) = bs := by
  rw [flatten_chunksOf, List.append_assoc, List.take_append_drop, List.take_append_drop]

theorem lineBytes_frameBlocks (bs : List Byte) : lineBytes (frameBlocks bs ++ [Block.idle]) = bs := by
  unfold lineBytes
  rw [filter_frameBlocks]
  simp only [frameBlocks, List.dropLast_concat, List.getLast?_concat, List.flatMap_map, List.flatMap_id', frameBlocks_bytes, if_true]

/-! ### Going back N (R458) -/

theorem XPort.goBack_state (x : XPort) : x.goBack.state = x.state :=
  List.foldlRecOn (motive := fun y : XPort => y.state = x.state) x.retry _ rfl fun _ h _ _ => h

/-- The state with another exchange in progress. -/
abbrev State.withExch (s : State) (e : Option Exchange) : State := { s with tm := { s.tm with exch := e } }

section
variable {s : State} {p : Nat}

theorem State.goBack_idle (h : (s.port p).state ≠ .up ∨ (s.port p).retry = []) : s.goBack p = s := if_pos h

/-- A DELAY_REQ among the frames resent spoils its exchange; the rest concerns the port alone. -/
theorem State.goBack_resends (up : (s.port p).state = .up) (out : (s.port p).retry ≠ []) : ∃ e, s.goBack p =
    if 16 ≤ (s.port p).markFollow.goBack.retryCount then ((s.withExch e).setPort p (s.port p).markFollow.goBack).portDown p 1
    else (s.withExch e).setPort p (XPort.pump 64 (s.port p).markFollow.goBack) := by
  unfold State.goBack
  rw [if_neg (by simp [up, out])]
  by_cases req : ((s.port p).retry.any fun f => f.type == 0xE && f.sub == 3) = true
  · exact ⟨s.tm.exch.map fun e => { e with retx := true }, by simp only [req, if_true]⟩
  · exact ⟨s.tm.exch, by simp only [req]; rfl⟩

end

/-! ### The loss of a port for whose peer nothing waits (R427, R462) -/

/-- The mask of every part of the state but the ports and the chunks. -/
abbrev besidePortsAndChunks : Nat := 2 ^ 75 - 1 - 2 ^ 42 - 2 ^ 27

theorem State.port_congr {s t : State} (h : t.xr.ports = s.xr.ports) (p : Nat) : t.port p = s.port p := by
  rw [State.port, h, State.port]

theorem Moves.port {s t : State} (h : Moves besidePortsAndChunks s t) (p : Nat) : t.port p = s.port p :=
  State.port_congr (h.frame.xr.ports (by decide)) p

theorem Moves.chunks {s t : State} (h : Moves besidePortsAndChunks s t) : t.str.chunks = s.str.chunks := h.frame.str.chunks (by decide)

theorem CtlOnly.port {s t : State} (h : CtlOnly s t) (p : Nat) : t.port p = s.port p :=
  State.port_congr (congrArg Crossings.ports h.xr) p

section
variable {s : State} {p : Nat}

theorem State.settleAborts_idle (h : ∀ c ∈ s.str.chunks, c.abort = none) : s.settleAborts = s.settleGone := by
  have same : s.settleGone.str.chunks = s.str.chunks := (State.settleGone_moves (Moves.rfl' besidePortsAndChunks s) (by decide)).chunks
  unfold State.settleAborts
  dsimp only
  rw [same]
  refine List.foldlRecOn (motive := fun t => t = s.settleGone) s.str.chunks _ rfl fun t ht c hc => ?_
  rw [h c hc]
  exact ht

/-- With no command accepted a lost peer takes its descriptors, walkers and tables with it; then the aborts go on. -/
theorem State.losePeer_settles (dev : Nat) (idle : s.rb.cmds = []) :
    ∃ u, Moves besidePortsAndChunks s u ∧ s.losePeer p dev = u.settleAborts := by
  unfold State.losePeer
  rw [idle]
  refine ⟨_, Moves.leaf (k := 0xb00000000000) (Moves.foldl _ ?_ fun t w ht => ?_) (by decide), rfl⟩
  · exact State.cancelRx_moves (Moves.rfl' besidePortsAndChunks s) (by decide) _
  · exact State.endWalk_moves ht (by decide) _ _

theorem State.port_losePeer (dev : Nat) (idle : s.rb.cmds = []) (calm : ∀ c ∈ s.str.chunks, c.abort = none) (k : Nat) :
    (s.losePeer p dev).port k = s.port k := by
  obtain ⟨u, moved, lost⟩ := State.losePeer_settles (p := p) dev idle
  rw [lost, State.settleAborts_idle (by rwa [moved.chunks])]
  exact (State.settleGone_moves moved (by decide)).port k

theorem State.portDown_notUp (reason : Nat) (h : (s.port p).state ≠ .up) : s.portDown p reason = s := if_pos h

/-- After its peer is lost, a port that goes down is only reported. -/
theorem State.portDown_reports (reason : Nat) (up : (s.port p).state = .up) :
    CtlOnly ((s.setPort p ((s.port p).fall .down reason)).losePeer p (s.port p).peerDev) (s.portDown p reason) := by
  simp only [State.portDown, State.leaveUp, up, ne_eq, not_true_eq_false, if_false, if_true]
  exact (State.logFault_ctlOnly _ _).trans (State.emcyEvent_ctlOnly _ _ _)

theorem State.port_portDown (reason : Nat) (up : (s.port p).state = .up) (idle : s.rb.cmds = [])
    (calm : ∀ c ∈ s.str.chunks, c.abort = none) (k : Nat) :
    (s.portDown p reason).port k = (s.setPort p ((s.port p).fall .down reason)).port k := by
  rw [(State.portDown_reports reason up).port, State.port_losePeer]
  · exact idle
  · exact calm

end

/-! ### LINK_FRAME_RX and NULL (R456, R457) -/

theorem XPort.discard_signals (x : XPort) :
    x.discard = { x with nakSent := true, nakDue := if x.nakSent then x.nakDue else true } := by
  unfold XPort.discard
  split
  · next h => rw [← h]
  · rfl

/-- An acknowledgement that may have to go at once leaves what the port has received. -/
theorem XPort.emitNull_received (x : XPort) (c : Prop) [Decidable c] : (if c then x.emitNull else x).rxSeq = x.rxSeq
    ∧ (if c then x.emitNull else x).framesRx = x.framesRx ∧ (if c then x.emitNull else x).rx = x.rx := by
  split <;> exact ⟨rfl, rfl, rfl⟩

theorem XPort.accept_takes (x : XPort) (f : Frame) : (x.accept f).rxSeq = (x.rxSeq + 1) % 256
    ∧ (x.accept f).framesRx = (x.framesRx + 1) % 2 ^ 32 ∧ (x.accept f).rx = if f.known then x.rx ++ [f] else x.rx := by
  unfold XPort.accept
  cases f.known with
  | true => exact XPort.emitNull_received _ _
  | false => exact XPort.emitNull_received _ _

section
variable {port : PortNo} {blocks : List Block} {s : State}

theorem exec_linkFrameRx_notUp (h : (s.port port.val).state ≠ .up) : exec (.linkFrameRx port blocks) s = .next s := if_pos h

theorem exec_linkFrameRx_bad (up : (s.port port.val).state = .up) (bad : frameGood (lineBytes blocks) = false) :
    exec (.linkFrameRx port blocks) s = .next (s.setPort port.val
      { (s.port port.val).discard with crcErrors := ((s.port port.val).crcErrors + 1) % 2 ^ 32 }) :=
  (if_neg (not_not_intro up)).trans (if_pos (by rw [bad]; rfl))

/-- What a good frame does beyond its header: nothing, an acceptance, or a discard. -/
def State.received (u : State) (p : Nat) (f : Frame) : State :=
  if f.type = 0 ∨ f.type = 0xF ∨ (u.port p).state ≠ .up then u
  else if f.seq = (u.port p).rxSeq then
    let t := u.setPort p ((u.port p).accept f)
    if f.vc ≤ 1 then t.wakeTrigger else t
  else u.setPort p (u.port p).discard

theorem exec_linkFrameRx_good (up : (s.port port.val).state = .up) (good : frameGood (lineBytes blocks) = true) :
    exec (.linkFrameRx port blocks) s = .next ((s.takeHeader port.val (headWord (lineBytes blocks))).received port.val
      (frameOf (lineBytes blocks) s.tm.t)) := by
  refine (if_neg (not_not_intro up)).trans ((if_neg (by rw [good]; decide)).trans ?_)
  unfold State.received
  dsimp only
  split
  · rfl
  · split <;> rfl

theorem exec_linkFrameRx_filter :
    exec (.linkFrameRx port (blocks.filter fun b => !betweenFrames b)) s = exec (.linkFrameRx port blocks) s := by
  change execLinkFrameRx .. = execLinkFrameRx ..
  rw [execLinkFrameRx, lineBytes_filter, execLinkFrameRx]

theorem exec_null_takes (up : (s.port port.val).state = .up) (good : frameGood (lineBytes blocks) = true)
    (isNull : bits (headWord (lineBytes blocks)) 2 4 = 0) :
    exec (.null port blocks) s = .next (s.takeHeader port.val (headWord (lineBytes blocks))) := if_pos ⟨up, good, isNull⟩

theorem exec_null_ignored (h : (s.port port.val).state ≠ .up ∨ frameGood (lineBytes blocks) = false
    ∨ bits (headWord (lineBytes blocks)) 2 4 ≠ 0) : exec (.null port blocks) s = .next s := by
  refine if_neg fun ⟨up, good, isNull⟩ => ?_
  obtain h | h | h := h
  · exact h up
  · rw [good] at h; cases h
  · exact h isNull

end

section
variable {u : State} {p : Nat} {f : Frame}

theorem State.received_headerOnly (h : f.type = 0 ∨ f.type = 0xF ∨ (u.port p).state ≠ .up) : u.received p f = u := if_pos h

section
variable (notNull : f.type ≠ 0) (notIdent : f.type ≠ 0xF) (up : (u.port p).state = .up)
include notNull notIdent up

theorem State.received_discards (h : f.seq ≠ (u.port p).rxSeq) : u.received p f = u.setPort p (u.port p).discard := by
  simp [State.received, notNull, notIdent, up, h]

theorem State.received_wakes (h : f.seq = (u.port p).rxSeq) (hv : f.vc ≤ 1) :
    u.received p f = (u.setPort p ((u.port p).accept f)).wakeTrigger := by
  simp [State.received, notNull, notIdent, up, h, hv]

theorem State.received_accepts (h : f.seq = (u.port p).rxSeq) (hv : 2 ≤ f.vc) : u.received p f = u.setPort p ((u.port p).accept f) := by
  simp [State.received, notNull, notIdent, up, h, Nat.not_le.2 hv]

end

end

/-! ### The timers (R404, R457 to R459) -/

section
variable {port : PortNo} {s : State}

theorem exec_ackTimer_idle (h : (s.port port.val).state ≠ .up ∨ ¬(0 < (s.port port.val).unacked ∨ (s.port port.val).nakDue = true
    ∨ (s.port port.val).owed.any (0 < ·) = true)) : exec (.ackTimer port) s = .next s :=
  if_neg fun ⟨up, due⟩ => h.elim (· up) (· due)

theorem exec_ackTimer_sends (up : (s.port port.val).state = .up) (due : 0 < (s.port port.val).unacked ∨ (s.port port.val).nakDue = true
    ∨ (s.port port.val).owed.any (0 < ·) = true) :
    exec (.ackTimer port) s = .next (s.setPort port.val (s.port port.val).emitNull) := if_pos ⟨up, due⟩

theorem exec_portDownTimeout_falls (h : (s.port port.val).retry ≠ []) :
    exec (.portDownTimeout port) s = .next (s.portDown port.val 2) := if_neg h

theorem exec_portDownTimeout_idle (h : (s.port port.val).state ≠ .up ∨ (s.port port.val).retry = []) :
    exec (.portDownTimeout port) s = .next s := by
  by_cases out : (s.port port.val).retry = []
  · exact if_pos out
  · rw [exec_portDownTimeout_falls out, State.portDown_notUp 2 (h.resolve_right out)]

end

/-- The oldest waiting frame `f` of a channel goes on VC3 (R404). -/
def XPort.escape (x : XPort) (f : Frame) : XPort :=
  ({ x with txQueue := { f with vc := 3 } :: dropFirst f x.txQueue }).sendOne { f with vc := 3 }

theorem XPort.escape_txQueue (x : XPort) (f : Frame) : (x.escape f).txQueue = dropFirst f x.txQueue := if_pos rfl

section
variable {port : PortNo} {vc1 : Bool} {s : State}

theorem exec_escapeTimeout_idle (h : (s.port port.val).state ≠ .up ∨ 0 < nthD (s.port port.val).credit (b2n vc1)
    ∨ nthD (s.port port.val).credit 3 = 0 ∨ 64 ≤ (s.port port.val).retry.length
    ∨ (s.port port.val).txQueue.find? (·.vc == b2n vc1) = none) : exec (.escapeTimeout port vc1) s = .next s := by
  change execEscapeTimeout .. = _
  unfold execEscapeTimeout
  dsimp only
  split
  · rfl
  · have noFrame : (s.port port.val).txQueue.find? (·.vc == b2n vc1) = none := by tauto
    rw [noFrame]

theorem exec_escapeTimeout_sends {f : Frame} (up : (s.port port.val).state = .up) (noCredit : nthD (s.port port.val).credit (b2n vc1) = 0)
    (spare : 0 < nthD (s.port port.val).credit 3) (room : (s.port port.val).retry.length < 64)
    (oldest : (s.port port.val).txQueue.find? (·.vc == b2n vc1) = some f) :
    exec (.escapeTimeout port vc1) s = .next ((s.setPort port.val ((s.port port.val).escape f)).incObj 0x4018 6) := by
  change execEscapeTimeout .. = _
  unfold execEscapeTimeout
  dsimp only
  rw [if_neg (by simp [up, noCredit, spare.ne', room]), oldest]
  rfl

end

/-- Settles O46: a received frame goes by its header and then by `State.received`; the timers resend, or lose the port, whose loss
with no command accepted touches no other port (`State.port_portDown`); an escape is `XPort.escape`. -/
theorem linkFramesAreAcceptedAndResent : Obligations.LinkFramesAreAcceptedAndResent := by
  refine ⟨fun port blocks s => ?received, fun port s => ?timers, fun port vc1 s => ⟨exec_escapeTimeout_idle, ?escape⟩⟩
  case received =>
    intro bytes p x f u
    refine ⟨exec_linkFrameRx_notUp, fun up bad => ⟨_, exec_linkFrameRx_bad up bad, ?bad⟩, fun up good h => ?headerOnly,
      fun up good notNull notIdent still => ?frame, exec_null_takes, exec_null_ignored, exec_linkFrameRx_filter,
      lineBytes_frameBlocks⟩
    case bad =>
      beta_reduce
      rw [State.port_setPort_self, XPort.discard_signals]
      exact ⟨rfl, rfl, rfl, rfl, rfl, fun k hk => State.port_setPort_ne (h := hk) .., rfl, rfl⟩
    case headerOnly => rw [exec_linkFrameRx_good up good, State.received_headerOnly h]
    case frame =>
      rw [exec_linkFrameRx_good up good]
      refine ⟨fun gap => ?_, fun next low => ?_, fun next high => ⟨_, exec_linkFrameRx_good up good, ?_⟩⟩
      · rw [State.received_discards notNull notIdent still gap]
      · rw [State.received_wakes notNull notIdent still next low]
      · beta_reduce
        rw [State.received_accepts notNull notIdent still next high, State.port_setPort_self]
        exact XPort.accept_takes _ f
  case timers =>
    intro p x due
    refine ⟨exec_ackTimer_idle, fun up h => ⟨_, exec_ackTimer_sends up h, ?ack⟩,
      fun h => ⟨congrArg Host.Outcome.next (State.goBack_idle h), exec_portDownTimeout_idle h⟩, fun up out few => ?again,
      fun up out many idle calm => ?given, exec_portDownTimeout_falls,
      fun up out idle calm => ⟨_, exec_portDownTimeout_falls out, ?down⟩⟩
    case ack =>
      beta_reduce
      rw [State.port_setPort_self]
      exact ⟨⟨_, rfl⟩, rfl, rfl, rfl, rfl, fun k hk => State.port_setPort_ne (h := hk) ..⟩
    case again =>
      obtain ⟨e, resent⟩ := State.goBack_resends up out
      rw [if_neg (Nat.not_le.2 few)] at resent
      refine ⟨_, congrArg Host.Outcome.next resent, State.port_setPort_self .., fun k hk => State.port_setPort_ne (h := hk) .., rfl, rfl⟩
    case given =>
      obtain ⟨e, resent⟩ := State.goBack_resends up out
      rw [if_pos many] at resent
      refine ⟨_, congrArg Host.Outcome.next resent, ?_⟩
      have still : (((s.withExch e).setPort p x.markFollow.goBack).port p).state = .up := by
        rw [State.port_setPort_self, XPort.goBack_state]
        exact up
      beta_reduce
      rw [State.port_portDown 1 still idle calm, State.port_setPort_self, State.port_setPort_self]
    case down =>
      have fallen := State.port_portDown 2 up idle calm
      have here : (s.portDown p 2).port p = x.fall .down 2 := (fallen p).trans (State.port_setPort_self ..)
      exact ⟨here, fun k hk => (fallen k).trans (State.port_setPort_ne (h := hk) ..), by rw [here]; rfl, by rw [here]; rfl, by rw [here]; rfl⟩
  case escape =>
    intro f up noCredit spare room oldest
    refine ⟨_, exec_escapeTimeout_sends up noCredit spare room oldest, ?_⟩
    beta_reduce
    rw [(State.incObj_ctlOnly ..).port, State.port_setPort_self]
    exact ⟨XPort.escape_txQueue .., rfl, rfl, rfl, State.obj_incObj_self ..⟩

end Sys2Proof.Machine
end

section
/-! SUPPORT. The invariant of the block: the reset state meets it, and every step keeps it (R18, R133, R425, R447, R500, R501, R512). -/

namespace Sys2Proof.Machine

/-- Settles O4: every store, list and table of the reset state is empty. -/
theorem resetMeetsInvariant : Obligations.ResetMeetsInvariant where
  sp := Mem.wf_nil
  acc := Mem.wf_nil
  hbm := Mem.wf_nil
  ctlMem := Mem.wf_nil
  core := Mem.wf_nil
  spill := Mem.wf_nil
  mirror := Mem.wf_nil
  hostMem := Mem.wf_nil
  faultLog := Nat.zero_le _
  emcy := Nat.zero_le _
  usdo := Nat.zero_le _
  commitLog := Nat.zero_le _
  flash := rfl
  table := ⟨List.Pairwise.nil, List.forall_mem_nil _⟩
  ctlView := List.forall_mem_nil _
  accepted := List.forall_mem_nil _

/-- The invariant says nothing of the queue. -/
theorem State.Inv.popped {s : State} (h : s.Inv) : s.popped.Inv := { h with }

/-- The invariant says nothing of the timebase. -/
theorem State.Inv.idle {s : State} (h : s.Inv) : s.idle.Inv := { h with }

/-- Settles O5: a tick touches nothing that the invariant names, and every command keeps it (`exec_moves`). -/
theorem stepKeepsInvariant : Obligations.StepKeepsInvariant := by
  intro s t inv h
  unfold step at h
  split at h
  · cases h
    exact inv.idle
  · exact ((exec_moves _ _).get t h).inv inv.popped

end Sys2Proof.Machine
end

section
/-! SUPPORT. Control cores that are reset and serve again (R416, R417, R423, R438, R505, R533). -/

namespace Sys2Proof.Machine

/-! ### Changes of the control plane alone -/

section
variable {s t : State}

theorem CtlOnly.str (h : CtlOnly s t) : t.str = s.str := by
  unfold CtlOnly at h
  rw [h]

theorem CtlOnly.pw (h : CtlOnly s t) : t.pw = s.pw := by
  unfold CtlOnly at h
  rw [h]

theorem CtlOnly.boot (h : CtlOnly s t) : t.boot = s.boot := by
  unfold CtlOnly at h
  rw [h]

end

/-! ### The fall of a core and its restart -/

theorem mem_dedup {k : Nat} {l : List Nat} : k ∈ dedup l ↔ k ∈ l := by
  induction l with
  | nil => rfl
  | cons x l ih =>
    by_cases h : k = x
    · simp [dedup, h]
    · simp [dedup, ih, h]

variable {s : State} {core : Core}

/-- A core is down and its memory is cleared; what follows is what its chunks and the fault log have of it (R416, R438). -/
def State.takenDown (s : State) (n : Nat) : State :=
  { s with st := { s.st with core := Mem.clearRange s.st.core (n * 2 ^ 18) (2 ^ 18) }
           ctl := { s.ctl with coresDown := dedup (s.ctl.coresDown ++ [n]), usdo := if n = 0 then [] else s.ctl.usdo } }

/-- Aborting and carrying on the chunks of a core that is down touches neither its memory nor the cores in reset nor USDO. -/
theorem State.resetCore_from_takenDown (s : State) (n : Nat) : Moves 0xa4cc0bfea450ce (s.takenDown n) (s.resetCore n) := by
  have logged : ∀ f, Moves 0xa4cc0bfea450ce (s.takenDown n) ((s.takenDown n).logFault f) :=
    fun f => State.logFault_moves (.rfl' _ _) (by decide) f
  unfold State.resetCore
  dsimp only
  refine iteInduction (fun _ => ?_) (fun _ => State.incObj_moves ?_ (by decide) ..)
  all_goals
    refine Moves.foldl _ (Moves.foldl _ (logged _) ?_) ?_
    · exact fun t c h => State.rollForward_moves h (by decide) _
    · exact fun t c h => State.abortChunk_moves h (by decide) ..

/-- Of a core on which no chunk runs the reset leaves one CORE entry with ACTION 7 in the fault log (R447, R448). -/
theorem State.resetCore_idle {n : Nat} (h : ∀ c ∈ s.str.chunks, s.runsOn c n = false) :
    s.resetCore n = (s.takenDown n).logFault { cls := 8, source := 0x50 + n, action := 7 } := by
  have none : s.str.chunks.filter (fun c => (s.takenDown n).runsOn c n) = [] :=
    List.filter_eq_nil_iff.2 fun c hc => by
      rw [Bool.not_eq_true]
      exact h c hc
  unfold State.takenDown at none
  unfold State.resetCore
  dsimp only
  rw [none]
  rfl

theorem mem_coresDown_takenDown (s : State) (n k : Nat) : k ∈ (s.takenDown n).ctl.coresDown ↔ k = n ∨ k ∈ s.ctl.coresDown := by
  rw [State.takenDown, mem_dedup, List.mem_append, List.mem_singleton, or_comm]

/-- Each core has 256 KiB of memory: those of the core that is down read 0, those of the others as before (R416). -/
theorem read_core_takenDown (s : State) (n a : Nat) :
    Mem.read (s.takenDown n).st.core a = if a / 262144 = n then 0 else Mem.read s.st.core a :=
  Mem.read_clearBlock s.st.core n (2 ^ 18) a (by decide)

/-- The two commands that reset a core, while it serves. -/
def ResetsCore (x : Instr) (core : Core) (s : State) : Prop :=
  x = .ccWatchdog core ∧ s.coreRuns core.val = true ∨ x = .coreMemoryUncorrectable core ∧ s.ctl.coresDown.contains core.val = false

theorem exec_resetsCore {x : Instr} (h : ResetsCore x core s) : exec x s = .next (s.resetCore core.val) := by
  obtain ⟨rfl, runs⟩ | ⟨rfl, up⟩ := h
  · exact if_pos runs
  · refine if_neg ?_
    rw [up]
    exact Bool.false_ne_true

/-- A core that is not down has nothing to restart from. -/
theorem State.coreServes_up {n : Nat} (h : s.ctl.coresDown.contains n = false) : s.coreServes n = s := by
  unfold State.coreServes
  rw [h]
  rfl

/-- The state in which a core is down no longer. -/
def State.restarted (s : State) (n : Nat) : State := { s with ctl := { s.ctl with coresDown := s.ctl.coresDown.filter (· != n) } }

theorem State.coreServes_down {n : Nat} (h : s.ctl.coresDown.contains n = true) :
    s.coreServes n = (s.restarted n).emcyEvent 0x5000 [3, n] := if_pos h

/-- While fewer than 32 messages wait, an event's message joins them (R501, R532). -/
theorem State.emcyEvent_emcy (code : Nat) (mfr : List Nat) (room : s.ctl.emcy.length < 32) :
    (s.emcyEvent code mfr).ctl.emcy = s.ctl.emcy ++ [⟨code, mfr, setBit (errorRegister s.ctl.conditions) (emcyBit code) true⟩] := by
  unfold State.emcyEvent State.queueEmcy
  rw [if_pos room]

theorem exec_controlCoreRestarted (h : core.val ≠ 0) : exec (.controlCoreRestarted core) s = .next (s.coreServes core.val) :=
  congrArg Host.Outcome.next (if_neg h)

theorem exec_controlCoreRestarted_zero (h : core.val = 0) :
    exec (.controlCoreRestarted core) s = .next ((List.finRange 16).foldl (fun u p => u.serveMail p) (s.coreServes 0)) := by
  refine (congrArg Host.Outcome.next (if_pos h)).trans ?_
  rw [h]

/-- Settles O39: what follows the fall of a core touches neither cores nor USDO, and on an idle core it is one log entry. -/
theorem coresAreResetAndServeAgain : Obligations.CoresAreResetAndServeAgain := by
  refine ⟨fun core s => ⟨fun down => if_pos down, fun rests => if_neg ?rests⟩, fun core s x h => ⟨_, exec_resetsCore h, ?reset⟩,
    fun core s other => ⟨fun up => ?up, fun down => ⟨_, exec_controlCoreRestarted other, ?down⟩⟩,
    fun core s zero => exec_controlCoreRestarted_zero zero⟩
  case rests =>
    rw [rests]
    exact Bool.false_ne_true
  case reset =>
    have kept := (s.resetCore_from_takenDown core.val).frame
    beta_reduce
    rw [kept.ctl.coresDown (by decide), kept.st.core (by decide), kept.ctl.usdo (by decide)]
    refine ⟨mem_coresDown_takenDown s core.val, fun a own => ?_, fun a other => ?_, (if_pos ·), (if_neg ·), fun idle => ?_⟩
    · rw [read_core_takenDown, if_pos own]
    · rw [read_core_takenDown, if_neg other]
    · rw [State.resetCore_idle idle]
      exact ⟨rfl, rfl, rfl, rfl, rfl, rfl⟩
  case up => rw [exec_controlCoreRestarted other, State.coreServes_up up]
  case down =>
    have event := Moves.frame (State.emcyEvent_moves (.rfl' 0x84000000000000 (s.restarted core.val)) (by decide) 0x5000 [3, core.val])
    have alone := State.emcyEvent_ctlOnly (s.restarted core.val) 0x5000 [3, core.val]
    rw [State.coreServes_down down]
    refine ⟨fun k => ?_, alone.st, alone.str, alone.rb, fun room => State.emcyEvent_emcy (s := s.restarted core.val) _ _ room⟩
    rw [event.ctl.coresDown (by decide), State.restarted, List.mem_filter, bne_iff_ne, and_comm]

end Sys2Proof.Machine
end

section
/-! SUPPORT. Live calibration: qualification, the margin walk and the temperature guard of a Square (R430, R592 to R602). -/

namespace Sys2Proof.Machine

/-! ### What an emergency message leaves, and the conditions that it tells of (R501, R532) -/

section
variable (s : State) (code : Nat)

theorem State.queueEmcy_ctlOnly (m : Emcy) : CtlOnly s (s.queueEmcy m) := by
  unfold State.queueEmcy
  split <;> rfl

@[simp] theorem State.queueEmcy_conditions (m : Emcy) : (s.queueEmcy m).ctl.conditions = s.ctl.conditions := by
  unfold State.queueEmcy
  split <;> rfl

theorem State.emcyRaise_ctlOnly (mfr : List Nat) : CtlOnly s (s.emcyRaise code mfr) := by
  unfold State.emcyRaise
  split
  · rfl
  · exact State.queueEmcy_ctlOnly _ _

/-- A condition that has begun is active. -/
theorem State.mem_conditions_emcyRaise (mfr : List Nat) : (code, mfr) ∈ (s.emcyRaise code mfr).ctl.conditions := by
  unfold State.emcyRaise
  split
  · next active =>
    obtain ⟨⟨c, m⟩, hm, e⟩ := List.any_eq_true.1 active
    simp only [Bool.and_eq_true, beq_iff_eq] at e
    obtain ⟨rfl, rfl⟩ := e
    exact hm
  · simp

theorem State.emcyEnd_ctlOnly (p : List Nat → Bool) : CtlOnly s (s.emcyEnd code p) := .foldl (fun t _ => t.queueEmcy_ctlOnly _) _ _

/-- A condition that has ended is active no longer. -/
theorem State.not_mem_conditions_emcyEnd (p : List Nat → Bool) {mfr : List Nat} (h : p mfr = true) :
    (code, mfr) ∉ (s.emcyEnd code p).ctl.conditions := by
  have ended : (s.emcyEnd code p).ctl.conditions = s.ctl.conditions.filter fun c => !(c.1 == code && p c.2) :=
    List.foldlRecOn (motive := fun t : State => t.ctl.conditions = _) _ _ rfl fun t ht _ _ => (t.queueEmcy_conditions _).trans ht
  simp [ended, h]

end

/-! ### What each operation on a Square leaves (R592, R593, R598, R599) -/

section
variable (s : State) (q : Nat)

theorem State.cal_modCal_ne (f : SquareCal → SquareCal) {k : Nat} (h : k ≠ q) : (s.modCal q f).cal k = s.cal k := by
  unfold State.cal State.modCal State.modBoot
  rw [Tbl.getD_put, if_neg h]

@[simp] theorem State.modCal_walkSquare (f : SquareCal → SquareCal) : (s.modCal q f).boot.walkSquare = s.boot.walkSquare := rfl
@[simp] theorem State.modCal_squareTemp (f : SquareCal → SquareCal) (k : Nat) : (s.modCal q f).squareTemp k = s.squareTemp k := rfl

@[simp] theorem State.setSquare_cal (v k : Nat) : (s.setSquare q v).cal k = s.cal k := rfl

@[simp] theorem State.endPointWalk_rb : (s.endPointWalk q).rb = s.rb := rfl
@[simp] theorem State.endPointWalk_cal (k : Nat) : (s.endPointWalk q).cal k = s.cal k := rfl
@[simp] theorem State.endPointWalk_recorded : (s.endPointWalk q).boot.recorded = s.boot.recorded := rfl
@[simp] theorem State.endPointWalk_walkSquare : (s.endPointWalk q).boot.walkSquare = none := rfl
@[simp] theorem State.endPointWalk_walkNext : (s.endPointWalk q).boot.walkNext = (q + 1) % 8 := rfl

@[simp] theorem State.qualify_cal (stage : SqStage) : (s.qualify q stage).cal q = { s.cal q with stage := stage, qual := some {} } := by
  rw [State.qualify, State.setSquare_cal, State.cal_modCal_self]
theorem State.qualify_cal_ne (stage : SqStage) {k : Nat} (h : k ≠ q) : (s.qualify q stage).cal k = s.cal k := by
  rw [State.qualify, State.setSquare_cal, State.cal_modCal_ne _ _ _ h]
@[simp] theorem State.qualify_sqOut (stage : SqStage) : (s.qualify q stage).rb.sqOut = Tbl.put s.rb.sqOut q 2 := rfl
@[simp] theorem State.qualify_str (stage : SqStage) : (s.qualify q stage).str = s.str := rfl
@[simp] theorem State.qualify_walkSquare (stage : SqStage) : (s.qualify q stage).boot.walkSquare = s.boot.walkSquare := rfl
@[simp] theorem State.qualify_recorded (stage : SqStage) : (s.qualify q stage).boot.recorded = s.boot.recorded := rfl

theorem State.walkEmcy_ctlOnly (kind : Nat) : CtlOnly s (s.walkEmcy q kind) := State.emcyEvent_ctlOnly ..

@[simp] theorem State.walkEmcy_boot (kind : Nat) : (s.walkEmcy q kind).boot = s.boot := (s.walkEmcy_ctlOnly q kind).boot
@[simp] theorem State.walkEmcy_conditions (kind : Nat) : (s.walkEmcy q kind).ctl.conditions = s.ctl.conditions := State.queueEmcy_conditions ..

@[simp] theorem State.walkEmcy_cal (kind k : Nat) : (s.walkEmcy q kind).cal k = s.cal k := by
  unfold State.cal
  rw [State.walkEmcy_boot]

/-- A message reads no sensor. -/
@[simp] theorem State.walkEmcy_squareTemp (kind k : Nat) : (s.walkEmcy q kind).squareTemp k = s.squareTemp k := by
  have sensors : ∀ i, (s.walkEmcy q kind).sensor i = s.sensor i := fun i => by
    unfold State.sensor
    rw [(s.walkEmcy_ctlOnly q kind).pw]
  unfold State.squareTemp State.theta State.hottest State.accepted
  simp only [sensors]

@[simp] theorem State.recordPoint_cal : (s.recordPoint q).cal q = { s.cal q with temp := s.squareTemp q } :=
  State.cal_modCal_self s q fun c => { c with temp := s.squareTemp q }

@[simp] theorem State.recordPoint_recorded :
    Tbl.get? (s.recordPoint q).boot.recorded q = some ((s.cal q).point, s.squareTemp q, (s.cal q).lastFail) := by
  have point := State.cal_modCal_self s q fun c => { c with temp := s.squareTemp q }
  unfold State.recordPoint
  dsimp only
  rw [point]
  exact Tbl.get?_put_self ..

/-- A Square that returns to service, before its condition ends. -/
def State.returned : State := (s.modCal q fun c => { c with qual := none, attempts := 0 }).setSquare q 0

theorem State.returnSquare_ctlOnly : CtlOnly (s.returned q) (s.returnSquare q) := State.emcyEnd_ctlOnly ..

@[simp] theorem State.returnSquare_cal : (s.returnSquare q).cal q = { s.cal q with qual := none, attempts := 0 } := by
  unfold State.cal
  rw [(s.returnSquare_ctlOnly q).boot]
  exact Tbl.getD_put_self ..
@[simp] theorem State.returnSquare_sqOut : (s.returnSquare q).rb.sqOut = Tbl.put s.rb.sqOut q 0 := by
  rw [(s.returnSquare_ctlOnly q).rb]
  rfl
@[simp] theorem State.returnSquare_walkSquare : (s.returnSquare q).boot.walkSquare = s.boot.walkSquare := by
  rw [(s.returnSquare_ctlOnly q).boot]
  rfl
@[simp] theorem State.returnSquare_recorded : (s.returnSquare q).boot.recorded = s.boot.recorded := by
  rw [(s.returnSquare_ctlOnly q).boot]
  rfl
theorem State.returnSquare_conditions : (0x5000, [2, q]) ∉ (s.returnSquare q).ctl.conditions :=
  State.not_mem_conditions_emcyEnd _ _ _ (beq_self_eq_true _)

/-- A Square that stays out of service, before that is told (R597, R603). -/
def State.leftOut : State :=
  (s.modCal q fun c => { c with qual := none, attempts := c.attempts + 1, capped := decide (pointCap ≤ (s.cal q).point) }).setSquare q 1

theorem State.keepOut_ctlOnly : CtlOnly (s.leftOut q) (s.keepOut q) := by
  have raised := State.emcyRaise_ctlOnly (s.leftOut q) 0x5000 [2, q]
  exact CtlOnly.ite _ (raised.trans (State.walkEmcy_ctlOnly _ q 4)) raised

@[simp] theorem State.keepOut_cal : (s.keepOut q).cal q =
    { s.cal q with qual := none, attempts := (s.cal q).attempts + 1, capped := decide (pointCap ≤ (s.cal q).point) } := by
  unfold State.cal
  rw [(s.keepOut_ctlOnly q).boot]
  exact Tbl.getD_put_self ..
@[simp] theorem State.keepOut_sqOut : (s.keepOut q).rb.sqOut = Tbl.put s.rb.sqOut q 1 := by
  rw [(s.keepOut_ctlOnly q).rb]
  rfl
theorem State.keepOut_conditions : (0x5000, [2, q]) ∈ (s.keepOut q).ctl.conditions := by
  unfold State.keepOut
  dsimp only
  split
  · rw [State.walkEmcy_conditions]
    exact State.mem_conditions_emcyRaise ..
  · exact State.mem_conditions_emcyRaise ..
/-- A Square that stays out has no qualification, has failed once more and is told of (R597, R603). -/
theorem State.keepOut_leaves : let t := s.keepOut q
    (t.cal q).qual = none ∧ (t.cal q).point = (s.cal q).point ∧ (t.cal q).attempts = (s.cal q).attempts + 1
    ∧ (t.cal q).capped = decide (pointCap ≤ (s.cal q).point) ∧ Tbl.getD t.rb.sqOut 0 q = 1 ∧ (0x5000, [2, q]) ∈ t.ctl.conditions := by
  simp [State.keepOut_conditions]

theorem State.keepOut_obj {i b : Nat} (h : objKey i b ≠ objKey 0x4005 0x06) : (s.keepOut q).obj i b = s.obj i b := by
  have raised := State.obj_emcyRaise (s := s.leftOut q) 0x5000 [2, q] h
  unfold State.keepOut
  dsimp only
  split
  · exact (State.obj_queueEmcy _ h).trans raised
  · exact raised

@[simp] theorem State.incObj_cal (i b k : Nat) : (s.incObj i b).cal k = s.cal k := rfl

end

/-! ### How a step of a walk and a qualification end (R596, R597, R599, R600) -/

section
variable {s : State} {q : Nat}

theorem State.walkDown_lower (h : s.obj 0x4200 3 + 5 ≤ (s.cal q).point) : s.walkDown q =
    (s.modCal q fun x => { x with lastPassed := (s.cal q).point, point := (s.cal q).point - 5 }).qualify q .walkStep :=
  if_neg (Nat.not_lt.2 h)

theorem State.walkDown_floor (h : (s.cal q).point < s.obj 0x4200 3 + 5) :
    s.walkDown q = (((s.walkEmcy q 2).recordPoint q).returnSquare q).endPointWalk q := if_pos h

theorem State.qualPass_walkStep (h : (s.cal q).stage = .walkStep) : s.qualPass q = s.walkDown q := by
  unfold State.qualPass
  rw [h]

theorem State.qualPass_walkFinal (h : (s.cal q).stage = .walkFinal) : s.qualPass q = ((s.recordPoint q).returnSquare q).endPointWalk q := by
  unfold State.qualPass
  rw [h]

theorem State.qualPass_qualifying (h : (s.cal q).stage = .qualifying) : s.qualPass q = s.returnSquare q := by
  unfold State.qualPass
  rw [h]

theorem State.qualFail_walkStep (h : (s.cal q).stage = .walkStep) : s.qualFail q =
    ((((s.incObj 0x4200 6).modCal q fun c => { c with lastFail := c.point, point := Nat.min pointCap (c.point + 15) }).walkEmcy q 1).qualify q
      .walkFinal) := by
  unfold State.qualFail
  dsimp only
  rw [State.incObj_cal, h]

theorem State.qualFail_walkFinal (h : (s.cal q).stage = .walkFinal) :
    s.qualFail q = ((s.incObj 0x4200 6).keepOut q).endPointWalk q := by
  unfold State.qualFail
  dsimp only
  rw [State.incObj_cal, h]

theorem State.qualFail_qualifying (h : (s.cal q).stage = .qualifying) : s.qualFail q = (s.incObj 0x4200 6).keepOut q := by
  unfold State.qualFail
  dsimp only
  rw [State.incObj_cal, h]

/-- A mismatch counts, whatever the qualification is for (R597). -/
theorem State.qualFail_obj (s : State) (q : Nat) : (s.qualFail q).obj 0x4200 6 = (s.obj 0x4200 6 + 1) % 2 ^ 32 := by
  have counted := State.obj_incObj_self s 0x4200 6
  cases h : (s.cal q).stage with
  | walkStep =>
    rw [State.qualFail_walkStep h]
    exact (State.obj_queueEmcy _ (by decide)).trans counted
  | walkFinal =>
    rw [State.qualFail_walkFinal h]
    exact (State.keepOut_obj _ q (by decide)).trans counted
  | qualifying =>
    rw [State.qualFail_qualifying h]
    exact (State.keepOut_obj _ q (by decide)).trans counted

end

/-! ### The commands -/

section
variable {s : State} {square : SquareNo}

/-- The state in which the walk of the next Square has begun and no step of it has (R599, R600). -/
def State.walkBegun (s : State) : State := s.modBoot fun b => { b with walkSquare := some s.boot.walkNext }

@[simp] theorem State.walkBegun_cal (s : State) (k : Nat) : s.walkBegun.cal k = s.cal k := rfl
@[simp] theorem State.walkBegun_squareTemp (s : State) (k : Nat) : s.walkBegun.squareTemp k = s.squareTemp k := rfl
@[simp] theorem State.walkBegun_str (s : State) : s.walkBegun.str = s.str := rfl
@[simp] theorem State.walkBegun_walkSquare (s : State) : s.walkBegun.boot.walkSquare = some s.boot.walkNext := rfl

theorem exec_walkStart_waits (h : s.mayWalk = false) : exec .walkStart s = .next s := if_neg (by simp [h])

theorem exec_walkStart_begins (h : s.mayWalk = true) : exec .walkStart s = .next (s.walkBegun.walkDown s.boot.walkNext) := if_pos h

theorem exec_qualificationDone_none (h : (s.cal square.val).qual = none) : exec (.qualificationDone square) s = .next s := by
  change execQualificationDone square s = _
  unfold execQualificationDone
  rw [h]

theorem exec_qualificationDone_some {x : Qual} (h : (s.cal square.val).qual = some x) : exec (.qualificationDone square) s =
    if x.mismatch = true then .next (s.qualFail square.val) else if x.met = true then .next (s.qualPass square.val) else .next s := by
  change execQualificationDone square s = _
  unfold execQualificationDone
  rw [h]

theorem exec_walkAbandon_none (h : s.boot.walkSquare = none) : exec .walkAbandon s = .next s := by
  change execWalkAbandon s = _
  unfold execWalkAbandon
  rw [h]

/-- A walk with a mismatch that no one has judged yet takes that first (R601). -/
def State.judged (s : State) (q : Nat) : State := if ((s.cal q).qual.map (·.mismatch)).getD false = true then s.qualFail q else s

/-- The Square of an abandoned walk is qualified at the last point that passed, or at the raised one (R601). -/
def State.abandoned (u : State) (q : Nat) : State :=
  ((u.modCal q fun c => { c with point := if (u.cal q).stage == .walkFinal then c.point else c.lastPassed }).qualify q .qualifying).endPointWalk q

theorem exec_walkAbandon_some {q : Nat} (h : s.boot.walkSquare = some q) :
    exec .walkAbandon s = .next (if (s.judged q).boot.walkSquare = some q then (s.judged q).abandoned q else s.judged q) := by
  change execWalkAbandon s = _
  unfold execWalkAbandon
  rw [h]
  exact (apply_ite Host.Outcome.next ..).symm

/-- The point of a Square that has failed three times rises (R597). -/
def State.raisedAfter (s : State) (q n : Nat) : State :=
  if 3 ≤ n then (s.modCal q fun x => { x with point := Nat.min pointCap (x.point + 15), attempts := 0 }).recordPoint q else s

theorem exec_qualRetryTimer_waits (h : Tbl.getD s.rb.sqOut 0 square.val ≠ 1 ∨ (s.cal square.val).capped = true ∨ s.boot.step ≠ 10
    ∨ s.squaresBusy (2 ^ square.val) = true) : exec (.qualRetryTimer square) s = .next s := if_pos h

theorem exec_qualRetryTimer_retries (out : Tbl.getD s.rb.sqOut 0 square.val = 1) (below : (s.cal square.val).capped = false)
    (up : s.boot.step = 10) (free : s.squaresBusy (2 ^ square.val) = false) : exec (.qualRetryTimer square) s =
      .next ((s.raisedAfter square.val (s.cal square.val).attempts).qualify square.val .qualifying) :=
  if_neg (by simp [out, below, up, free])

theorem State.raisedAfter_cal (s : State) (q n : Nat) :
    ((s.raisedAfter q n).cal q).point = (if 3 ≤ n then Nat.min 850 ((s.cal q).point + 15) else (s.cal q).point)
    ∧ ((s.raisedAfter q n).cal q).attempts = if 3 ≤ n then 0 else (s.cal q).attempts := by
  unfold State.raisedAfter
  split <;> simp [pointCap]

/-- A cooled Square serves again only at a point 15 mV higher (R602). -/
def State.guarded (s : State) (q : Nat) : State :=
  s.modCal q fun x => { x with point := Nat.min pointCap ((s.cal q).point + 15), lastPassed := Nat.min pointCap ((s.cal q).point + 15) }

theorem exec_tempGuardExpiry_waits (h : ¬(s.boot.step = 10 ∧ Tbl.getD s.rb.sqOut 0 square.val = 0 ∧ s.cooled square.val = true)) :
    exec (.tempGuardExpiry square) s = .next s := if_neg h

theorem exec_tempGuardExpiry_raises (h : s.boot.step = 10 ∧ Tbl.getD s.rb.sqOut 0 square.val = 0 ∧ s.cooled square.val = true) :
    exec (.tempGuardExpiry square) s =
      .next ((((s.guarded square.val).walkEmcy square.val 3).recordPoint square.val).qualify square.val .qualifying) := if_pos h

end

/-- Settles O60: each command is one of a few operations on a Square, and each operation says what it leaves. -/
theorem squaresQualifyAndWalk : Obligations.SquaresQualifyAndWalk := by
  refine ⟨fun s => ⟨exec_walkStart_waits, fun may high => ⟨_, exec_walkStart_begins may, ?lower⟩,
      fun may low => ⟨_, exec_walkStart_begins may, ?floor⟩⟩,
    fun square s => ⟨exec_qualificationDone_none, fun x hx => ⟨fun sound early => ?early,
      fun bad => ⟨s.qualFail square.val, ?bad, rfl, s.qualFail_obj _, ?step, ?out, ?final⟩,
      fun sound met => ⟨s.qualPass square.val, ?met, ?further, ?bottom, ?records, ?returns⟩⟩⟩,
    fun s => ⟨exec_walkAbandon_none, fun q walks => ⟨fun ended => ?ended, fun goesOn => ⟨(s.judged q).abandoned q, ?goesOn, ?abandoned⟩⟩⟩,
    fun square s => ⟨⟨_, rfl, ?window⟩, exec_qualRetryTimer_waits,
      fun out below up free => ⟨_, exec_qualRetryTimer_retries out below up free, ?retry⟩,
      exec_tempGuardExpiry_waits, fun due => ⟨_, exec_tempGuardExpiry_raises due, ?guard⟩⟩⟩
  case lower =>
    have lower : s.walkBegun.walkDown s.boot.walkNext = _ := State.walkDown_lower high
    beta_reduce
    rw [lower]
    simp +contextual [State.qualify_cal_ne, State.cal_modCal_ne]
  case floor =>
    have floor : s.walkBegun.walkDown s.boot.walkNext = _ := State.walkDown_floor low
    beta_reduce
    rw [floor]
    simp
  case early => simp [exec_qualificationDone_some hx, sound, early]
  case bad => simp [exec_qualificationDone_some hx, bad]
  case met => simp [exec_qualificationDone_some hx, sound, met]
  case step =>
    intro stage
    rw [State.qualFail_walkStep stage]
    simp [pointCap]
  case out =>
    intro stage
    have kept := State.keepOut_leaves (s.incObj 0x4200 6) square.val
    cases h : (s.cal square.val).stage with
    | walkStep => exact absurd h stage
    | walkFinal =>
      rw [State.qualFail_walkFinal h]
      exact kept
    | qualifying =>
      rw [State.qualFail_qualifying h]
      exact kept
  case final =>
    intro stage
    rw [State.qualFail_walkFinal stage, State.endPointWalk_walkSquare]
  case further =>
    intro stage high
    rw [State.qualPass_walkStep stage, State.walkDown_lower high]
    simp
  case bottom =>
    intro stage low
    rw [State.qualPass_walkStep stage, State.walkDown_floor low]
    simp
  case records =>
    intro stage
    rw [State.qualPass_walkFinal stage]
    simp
  case returns =>
    intro stage
    rw [State.qualPass_qualifying stage]
    simp [State.returnSquare_conditions]
  case ended =>
    rw [exec_walkAbandon_some walks]
    exact congrArg _ (if_neg ended)
  case goesOn =>
    rw [exec_walkAbandon_some walks]
    exact congrArg _ (if_pos goesOn)
  case abandoned => simp [State.abandoned, State.judged]
  case window => exact ⟨State.cal_modCal_self .., fun k hk => State.cal_modCal_ne _ _ _ hk, rfl⟩
  case retry => simp [State.raisedAfter_cal]
  case guard => simp [State.guarded, pointCap]

end Sys2Proof.Machine
end

section
/-! SUPPORT. Domains that power states switch: engines, HBM2E pairs, quarters and ports (R169, R561 to R569). -/

namespace Sys2Proof.Machine

/-! ### Changes of stores and of the Roundabout alone -/

/-- Nothing but the stores and what the Roundabout holds may differ: what switching a domain may change. -/
def DomainsOnly (s t : State) : Prop := t = { s with st := t.st, rb := t.rb }

section
variable {s t u : State}

theorem DomainsOnly.refl (s : State) : DomainsOnly s s := rfl

theorem DomainsOnly.trans (h : DomainsOnly s t) (k : DomainsOnly t u) : DomainsOnly s u := by
  unfold DomainsOnly at *
  rw [h] at k
  exact k

theorem DomainsOnly.foldl {α : Type} {f : State → α → State} (hf : ∀ t x, DomainsOnly t (f t x)) (l : List α) (s : State) :
    DomainsOnly s (l.foldl f s) :=
  List.foldlRecOn (motive := DomainsOnly s) l f (.refl s) fun t h x _ => h.trans (hf t x)

theorem DomainsOnly.str (h : DomainsOnly s t) : t.str = s.str := by
  unfold DomainsOnly at h
  rw [h]

theorem DomainsOnly.pw (h : DomainsOnly s t) : t.pw = s.pw := by
  unfold DomainsOnly at h
  rw [h]

theorem DomainsOnly.obj (h : DomainsOnly s t) (i b : Nat) : t.obj i b = s.obj i b := by
  unfold DomainsOnly at h
  rw [h]
  rfl

theorem State.setDomain_domainsOnly (s : State) (d v : Nat) : DomainsOnly s (s.setDomain d v) := rfl

theorem State.settleEngine_domainsOnly (s : State) (e : Nat) : DomainsOnly s (s.settleEngine e) := by
  unfold State.settleEngine
  repeat' split
  all_goals rfl

theorem State.gateEngine_domainsOnly (s : State) (e : Nat) : DomainsOnly s (s.gateEngine e) := by
  unfold State.gateEngine
  split
  · split
    · exact (s.setDomain_domainsOnly _ 3).trans (State.settleEngine_domainsOnly _ e)
    · rfl
  · rfl

theorem State.ungateEngine_domainsOnly (s : State) (e : Nat) : DomainsOnly s (s.ungateEngine e) := by
  unfold State.ungateEngine
  split <;> rfl

theorem State.gateAll_domainsOnly (s : State) : DomainsOnly s s.gateAll := .foldl State.gateEngine_domainsOnly _ s

theorem State.ungateAll_domainsOnly (s : State) (mask : Nat) : DomainsOnly s (s.ungateAll mask) := .foldl State.ungateEngine_domainsOnly _ s

theorem State.setHbm_domainsOnly (s : State) (v : Nat) : DomainsOnly s (s.setHbm v) := .foldl (fun t k => t.setDomain_domainsOnly (86 + k) v) _ s

end

/-! ### The domain that a switch leaves -/

/-- What one element of a list brings about and every other keeps holds at the end. -/
theorem foldl_brings {α β : Type} {f : β → α → β} {P : β → Prop} {x : α} {l : List α} (hx : x ∈ l) (brings : ∀ b, P (f b x))
    (keeps : ∀ b y, P b → P (f b y)) (b : β) : P (l.foldl f b) := by
  obtain ⟨before, after, rfl⟩ := List.append_of_mem hx
  rw [List.foldl_append, List.foldl_cons]
  exact List.foldlRecOn (motive := P) after f (brings _) fun b h y _ => keeps b y h

section
variable (s : State)

/-- A CLOSING domain may become OFF, and no other domain moves. -/
theorem State.settleEngine_domain (e d : Nat) : (s.settleEngine e).domain d = s.domain d ∨ s.domain d = 3 ∧ (s.settleEngine e).domain d = 0 := by
  have off : ∀ d' (u : State), (∀ k, u.domain k = s.domain k) → s.domain d' = 3 →
      (u.setDomain d' 0).domain d = s.domain d ∨ (s.domain d = 3 ∧ (u.setDomain d' 0).domain d = 0) := by
    intro d' u same closing
    rw [State.domain_setDomain]
    split
    · next h => exact .inr ⟨h ▸ closing, rfl⟩
    · exact .inl (same d)
  unfold State.settleEngine
  split
  · exact .inl rfl
  · next d' _ =>
    split
    · exact .inl rfl
    · next closing =>
      have closing := not_not.1 closing
      split
      · split
        · exact off d' _ (fun _ => rfl) closing
        · exact .inl rfl
      · split
        · exact .inl rfl
        · exact off d' _ (fun _ => rfl) closing

/-- The domain of an engine that is switched off is CLOSING or OFF where it was ON. -/
theorem State.gateEngine_domain_on {e d : Nat} (he : engineDomain e = some d) (on : s.domain d = 2) :
    (s.gateEngine e).domain d = 3 ∨ (s.gateEngine e).domain d = 0 := by
  unfold State.gateEngine
  rw [he]
  dsimp only
  rw [if_pos on]
  have closing := s.domain_setDomain_self d 3
  obtain same | ⟨_, off⟩ := State.settleEngine_domain (s.setDomain d 3) e d
  · exact .inl (same.trans closing)
  · exact .inr off

/-- Switching an engine off leaves a domain as it was, or moves one that was ON or CLOSING further. -/
theorem State.gateEngine_domain (e d : Nat) : (s.gateEngine e).domain d = s.domain d
    ∨ s.domain d ≠ 0 ∧ ((s.gateEngine e).domain d = 3 ∨ (s.gateEngine e).domain d = 0) := by
  by_cases own : engineDomain e = some d ∧ s.domain d = 2
  · exact .inr ⟨by rw [own.2]; decide, s.gateEngine_domain_on own.1 own.2⟩
  · unfold State.gateEngine
    split
    · next k hk =>
      split
      · next on =>
        have ne : d ≠ k := by
          rintro rfl
          exact own ⟨hk, on⟩
        obtain same | ⟨closing, off⟩ := State.settleEngine_domain (s.setDomain k 3) e d
        · exact .inl (same.trans (s.domain_setDomain_ne 3 ne))
        · rw [s.domain_setDomain_ne 3 ne] at closing
          exact .inr ⟨by rw [closing]; decide, .inr off⟩
      · exact .inl rfl
    · exact .inl rfl

theorem State.gateEngine_keeps_notOn {e d : Nat} (h : s.domain d ≠ 2) : (s.gateEngine e).domain d ≠ 2 := by
  obtain same | ⟨_, moved⟩ := s.gateEngine_domain e d <;> omega

theorem State.gateEngine_keeps_off {e d : Nat} (h : s.domain d = 0) : (s.gateEngine e).domain d = 0 := by
  obtain same | ⟨other, _⟩ := s.gateEngine_domain e d
  · exact same.trans h
  · exact absurd h other

theorem State.gateEngine_notOn {e d : Nat} (he : engineDomain e = some d) : (s.gateEngine e).domain d ≠ 2 := by
  by_cases on : s.domain d = 2
  · have moved := s.gateEngine_domain_on he on
    omega
  · exact s.gateEngine_keeps_notOn on

/-- After a list of engines was switched off, no domain of them is ON. -/
theorem State.gateEngines_notOn {es : List Nat} {e d : Nat} (he : e ∈ es) (hd : engineDomain e = some d) :
    (es.foldl (fun t e => t.gateEngine e) s).domain d ≠ 2 :=
  foldl_brings (P := fun t : State => t.domain d ≠ 2) he (fun t => t.gateEngine_notOn hd) (fun t _ h => t.gateEngine_keeps_notOn h) s

theorem State.gateAll_keeps_off {d : Nat} (h : s.domain d = 0) : s.gateAll.domain d = 0 :=
  List.foldlRecOn (motive := fun t : State => t.domain d = 0) _ _ h fun t ht _ _ => t.gateEngine_keeps_off ht

theorem State.setHbm_domain (v d : Nat) : (s.setHbm v).domain d = if 86 ≤ d ∧ d < 90 then v else s.domain d := by
  have pairs : List.range 4 = [0, 1, 2, 3] := rfl
  unfold State.setHbm
  simp only [pairs, List.foldl_cons, List.foldl_nil, State.domain_setDomain]
  split_ifs <;> first | rfl | omega

/-- Switching engines on leaves a domain that is ON as it was. -/
theorem State.ungateAll_keeps_on (mask : Nat) {d : Nat} (h : s.domain d = 2) : (s.ungateAll mask).domain d = 2 := by
  refine List.foldlRecOn (motive := fun t : State => t.domain d = 2) _ _ h fun t ht e _ => ?_
  unfold State.ungateEngine
  split
  · rw [State.domain_setDomain, ht, ite_self]
  · exact ht

theorem quarterDomain_lt {q : Nat} (h : q < 32) : quarterDomain q < 80 := by
  unfold quarterDomain
  omega

theorem State.quarterOff_domain (q d : Nat) : (s.quarterOff q).domain d = if d = quarterDomain q then 0 else s.domain d :=
  s.switchedOff_domain q d

/-- Once every quarter was switched off, each is OFF. -/
theorem State.quartersOff_domain {q : Nat} (h : q < 32) :
    ((List.range 32).foldl (fun t q => t.quarterOff q) s).domain (quarterDomain q) = 0 := by
  refine foldl_brings (P := fun t : State => t.domain (quarterDomain q) = 0) (List.mem_range.2 h) (fun t => ?_) (fun t k off => ?_) s
  · rw [State.quarterOff_domain, if_pos rfl]
  · rw [State.quarterOff_domain, off, ite_self]

theorem State.quarterOnNow_domain (q d : Nat) : (s.quarterOnNow q).domain d = if d = quarterDomain q then 2 else s.domain d := by
  unfold State.quarterOnNow
  rw [State.domain_setDomain, State.clearQuarter_domain]

theorem State.quartersOn_keeps_on {d : Nat} (h : s.domain d = 2) : ((List.range 32).foldl (fun t q => t.quarterOnNow q) s).domain d = 2 := by
  refine List.foldlRecOn (motive := fun t : State => t.domain d = 2) _ _ h fun t ht q _ => ?_
  rw [State.quarterOnNow_domain, ht, ite_self]

theorem State.portOn_domain (p d : Nat) : (s.portOn p).domain d = if d = 91 + p then 5 else s.domain d := State.domain_setDomain ..

theorem State.portsOn_domain {ports : List Nat} {p : Nat} (h : p ∈ ports) : (ports.foldl (fun t p => t.portOn p) s).domain (91 + p) = 5 := by
  refine foldl_brings (P := fun t : State => t.domain (91 + p) = 5) h (fun t => ?_) (fun t k trains => ?_) s
  · rw [State.portOn_domain, if_pos rfl]
  · rw [State.portOn_domain, trains, ite_self]

theorem State.portsOn_domain_below {d : Nat} (h : d < 91) (ports : List Nat) :
    (ports.foldl (fun t p => t.portOn p) s).domain d = s.domain d := by
  refine List.foldlRecOn (motive := fun t : State => t.domain d = s.domain d) _ _ rfl fun t ht p _ => ?_
  rw [State.portOn_domain, if_neg (by omega), ht]

end

end Sys2Proof.Machine
end

section
/-! SUPPORT. The commands that move the device between power states (R441, R444, R547, R562 to R570). -/

namespace Sys2Proof.Machine

variable {s : State}

/-! ### Requests (R564, R565) -/

theorem State.actRequest_ctl (s : State) (r : Nat) : (s.actRequest r).ctl = s.ctl := by
  unfold State.actRequest
  dsimp only
  repeat' split
  all_goals rfl

theorem State.actRequest_snowdrop (s : State) : s.actRequest 4 = (s.modPw fun x => { x with autoCrocus := false }).toPower 4 := by
  unfold State.actRequest
  simp [requestState]

/-- A request that is written stands in STATE_REQUEST, whether it waits or not. -/
theorem State.writeRequest_obj (s : State) (r : Nat) : (s.writeRequest r).obj 0x2112 0 = r := by
  have written := s.obj_setObj_self 0x2112 0 r
  unfold State.writeRequest
  dsimp only
  split
  · exact written
  · unfold State.obj
    rw [State.actRequest_ctl]
    exact written

theorem State.writeRequest_waits (r : Nat) (h : s.pw.changing = true) : (s.writeRequest r).pw.waiting = some r := by
  unfold State.writeRequest
  dsimp only
  rw [if_pos (by exact h)]
  rfl

theorem State.writeRequest_acts (r : Nat) (h : s.pw.changing = false) : s.writeRequest r = (s.setObj 0x2112 0 r).actRequest r :=
  if_neg (by simp [h])

/-! ### Crocus (R565) -/

/-- The conditions under which the device enters Crocus by itself. -/
def State.crocusIdle (s : State) : Prop :=
  s.boot.step = 10 ∧ (s.obj 0x2112 0 = 0 ∨ s.obj 0x2112 0 = 2) ∧ s.obj 0x2113 0 ≠ 0 ∧ s.pw.changing = false ∧ s.pw.powerState < 3
  ∧ s.ctl.nmt ≠ .stopped ∧ (¬∃ e ∈ s.str.tab, e.2.cfg.cls = 0 ∧ e.2.state ≠ .opening ∧ e.2.state ≠ .closed ∧ e.2.state ≠ .lost)
  ∧ (¬∃ f ∈ s.host.fns, ∃ q ∈ f.2.sq, q.2.enable = true ∧ q.2.head ≠ q.2.tail) ∧ s.str.chunks = []

theorem exec_crocusIdleExpiry_busy (h : ¬s.crocusIdle) : exec .crocusIdleExpiry s = .next s := by
  refine if_pos (Classical.byContradiction fun none => h ?_)
  simpa [State.crocusIdle, or_iff_not_imp_left] using none

theorem exec_crocusIdleExpiry_idle (h : s.crocusIdle) :
    exec .crocusIdleExpiry s = .next ((s.toPower 3).modPw fun x => { x with autoCrocus := true }) := by
  refine if_neg ?_
  simpa [State.crocusIdle, or_iff_not_imp_left] using h

theorem State.wakeTrigger_elsewhere (h : s.pw.autoCrocus = false) : s.wakeTrigger = s := if_pos (by simp [h])

theorem State.wakeTrigger_entering (h : s.pw.autoCrocus = true) (entering : s.pw.changing = true) :
    s.wakeTrigger = s.modPw fun x => { x with wake := true } := by
  unfold State.wakeTrigger
  rw [if_neg (by simp [h]), if_pos entering]

theorem State.wakeTrigger_inside (h : s.pw.autoCrocus = true) (inside : s.pw.changing = false) :
    s.wakeTrigger = (s.modPw fun x => { x with autoCrocus := false }).toPower (requestState (s.obj 0x2112 0)) := by
  unfold State.wakeTrigger
  rw [if_neg (by simp [h]), if_neg (by simp [inside])]

/-! ### Tulip (R564, R566) -/

/-- A pending request for Tulip is taken up. -/
abbrev State.takesTulip (s : State) : Prop := s.pw.tulipPending = true ∧ s.pw.changing = false ∧ s.fitsTulip = true

/-- The engines of the masked Squares may switch off. -/
abbrev State.mayTulip (s : State) : Prop := s.pw.target = 2 ∧ s.pw.changing = true ∧ s.squaresBusy s.pw.tulipMask = false

/-- On the way to Tulip all but the masked Squares is on. -/
def State.tulipOn (s : State) : State := if s.ctl.nmt = .stopped then s else (s.ungateAll s.pw.tulipMask).setHbm 2

theorem State.tulipOn_domainsOnly (s : State) : DomainsOnly s s.tulipOn := by
  unfold State.tulipOn
  split
  · rfl
  · exact (s.ungateAll_domainsOnly _).trans (State.setHbm_domainsOnly _ 2)

/-- The engines of the masked Squares switch off. -/
def State.tulipGated (s : State) : State := (engineIds s.pw.tulipMask).foldl (fun t e => t.gateEngine e) s.tulipOn

theorem State.tulipGated_domainsOnly (s : State) : DomainsOnly s s.tulipGated :=
  s.tulipOn_domainsOnly.trans (.foldl State.gateEngine_domainsOnly _ _)

theorem exec_tulipEntry (s : State) : exec .tulipEntry s =
    let u := if s.takesTulip then s.toPower 2 else s
    .next (if u.mayTulip then u.tulipGated else u) := by
  change execTulipEntry s = _
  unfold execTulipEntry
  simp only [Bool.not_eq_true', apply_ite Host.Outcome.next, State.takesTulip, State.mayTulip]
  rfl

theorem exec_tulipEntry_takes (h : s.takesTulip) : exec .tulipEntry s = exec .tulipEntry (s.toPower 2) := by
  have taken : ¬(s.toPower 2).takesTulip := fun again => Bool.false_ne_true again.1
  simp only [exec_tulipEntry, if_pos h, if_neg taken]

theorem exec_tulipEntry_waits (h : ¬s.takesTulip) (early : ¬s.mayTulip) : exec .tulipEntry s = .next s := by
  simp only [exec_tulipEntry, if_neg h, if_neg early]

theorem exec_tulipEntry_gates (h : ¬s.takesTulip) (may : s.mayTulip) : exec .tulipEntry s = .next s.tulipGated := by
  simp only [exec_tulipEntry, if_neg h, if_pos may]

/-! ### Snowdrop (R568, R569) -/

theorem Moves.mono {j k : Nat} {t : State} (h : Moves j s t) (q : Covers j k) : Moves k s t := ⟨h.pending, h.inv, h.frame.mono q⟩

/-- What a change beside the power state leaves of it. -/
abbrev besidePower : Nat := 2 ^ 75 - 1 - 2 ^ 67

/-- What a change beside the power state and the model slots leaves of them. -/
abbrev besidePowerAndModels : Nat := besidePower - 2 ^ 29

/-- The ports that are in use, the receive descriptors and the streams are put down (steps 2 and 3 of R568). -/
def State.snowDetached (s : State) (ports : List Nat) : State :=
  let u := ports.foldl (fun t p => t.portOff p) (s.keepPartial.cancelRx fun _ => true)
  (u.str.tab.map (·.1)).foldl (fun t sid => t.swapOutState sid) u

/-- No block of a model is resident (step 4 of R568). -/
def State.snowUnloaded (s : State) : State :=
  { s with str := { s.str with models := s.str.models.map fun m => (m.1, { m.2 with resident := [] }) } }

/-- The pages leave the quarters (step 4 of R568). -/
def State.snowSpilled (s : State) : State := (State.demoteAll s.reliefBound s).loseOnchip

/-- Quarters, engines and units, HBM2E and PCIe are down (steps 5 and 6 of R568). -/
def State.snowDark (s : State) : State :=
  ((((List.range 32).foldl (fun t q => t.quarterOff q) s).gateAll).setHbm 4).setDomain 90 0

/-- The ports that Snowdrop remembers. -/
abbrev State.openPorts (s : State) : List Nat := (List.range 7).filter fun p => (s.port p).state != .disabled

/-- The device in Snowdrop, before the link and the ports are noted. -/
def State.snowed (s : State) : State := (s.snowDetached s.openPorts).snowUnloaded.snowSpilled.snowDark

/-- The link is down and the ports that were in use are remembered. -/
def State.snowNoted (s : State) (ports : List Nat) : State :=
  { s with host := { s.host with linkUp := false }, pw := { s.pw with snowPorts := ports } }

section
variable (s : State) (ports : List Nat)

@[simp] theorem State.snowNoted_linkUp : (s.snowNoted ports).host.linkUp = false := rfl
@[simp] theorem State.snowNoted_domain (d : Nat) : (s.snowNoted ports).domain d = s.domain d := rfl
@[simp] theorem State.snowNoted_str : (s.snowNoted ports).str = s.str := rfl
@[simp] theorem State.snowNoted_snowPorts : (s.snowNoted ports).pw.snowPorts = ports := rfl
@[simp] theorem State.snowNoted_target : (s.snowNoted ports).pw.target = s.pw.target := rfl
@[simp] theorem State.snowNoted_changing : (s.snowNoted ports).pw.changing = s.pw.changing := rfl

end

theorem exec_snowdropEntry_waits (h : ¬(s.pw.target = 4 ∧ s.pw.changing = true ∧ s.frozenOut = true ∧ s.rb.cmds = [])) :
    exec .snowdropEntry s = .next s := if_neg h

theorem exec_snowdropEntry_enters (h : s.pw.target = 4 ∧ s.pw.changing = true ∧ s.frozenOut = true ∧ s.rb.cmds = []) :
    exec .snowdropEntry s = .next (s.snowed.snowNoted s.openPorts) := by
  change execSnowdropEntry s = _
  unfold execSnowdropEntry
  rw [if_pos h]
  extract_lets ports s1 s2 s3 str3 s4 s5 s6 s7
  have detached : s3 = s.snowDetached ports := rfl
  clear_value s3
  have unloaded : s4 = s3.snowUnloaded := rfl
  clear_value s4
  have dark : s7 = s4.snowSpilled.snowDark := rfl
  clear_value s7
  have snowed : s.snowed = s7 := by
    rw [dark, unloaded, detached]
    rfl
  rw [snowed]
  rfl

theorem State.snowDetached_moves (s : State) (ports : List Nat) : Moves besidePower s (s.snowDetached ports) := by
  have kept : Moves besidePower s (s.keepPartial.cancelRx fun _ => true) :=
    State.cancelRx_moves (State.keepPartial_moves (.rfl' _ s) (by decide)) (by decide) _
  exact Moves.foldl _ (Moves.foldl _ kept fun t p h => State.portOff_moves h (by decide) p) fun t sid h =>
    State.swapOutState_moves h (by decide) sid

theorem State.snowUnloaded_moves (s : State) : Moves besidePower s s.snowUnloaded := by
  exact Moves.leaf (.rfl' _ s) (k := 2 ^ 29) (by decide)

theorem State.snowSpilled_moves (s : State) : Moves besidePowerAndModels s s.snowSpilled :=
  State.loseOnchip_moves (State.demoteAll_moves (.rfl' _ s) (by decide) _) (by decide)

theorem State.snowDark_moves (s : State) : Moves besidePowerAndModels s s.snowDark :=
  State.setDomain_moves (State.setHbm_moves (State.gateAll_moves (Moves.foldl _ (.rfl' _ s) fun t q h =>
    State.quarterOff_moves h (by decide) q) (by decide)) (by decide) 4) (by decide) ..

theorem State.snowDark_pcie (s : State) : s.snowDark.domain 90 = 0 := State.domain_setDomain_self ..

theorem State.snowDark_hbm (s : State) {k : Nat} (h : k < 4) : s.snowDark.domain (86 + k) = 4 := by
  unfold State.snowDark
  rw [State.domain_setDomain_ne _ _ (by omega), State.setHbm_domain, if_pos (by omega)]

theorem State.snowDark_quarter (s : State) {q : Nat} (h : q < 32) : s.snowDark.domain (quarterDomain q) = 0 := by
  have low := quarterDomain_lt h
  unfold State.snowDark
  rw [State.domain_setDomain_ne _ _ (by omega), State.setHbm_domain, if_neg (by omega)]
  exact State.gateAll_keeps_off _ (s.quartersOff_domain h)

theorem State.snowed_moves (s : State) : Moves besidePower s s.snowed :=
  have wider : Covers besidePowerAndModels besidePower := by decide
  have unloaded := (s.snowDetached_moves s.openPorts).trans (State.snowUnloaded_moves _)
  have spilled := State.snowSpilled_moves (s.snowDetached s.openPorts).snowUnloaded
  (unloaded.trans (spilled.mono wider)).trans ((State.snowDark_moves _).mono wider)

/-- Nothing that follows the unloading makes a block resident again. -/
theorem State.snowed_resident (s : State) : ∀ m ∈ s.snowed.str.models, m.2.resident = [] := by
  have kept := ((State.snowSpilled_moves (s.snowDetached s.openPorts).snowUnloaded).trans (State.snowDark_moves _)).frame
  intro m hm
  rw [State.snowed, kept.str.models (by decide)] at hm
  obtain ⟨k, _, rfl⟩ := List.mem_map.1 hm
  rfl

/-- The domains are on again, the ports of a list train and fixed blocks are resident (R569). -/
def State.thawed (s : State) (ports : List Nat) : State :=
  let u := ports.foldl (fun t p => t.portOn p) ((List.range 32).foldl (fun t q => t.quarterOnNow q) ((s.setHbm 2).ungateAll 0))
  (u.str.models.map (·.1)).foldl (fun t m => t.fixBlocks m) u

theorem exec_snowdropExit_waits (h : ¬(s.pw.powerState = 4 ∧ s.pw.changing = true ∧ s.pw.target ≠ 4)) :
    exec .snowdropExit s = .next s := if_neg h

theorem exec_snowdropExit_leaves (h : s.pw.powerState = 4 ∧ s.pw.changing = true ∧ s.pw.target ≠ 4) :
    exec .snowdropExit s = .next (((s.thawed s.pw.snowPorts).setDomain 90 5).modPw fun x => { x with snowPorts := [] }) := if_pos h

/-- What the ports and the blocks that come back stand on: the domains that are on. -/
theorem State.thawed_domain (s : State) (ports : List Nat) (d : Nat) : (s.thawed ports).domain d =
    (ports.foldl (fun t p => t.portOn p) ((List.range 32).foldl (fun t q => t.quarterOnNow q) ((s.setHbm 2).ungateAll 0))).domain d :=
  (Moves.foldl _ (.rfl' 0x20000000 _) fun t m h => State.fixBlocks_moves h (by decide) m).domain (by decide) d

theorem State.thawed_hbm (s : State) (ports : List Nat) {k : Nat} (h : k < 4) : (s.thawed ports).domain (86 + k) = 2 := by
  rw [State.thawed_domain, State.portsOn_domain_below _ (by omega)]
  refine State.quartersOn_keeps_on _ (State.ungateAll_keeps_on _ _ ?_)
  rw [State.setHbm_domain, if_pos (by omega)]

theorem State.thawed_port (s : State) {ports : List Nat} {p : Nat} (h : p ∈ ports) : (s.thawed ports).domain (91 + p) = 5 := by
  rw [State.thawed_domain, State.portsOn_domain _ h]

theorem State.thawed_moves (s : State) (ports : List Nat) : Moves besidePower s (s.thawed ports) := by
  have on : Moves besidePower s ((s.setHbm 2).ungateAll 0) := State.ungateAll_moves (State.setHbm_moves (.rfl' _ s) (by decide) _) (by decide) _
  have quarters := Moves.foldl (List.range 32) on fun t q h => State.quarterOnNow_moves h (by decide) q
  have trained := Moves.foldl ports quarters fun t p h => State.portOn_moves h (by decide) p
  exact Moves.foldl _ trained fun t m h => State.fixBlocks_moves h (by decide) m

/-! ### The end of a change (R564, R565) -/

theorem State.beginGating_domainsOnly (s : State) : DomainsOnly s s.beginGating := by
  unfold State.beginGating
  split
  · exact s.gateAll_domainsOnly
  · rfl

theorem State.enterState_domainsOnly (s : State) : DomainsOnly s s.enterState := by
  unfold State.enterState
  split
  · split
    · rfl
    · exact (s.ungateAll_domainsOnly 0).trans (State.setHbm_domainsOnly _ 2)
  · exact s.setHbm_domainsOnly 4
  · rfl

/-- The state that a change leads to, before a waiting request or a remembered wake. -/
def State.arrived (s : State) : State :=
  (s.beginGating.enterState.modPw fun x => { x with powerState := x.target, changing := false, wake := false }).incObj 0x2116 5

theorem exec_powerStateChangeDone_still (h : s.pw.changing = false) : exec .powerStateChangeDone s = .next s := if_pos (by simp [h])

theorem exec_powerStateChangeDone_waits (h : s.pw.changing = true) (early : s.beginGating.changeReady = false) :
    exec .powerStateChangeDone s = .next s.beginGating := by
  change execPowerStateChangeDone s = _
  unfold execPowerStateChangeDone
  rw [if_neg (by simp [h])]
  exact if_pos (by simp [early])

theorem exec_powerStateChangeDone_asked {r : Nat} (h : s.pw.changing = true) (ready : s.beginGating.changeReady = true)
    (waiting : s.pw.waiting = some r) :
    exec .powerStateChangeDone s = .next ((s.arrived.modPw fun x => { x with waiting := none }).actRequest r) := by
  change execPowerStateChangeDone s = _
  unfold execPowerStateChangeDone
  rw [if_neg (by simp [h]), waiting]
  exact if_neg (by simp [ready])

theorem exec_powerStateChangeDone_unasked (h : s.pw.changing = true) (ready : s.beginGating.changeReady = true)
    (waiting : s.pw.waiting = none) :
    exec .powerStateChangeDone s = .next (if s.pw.wake then s.arrived.wakeTrigger else s.arrived) := by
  change execPowerStateChangeDone s = _
  unfold execPowerStateChangeDone
  rw [if_neg (by simp [h]), waiting]
  exact if_neg (by simp [ready])

theorem State.gatedEntered_domainsOnly (s : State) : DomainsOnly s s.beginGating.enterState :=
  s.beginGating_domainsOnly.trans (State.enterState_domainsOnly _)

theorem State.arrived_powerState (s : State) : s.arrived.pw.powerState = s.pw.target := congrArg Power.target s.gatedEntered_domainsOnly.pw

theorem State.arrived_counts (s : State) : s.arrived.obj 0x2116 5 = (s.obj 0x2116 5 + 1) % 2 ^ 32 :=
  (State.obj_incObj_self _ 0x2116 5).trans (congrArg (fun n => (n + 1) % 2 ^ 32) (s.gatedEntered_domainsOnly.obj 0x2116 5))

/-! ### Scheduled Snowdrop (R570) -/

/-- The conditions under which a scheduled Snowdrop starts. -/
def State.snowDue (s : State) : Prop :=
  s.boot.step = 10 ∧ s.obj 0x2115 1 = 1 ∧ (s.tm.state = .sourced ∨ s.tm.state = .locked ∨ s.tm.state = .holdover)
  ∧ s.pw.schedSaved = none ∧ s.pw.schedDay ≠ some s.schedDayNow

/-- The request is saved and the day noted. -/
def State.snowSaved (s : State) : State :=
  s.modPw fun x => { x with schedSaved := some (s.obj 0x2112 0), schedDay := some s.schedDayNow }

theorem exec_scheduleStart_early (h : ¬s.snowDue) : exec .scheduleStart s = .next s := by
  refine if_neg fun due => h ?_
  simpa [State.snowDue, or_assoc] using due

theorem exec_scheduleStart_due (h : s.snowDue) : exec .scheduleStart s = .next (s.snowSaved.writeRequest 4) := by
  refine if_pos ?_
  simpa [State.snowDue, or_assoc] using h

theorem exec_scheduleEnd_none (h : s.pw.schedSaved = none) : exec .scheduleEnd s = .next s := by
  change execScheduleEnd s = _
  unfold execScheduleEnd
  rw [h]

theorem exec_scheduleEnd_saved {r : Nat} (h : s.pw.schedSaved = some r) :
    exec .scheduleEnd s = .next ((s.modPw fun x => { x with schedSaved := none }).writeRequest r) := by
  change execScheduleEnd s = _
  unfold execScheduleEnd
  rw [h]

/-- A request leaves the schedule as it was. -/
theorem State.writeRequest_frame (s : State) (r : Nat) : PowerFrame 0x80004000000000000 s.pw (s.writeRequest r).pw :=
  (State.writeRequest_moves (.rfl' _ s) (by decide) r).frame.pw

/-- Settles O59: each command is a change of the power state or a list of domains to switch, and each domain is followed to the end. -/
theorem powerStatesChangeAsAsked : Obligations.PowerStatesChangeAsAsked := by
  refine ⟨fun s => ⟨exec_crocusIdleExpiry_busy, fun idle => ⟨_, exec_crocusIdleExpiry_idle idle, ?crocus⟩⟩,
    fun s => ⟨fun elsewhere => congrArg Host.Outcome.next (State.wakeTrigger_elsewhere elsewhere),
      fun crocus entering => ⟨_, congrArg Host.Outcome.next (State.wakeTrigger_entering crocus entering), rfl, rfl, entering⟩,
      fun crocus inside => ⟨_, congrArg Host.Outcome.next (State.wakeTrigger_inside crocus inside), rfl, rfl, rfl, rfl, rfl⟩⟩,
    fun s => ⟨fun takes => ⟨exec_tulipEntry_takes takes, rfl, rfl⟩, exec_tulipEntry_waits, fun none may =>
      ⟨_, exec_tulipEntry_gates none may, fun e he d hd => State.gateEngines_notOn _ he hd,
        s.tulipGated_domainsOnly.str, s.tulipGated_domainsOnly.pw⟩⟩,
    fun s => ⟨exec_snowdropEntry_waits, fun may => ⟨_, exec_snowdropEntry_enters may, ?snowdrop⟩⟩,
    fun s => ⟨exec_snowdropExit_waits, fun may => ⟨_, exec_snowdropExit_leaves may, ?thaw⟩⟩,
    fun s => ⟨exec_powerStateChangeDone_still, exec_powerStateChangeDone_waits, fun changing ready => ⟨s.arrived, s.arrived_powerState, rfl,
      s.arrived_counts, s.gatedEntered_domainsOnly.str, ?rests, ?wakes, ?acts⟩⟩,
    fun s => ⟨exec_scheduleStart_early, fun due => ⟨_, exec_scheduleStart_due due, State.writeRequest_obj .., ?saved, ?day,
        State.writeRequest_waits (s := s.snowSaved) 4, fun still => ?starts⟩,
      exec_scheduleEnd_none, fun r saved => ⟨_, exec_scheduleEnd_saved saved, State.writeRequest_obj .., ?restored,
        State.writeRequest_waits (s := s.modPw fun x => { x with schedSaved := none }) r⟩⟩⟩
  case crocus =>
    obtain ⟨_, _, _, _, below, _⟩ := idle
    exact ⟨rfl, decide_eq_true (Nat.ne_of_lt below), rfl, rfl, rfl, rfl, rfl⟩
  case snowdrop =>
    obtain ⟨target, changing, _, _⟩ := may
    have kept := s.snowed_moves.frame.pw
    simp only [State.snowNoted_linkUp, State.snowNoted_domain, State.snowNoted_str, State.snowNoted_snowPorts, State.snowNoted_target,
      State.snowNoted_changing, kept.target (by decide), kept.changing (by decide)]
    exact ⟨trivial, State.snowDark_pcie _, fun k => State.snowDark_hbm _, fun q => State.snowDark_quarter _, s.snowed_resident, trivial,
      target, changing⟩
  case thaw =>
    obtain ⟨_, changing, _⟩ := may
    have kept := (s.thawed_moves s.pw.snowPorts).frame.pw
    refine ⟨State.domain_setDomain_self .., fun k hk => ?_, rfl, kept.target (by decide), (kept.changing (by decide)).trans changing,
      fun p hp => ?_⟩
    · exact (State.domain_setDomain_ne _ 5 (by omega)).trans (s.thawed_hbm _ hk)
    · exact (State.domain_setDomain_ne _ 5 (by omega)).trans (s.thawed_port hp)
  case rests =>
    intro waiting wake
    rw [exec_powerStateChangeDone_unasked changing ready waiting, wake]
    rfl
  case wakes =>
    intro waiting wake
    rw [exec_powerStateChangeDone_unasked changing ready waiting, wake]
    rfl
  case acts => exact fun r => exec_powerStateChangeDone_asked changing ready
  case saved => exact (s.snowSaved.writeRequest_frame 4).schedSaved (by decide)
  case day => exact (s.snowSaved.writeRequest_frame 4).schedDay (by decide)
  case starts =>
    rw [State.writeRequest_acts (s := s.snowSaved) 4 still, State.actRequest_snowdrop]
    exact ⟨rfl, rfl⟩
  case restored => exact (State.writeRequest_frame _ r).schedSaved (by decide)

end Sys2Proof.Machine
end

section
/-! SUPPORT. Frames that wait in a port for their command: which one a command takes, and what taking it does to the port (R454, R457, R459). -/

namespace Sys2Proof.Machine

/-- The frame taken is of the type, and no frame before it is of its channel. -/
theorem headFrame_some {sel : Frame → Bool} {f : Frame} {l : List Frame} {seen : List Nat} (h : headFrame sel l seen = some f) :
    sel f = true ∧ f.vc ∉ seen ∧ ∃ before after, l = before ++ f :: after ∧ ∀ g ∈ before, g.vc ≠ f.vc := by
  induction l generalizing seen with
  | nil => cases h
  | cons g gs ih =>
    unfold headFrame at h
    split at h
    · next takes =>
      obtain rfl := Option.some.inj h
      obtain ⟨ofKind, first⟩ : sel g = true ∧ g.vc ∉ seen := by simpa using takes
      exact ⟨ofKind, first, [], gs, rfl, by simp⟩
    · obtain ⟨ofKind, first, before, after, rfl, others⟩ := ih h
      obtain ⟨notG, unseen⟩ := not_or.1 (mt List.mem_cons.2 first)
      exact ⟨ofKind, unseen, g :: before, after, rfl, List.forall_mem_cons.2 ⟨Ne.symm notG, others⟩⟩

/-- A port once a frame has been taken off it: the buffer of the frame is free, and its credit is owed. -/
def XPort.without (x : XPort) (f : Frame) : XPort :=
  { x with rx := dropFirst f x.rx, owed := setNth x.owed f.vc (nthD x.owed f.vc + 1) }

/-- A frame is taken off a port that is UP, the first of its channel there. -/
theorem State.takeFrame_some {s u : State} {p : Nat} {sel : Frame → Bool} {f : Frame} (h : s.takeFrame p sel = some (f, u)) :
    (s.port p).state = .up ∧ headFrame sel (s.port p).rx [] = some f ∧ u = s.setPort p ((s.port p).without f) := by
  unfold State.takeFrame at h
  dsimp only at h
  split at h
  · cases h
  · next up =>
    obtain ⟨g, found, taken⟩ := Option.map_eq_some_iff.1 h
    cases taken
    exact ⟨not_not.1 up, found, rfl⟩

theorem State.onFrame_none {s : State} {p : Nat} {sel : Frame → Bool} (h : s.takeFrame p sel = none) (act : Frame → State → State) :
    s.onFrame p sel act = s := by
  rw [State.onFrame, h]

/-- Each command on frames acts on the next frame of its kind at its port, and does nothing else. -/
theorem exec_of_frameCmd {c : Instr} {port : PortNo} {sel : Frame → Bool} (h : frameCmd c = some (port, sel)) (s : State) :
    ∃ act, exec c s = .next (s.onFrame port.val sel act) := by
  unfold frameCmd at h
  split at h <;> cases h <;> exact ⟨_, rfl⟩

/-- Settles O42: a command on frames is `State.onFrame` with its own action, and the frame taken is that of `headFrame`. -/
theorem framesWaitForTheirCommand : Obligations.FramesWaitForTheirCommand := by
  intro c port sel s isFrameCmd
  obtain ⟨act, acts⟩ := exec_of_frameCmd isFrameCmd s
  refine ⟨fun none => by rw [acts, State.onFrame_none none], fun f u taken => ?_⟩
  obtain ⟨up, found, rfl⟩ := State.takeFrame_some taken
  obtain ⟨ofKind, -, first⟩ := headFrame_some found
  exact ⟨⟨_, exec_frame acts taken⟩, up, ofKind, first, State.port_setPort_self .., fun p hp => State.port_setPort_ne (h := hp) ..⟩

end Sys2Proof.Machine
end

section
/-! SUPPORT. The training of a Crossing port: the steps from DOWN to IDENT, the IDENT frames, and the ways out of training (R449, R460, R461). -/

namespace Sys2Proof.Machine

/-! ### From DOWN to IDENT (R460) -/

/-- Sends an IDENT frame on a port. -/
def State.sendIdent (s : State) (p : Nat) : State := s.setPort p ((s.port p).emit (s.identFrame p))

section
variable {s : State} {p : Nat}

theorem State.port_sendIdent_self : (s.sendIdent p).port p = (s.port p).emit (s.identFrame p) := State.port_setPort_self ..

theorem State.port_sendIdent_ne {k : Nat} (h : k ≠ p) : (s.sendIdent p).port k = s.port k := State.port_setPort_ne (h := h) ..

/-- An IDENT frame that is sent joins the blocks on the lanes. -/
theorem State.sendIdent_lanes : ∃ b, ((s.sendIdent p).port p).lanes = sendBlocks (s.port p).lanes (frameBlocks b ++ [Block.idle]) := by
  rw [State.port_sendIdent_self]
  exact ⟨_, rfl⟩

end

/-- A port that has moved on in its training: its IDENT frames are counted anew. -/
def XPort.trained (x : XPort) (dst : PortState) : XPort := { x with state := dst, identGood := 0, peerOk := false }

section
variable {s : State} {p : Nat} {src dst : PortState}

theorem State.train_elsewhere (h : (s.port p).state ≠ src) : s.train p src dst = s := if_neg h

theorem State.train_here (h : (s.port p).state = src) : s.train p src dst = s.setPort p ((s.port p).trained dst) := if_pos h

/-- What a step of training does, for the three steps that send nothing. -/
theorem exec_trains {c : Instr} (hc : exec c s = .next (s.train p src dst)) :
    ((s.port p).state ≠ src → exec c s = .next s) ∧ ((s.port p).state = src → Completes c s fun t =>
      ((∀ k, k ≠ p → t.port k = s.port k) ∧ t.st = s.st ∧ t.rb = s.rb) ∧ (t.port p).state = dst ∧ (t.port p).identGood = 0) := by
  refine ⟨fun elsewhere => by rw [hc, State.train_elsewhere elsewhere], fun here => ⟨_, hc, ?_⟩⟩
  beta_reduce
  rw [State.train_here here, State.port_setPort_self]
  exact ⟨⟨fun k hk => State.port_setPort_ne (h := hk) .., rfl, rfl⟩, rfl, rfl⟩

end

section
variable {port : PortNo} {s : State}

theorem exec_lanesDeskewed_elsewhere (h : (s.port port.val).state ≠ .deskew) : exec (.lanesDeskewed port) s = .next s := if_neg h

theorem exec_lanesDeskewed_deskew (h : (s.port port.val).state = .deskew) :
    exec (.lanesDeskewed port) s = .next ((s.setPort port.val ((s.port port.val).trained .ident)).sendIdent port.val) := by
  rw [← State.train_here (src := .deskew) h]
  exact if_pos h

/-! ### TRAINING_TIMEOUT (R460) -/

/-- A port that goes DOWN at a limit of its training. -/
def XPort.trainingEnds (x : XPort) : XPort :=
  if x.state = .detect then { x with state := .down, downReason := 8, attempts := (x.attempts + 1) % 2 ^ 32 }
  else { x with state := .down, downReason := 8, identGood := 0, peerOk := false }

theorem XPort.trainingEnds_down (x : XPort) : x.trainingEnds.state = .down ∧ x.trainingEnds.downReason = 8
    ∧ x.trainingEnds.attempts = if x.state = .detect then (x.attempts + 1) % 2 ^ 32 else x.attempts := by
  unfold XPort.trainingEnds
  split <;> exact ⟨rfl, rfl, rfl⟩

theorem exec_trainingTimeout_elsewhere (h : (s.port port.val).state = .up ∨ (s.port port.val).state = .down
    ∨ (s.port port.val).state = .held ∨ (s.port port.val).state = .disabled) : exec (.trainingTimeout port) s = .next s := by
  change execTrainingTimeout .. = _
  unfold execTrainingTimeout
  obtain h | h | h | h := h <;> simp only [h]

theorem exec_trainingTimeout_training (h : (s.port port.val).state = .detect ∨ (s.port port.val).state = .lock
    ∨ (s.port port.val).state = .deskew ∨ (s.port port.val).state = .ident) :
    exec (.trainingTimeout port) s = .next (s.setPort port.val (s.port port.val).trainingEnds) := by
  change execTrainingTimeout .. = _
  unfold execTrainingTimeout XPort.trainingEnds
  obtain h | h | h | h := h <;> simp [h]

end

/-! ### IDENT (R461) -/

/-- What the IDENT frame of some blocks says. -/
abbrev State.identRead (s : State) (blocks : List Block) : IdentMsg := Config.identOf (frameOf (lineBytes blocks) s.tm.t).payload

/-- A port that has received a good IDENT frame of a peer that R461 allows. -/
def XPort.identified (x : XPort) (m : IdentMsg) : XPort :=
  { x with identGood := x.identGood + 1, peerOk := x.peerOk || m.peerOk }

/-- A port that comes UP with the peer that its IDENT frames show. -/
def XPort.comesUp (x : XPort) (m : IdentMsg) : XPort := { x with state := .up, peerDev := m.dev, credit := m.credits }

/-- Counts and answers a good IDENT frame. -/
def State.answerIdent (s : State) (p : Nat) (m : IdentMsg) : State :=
  (s.setPort p ((s.port p).identified m)).sendIdent p

/-- Counts and answers the good IDENT frame that brings the port UP. -/
def State.identUp (s : State) (p : Nat) (m : IdentMsg) : State :=
  (s.answerIdent p m).setPort p (((s.answerIdent p m).port p).comesUp m)

section
variable {s : State} {p : Nat}

theorem State.answerIdent_others (m : IdentMsg) {k : Nat} (h : k ≠ p) : (s.answerIdent p m).port k = s.port k := by
  rw [State.answerIdent, State.port_sendIdent_ne h, State.port_setPort_ne (h := h)]

theorem State.answerIdent_port (m : IdentMsg) : ∃ f, (s.answerIdent p m).port p = ((s.port p).identified m).emit f := by
  rw [State.answerIdent, State.port_sendIdent_self, State.port_setPort_self]
  exact ⟨_, rfl⟩

end

section
variable {port : PortNo} {blocks : List Block} {s : State}

theorem exec_ident_elsewhere (h : (s.port port.val).state ≠ .ident) : exec (.ident port blocks) s = .next s := if_pos h

section
variable (ident : (s.port port.val).state = .ident)
include ident

theorem exec_ident_bad (bad : ¬(frameGood (lineBytes blocks) = true ∧ bits (headWord (lineBytes blocks)) 2 4 = 0xF)) :
    exec (.ident port blocks) s = .next (s.setPort port.val { s.port port.val with identGood := 0 }) := by
  refine (if_neg (not_not_intro ident)).trans (if_pos ?_)
  simpa [-not_and, not_and_or] using bad

variable (good : frameGood (lineBytes blocks) = true ∧ bits (headWord (lineBytes blocks)) 2 4 = 0xF)
include good

theorem exec_ident_excluded {reason : Nat}
    (fault : s.identFault port.val (s.identRead blocks) = some reason) :
    exec (.ident port blocks) s = .next ((s.setPort port.val
      { s.port port.val with state := .held, downReason := reason, identGood := 0, peerOk := false }).emcyEvent 0xFF50 [7, port.val, reason]) := by
  refine (if_neg (not_not_intro ident)).trans ((if_neg (by simp [good])).trans ?_)
  dsimp only
  rw [fault]

/-- The third good frame in a row brings the port UP once PEER_OK has been seen. -/
theorem exec_ident_allowed (allowed : s.identFault port.val (s.identRead blocks) = none) : exec (.ident port blocks) s =
    if 3 ≤ (s.port port.val).identGood + 1 ∧ ((s.port port.val).peerOk || (s.identRead blocks).peerOk) = true
    then .next (s.identUp port.val (s.identRead blocks)) else .next (s.answerIdent port.val (s.identRead blocks)) := by
  refine (if_neg (not_not_intro ident)).trans ((if_neg (by simp [good])).trans ?_)
  dsimp only
  rw [allowed]
  rfl

end

end

/-! ### PEER_REQUEST_TIMEOUT (R506) -/

theorem exec_peerRequestTimeout_ends (port : PortNo) (txn : Nat) (s : State) : Completes (.peerRequestTimeout port txn) s fun t =>
    (∀ n, n ∈ (t.port port.val).open_ ↔ n ≠ txn ∧ n ∈ (s.port port.val).open_) ∧ ∀ k, k ≠ port.val → t.port k = s.port k := by
  by_cases waits : (s.port port.val).open_.contains txn = true
  · refine ⟨_, if_pos waits, fun n => ?_, fun k hk => State.port_setPort_ne (h := hk) ..⟩
    rw [State.port_setPort_self, List.mem_filter, bne_iff_ne, and_comm]
  · refine ⟨_, if_neg waits, fun n => ⟨fun hn => ⟨?_, hn⟩, And.right⟩, fun k _ => rfl⟩
    rintro rfl
    exact waits (List.contains_iff_mem.2 hn)

/-- Settles O47: each command sets the state of its own port; the loss of an UP port is that of `State.port_portDown`. -/
theorem portsTrainStepByStep : Obligations.PortsTrainStepByStep := by
  refine ⟨fun port s => ?training, fun port blocks s => ?ident, exec_peerRequestTimeout_ends⟩
  case training =>
    intro p x others moves
    refine ⟨exec_trains rfl, exec_trains rfl, exec_trains rfl,
      ⟨exec_lanesDeskewed_elsewhere, fun deskew => ⟨_, exec_lanesDeskewed_deskew deskew, ?deskewed⟩⟩,
      fun deskew => ⟨_, exec_lanesDeskewed_deskew deskew, ?sends⟩, exec_trainingTimeout_elsewhere,
      fun training => ⟨_, exec_trainingTimeout_training training, ?limit⟩,
      fun notUp => congrArg Host.Outcome.next (State.portDown_notUp 3 notUp), rfl,
      fun up idle calm => ⟨_, rfl, fun k hk => ?lostOther, ?lost⟩⟩
    case deskewed =>
      beta_reduce
      rw [State.port_sendIdent_self, State.port_setPort_self]
      exact ⟨⟨fun k hk => (State.port_sendIdent_ne hk).trans (State.port_setPort_ne (h := hk) ..), rfl, rfl⟩, rfl, rfl⟩
    case sends =>
      obtain ⟨b, sent⟩ := State.sendIdent_lanes (s := s.setPort p (x.trained .ident)) (p := p)
      rw [State.port_setPort_self] at sent
      exact ⟨b, sent⟩
    case limit =>
      beta_reduce
      rw [State.port_setPort_self]
      exact ⟨⟨fun k hk => State.port_setPort_ne (h := hk) .., rfl, rfl⟩, x.trainingEnds_down⟩
    case lostOther => exact (State.port_portDown 3 up idle calm k).trans (State.port_setPort_ne (h := hk) ..)
    case lost => exact (State.port_portDown 3 up idle calm p).trans (State.port_setPort_self ..)
  case ident =>
    intro p x ok m
    refine ⟨exec_ident_elsewhere, exec_ident_bad, fun ident good => ?_⟩
    cases fault : s.identFault p m with
    | some reason =>
      refine ⟨_, exec_ident_excluded ident good fault, fun k hk => ?_, ?_⟩
      · rw [(State.emcyEvent_ctlOnly ..).port, State.port_setPort_ne (h := hk)]
      · exact ((State.emcyEvent_ctlOnly ..).port _).trans (State.port_setPort_self ..)
    | none =>
      have takes := exec_ident_allowed ident good fault
      obtain ⟨f, answered⟩ := State.answerIdent_port (s := s) (p := p) m
      by_cases third : 2 ≤ x.identGood ∧ (x.peerOk || m.peerOk) = true
      · refine ⟨_, takes.trans (if_pos (third.imp_left Nat.succ_le_succ)),
          fun k hk => (State.port_setPort_ne (h := hk) ..).trans (State.answerIdent_others m hk), ?_⟩
        rw [State.identUp, State.port_setPort_self, answered, if_pos third]
        exact ⟨rfl, rfl, ⟨_, rfl⟩, rfl, rfl, rfl⟩
      · refine ⟨_, takes.trans (if_neg (mt (.imp_left Nat.le_of_succ_le_succ) third)), fun k hk => State.answerIdent_others m hk, ?_⟩
        rw [answered, if_neg third]
        exact ⟨rfl, rfl, ⟨_, rfl⟩, ident⟩

end Sys2Proof.Machine
end

section
/-! SUPPORT. One step on an empty queue (R471, log 3). -/

namespace Sys2Proof.Machine

theorem step_empty {s : State} (h : s.pending = []) : step s = .next s.idle := by rw [step, h]

/-- Settles O2: the step of an empty queue is a tick of the timebase. -/
theorem emptyQueueTicks : Obligations.EmptyQueueTicks := fun _ empty => step_empty empty

end Sys2Proof.Machine
end

section
/-! SUPPORT. The timebase: what an election decides, what an offset does, and PPS, holdover and the election window (R473 to R484, R533). -/

namespace Sys2Proof.Machine

theorem CtlOnly.tm {s t : State} (h : CtlOnly s t) : t.tm = s.tm := by
  unfold CtlOnly at h
  rw [h]

@[simp] theorem State.modTm_tm (s : State) (f : Timebase → Timebase) : (s.modTm f).tm = f s.tm := rfl

/-! ### Elections (R475, R477) -/

section
variable (s : State)

/-- The candidates of an election, by class and DEV_ID: the device itself, and every device whose SYNC counts. -/
def State.candidates : List (Nat × Nat) := (s.timeClass, s.xr.devId) :: s.tm.heard.map fun h => (h.2, h.1)

/-- The device elected is a candidate, and none has a smaller pair of class and DEV_ID. -/
theorem State.electNow_least :
    ∃ c, (c, s.electNow) ∈ s.candidates ∧ ∀ x ∈ s.candidates, c * 8 + s.electNow ≤ x.1 * 8 + x.2 := by
  cases least : argMin (fun c : Nat × Nat => c.1 * 8 + c.2) s.candidates with
  | none => cases argMin_eq_none least
  | some y =>
    have elected : s.electNow = y.2 := congrArg (fun o : Option (Nat × Nat) => (o.map Prod.snd).getD s.xr.devId) least
    rw [elected]
    exact ⟨y.1, argMin_least least⟩

/-- The timebase unit whose election went to another device than its master. -/
def State.reelected : State := { s with tm := { s.tm with
  master := s.electNow, exch := none, masterHold := false
  state := if s.electNow = s.xr.devId ∧ s.tm.state = .locked then .sourced else s.tm.state } }

variable {s}

theorem State.elect_same (h : s.electNow = s.tm.master) : s.elect = s := if_pos h

theorem State.elect_other (h : s.electNow ≠ s.tm.master) : s.elect = s.reelected := by
  refine (if_neg h).trans ?_
  simp only [State.modTm, State.reelected, decide_eq_true_eq]

variable (s)

/-- An election changes the master and the exchange with it, and the time state, and nothing else. -/
theorem State.elect_eq : s.elect = s.modTm fun x => { x with
    master := s.electNow, exch := s.elect.tm.exch, masterHold := s.elect.tm.masterHold, state := s.elect.tm.state } := by
  by_cases same : s.electNow = s.tm.master
  · rw [State.elect_same same, same]
    rfl
  · rw [State.elect_other same]
    rfl

@[simp] theorem State.elect_master : s.elect.tm.master = s.electNow := congrArg (·.tm.master) s.elect_eq
@[simp] theorem State.elect_t : s.elect.tm.t = s.tm.t := congrArg (·.tm.t) s.elect_eq
@[simp] theorem State.elect_e : s.elect.tm.e = s.tm.e := congrArg (·.tm.e) s.elect_eq
@[simp] theorem State.elect_r : s.elect.tm.r = s.tm.r := congrArg (·.tm.r) s.elect_eq
@[simp] theorem State.elect_refSince : s.elect.tm.refSince = s.tm.refSince := congrArg (·.tm.refSince) s.elect_eq
@[simp] theorem State.elect_stepped : s.elect.tm.stepped = s.tm.stepped := congrArg (·.tm.stepped) s.elect_eq
@[simp] theorem State.elect_ppsValid : s.elect.tm.ppsValid = s.tm.ppsValid := congrArg (·.tm.ppsValid) s.elect_eq
@[simp] theorem State.elect_ppsAccepted : s.elect.tm.ppsAccepted = s.tm.ppsAccepted := congrArg (·.tm.ppsAccepted) s.elect_eq
@[simp] theorem State.elect_heard : s.elect.tm.heard = s.tm.heard := congrArg (·.tm.heard) s.elect_eq
@[simp] theorem State.elect_holdSince : s.elect.tm.holdSince = s.tm.holdSince := congrArg (·.tm.holdSince) s.elect_eq
@[simp] theorem State.elect_cycles : s.elect.tm.cycles = s.tm.cycles := congrArg (·.tm.cycles) s.elect_eq
@[simp] theorem State.elect_xr : s.elect.xr = s.xr := congrArg (·.xr) s.elect_eq
@[simp] theorem State.elect_st : s.elect.st = s.st := congrArg (·.st) s.elect_eq
@[simp] theorem State.elect_str : s.elect.str = s.str := congrArg (·.str) s.elect_eq
@[simp] theorem State.elect_ctl : s.elect.ctl = s.ctl := congrArg (·.ctl) s.elect_eq
@[simp] theorem State.obj_elect (i b : Nat) : s.elect.obj i b = s.obj i b := congrArg (·.obj i b) s.elect_eq

/-- An election leaves the time state, but for a LOCKED device that becomes its own master (R475). -/
theorem State.elect_state : s.elect.tm.state = s.tm.state ∨
    s.tm.state = .locked ∧ s.elect.tm.state = .sourced ∧ s.elect.tm.master = s.xr.devId ∧ s.tm.master ≠ s.xr.devId := by
  by_cases same : s.electNow = s.tm.master
  · exact .inl (congrArg (·.tm.state) (State.elect_same same))
  · have became : s.elect.tm.state = _ := congrArg (·.tm.state) (State.elect_other same)
    by_cases own : s.electNow = s.xr.devId ∧ s.tm.state = .locked
    · exact .inr ⟨own.2, became.trans (if_pos own), s.elect_master.trans own.1, fun was => same (own.1.trans was.symm)⟩
    · exact .inl (became.trans (if_neg own))

theorem State.elect_state_of_ne_locked (h : s.tm.state ≠ .locked) : s.elect.tm.state = s.tm.state :=
  s.elect_state.resolve_right fun was => h was.1

end

/-! ### Offsets (R480 to R483) -/

/-- The rate is bounded to ±500 ppm (R481). -/
theorem clampRate_mem (x : Rat) : -(1 / 2000 : Rat) ≤ clampRate x ∧ clampRate x ≤ 1 / 2000 := by
  unfold clampRate
  dsimp only
  split_ifs with low high
  · norm_num
  · norm_num
  · exact ⟨not_lt.1 low, not_lt.1 high⟩

section
variable (s : State) (o : Rat) (src : OffsetSource)

/-- The offset as it is reported, whether it is accepted or not. -/
def State.noteOffset : State :=
  s.modTm fun x => { x with offsetNs := (Nat.min (Int.toNat (ratTrunc o + 2 ^ 31)) (2 ^ 32 - 1) : Nat) - (2 ^ 31 : Int) }

/-- A refusal as it is counted. -/
def State.countRefusal : State := (s.setObj 0x2213 4 (setBit (s.obj 0x2213 4) 0 true)).incObj 0x2213 5

/-- A refused offset is counted and elects; at most one message tells of it. -/
theorem State.refuseOffset_ctlOnly :
    ∃ told, CtlOnly (s.countRefusal.elect.modTm fun x => { x with refusedReported := told }) (s.refuseOffset o src) ∧
      (s.refuseOffset o src).obj 0x2213 5 = (s.obj 0x2213 5 + 1) % 2 ^ 32 := by
  have counted : s.countRefusal.elect.obj 0x2213 5 = (s.obj 0x2213 5 + 1) % 2 ^ 32 := by
    rw [State.obj_elect, State.countRefusal, State.obj_incObj_self, State.obj_setObj_ne _ _ (by decide)]
  by_cases told : s.countRefusal.elect.tm.refusedReported = true
  · have refuses : s.refuseOffset o src = s.countRefusal.elect := if_pos told
    rw [refuses]
    exact ⟨s.countRefusal.elect.tm.refusedReported, rfl, counted⟩
  · have refuses : s.refuseOffset o src = _ := if_neg told
    rw [refuses]
    exact ⟨true, State.emcyEvent_ctlOnly .., (State.obj_queueEmcy _ (by decide)).trans counted⟩

variable {s o src}

theorem State.takeOffset_refused (h : s.offsetOk o = false) : s.takeOffset o src = (s.noteOffset o).refuseOffset o src :=
  if_pos (by simp [h])

variable (s o src)

/-- The timebase as an accepted offset corrects it, by a step or by rate. -/
def State.corrected : State :=
  let source := (src, if src = .exchange then s.tm.master else 0)
  if s.tm.state = .free ∨ s.tm.state = .untrusted then
    ((s.noteOffset o).timeStep o).modTm fun x => { x with refSource := some source }
  else (s.noteOffset o).modTm fun x => x.correct o source

/-- An accepted offset: the timebase is corrected, and the state that follows elects. -/
def State.follow : State := (s.corrected o src).modTm fun x => { x with state := s.tm.state.after src s.tm.masterHold }

variable {s o src}

/-- Beside the election an accepted offset only ends the condition 0xFF31 (R484). -/
theorem State.takeOffset_accepted (h : s.offsetOk o = true) :
    CtlOnly (s.follow o src).elect (s.takeOffset o src) ∧
      ∀ i b, objKey i b ≠ objKey 0x4005 0x06 → (s.takeOffset o src).obj i b = (s.follow o src).obj i b := by
  have takes : s.takeOffset o src = if s.tm.state.after src s.tm.masterHold = .holdover then (s.follow o src).elect
      else (s.follow o src).elect.emcyEnd 0xFF31 fun _ => true := if_neg (by simp [h])
  by_cases holds : s.tm.state.after src s.tm.masterHold = .holdover
  · rw [takes, if_pos holds]
    exact ⟨.refl _, fun i b _ => State.obj_elect ..⟩
  · rw [takes, if_neg holds]
    exact ⟨State.emcyEnd_ctlOnly .., fun i b other => (State.obj_emcyEnd _ _ other).trans (State.obj_elect ..)⟩

variable (s)

/-- Beside its misses the end of a second changes objects and messages only (R392). -/
theorem State.closeSecond_ctlOnly (whole : Bool) : CtlOnly { s with str := { s.str with missSecond := 0 } } (s.closeSecond whole) := by
  unfold State.closeSecond
  dsimp only
  split
  · split
    · rfl
    · exact State.emcyRaise_ctlOnly ..
  · split
    · exact State.emcyEnd_ctlOnly ..
    · rfl

/-- The object that it writes is STORM_ACTIVE. -/
theorem State.obj_closeSecond (whole : Bool) {i b : Nat} (storm : objKey i b ≠ objKey 0x2500 0xA)
    (dropped : objKey i b ≠ objKey 0x4005 0x06) : (s.closeSecond whole).obj i b = s.obj i b := by
  unfold State.closeSecond
  dsimp only
  split
  · split
    · rfl
    · exact (State.obj_emcyRaise _ _ dropped).trans (State.obj_setObj_ne _ _ storm)
  · split
    · exact (State.obj_emcyEnd _ _ dropped).trans (State.obj_setObj_ne _ _ storm)
    · rfl

/-- The timebase after a step by an offset (R482). -/
def Timebase.stepBy (x : Timebase) (o : Rat) : Timebase :=
  { x with t := (((x.ns - o) * ((nsUnit : Nat) : Rat)).floor % ((2 ^ 96 : Nat) : Int)).toNat, e := 0, r := 0, oPrev := 0, stepped := true
           refSince := some x.cycles, lastStepNs := (x.ns - o).floor - x.ns.floor, refusedReported := false }

variable (o)

theorem State.timeStep_tm : (s.timeStep o).tm = s.tm.stepBy o := (State.closeSecond_ctlOnly ..).tm

theorem State.timeStep_xr_devId : (s.timeStep o).xr.devId = s.xr.devId := by
  rw [State.timeStep, (State.closeSecond_ctlOnly ..).xr]
  rfl

theorem State.obj_timeStep_steps : (s.timeStep o).obj 0x2213 6 = (s.obj 0x2213 6 + 1) % 2 ^ 32 := by
  refine (State.obj_closeSecond _ _ (by decide) (by decide)).trans ?_
  rw [State.obj_incObj_self, State.obj_setObj_ne _ _ (by decide)]
  rfl

variable (src)

theorem State.corrected_master_devId :
    (s.corrected o src).tm.master = s.tm.master ∧ (s.corrected o src).xr.devId = s.xr.devId := by
  unfold State.corrected
  dsimp only
  split
  · exact ⟨congrArg (·.master) ((s.noteOffset o).timeStep_tm o), (s.noteOffset o).timeStep_xr_devId o⟩
  · exact ⟨rfl, rfl⟩

variable {s o src}

/-- The state after an accepted offset is that of R475 and R480, but for a LOCKED device that elects itself. -/
theorem State.takeOffset_state (h : s.offsetOk o = true) :
    (s.takeOffset o src).tm.state = s.tm.state.after src s.tm.masterHold ∨
      s.tm.state.after src s.tm.masterHold = .locked ∧ (s.takeOffset o src).tm.state = .sourced ∧
        (s.takeOffset o src).tm.master = s.xr.devId ∧ s.tm.master ≠ s.xr.devId := by
  obtain ⟨master, devId⟩ := s.corrected_master_devId o src
  rw [(State.takeOffset_accepted h).1.tm, ← master, ← devId]
  exact (s.follow o src).elect_state

theorem State.offsetOk_of_fresh (h : s.tm.state = .free ∨ s.tm.state = .untrusted) : s.offsetOk o = true := by
  rcases h with h | h <;> simp [State.offsetOk, h]

/-- An offset accepted in FREE or UNTRUSTED steps the timebase (R482). -/
theorem State.takeOffset_steps (h : s.tm.state = .free ∨ s.tm.state = .untrusted) :
    (s.takeOffset o src).tm.r = 0 ∧ (s.takeOffset o src).tm.stepped = true ∧
      (s.takeOffset o src).obj 0x2213 6 = (s.obj 0x2213 6 + 1) % 2 ^ 32 ∧ (s.takeOffset o src).tm.t = (s.tm.stepBy o).t := by
  obtain ⟨elects, objects⟩ := State.takeOffset_accepted (src := src) (State.offsetOk_of_fresh (o := o) h)
  have steps : s.corrected o src = ((s.noteOffset o).timeStep o).modTm _ := if_pos h
  have stepped := (s.noteOffset o).timeStep_tm o
  rw [elects.tm, objects _ _ (by decide), State.elect_r, State.elect_stepped, State.elect_t, State.follow, steps]
  exact ⟨congrArg (·.r) stepped, congrArg (·.stepped) stepped, (s.noteOffset o).obj_timeStep_steps o, congrArg (·.t) stepped⟩

/-- Any other accepted offset leaves the time and changes the rate, within its bounds (R481). -/
theorem State.takeOffset_rates (ok : s.offsetOk o = true) (h : ¬(s.tm.state = .free ∨ s.tm.state = .untrusted)) :
    (s.takeOffset o src).tm.t = s.tm.t ∧ -(1 / 2000 : Rat) ≤ (s.takeOffset o src).tm.r ∧ (s.takeOffset o src).tm.r ≤ 1 / 2000 ∧
      (s.takeOffset o src).tm.refSince = some s.tm.cycles := by
  have rates : s.corrected o src = (s.noteOffset o).modTm _ := if_neg h
  rw [(State.takeOffset_accepted ok).1.tm, State.elect_t, State.elect_r, State.elect_refSince, State.follow, rates]
  exact ⟨rfl, (clampRate_mem _).1, (clampRate_mem _).2, rfl⟩

/-- A refused offset leaves time, rate and state, but for its election, and is counted (R483). -/
theorem State.takeOffset_leaves (h : s.offsetOk o = false) :
    (s.takeOffset o src).tm.t = s.tm.t ∧ (s.takeOffset o src).tm.r = s.tm.r ∧ (s.takeOffset o src).tm.e = s.tm.e ∧
      ((s.takeOffset o src).tm.state = s.tm.state ∨ s.tm.state = .locked ∧ (s.takeOffset o src).tm.state = .sourced ∧
        (s.takeOffset o src).tm.master = s.xr.devId ∧ s.tm.master ≠ s.xr.devId) ∧
      (s.takeOffset o src).obj 0x2213 5 = (s.obj 0x2213 5 + 1) % 2 ^ 32 := by
  obtain ⟨told, refuses, counted⟩ := (s.noteOffset o).refuseOffset_ctlOnly o src
  rw [State.takeOffset_refused h, counted, refuses.tm]
  exact ⟨State.elect_t _, State.elect_r _, State.elect_e _, State.elect_state _, rfl⟩

end

/-! ### PPS (R473, R474, R476) -/

section
variable (s : State)

/-- Whether an edge comes within 200 cycles of the last one. -/
def State.edgeTooSoon : Bool := match s.tm.ppsLastEdge with
  | some c => decide (s.tm.cycles - c < 200)
  | none => false

/-- Whether an edge comes one of the numbers of seconds after an instant. -/
def State.edgeNear (since : Option Nat) (ks : List Nat) : Bool := match since with
  | some c => ks.any fun k => nearSeconds (s.tm.cycles - c) k
  | none => false

/-- An edge that is remembered as the last one. -/
def State.seeEdge : State := s.modTm fun x => { x with ppsLastEdge := some x.cycles }

/-- An accepted edge is counted, and PPS is valid. -/
def State.countEdge : State :=
  (s.modTm fun x => { x with ppsValid := true, ppsAccepted := some x.cycles
                             ppsPhase := edgePhase (s.tm.ns - ((200 * s.tm.incr : Nat) : Rat) / ((nsUnit : Nat) : Rat)) }).incObj 0x2213 0xA

theorem exec_ppsEdge : exec .ppsEdge s =
    if s.edgeTooSoon = true then .next s
    else if s.tm.ppsValid = true then
      if s.edgeNear s.tm.ppsAccepted [1, 2, 3] = true then .next s.seeEdge.acceptEdge else .next (s.seeEdge.incObj 0x2213 0xB)
    else if s.edgeNear s.tm.ppsLastEdge [1] = true then .next s.seeEdge.acceptEdge
    else .next s.seeEdge := rfl

variable {s}

theorem State.edgeTooSoon_iff : s.edgeTooSoon = true ↔ ∃ c, s.tm.ppsLastEdge = some c ∧ s.tm.cycles - c < 200 := by
  unfold State.edgeTooSoon
  cases s.tm.ppsLastEdge <;> simp

/-- An accepted edge corrects the timebase of a master only. -/
theorem State.acceptEdge_follower (h : s.isMaster = false) : s.acceptEdge = s.countEdge.elect := if_neg (Bool.eq_false_iff.1 h)

theorem exec_ppsEdge_accepts (h : ¬s.edgeTooSoon = true)
    (instant : (s.tm.ppsValid = true ∧ s.edgeNear s.tm.ppsAccepted [1, 2, 3] = true) ∨
      (s.tm.ppsValid = false ∧ s.edgeNear s.tm.ppsLastEdge [1] = true)) : exec .ppsEdge s = .next s.seeEdge.acceptEdge := by
  rw [exec_ppsEdge, if_neg h]
  rcases instant with ⟨valid, near⟩ | ⟨invalid, near⟩
  · rw [if_pos valid, if_pos near]
  · rw [if_neg (Bool.eq_false_iff.1 invalid), if_pos near]

end

/-! ### Holdover (R484) -/

section
variable {s : State}

@[simp] theorem State.emcyRaise_tm (code : Nat) (mfr : List Nat) : (s.emcyRaise code mfr).tm = s.tm := (State.emcyRaise_ctlOnly ..).tm

/-- A condition that is not active joins those that are. -/
theorem State.emcyRaise_conditions {code : Nat} {mfr : List Nat} (h : ∀ c ∈ s.ctl.conditions, c.1 ≠ code) :
    (s.emcyRaise code mfr).ctl.conditions = s.ctl.conditions ++ [(code, mfr)] := by
  unfold State.emcyRaise
  rw [if_neg]
  · exact State.queueEmcy_conditions ..
  · rw [List.any_eq_true]
    rintro ⟨c, hc, same⟩
    exact h c hc (beq_iff_eq.1 (Bool.and_eq_true_iff.1 same).1)

/-- A device that enters HOLDOVER keeps its estimate alone, and the time goes on. -/
theorem exec_holdoverEntry_holds (h : s.mayHold = true) : Completes .holdoverEntry s fun t =>
    t.tm.state = .holdover ∧ t.tm.r = clampRate (-s.tm.e) ∧ t.tm.holdSince = s.tm.cycles ∧ t.tm.t = s.tm.t ∧ t.tm.e = s.tm.e
      ∧ t.st = s.st ∧ t.str = s.str := by
  refine ⟨s.enterHoldover, if_pos h, ?_⟩
  dsimp only [State.enterHoldover]
  rw [State.elect_state_of_ne_locked _ (by simp), State.elect_st, State.elect_str, (State.emcyRaise_ctlOnly ..).st,
    (State.emcyRaise_ctlOnly ..).str]
  simp

/-- At the limit the device is UNTRUSTED, and 0xFF31 tells of the limit in place of the entry. -/
theorem exec_holdoverLimitExpiry_holdover (h : s.tm.state = .holdover) : Completes .holdoverLimitExpiry s fun t =>
    t.tm.state = .untrusted ∧ t.tm.t = s.tm.t ∧ t.tm.r = s.tm.r ∧
      t.ctl.conditions = (s.ctl.conditions.filter fun c => c.1 != 0xFF31) ++ [(0xFF31, [s.tm.master, 1])] := by
  refine ⟨_, if_pos h, ?_⟩
  beta_reduce
  rw [State.elect_state_of_ne_locked _ (by simp), State.elect_ctl, State.emcyRaise_conditions (by simp)]
  simp

end

/-- Settles O48: each event of the timebase is the election of `State.elect`, the offset of `State.takeOffset`, or both. -/
theorem timeIsCorrectedHeldAndElected : Obligations.TimeIsCorrectedHeldAndElected := by
  refine ⟨fun s => ?pps, fun s => rfl, fun s => ?elects, fun s => ?entry, fun s => ?limit, fun dev s => ?window, fun s o src => ?offset⟩
  case pps =>
    intro near soon s1
    have tooSoon : s.edgeTooSoon = true ↔ soon := State.edgeTooSoon_iff
    rw [← tooSoon]
    refine ⟨fun h => (exec_ppsEdge s).trans (if_pos h), fun h invalid far => ?first,
      fun h valid far => ⟨s1.incObj 0x2213 0xB, ?rejects, rfl, ?counts⟩,
      fun h instant => ⟨exec_ppsEdge_accepts h instant, fun follower => ⟨_, exec_ppsEdge_accepts h instant, ?accepted⟩⟩⟩
    case first =>
      rw [exec_ppsEdge, if_neg h, if_neg (Bool.eq_false_iff.1 invalid)]
      exact if_neg (Bool.eq_false_iff.1 far)
    case rejects =>
      rw [exec_ppsEdge, if_neg h, if_pos valid]
      exact if_neg (Bool.eq_false_iff.1 far)
    case counts => exact State.obj_incObj_self ..
    case accepted =>
      have follows : s.seeEdge.acceptEdge = s.seeEdge.countEdge.elect := State.acceptEdge_follower follower
      beta_reduce
      rw [follows, State.elect_ppsValid, State.elect_ppsAccepted, State.elect_t, State.obj_elect]
      exact ⟨rfl, rfl, rfl, State.obj_incObj_self ..⟩
  case elects =>
    rw [State.elect_master]
    exact ⟨s.electNow_least, State.elect_same, State.elect_other⟩
  case entry => exact ⟨fun h => if_neg (Bool.eq_false_iff.1 h), exec_holdoverEntry_holds⟩
  case limit => exact ⟨fun h => if_neg h, exec_holdoverLimitExpiry_holdover⟩
  case window =>
    refine ⟨_, rfl, ?_⟩
    dsimp only
    rw [State.elect_heard, State.elect_t, State.elect_master]
    exact ⟨rfl, rfl, State.electNow_least _⟩
  case offset => exact ⟨State.takeOffset_leaves, State.takeOffset_state, State.takeOffset_rates, State.takeOffset_steps⟩

end Sys2Proof.Machine
end

section
/-! SUPPORT. The exchange of a follower with its master (R477 to R480, R484). -/

namespace Sys2Proof.Machine

/-! ### Frames that ports send -/

/-- Nothing but the Crossing ports may differ. -/
def PortsOnly (s t : State) : Prop := t = { s with xr := { s.xr with ports := t.xr.ports } }

section
variable {s t u : State} {α : Type}

theorem PortsOnly.trans (h : PortsOnly s t) (k : PortsOnly t u) : PortsOnly s u := by
  unfold PortsOnly at *
  rw [h] at k
  exact k

theorem PortsOnly.tm (h : PortsOnly s t) : t.tm = s.tm := by
  unfold PortsOnly at h
  rw [h]

theorem PortsOnly.st (h : PortsOnly s t) : t.st = s.st := by
  unfold PortsOnly at h
  rw [h]

theorem PortsOnly.str (h : PortsOnly s t) : t.str = s.str := by
  unfold PortsOnly at h
  rw [h]

theorem PortsOnly.foldl {f : State → α → State} (hf : ∀ t x, PortsOnly t (f t x)) (l : List α) (s : State) :
    PortsOnly s (l.foldl f s) := by
  induction l generalizing s with
  | nil => rfl
  | cons x l ih => exact (hf s x).trans (ih (f s x))

variable (s) (p : Nat) (fs : List Frame)

theorem State.send_portsOnly (f : Frame) : PortsOnly s (s.send p f) := by
  unfold State.send
  dsimp only
  split <;> rfl

theorem State.sendAll_portsOnly : PortsOnly s (s.sendAll p fs) := .foldl (fun t f => t.send_portsOnly p f) fs s

/-- A port that is UP with a frame queued, and what may go sent; another port as it is (R459). -/
def XPort.queue (x : XPort) (f : Frame) : XPort :=
  if x.state = .up then XPort.pump 64 { x with txQueue := x.txQueue ++ [f] } else x

variable {s p}

theorem State.port_send_self (f : Frame) : (s.send p f).port p = (s.port p).queue f := by
  unfold State.send XPort.queue
  dsimp only
  split
  · exact State.port_setPort_self ..
  · rfl

theorem State.port_send_ne {k : Nat} (h : k ≠ p) (f : Frame) : (s.send p f).port k = s.port k := by
  unfold State.send
  dsimp only
  split
  · exact State.port_setPort_ne (h := h) ..
  · rfl

theorem State.port_sendAll_self : (s.sendAll p fs).port p = fs.foldl XPort.queue (s.port p) := by
  induction fs generalizing s with
  | nil => rfl
  | cons f fs ih => exact ih.trans (congrArg (fun x => fs.foldl XPort.queue x) (State.port_send_self f))

theorem State.port_sendAll_ne {k : Nat} (h : k ≠ p) : (s.sendAll p fs).port k = s.port k :=
  List.foldlRecOn (motive := fun t : State => t.port k = s.port k) _ _ rfl fun _ ht f _ => (State.port_send_ne h f).trans ht

variable (s)

/-- Sends frames in order on each port of a list. -/
def State.sendOnAll (ps : List Nat) : State := ps.foldl (fun t p => t.sendAll p fs) s

theorem State.sendOnAll_portsOnly (ps : List Nat) : PortsOnly s (s.sendOnAll fs ps) :=
  .foldl (fun t p => t.sendAll_portsOnly p fs) ps s

variable {s}

theorem State.port_sendOnAll_not_mem {ps : List Nat} (h : p ∉ ps) : (s.sendOnAll fs ps).port p = s.port p :=
  List.foldlRecOn (motive := fun t : State => t.port p = s.port p) _ _ rfl fun _ ht _ hk =>
    (State.port_sendAll_ne fs (ne_of_mem_of_not_mem hk h).symm).trans ht

/-- What a port sends depends on no other port. -/
theorem State.port_sendOnAll_mem {ps : List Nat} (nodup : ps.Nodup) (h : p ∈ ps) :
    (s.sendOnAll fs ps).port p = fs.foldl XPort.queue (s.port p) := by
  induction ps generalizing s with
  | nil => cases h
  | cons k ps ih =>
    obtain ⟨notIn, nodup⟩ := List.nodup_cons.1 nodup
    rcases List.mem_cons.1 h with rfl | later
    · exact (State.port_sendOnAll_not_mem fs notIn).trans (State.port_sendAll_self fs)
    · refine (ih nodup later).trans (congrArg (fun x => fs.foldl XPort.queue x) ?_)
      exact State.port_sendAll_ne fs (ne_of_mem_of_not_mem later notIn)

/-- A port that is not UP sends nothing. -/
theorem XPort.queue_notUp {x : XPort} (h : x.state ≠ .up) : fs.foldl XPort.queue x = x :=
  List.foldlRecOn (motive := fun y : XPort => y = x) _ _ rfl fun _ hy _ _ => (if_neg (hy ▸ h)).trans hy

theorem State.port_sendOnAll_notUp (h : (s.port p).state ≠ .up) {ps : List Nat} (nodup : ps.Nodup) :
    (s.sendOnAll fs ps).port p = s.port p := by
  by_cases sends : p ∈ ps
  · exact (State.port_sendOnAll_mem fs nodup sends).trans (XPort.queue_notUp fs h)
  · exact State.port_sendOnAll_not_mem fs sends

end

/-! ### An exchange that is lost, and one that begins (R479) -/

section
variable {s : State}

theorem State.loseExchange_none (h : s.tm.exch = none) : s.loseExchange = s := if_neg (by simp [h])

theorem State.loseExchange_some (h : s.tm.exch.isSome = true) :
    s.loseExchange = (s.modTm fun x => { x with exch := none }).incObj 0x2213 0xC := if_pos h

variable (s)

theorem State.loseExchange_tm : s.loseExchange.tm = { s.tm with exch := none } := by
  cases h : s.tm.exch with
  | none => rw [State.loseExchange_none h, ← h]
  | some e => rw [State.loseExchange_some (by rw [h]; rfl)]; rfl

theorem State.loseExchange_xr : s.loseExchange.xr = s.xr := by
  unfold State.loseExchange
  split <;> rfl

/-- The exchange that a SYNC of the master begins: t2 is its arrival, t3 the present time. -/
def Timebase.exchangeOf (x : Timebase) (f : Frame) : Exchange :=
  { exch := leAt f.payload 4 2, t2 := f.at_, t3 := some x.t, since := x.cycles }

/-- The DELAY_REQ that answers a SYNC. -/
def delayReqFrame (f : Frame) : Frame := timeFrame (leBytes 1 3 ++ leBytes 3 0 ++ leBytes 2 (leAt f.payload 4 2) ++ leBytes 2 0)

theorem State.beginExchange_tm (p : Nat) (f : Frame) : (s.beginExchange p f).tm = { s.tm with exch := some (s.tm.exchangeOf f) } := by
  refine (State.send_portsOnly ..).tm.trans ?_
  rw [State.modTm_tm, State.loseExchange_tm]
  rfl

theorem State.port_beginExchange (p : Nat) (f : Frame) : (s.beginExchange p f).port p = (s.port p).queue (delayReqFrame f) :=
  (State.port_send_self _).trans (congrArg (XPort.queue · _) (State.port_congr (congrArg Crossings.ports s.loseExchange_xr) p))

end

/-! ### SYNC (R477, R478, R484) -/

section
variable (u : State) (port : PortNo) (f : Frame)

/-- A SYNC is recorded with its sender and its class, and elects. -/
def State.hearSync : State :=
  (u.modTm fun x => { x with heard := Tbl.put x.heard (u.port port.val).peerDev (leAt f.payload 1 1) }).elect

/-- A SYNC of the master tells whether the master is in HOLDOVER, and since when. -/
def State.tellHold : State :=
  (u.hearSync port f).modTm fun x => { x with masterHold := leAt f.payload 2 1 == 3, holdS := leAt f.payload 8 4 }

/-- A follower of a master in HOLDOVER enters it too. -/
def State.followHold : State :=
  if (leAt f.payload 2 1 == 3 && (u.tellHold port f).mayHold) = true then (u.tellHold port f).enterHoldover else u.tellHold port f

variable {u port f} {s : State}

section
variable (h : s.takeFrame port.val (ofSub 0xE 1) = some (f, u))
include h

theorem exec_sync : exec (.sync port) s = .next
    (if (u.hearSync port f).tm.master ≠ (u.port port.val).peerDev then u.hearSync port f
     else if u.tm.master = (u.port port.val).peerDev then (u.followHold port f).beginExchange port.val f
     else u.followHold port f) := (exec_frame (c := .sync port) rfl h).trans rfl

theorem exec_sync_other (other : (u.hearSync port f).tm.master ≠ (u.port port.val).peerDev) :
    exec (.sync port) s = .next (u.hearSync port f) := by rw [exec_sync h, if_pos other]

variable (master : (u.hearSync port f).tm.master = (u.port port.val).peerDev)
include master

theorem exec_sync_newMaster (new : u.tm.master ≠ (u.port port.val).peerDev) : exec (.sync port) s = .next (u.followHold port f) := by
  rw [exec_sync h, if_neg (not_not_intro master), if_neg new]

theorem exec_sync_oldMaster (old : u.tm.master = (u.port port.val).peerDev) :
    exec (.sync port) s = .next ((u.followHold port f).beginExchange port.val f) := by
  rw [exec_sync h, if_neg (not_not_intro master), if_pos old]

end

theorem State.followHold_not (h : leAt f.payload 2 1 ≠ 3) : u.followHold port f = u.tellHold port f := if_neg (by simp [h])

theorem State.followHold_holdover (h : leAt f.payload 2 1 = 3) :
    u.followHold port f = if (u.tellHold port f).mayHold = true then (u.tellHold port f).enterHoldover else u.tellHold port f := by
  simp [State.followHold, h]

/-- What a SYNC of the master begins when the master is not in HOLDOVER. -/
theorem State.tellHold_begins (h : leAt f.payload 2 1 ≠ 3) :
    ((u.tellHold port f).beginExchange port.val f).tm.exch = some (u.tm.exchangeOf f) ∧
      ((u.tellHold port f).beginExchange port.val f).tm.masterHold = false ∧
      ((u.tellHold port f).beginExchange port.val f).port port.val = (u.send port.val (delayReqFrame f)).port port.val := by
  have time : (u.tellHold port f).tm.t = u.tm.t := State.elect_t _
  have cycles : (u.tellHold port f).tm.cycles = u.tm.cycles := State.elect_cycles _
  have ports : (u.tellHold port f).port port.val = u.port port.val := State.port_congr (congrArg Crossings.ports (State.elect_xr _)) _
  rw [State.beginExchange_tm, State.port_beginExchange, State.port_send_self, ports, Timebase.exchangeOf, time, cycles]
  exact ⟨rfl, beq_false_of_ne h, rfl⟩

end

/-! ### FOLLOW_UP and DELAY_RESP (R479) -/

section
variable {s u : State} {port : PortNo} {f : Frame}

/-- What a FOLLOW_UP does by what `State.exchangeOk` finds of it. -/
theorem exec_followUp (h : s.takeFrame port.val (ofSub 0xE 2) = some (f, u)) :
    (u.exchangeOk port.val f = none → exec (.followUp port) s = .next u) ∧
      ∀ e ok, u.exchangeOk port.val f = some (e, ok) → exec (.followUp port) s = .next
        (if (ok && leAt f.payload 1 1 == 0) = true then u.modTm fun x => { x with exch := some { e with t1 := some (timeAt f.payload 8) } }
         else u.loseExchange) := by
  have acts := exec_frame (c := .followUp port) rfl h
  refine ⟨fun finds => ?_, fun e ok finds => ?_⟩ <;> rw [acts, finds]

variable (u f) in
/-- An exchange whose DELAY_RESP has come gives its offset, unless it is lost. -/
def State.endExchange (e : Exchange) (ok : Bool) : State := match e.t1, e.t3 with
  | some a, some b =>
    if (ok && !e.retx) = true then
      (u.modTm fun x => { x with exch := none }).takeOffset (exchangeOffset a e.t2 b (timeAt f.payload 8)) .exchange
    else u.loseExchange
  | _, _ => u.loseExchange

/-- What a DELAY_RESP does by what `State.exchangeOk` finds of it. -/
theorem exec_delayResp (h : s.takeFrame port.val (ofSub 0xE 4) = some (f, u)) :
    (u.exchangeOk port.val f = none → exec (.delayResp port) s = .next u) ∧
      ∀ e ok, u.exchangeOk port.val f = some (e, ok) → exec (.delayResp port) s = .next (u.endExchange f e ok) := by
  have acts := exec_frame (c := .delayResp port) rfl h
  refine ⟨fun finds => by rw [acts, finds], fun e ok finds => ?_⟩
  rw [acts, finds]
  rfl

theorem State.endExchange_lost {e : Exchange} {ok : Bool} (h : ok = false ∨ e.retx = true ∨ e.t1 = none ∨ e.t3 = none) :
    u.endExchange f e ok = u.loseExchange := by
  unfold State.endExchange
  split
  · next t1 t3 =>
    have spoilt : ok = false ∨ e.retx = true := by simpa [t1, t3] using h
    exact if_neg (by simpa [Classical.or_iff_not_imp_left] using spoilt)
  · rfl

theorem State.endExchange_done {e : Exchange} {a b : Nat} (fresh : e.retx = false) (t1 : e.t1 = some a) (t3 : e.t3 = some b) :
    u.endExchange f e true =
      (u.modTm fun x => { x with exch := none }).takeOffset (exchangeOffset a e.t2 b (timeAt f.payload 8)) .exchange := by
  unfold State.endExchange
  rw [t1, t3]
  exact if_pos (by simp [fresh])

end

/-- Settles O49: an exchange goes from `State.beginExchange` to `State.takeOffset` or to `State.loseExchange`. -/
theorem exchangesMeasureTheOffset : Obligations.ExchangesMeasureTheOffset := by
  refine ⟨fun s => ?timer, fun port s u f taken => ?sync, fun port s u f taken => ?followUp,
    fun port s u f taken => (exec_frame (c := .delayReq port) rfl taken).trans rfl, fun port s u f taken => ?delayResp, fun s => ?lose⟩
  case timer =>
    intro n sync follow
    let counted := s.modTm fun x => { x with exchNo := n }
    have sent := counted.sendOnAll_portsOnly [sync, follow] (List.range 7)
    refine ⟨counted.sendOnAll [sync, follow] (List.range 7), rfl, sent.tm, sent.st, sent.str, fun p hp => ?_, fun p notUp => ?_⟩
    · exact (State.port_sendOnAll_mem [sync, follow] List.nodup_range (List.mem_range.2 hp)).trans
        (State.port_sendAll_self (s := s) [sync, follow]).symm
    · exact State.port_sendOnAll_notUp (s := counted) [sync, follow] notUp List.nodup_range
  case sync =>
    intro dev t1 t2
    refine ⟨fun other => ⟨t1, exec_sync_other taken other, rfl, ?records⟩, fun master new quiet => ?tells, fun master new holds => ?follows,
      fun master old quiet => ⟨_, ?begins, State.tellHold_begins quiet⟩⟩
    case records =>
      rw [State.elect_heard]
      exact Tbl.get?_put_self ..
    case tells => exact (exec_sync_newMaster taken master new).trans (congrArg _ (State.followHold_not quiet))
    case follows => exact (exec_sync_newMaster taken master new).trans (congrArg _ (State.followHold_holdover holds))
    case begins => rw [exec_sync_oldMaster taken master old, State.followHold_not quiet]
  case followUp =>
    obtain ⟨ignored, answers⟩ := exec_followUp taken
    refine ⟨ignored, fun e ok finds => ⟨fun inTime version => ?_, fun lost => ?_⟩⟩
    · exact (answers e ok finds).trans (congrArg _ (if_pos (by simp [inTime, version])))
    · exact (answers e ok finds).trans (congrArg _ (if_neg (by simpa [Classical.or_iff_not_imp_left] using lost)))
  case delayResp =>
    obtain ⟨ignored, ends⟩ := exec_delayResp taken
    refine ⟨ignored, fun e ok finds => ⟨fun lost => ?_, fun a b inTime fresh t1 t3 => ?_⟩⟩
    · exact (ends e ok finds).trans (congrArg _ (State.endExchange_lost lost))
    · subst inTime
      exact (ends e true finds).trans (congrArg _ (State.endExchange_done fresh t1 t3))
  case lose =>
    refine ⟨congrArg (·.exch) s.loseExchange_tm, fun runs => ?_, State.loseExchange_none⟩
    rw [State.loseExchange_some runs]
    exact State.obj_incObj_self ..

end Sys2Proof.Machine
end

section
/-! SUPPORT. What the host writes to the rings of a function: doorbells, consumer counts, enable registers and the other registers
of a partition block (R536 to R541). -/

namespace Sys2Proof.Machine

/-! ### Doorbells and consumer counts (R539, R540) -/

section
variable {s : State} {p : Part} {ring : Ring} {v : BitVec 32}

theorem exec_sqDb_closed (down : s.hostOk p.val = false) : exec (.sqDb p ring v) s = .next s := if_pos (by simp [down])

theorem exec_oqCons_closed (down : s.hostOk p.val = false) : exec (.oqCons p ring v) s = .next s := if_pos (by simp [down])

theorem exec_sqEnableWrite_closed (down : s.hostOk p.val = false) : exec (.sqEnableWrite p ring v) s = .next s := if_neg (by simp [down])

theorem exec_oqEnableWrite_closed (down : s.hostOk p.val = false) : exec (.oqEnableWrite p ring v) s = .next s := if_neg (by simp [down])

/-- Whether the entries that a doorbell would cover are new and fit the ring. -/
def SubRing.fits (q : SubRing) (n : Nat) : Prop := (n + 2 ^ 32 - q.tail) % 2 ^ 32 < 2 ^ 31 ∧ (n + 2 ^ 32 - q.head) % 2 ^ 32 ≤ 2 ^ q.log2

/-- Whether a consumer count lies between the one before and PROD. -/
def OutRing.mayRead (o : OutRing) (n : Nat) : Prop := (n + 2 ^ 32 - o.cons) % 2 ^ 32 ≤ (o.prod + 2 ^ 32 - o.cons) % 2 ^ 32

section
variable (up : s.hostOk p.val = true)
include up

theorem exec_sqDb_disabled (off : (s.sq p.val ring.val).enable = false) : exec (.sqDb p ring v) s = .next (s.ringError p.val 1) :=
  (if_neg (by simp [up])).trans (if_pos (by simp [off]))

section
variable (on : (s.sq p.val ring.val).enable = true)
include on

theorem exec_sqDb_same (same : v.toNat = (s.sq p.val ring.val).tail) : exec (.sqDb p ring v) s = .next s :=
  (if_neg (by simp [up])).trans ((if_neg (by simp [on])).trans (if_pos same))

variable (moved : v.toNat ≠ (s.sq p.val ring.val).tail)
include moved

theorem exec_sqDb_fits (fits : (s.sq p.val ring.val).fits v.toNat) :
    exec (.sqDb p ring v) s = .next (s.setSq p.val ring.val { s.sq p.val ring.val with tail := v.toNat }).wakeTrigger :=
  (if_neg (by simp [up])).trans ((if_neg (by simp [on])).trans ((if_neg moved).trans (if_pos fits)))

theorem exec_sqDb_invalid (bad : ¬(s.sq p.val ring.val).fits v.toNat) : exec (.sqDb p ring v) s = .next (s.ringError p.val 0) :=
  (if_neg (by simp [up])).trans ((if_neg (by simp [on])).trans ((if_neg moved).trans (if_neg bad)))

end

theorem exec_oqCons_disabled (off : (s.oq p.val ring.val).enable = false) : exec (.oqCons p ring v) s = .next (s.ringError p.val 1) :=
  (if_neg (by simp [up])).trans (if_pos (by simp [off]))

section
variable (on : (s.oq p.val ring.val).enable = true)
include on

theorem exec_oqCons_read (read : (s.oq p.val ring.val).mayRead v.toNat) : exec (.oqCons p ring v) s =
    .next ((s.setOq p.val ring.val ({ s.oq p.val ring.val with cons := v.toNat }).freeAudio).pumpRing p.val ring.val) :=
  (if_neg (by simp [up])).trans ((if_neg (by simp [on])).trans (if_pos read))

theorem exec_oqCons_invalid (bad : ¬(s.oq p.val ring.val).mayRead v.toNat) : exec (.oqCons p ring v) s = .next (s.ringError p.val 0) :=
  (if_neg (by simp [up])).trans ((if_neg (by simp [on])).trans (if_neg bad))

end

theorem exec_sqEnableWrite_open : exec (.sqEnableWrite p ring v) s = .next (s.writeSqCtl p.val ring.val v.toNat) := if_pos up

theorem exec_oqEnableWrite_open : exec (.oqEnableWrite p ring v) s = .next (s.writeOqCtl p.val ring.val v.toNat) := if_pos up

end

end

/-! ### Enable registers (R538) -/

section
variable {s : State} {p r v : Nat}

section
variable (on : (s.sq p r).enable = true)
include on

theorem State.writeSqCtl_locked (changes : bits v 0 5 ≠ (s.sq p r).log2) : s.writeSqCtl p r v = s.ringError p 2 :=
  (if_pos on).trans (if_pos changes)

theorem State.writeSqCtl_enable (keeps : bits v 0 5 = (s.sq p r).log2) :
    s.writeSqCtl p r v = s.setSq p r { s.sq p r with enable := bitAt v 8 } :=
  (if_pos on).trans (if_neg (not_not_intro keeps))

end

section
variable (off : (s.sq p r).enable = false)
include off

theorem State.writeSqCtl_invalid (size : bits v 0 5 < 8 ∨ 16 < bits v 0 5) : s.writeSqCtl p r v = s.ringError p 3 :=
  (if_neg (by simp [off])).trans (if_pos size)

theorem State.writeSqCtl_sets (low : 8 ≤ bits v 0 5) (high : bits v 0 5 ≤ 16) : s.writeSqCtl p r v = s.setSq p r
    (if bitAt v 8 = true then { s.sq p r with log2 := bits v 0 5, enable := true, head := 0, tail := 0, headWritten := 0 }
     else { s.sq p r with log2 := bits v 0 5 }) := by
  refine (if_neg (by simp [off])).trans ((if_neg (by omega)).trans ?_)
  exact (apply_ite (s.setSq p r) ..).symm

end

section
variable (on : (s.oq p r).enable = true)
include on

theorem State.writeOqCtl_locked (changes : bits v 0 5 ≠ (s.oq p r).log2 ∨ bits v 16 4 ≠ (s.oq p r).vector) :
    s.writeOqCtl p r v = s.ringError p 2 := (if_pos on).trans (if_pos changes)

theorem State.writeOqCtl_enable (size : bits v 0 5 = (s.oq p r).log2) (vector : bits v 16 4 = (s.oq p r).vector) :
    s.writeOqCtl p r v = s.setOq p r { s.oq p r with enable := bitAt v 8 } :=
  (if_pos on).trans (if_neg (by simp [size, vector]))

end

section
variable (off : (s.oq p r).enable = false)
include off

theorem State.writeOqCtl_invalid (size : bits v 0 5 < 8 ∨ 16 < bits v 0 5) : s.writeOqCtl p r v = s.ringError p 3 :=
  (if_neg (by simp [off])).trans (if_pos size)

variable (low : 8 ≤ bits v 0 5) (high : bits v 0 5 ≤ 16)
include low high

theorem State.writeOqCtl_noWriteBack (starts : bitAt v 8 = true) (none : (s.oq p r).prodWb = 0) : s.writeOqCtl p r v = s.ringError p 2 :=
  (if_neg (by simp [off])).trans ((if_neg (by omega)).trans (if_pos ⟨starts, none⟩))

theorem State.writeOqCtl_sets (may : bitAt v 8 = false ∨ (s.oq p r).prodWb ≠ 0) : s.writeOqCtl p r v = s.setOq p r
    (if bitAt v 8 = true then ({ s.oq p r with log2 := bits v 0 5, vector := bits v 16 4, enable := true, prod := 0, cons := 0, pSent := 0
                                               timer := false }).freeAudio
     else { s.oq p r with log2 := bits v 0 5, vector := bits v 16 4 }) := by
  refine (if_neg (by simp [off])).trans ((if_neg (by omega)).trans ((if_neg ?_).trans (apply_ite (s.setOq p r) ..).symm))
  rintro ⟨starts, none⟩
  simp [starts, none] at may

end

end

/-! ### The other registers (R536, R537, R541) -/

section
variable {s : State} {p : Part} {off : BitVec 17} {value : BitVec 32}

theorem exec_ringRegisterWrite_discarded (h : s.hostOk p.val = false ∨ off.toNat % 4 ≠ 0) : exec (.ringRegisterWrite p off value) s = .next s :=
  if_pos (by simpa using h)

section
variable (up : s.hostOk p.val = true) (word : off.toNat % 4 = 0)
include up word

/-- A write of a word of BAR0, by what stands at its offset. -/
theorem exec_ringRegisterWrite : exec (.ringRegisterWrite p off value) s = .next
    (if off.toNat = 0x100 then s.setFn p.val { s.fn p.val with mbxVector := value.toNat % 16 }
     else if off.toNat = 0x108 then s.setFn p.val { s.fn p.val with errFlags := (s.fn p.val).errFlags - Nat.land (s.fn p.val).errFlags value.toNat }
     else if 0x1000 ≤ off.toNat ∧ off.toNat < 0x1400 then s.writeSqReg p.val ((off.toNat - 0x1000) / 64) (off.toNat % 64) value.toNat
     else if 0x2000 ≤ off.toNat ∧ off.toNat < 0x2400 then s.writeOqReg p.val ((off.toNat - 0x2000) / 64) (off.toNat % 64) value.toNat
     else if 0x10000 ≤ off.toNat ∧ off.toNat < 0x10100 then s.writeMsix p.val ((off.toNat - 0x10000) / 4) value.toNat
     else s) := by
  refine (if_neg (by simp [up, word])).trans ?_
  split_ifs <;> rfl

theorem exec_ringRegisterWrite_sub {r : Ring} {k : Nat} (at_ : off.toNat = 0x1000 + 64 * r.val + k) (hk : k < 64) :
    exec (.ringRegisterWrite p off value) s = .next (s.writeSqReg p.val r.val k value.toNat) := by
  have hr := r.isLt
  rw [exec_ringRegisterWrite up word, if_neg (by omega), if_neg (by omega), if_pos (by omega),
    show (off.toNat - 0x1000) / 64 = r.val by omega, show off.toNat % 64 = k by omega]

theorem exec_ringRegisterWrite_out {r : Ring} {k : Nat} (at_ : off.toNat = 0x2000 + 64 * r.val + k) (hk : k < 64) :
    exec (.ringRegisterWrite p off value) s = .next (s.writeOqReg p.val r.val k value.toNat) := by
  have hr := r.isLt
  rw [exec_ringRegisterWrite up word, if_neg (by omega), if_neg (by omega), if_neg (by omega), if_pos (by omega),
    show (off.toNat - 0x2000) / 64 = r.val by omega, show off.toNat % 64 = k by omega]

theorem exec_ringRegisterWrite_msix {i : Nat} (at_ : off.toNat = 0x10000 + 4 * i) (hi : i < 64) :
    exec (.ringRegisterWrite p off value) s = .next (s.writeMsix p.val i value.toNat) := by
  rw [exec_ringRegisterWrite up word, if_neg (by omega), if_neg (by omega), if_neg (by omega), if_neg (by omega), if_pos (by omega),
    show (off.toNat - 0x10000) / 4 = i by omega]

end

end

/-- What a write of a ring's register does: of an enabled ring CFG_LOCKED, of a value that is out of place CFG_INVALID, else it is set. -/
theorem ringReg_outcomes {c : Instr} {s set : State} {p : Nat} {on bad : Bool} {P : Prop} (h : exec c s = .next (if on then s.ringError p 2 else if bad then s.ringError p 3 else set))
    (hP : bad = true ↔ P) : (on = true → exec c s = .next (s.ringError p 2)) ∧ (on = false → P → exec c s = .next (s.ringError p 3))
      ∧ (on = false → ¬P → exec c s = .next set) := by
  refine ⟨fun e => ?_, fun e b => ?_, fun e b => ?_⟩
  · rw [h, if_pos e]
  · rw [h, if_neg (by simp [e]), if_pos (hP.2 b)]
  · rw [h, if_neg (by simp [e]), if_neg (mt hP.1 b)]

theorem State.writeSqReg_other {s : State} {p r k v : Nat} (h : k ∉ [0x00, 0x04, 0x08, 0x10, 0x14]) : s.writeSqReg p r k v = s := by
  unfold State.writeSqReg
  split
  iterate 5 · simp at h
  rfl

theorem State.writeOqReg_other {s : State} {p r k v : Nat} (h : k ∉ [0x00, 0x04, 0x08, 0x10, 0x14, 0x18, 0x1C, 0x20, 0x24, 0x28]) :
    s.writeOqReg p r k v = s := by
  unfold State.writeOqReg
  split
  iterate 10 · simp at h
  rfl

/-! ### Messages (R541, R544) -/

section
variable (s : State) (p v : Nat)

/-- A function whose message of a vector may go, when it is pending. -/
def Function.release (f : Function) (v : Nat) : Function :=
  if bitAt f.pending v && !bitAt f.masked v && f.bme then { f with pending := setBit f.pending v false, sent := f.sent ++ [v] } else f

theorem State.fn_releaseVector (k : Nat) : (s.releaseVector p v).fn k = if k = p then (s.fn p).release v else s.fn k := by
  unfold State.releaseVector Function.release
  dsimp only
  split
  · exact State.fn_setFn ..
  · split
    · next h => rw [h]
    · rfl

theorem State.releaseVector_st : (s.releaseVector p v).st = s.st := by
  unfold State.releaseVector
  dsimp only
  split <;> rfl

theorem State.fn_releaseVectors (l : List Nat) : (l.foldl (fun t v => t.releaseVector p v) s).fn p = l.foldl Function.release (s.fn p) := by
  induction l generalizing s with
  | nil => rfl
  | cons v l ih => rw [List.foldl_cons, ih, State.fn_releaseVector, if_pos rfl, List.foldl_cons]

theorem bitAt_eq_testBit (n i : Nat) : bitAt n i = n.testBit i := by
  rw [bitAt, Nat.testBit_eq_decide_div_mod_eq]
  rfl

/-- A number with a bit set or cleared, by the bits above it, the bit, and the bits below. -/
theorem setBit_split (n v : Nat) (b : Bool) : setBit n v b = 2 ^ v * (2 * (n / 2 ^ v / 2) + b2n b) + n % 2 ^ v := by
  have whole := Nat.div_add_mod n (2 ^ v)
  have high := Nat.div_add_mod (n / 2 ^ v) 2
  have bit : b2n b % 2 ^ 1 = b2n b := by cases b <;> rfl
  unfold setBit setBits bits
  rw [bit, Nat.pow_one, Nat.mul_comm (n / 2 ^ v % 2), Nat.mul_comm (b2n b), Nat.mul_add]
  have parts : n = 2 ^ v * (2 * (n / 2 ^ v / 2)) + 2 ^ v * (n / 2 ^ v % 2) + n % 2 ^ v := by rw [← Nat.mul_add, high, whole]
  omega

variable {v} in
theorem bitAt_setBit_ne {n k : Nat} (b : Bool) (h : k ≠ v) : bitAt (setBit n v b) k = bitAt n k := by
  have below : n % 2 ^ v < 2 ^ v := Nat.mod_lt _ (by positivity)
  rw [bitAt_eq_testBit, bitAt_eq_testBit, setBit_split, Nat.testBit_two_pow_mul_add _ below]
  split
  · next lt => rw [Nat.testBit_mod_two_pow, decide_eq_true lt, Bool.true_and]
  · next ge =>
    obtain ⟨j, rfl⟩ : ∃ j, k = v + (j + 1) := ⟨k - v - 1, by omega⟩
    have bit : b2n b < 2 := by cases b <;> decide
    have top : (2 * (n / 2 ^ v / 2) + b2n b) / 2 = n / 2 ^ v / 2 := by omega
    rw [Nat.add_sub_cancel_left, Nat.testBit_succ, top, ← Nat.testBit_succ, Nat.testBit_div_two_pow, Nat.add_comm]

/-- Nothing but the pending bits and the messages sent may differ. -/
def Function.MessagesOnly (f g : Function) : Prop := g = { f with pending := g.pending, sent := g.sent }

theorem Function.MessagesOnly.trans {f g h : Function} (a : f.MessagesOnly g) (b : g.MessagesOnly h) : f.MessagesOnly h := by
  unfold Function.MessagesOnly at *
  rw [a] at b
  exact b

theorem Function.release_only (f : Function) : f.MessagesOnly (f.release v) := by
  unfold Function.release
  split <;> rfl

theorem Function.releases_only (l : List Nat) (f : Function) : f.MessagesOnly (l.foldl Function.release f) :=
  List.foldlRecOn (motive := f.MessagesOnly) l _ rfl fun g hg v _ => hg.trans (g.release_only v)

variable {v} in
theorem Function.release_pending (f : Function) {k : Nat} (h : k ≠ v) : bitAt (f.release v).pending k = bitAt f.pending k := by
  unfold Function.release
  split
  · exact bitAt_setBit_ne _ h
  · rfl

/-- With Bus Master Enable on, the pending messages that are not masked go out in order. -/
theorem Function.releases_sent {l : List Nat} (nodup : l.Nodup) {f : Function} (on : f.bme = true) :
    (l.foldl Function.release f).sent = f.sent ++ l.filter fun v => bitAt f.pending v && !bitAt f.masked v := by
  induction l generalizing f with
  | nil => simp
  | cons v l ih =>
    obtain ⟨notIn, nodup⟩ := List.nodup_cons.1 nodup
    have bme : (f.release v).bme = f.bme := congrArg (·.bme) (f.release_only v)
    have masked : (f.release v).masked = f.masked := congrArg (·.masked) (f.release_only v)
    have rest : (l.filter fun k => bitAt (f.release v).pending k && !bitAt (f.release v).masked k) =
        l.filter fun k => bitAt f.pending k && !bitAt f.masked k :=
      List.filter_congr fun k hk => by rw [masked, Function.release_pending f (ne_of_mem_of_not_mem hk notIn)]
    have sent : (f.release v).sent = f.sent ++ if bitAt f.pending v && !bitAt f.masked v then [v] else [] := by
      unfold Function.release
      rw [on, Bool.and_true]
      split
      · rfl
      · exact (List.append_nil _).symm
    rw [List.foldl_cons, ih nodup (bme.trans on), rest, sent, List.append_assoc, List.filter_cons]
    split <;> rfl

end

/-! ### HEAD_WB (R539) -/

section
variable (s : State) (p r : Nat)

/-- Whether a ring's HEAD is not to be written: no HEAD_WB, nothing new, or the function may not write. -/
abbrev State.headHeld : Prop :=
  (s.sq p r).headWb = 0 ∨ (s.sq p r).head = (s.sq p r).headWritten ∨ (s.fn p).bme = false ∨ (s.fn p).resetting = true

variable {s p r}

theorem State.writeHead_held (h : s.headHeld p r) : s.writeHead p r = s := if_pos (by simpa [State.headHeld] using h)

theorem State.writeHead_moved (h : ¬s.headHeld p r) : s.writeHead p r =
    (s.hostWrite (s.sq p r).headWb (leBytes 8 (s.sq p r).head)).setSq p r { s.sq p r with headWritten := (s.sq p r).head } :=
  if_neg (by simpa [State.headHeld] using h)

variable (s p r)

/-- Writing HEAD leaves all of a function but its submission rings. -/
theorem State.fn_writeHead : (s.writeHead p r).fn p = { s.fn p with sq := ((s.writeHead p r).fn p).sq } := by
  by_cases h : s.headHeld p r
  · rw [State.writeHead_held h]
  · rw [State.writeHead_moved h]
    unfold State.setSq
    rw [State.fn_setFn_self]
    rfl

theorem State.fn_writeHeads (l : List Nat) : (l.foldl (fun t r => t.writeHead p r) s).fn p =
    { s.fn p with sq := ((l.foldl (fun t r => t.writeHead p r) s).fn p).sq } :=
  List.foldlRecOn (motive := fun t : State => t.fn p = { s.fn p with sq := (t.fn p).sq }) l _ rfl fun t ht r _ => by
    rw [t.fn_writeHead p r, ht]

/-- A ring with its HEAD written, when there is something to write. -/
theorem State.sq_writeHead (k : Nat) : (s.writeHead p r).sq p k =
    if k = r ∧ ¬s.headHeld p r then { s.sq p r with headWritten := (s.sq p r).head } else s.sq p k := by
  by_cases h : s.headHeld p r
  · rw [State.writeHead_held h, if_neg (fun e => e.2 h)]
  · rw [State.writeHead_moved h, State.sq_setSq]
    by_cases e : k = r
    · rw [if_pos ⟨rfl, e⟩, if_pos ⟨e, h⟩]
    · rw [if_neg (fun x => e x.2), if_neg (fun x => e x.1)]
      rfl

theorem State.sq_writeHeads_not_mem {l : List Nat} (h : r ∉ l) : (l.foldl (fun t r => t.writeHead p r) s).sq p r = s.sq p r :=
  List.foldlRecOn (motive := fun t : State => t.sq p r = s.sq p r) l _ rfl fun t ht k hk => by
    rw [State.sq_writeHead, if_neg fun e : r = k ∧ _ => h (e.1 ▸ hk), ht]

variable {s p r}

/-- Of a ring with HEAD_WB, HEAD is as last written once its function's turn has come. -/
theorem State.headWritten_writeHeads {l : List Nat} (hr : r ∈ l) (writeBack : (s.sq p r).headWb ≠ 0) (on : (s.fn p).bme = true)
    (open_ : (s.fn p).resetting = false) : ((l.foldl (fun t r => t.writeHead p r) s).sq p r).headWritten = (s.sq p r).head := by
  induction l generalizing s with
  | nil => cases hr
  | cons k l ih =>
    have fn := s.fn_writeHead p k
    by_cases later : r ∈ l
    · have ring : ((s.writeHead p k).sq p r).headWb = (s.sq p r).headWb ∧ ((s.writeHead p k).sq p r).head = (s.sq p r).head := by
        rw [State.sq_writeHead]
        split
        · next e => rw [e.1]; exact ⟨rfl, rfl⟩
        · exact ⟨rfl, rfl⟩
      exact (ih later (ring.1.symm ▸ writeBack) ((congrArg (·.bme) fn).trans on) ((congrArg (·.resetting) fn).trans open_)).trans ring.2
    · obtain rfl : r = k := (List.mem_cons.1 hr).resolve_right later
      rw [List.foldl_cons, State.sq_writeHeads_not_mem _ _ _ later, State.sq_writeHead]
      split
      · rfl
      · next held =>
        have same : (s.sq p r).head = (s.sq p r).headWritten := by
          by_contra moved
          refine held ⟨rfl, ?_⟩
          simp [State.headHeld, writeBack, moved, on, open_]
        exact same.symm

end

/-! ### The commands of Bus Master Enable and of MSI-X (R541, R544) -/

section
variable {s : State} {p : Part}

theorem exec_msixUnmask {v : VectorNo} (up : s.hostOk p.val = true) : exec (.msixUnmask p v) s = .next
    ((s.setFn p.val { s.fn p.val with masked := setBit (s.fn p.val).masked v.val false }).releaseVector p.val v.val) := if_pos up

/-- A function whose Bus Master Enable the host has written, with what it sets beside it. -/
def State.mastered (s : State) (p : Nat) (on : Bool) (cfg : PcieConfig) : State := s.setFn p { (s.fn p).configure cfg with bme := on }

/-- What Bus Master Enable sends of what has waited for it. -/
def State.sendHeld (s : State) (p : Nat) : State :=
  (List.range 16).foldl (fun t r => t.writeHead p r) ((List.range 16).foldl (fun t v => t.releaseVector p v) s)

variable {cfg : PcieConfig} (up : s.hostOk p.val = true)
include up

theorem exec_busMasterEnableChange_off : exec (.busMasterEnableChange p false cfg) s = .next (s.mastered p.val false cfg) :=
  (if_neg (by simp [up])).trans (if_neg (by decide))

theorem exec_busMasterEnableChange_on : exec (.busMasterEnableChange p true cfg) s = .next ((s.mastered p.val true cfg).sendHeld p.val) :=
  (if_neg (by simp [up])).trans (if_pos rfl)

end

section
variable (s : State) (p : Nat)

/-- What goes out leaves all of a function but its submission rings, the pending bits and the messages sent. -/
theorem State.fn_sendHeld : (s.sendHeld p).fn p =
    { (List.range 16).foldl Function.release (s.fn p) with sq := ((s.sendHeld p).fn p).sq } := by
  have heads := ((List.range 16).foldl (fun t v => t.releaseVector p v) s).fn_writeHeads p (List.range 16)
  rwa [State.fn_releaseVectors] at heads

variable {s p}

theorem State.sendHeld_sent (on : (s.fn p).bme = true) : ((s.sendHeld p).fn p).sent =
    (s.fn p).sent ++ (List.range 16).filter fun v => bitAt (s.fn p).pending v && !bitAt (s.fn p).masked v := by
  rw [State.fn_sendHeld]
  dsimp only
  exact Function.releases_sent List.nodup_range on

theorem State.sendHeld_headWritten {r : Nat} (hr : r < 16) (writeBack : (s.sq p r).headWb ≠ 0) (on : (s.fn p).bme = true)
    (open_ : (s.fn p).resetting = false) : ((s.sendHeld p).sq p r).headWritten = (s.sq p r).head := by
  have released : ((List.range 16).foldl (fun t v => t.releaseVector p v) s).fn p = (List.range 16).foldl Function.release (s.fn p) :=
    s.fn_releaseVectors p _
  have only := Function.releases_only (List.range 16) (s.fn p)
  have ring : ((List.range 16).foldl (fun t v => t.releaseVector p v) s).sq p r = s.sq p r := by
    unfold State.sq
    rw [released, only]
  refine (State.headWritten_writeHeads (List.mem_range.2 hr) (ring ▸ writeBack) ?_ ?_).trans (congrArg (·.head) ring)
  · rw [released, only]; exact on
  · rw [released, only]; exact open_

end

/-- Settles O54: each access by its branch, registers through `ringReg_outcomes`, and what Bus Master Enable sends through `State.sendHeld`. -/
theorem ringsTakeDoorbellsAndRegisters : Obligations.RingsTakeDoorbellsAndRegisters := by
  refine ⟨fun p ring v s => ?rings, fun p off value s => ?registers, fun p ring s => ?timers, fun p v s => ?unmask, fun p on cfg s => ?master⟩
  case rings =>
    refine ⟨fun down => ⟨exec_sqDb_closed down, exec_oqCons_closed down, exec_sqEnableWrite_closed down, exec_oqEnableWrite_closed down⟩,
      fun up => ⟨exec_sqDb_disabled up, exec_sqDb_same up, exec_sqDb_fits up, exec_sqDb_invalid up, exec_oqCons_disabled up,
        exec_oqCons_read up, exec_oqCons_invalid up, ?_⟩⟩
    rw [exec_sqEnableWrite_open up, exec_oqEnableWrite_open up]
    exact ⟨fun on changes => congrArg _ (State.writeSqCtl_locked on changes), fun on keeps => congrArg _ (State.writeSqCtl_enable on keeps),
      fun off size => congrArg _ (State.writeSqCtl_invalid off size), fun off low high => congrArg _ (State.writeSqCtl_sets off low high),
      fun on changes => congrArg _ (State.writeOqCtl_locked on changes),
      fun on size vector => congrArg _ (State.writeOqCtl_enable on size vector),
      fun off size => congrArg _ (State.writeOqCtl_invalid off size),
      fun off low high starts none => congrArg _ (State.writeOqCtl_noWriteBack off low high starts none),
      fun off low high may => congrArg _ (State.writeOqCtl_sets off low high may)⟩
  case registers =>
    refine ⟨exec_ringRegisterWrite_discarded, fun up word => ⟨fun at_ => ?_, fun at_ => ?_, fun r k at_ hk => ?sub, fun r k at_ hk => ?out,
      fun i at_ hi => ?msix, fun h1 h2 h3 h4 h5 => ?_⟩⟩
    · rw [exec_ringRegisterWrite up word, if_pos at_]
    · rw [exec_ringRegisterWrite up word, if_neg (by omega), if_pos at_]
    case sub =>
      have writes := exec_ringRegisterWrite_sub (value := value) up word at_ hk
      refine ⟨?_, ?_, ?_, ?_, ?_, fun other => writes.trans (congrArg _ (State.writeSqReg_other other))⟩ <;> rintro rfl
      · exact ringReg_outcomes writes bne_iff_ne
      · exact ringReg_outcomes writes Bool.false_eq_true.to_iff
      · exact writes.trans (exec_sqEnableWrite_open up).symm
      · exact ringReg_outcomes writes bne_iff_ne
      · exact ringReg_outcomes writes Bool.false_eq_true.to_iff
    case out =>
      have writes := exec_ringRegisterWrite_out (value := value) up word at_ hk
      refine ⟨?_, ?_, ?_, ?_, ?_, ?_, ?_, ?_, ?_, ?_, fun other => writes.trans (congrArg _ (State.writeOqReg_other other))⟩ <;> rintro rfl
      · exact ringReg_outcomes writes bne_iff_ne
      · exact ringReg_outcomes writes Bool.false_eq_true.to_iff
      · exact writes.trans (exec_oqEnableWrite_open up).symm
      · exact ringReg_outcomes writes bne_iff_ne
      · exact ringReg_outcomes writes Bool.false_eq_true.to_iff
      · exact ringReg_outcomes writes beq_iff_eq
      · exact ringReg_outcomes writes Bool.false_eq_true.to_iff
      · exact ringReg_outcomes writes bne_iff_ne
      · exact ringReg_outcomes writes Bool.false_eq_true.to_iff
      · exact ringReg_outcomes writes bne_iff_ne
    case msix =>
      rw [exec_ringRegisterWrite_msix up word at_ hi]
      exact ⟨fun mask => congrArg _ (if_pos mask), fun entry => congrArg _ (if_neg entry)⟩
    · rw [exec_ringRegisterWrite up word, if_neg h1, if_neg h2, if_neg h3, if_neg h4, if_neg h5]
  case timers =>
    exact ⟨fun held => congrArg _ (State.writeHead_held held), fun moved => congrArg _ (State.writeHead_moved moved),
      fun idle => if_neg (by simp [idle]), fun runs => if_pos runs⟩
  case unmask =>
    refine ⟨fun down => if_neg (by simp [down]), fun up => ⟨_, exec_msixUnmask up, State.releaseVector_st .., fun k hk => ?_, ?_⟩⟩
    · rw [State.fn_releaseVector, if_neg hk, State.fn_setFn, if_neg hk]
    · rw [State.fn_releaseVector, if_pos rfl, State.fn_setFn_self]
      unfold Function.release
      simp only [Bool.and_eq_true, Bool.not_eq_true', and_assoc]
  case master =>
    refine ⟨fun down => if_pos (by simp [down]), fun up => ?off, fun up => ?on⟩
    case off =>
      rintro rfl
      exact exec_busMasterEnableChange_off up
    case on =>
      rintro rfl
      have fn : (s.mastered p.val true cfg).fn p.val = { (s.fn p.val).configure cfg with bme := true } := State.fn_setFn_self ..
      have sends := State.fn_sendHeld (s.mastered p.val true cfg) p.val
      rw [fn, Function.releases_only] at sends
      have sent := State.sendHeld_sent (s := s.mastered p.val true cfg) (p := p.val) (by rw [fn])
      refine ⟨_, exec_busMasterEnableChange_on up, ?_, ?_, ?_, ?_, ?_, fun r writeBack open_ => ?_⟩
      · exact congrArg (·.bme) sends
      · exact congrArg (·.payload) sends
      · exact congrArg (·.readReq) sends
      · exact congrArg (·.aspmL1) sends
      · rw [sent, fn]; rfl
      · have ring : (s.mastered p.val true cfg).sq p.val r.val = s.sq p.val r.val := by
          unfold State.sq
          rw [fn]
          rfl
        rw [State.sendHeld_headWritten r.isLt (ring ▸ writeBack) (by rw [fn]) (by rw [fn]; exact open_), ring]

end Sys2Proof.Machine
end

section
/-! SUPPORT. NMT states, the commands that change them, freezes and heartbeats (R492 to R497, R567, R580). -/

namespace Sys2Proof.Machine

/-! ### Changes of stores and of the Roundabout alone -/

section
variable {s t : State}

theorem DomainsOnly.ctl (h : DomainsOnly s t) : t.ctl = s.ctl := by
  unfold DomainsOnly at h
  rw [h]

theorem DomainsOnly.pg (h : DomainsOnly s t) : t.pg = s.pg := by
  unfold DomainsOnly at h
  rw [h]

theorem DomainsOnly.freezing (h : DomainsOnly s t) : t.freezing = s.freezing := by
  rw [State.freezing, h.ctl, State.freezing]

end

/-! ### The state entered (R493, R567) -/

section
variable (s : State) (n : Nmt)

/-- The control plane in an NMT state, with no freeze under way. -/
def State.inNmt : State := s.modCtl fun c => { c with nmt := n, freezeTo := none, resetPending := false }

theorem State.setNmt_domainsOnly : DomainsOnly (s.inNmt n) (s.setNmt n) := by
  unfold State.setNmt
  dsimp only
  split
  · exact (State.gateAll_domainsOnly _).trans (State.setHbm_domainsOnly _ 4)
  · split
    · exact (State.ungateAll_domainsOnly ..).trans (State.setHbm_domainsOnly _ 2)
    · exact .refl _

@[simp] theorem State.setNmt_ctl : (s.setNmt n).ctl = { s.ctl with nmt := n, freezeTo := none, resetPending := false } :=
  (s.setNmt_domainsOnly n).ctl

@[simp] theorem State.setNmt_str : (s.setNmt n).str = s.str := (s.setNmt_domainsOnly n).str

@[simp] theorem State.setNmt_freezing : (s.setNmt n).freezing = false := (s.setNmt_domainsOnly n).freezing

theorem State.setNmt_stopped_hbm {k : Nat} (h : k < 4) : (s.setNmt .stopped).domain (86 + k) = 4 := by
  rw [State.setNmt, if_pos rfl, State.setHbm_domain, if_pos (by omega)]

variable {s n} in
theorem State.setNmt_leaves_stopped_hbm (other : n ≠ .stopped) (stopped : s.ctl.nmt = .stopped) (awake : s.pw.powerState < 3) {k : Nat}
    (h : k < 4) : (s.setNmt n).domain (86 + k) = 2 := by
  rw [State.setNmt, if_neg other, if_pos ⟨stopped, awake⟩, State.setHbm_domain, if_pos (by omega)]

theorem State.domain_modCtl (f : Ctl → Ctl) (d : Nat) : (s.modCtl f).domain d = s.domain d := rfl

end

/-! ### Resets (R496, R580) -/

section
variable (s : State)

/-- CLOSED for every open stream, as far as the rings have room. -/
def State.closedOut : State :=
  let t := (Tbl.keysWhere s.str.tab fun _ st => st.isOpen).foldl (fun t sid => t.closeStream sid 0 0) s
  State.drainAll (t.str.waiting.length + 1) t

/-- What a node reset changes before it reaches the die: nothing in the flash. -/
theorem State.closedOut_moves : Moves 0xa4cc6bfcac50ce s s.closedOut := by
  refine State.drainAll_moves ?_ (.refl _) _
  exact Moves.foldl _ (.rfl' _ s) fun t sid ht => State.closeStream_moves ht (by decide) _ _ _

theorem State.resetNode_eq : s.resetNode = (s.closedOut.resetDie 3).modBoot fun b => { b with step := 2, fails := 0, failedStep := 0 } := rfl

theorem State.resetNode_flash : s.resetNode.ctl.flashA = s.ctl.flashA ∧ s.resetNode.ctl.od = s.ctl.flashA :=
  ⟨s.closedOut_moves.frame.ctl.flashA (by decide), s.closedOut_moves.frame.ctl.flashA (by decide)⟩

/-- The field port as a reset communication leaves it, before its boot-up message. -/
def State.commReset : State := (s.modCtl fun c => { c with od := reloadComm c.od c.flashA, usdo := [], tpdo := [] }).applyNode

theorem State.resetComm_eq : s.resetComm = s.commReset.sendHeartbeat 0 := rfl

theorem State.canSend_open {s : State} (h : s.busOff = false) (cob : Nat) (data : List Nat) :
    s.canSend cob data = s.modCtl fun c => { c with canOut := c.canOut ++ [⟨cob, data⟩] } := if_neg (by simp [h])

theorem State.canSend_busOff {s : State} (h : s.busOff = true) (cob : Nat) (data : List Nat) : s.canSend cob data = s := if_pos h

/-- Sending changes the frames sent alone. -/
theorem State.canSend_eq (cob : Nat) (data : List Nat) :
    s.canSend cob data = s.modCtl fun c => { c with canOut := (s.canSend cob data).ctl.canOut } := by
  cases h : s.busOff with
  | false => rw [State.canSend_open h]; rfl
  | true => rw [State.canSend_busOff h]; rfl

/-- Out of bus-off the boot-up message goes out. -/
theorem State.resetComm_sends (clear : s.commReset.busOff = false) :
    s.resetComm.ctl.canOut = s.ctl.canOut ++ [⟨0x700 + s.resetComm.ctl.nodeId, [0]⟩] := by
  rw [State.resetComm_eq, State.sendHeartbeat, State.canSend_open clear]
  rfl

theorem State.resetComm_only : s.resetComm = s.commReset.modCtl fun c => { c with canOut := s.resetComm.ctl.canOut } :=
  s.commReset.canSend_eq ..

theorem State.busOff_resetComm : s.resetComm.busOff = s.commReset.busOff := by
  rw [State.resetComm_only]
  rfl

end

/-! ### Commands (R494, R495) -/

/-- The NMT commands of a node with what each asks. -/
def nmtCmds (node : Byte) : List (Instr × NmtCmd) :=
  [(.nmtStart node, .start), (.nmtStop node, .stop), (.nmtEnterPreop node, .preop), (.nmtResetNode node, .resetNode), (.nmtResetComm node, .resetComm)]

section
variable {s : State} {node : Byte} {x : Instr × NmtCmd}

/-- Whether an NMT command is for this device. -/
def State.nmtMine (s : State) (node : Byte) : Prop := s.fieldServed = true ∧ (node = 0 ∨ node.toNat = s.ctl.nodeId)

theorem exec_nmtCmd (hx : x ∈ nmtCmds node) (s : State) : exec x.1 s = .next (s.takeNmt node.toNat x.2) := by
  fin_cases hx <;> rfl

theorem State.nmtMine_iff : (!s.fieldServed || !(node.toNat == 0 || node.toNat == s.ctl.nodeId)) = true ↔ ¬s.nmtMine node := by
  simp [State.nmtMine, BitVec.toNat_eq, Classical.or_iff_not_imp_left]

theorem exec_nmtCmd_elsewhere (hx : x ∈ nmtCmds node) (other : ¬s.nmtMine node) : exec x.1 s = .next s :=
  (exec_nmtCmd hx s).trans (congrArg _ (if_pos (State.nmtMine_iff.2 other)))

variable (hx : x ∈ nmtCmds node) (mine : s.nmtMine node)
include hx mine

theorem exec_nmtCmd_waits (freezes : s.freezing = true) :
    exec x.1 s = .next (s.modCtl fun c => { c with nmtWait := c.nmtWait ++ [x.2] }) :=
  (exec_nmtCmd hx s).trans (congrArg _ ((if_neg (mt State.nmtMine_iff.1 (not_not_intro mine))).trans (if_pos freezes)))

/-- Whether it acts at once or begins a freeze, one command leaves none that waits. -/
theorem exec_nmtCmd_acts (still : s.freezing = false) : exec x.1 s = .next ((s.actNmt x.2).modCtl fun c => { c with nmtWait := [] }) := by
  refine (exec_nmtCmd hx s).trans (congrArg _ ((if_neg (mt State.nmtMine_iff.1 (not_not_intro mine))).trans ((if_neg (by simp [still])).trans ?_)))
  unfold State.runNmt
  dsimp only
  split <;> rfl

end

section
variable {s : State}

theorem State.actNmt_init {k : NmtCmd} (h : s.ctl.nmt = .init) (hk : k = .start ∨ k = .stop ∨ k = .preop) : s.actNmt k = s := by
  rcases hk with rfl | rfl | rfl <;> exact if_pos h

theorem State.actNmt_start (h : s.ctl.nmt ≠ .init) : s.actNmt .start = s.setNmt .operational := if_neg h

section
variable (runs : s.ctl.nmt = .operational)
include runs

theorem State.actNmt_stop_freezes : s.actNmt .stop = s.freeze .stopped false := by simp [State.actNmt, runs]

theorem State.actNmt_preop_freezes : s.actNmt .preop = s.freeze .preop false := by simp [State.actNmt, runs]

theorem State.actNmt_resetNode_freezes : s.actNmt .resetNode = s.freeze .stopped true := by simp [State.actNmt, runs]

end

variable (rests : s.ctl.nmt ≠ .operational)
include rests

theorem State.actNmt_stop_acts (h : s.ctl.nmt ≠ .init) : s.actNmt .stop = s.setNmt .stopped := by simp [State.actNmt, rests, h]

theorem State.actNmt_preop_acts (h : s.ctl.nmt ≠ .init) : s.actNmt .preop = s.setNmt .preop := by simp [State.actNmt, rests, h]

theorem State.actNmt_resetNode_acts : s.actNmt .resetNode = s.resetNode := by simp [State.actNmt, rests]

end

/-! ### FREEZE_DONE (R495) -/

section
variable {s : State}

theorem exec_freezeDone_early (h : ¬(s.freezing = true ∧ s.frozenOut = true)) : exec .freezeDone s = .next s := if_neg h

variable (freezes : s.freezing = true) (out : s.frozenOut = true)
include freezes out

theorem exec_freezeDone_resets (pending : s.ctl.resetPending = true) : exec .freezeDone s = .next s.resetNode :=
  (if_pos ⟨freezes, out⟩).trans (if_pos pending)

theorem exec_freezeDone_enters (none : s.ctl.resetPending = false) :
    exec .freezeDone s = .next (State.runNmt s.ctl.nmtWait (s.setNmt (s.ctl.freezeTo.getD .preop))) :=
  (if_pos ⟨freezes, out⟩).trans (if_neg (by simp [none]))

end

/-! ### Heartbeats (R497) -/

section
variable {s : State} {node st : Byte}

theorem exec_heartbeat_unserved (h : s.fieldServed = false) : exec (.heartbeat node st) s = .next s := if_pos (by simp [h])

theorem exec_heartbeat_other (served : s.fieldServed = true) (h : s.watched = 0 ∨ node.toNat ≠ s.watched) :
    exec (.heartbeat node st) s = .next (s.incObj 0x4005 1) := (if_neg (by simp [served])).trans (if_pos h)

theorem exec_heartbeat_watched (served : s.fieldServed = true) (on : s.watched ≠ 0) (h : node.toNat = s.watched) :
    exec (.heartbeat node st) s = .next ((s.modCtl fun c => { c with hbLost := false }).emcyEnd 0x8130 fun _ => true) :=
  (if_neg (by simp [served])).trans (if_neg (by simp [on, h]))

/-- Whether a heartbeat is lost now that was not before. -/
abbrev State.losesHeartbeat (s : State) : Prop := s.fieldServed = true ∧ s.watched ≠ 0 ∧ s.ctl.hbLost = false

theorem exec_heartbeatTimeout_none (h : ¬s.losesHeartbeat) : exec .heartbeatTimeout s = .next s := if_neg (by simpa using h)

theorem exec_heartbeatTimeout_lost (h : s.losesHeartbeat) : exec .heartbeatTimeout s =
    .next (((s.modCtl fun c => { c with hbLost := true }).incObj 0x4005 4).emcyRaise 0x8130 [s.watched]) := if_pos (by simpa using h)

theorem exec_heartbeatProduce_busOff (off : s.busOff = true) : exec .heartbeatProduce s = .next s := by
  have unsent : s.sendHeartbeat s.nmtCode = s := State.canSend_busOff off ..
  change execHeartbeatProduce s = .next s
  rw [execHeartbeatProduce, unsent, ite_self]

/-- The state code that a heartbeat carries, with that of boot hold among those of pre-operational. -/
theorem State.nmtCode_eq (s : State) : s.nmtCode = match s.ctl.nmt with | .operational => 5 | .stopped => 4 | _ => 0x7F := by
  unfold State.nmtCode
  cases s.ctl.nmt <;> rfl

theorem exec_heartbeatProduce_sends (on : s.fieldServed = true ∧ s.obj 0x1017 0 ≠ 0) (clear : s.busOff = false) :
    exec .heartbeatProduce s = .next { s with ctl := { s.ctl with canOut := s.ctl.canOut ++
      [⟨0x700 + s.ctl.nodeId, [match s.ctl.nmt with | .operational => 5 | .stopped => 4 | _ => 0x7F]⟩] } } := by
  refine (if_pos on).trans ?_
  rw [State.sendHeartbeat, State.canSend_open clear, State.nmtCode_eq]
  rfl

end

/-- Settles O50: a command for this node waits in a freeze and is `State.actNmt` otherwise; a node reset reaches the die over
`State.closedOut`, which leaves the flash. -/
theorem networkStatesAndHeartbeats : Obligations.NetworkStatesAndHeartbeats := by
  refine ⟨fun node s => ?commands, fun s => ?freezeDone, fun node st s => ?heartbeat, fun s => ?timeout, fun s => ?produce⟩
  case commands =>
    intro mine cmds
    refine ⟨fun other x hx => exec_nmtCmd_elsewhere hx other, fun own freezes x hx => exec_nmtCmd_waits hx own freezes, fun own still => ?_⟩
    have acts := fun x hx => exec_nmtCmd_acts (x := x) hx own still
    have acts1 := acts (.nmtStart node, .start) (by simp [nmtCmds])
    have acts2 := acts (.nmtStop node, .stop) (by simp [nmtCmds])
    have acts3 := acts (.nmtEnterPreop node, .preop) (by simp [nmtCmds])
    have acts4 := acts (.nmtResetNode node, .resetNode) (by simp [nmtCmds])
    have acts5 := acts (.nmtResetComm node, .resetComm) (by simp [nmtCmds])
    dsimp only at acts1 acts2 acts3 acts4 acts5
    refine ⟨fun init x hx => ?_, fun running => ?start, fun runs => ?freezes, fun rests running => ⟨?stop, ?preop⟩, fun rests => ?resetNode, ?resetComm⟩
    · rw [acts x (List.mem_of_mem_take hx), State.actNmt_init init (by fin_cases hx <;> simp)]
      rfl
    case start =>
      rw [State.actNmt_start running] at acts1
      refine ⟨_, acts1, ?_, by simp, ?_, fun stopped awake k hk => ?_⟩
      · simp [State.modCtl]
      · exact (s.setNmt_domainsOnly .operational).pg
      · exact (State.domain_modCtl ..).trans (State.setNmt_leaves_stopped_hbm (by decide) stopped awake hk)
    case freezes =>
      rw [State.actNmt_stop_freezes runs] at acts2
      rw [State.actNmt_preop_freezes runs] at acts3
      rw [State.actNmt_resetNode_freezes runs] at acts4
      exact ⟨acts2, acts3, acts4⟩
    case stop =>
      rw [State.actNmt_stop_acts rests running] at acts2
      exact ⟨_, acts2, by simp [State.modCtl], by simp, fun k hk => (State.domain_modCtl ..).trans (s.setNmt_stopped_hbm hk)⟩
    case preop =>
      rw [State.actNmt_preop_acts rests running] at acts3
      exact ⟨_, acts3, by simp [State.modCtl], by simp⟩
    case resetNode =>
      rw [State.actNmt_resetNode_acts rests] at acts4
      exact ⟨_, acts4, rfl, rfl, rfl, rfl, rfl, rfl, s.resetNode_flash.1, s.resetNode_flash.2⟩
    case resetComm =>
      have only := s.resetComm_only
      refine ⟨_, acts5, ?_, ?_, ?_, ?_, ?_, fun clear => ?sent⟩
      iterate 5 · rw [State.actNmt, only]; rfl
      case sent => exact s.resetComm_sends (s.busOff_resetComm.symm.trans clear)
  case freezeDone =>
    refine ⟨exec_freezeDone_early, fun freezes out => ⟨fun none empty => ⟨_, exec_freezeDone_enters freezes out none, ?_⟩,
      exec_freezeDone_enters freezes out, fun pending => ⟨_, exec_freezeDone_resets freezes out pending, rfl, rfl, rfl, rfl, rfl⟩⟩⟩
    rw [empty]
    exact ⟨congrArg (·.nmt) (s.setNmt_ctl _), s.setNmt_freezing _, s.setNmt_str _⟩
  case heartbeat =>
    refine ⟨exec_heartbeat_unserved, fun served other => ⟨_, exec_heartbeat_other served other, State.obj_incObj_self .., rfl, rfl⟩,
      fun served on own => ⟨_, exec_heartbeat_watched served on own, ?_, fun m => ?_, ?_⟩⟩
    · exact (State.emcyEnd_moves (.rfl' _ _) (.refl _) ..).frame.ctl.hbLost (by decide)
    · exact State.not_mem_conditions_emcyEnd _ _ _ rfl
    · exact State.obj_emcyEnd _ _ (by decide)
  case timeout =>
    refine ⟨exec_heartbeatTimeout_none, fun lost => ⟨_, exec_heartbeatTimeout_lost lost, ?_, ?_, ?_⟩⟩
    · exact (State.emcyRaise_moves (.rfl' _ _) (.refl _) ..).frame.ctl.hbLost (by decide)
    · exact State.mem_conditions_emcyRaise ..
    · rw [State.obj_emcyRaise _ _ (by decide)]; exact State.obj_incObj_self ..
  case produce =>
    refine ⟨fun h => ?_, exec_heartbeatProduce_sends⟩
    rcases h with quiet | off
    · exact if_neg quiet
    · exact exec_heartbeatProduce_busOff off

end Sys2Proof.Machine
end

section
/-! SUPPORT. The field port: USDO sessions, PDOs, emergency messages and bus errors (R489, R490, R498 to R501, R518, R519, R529). -/

namespace Sys2Proof.Machine

/-! ### USDO sessions (R500) -/

section
variable (s : State) (c : Nat)

theorem State.session?_endSession : (s.endSession c).session? c = none := by
  unfold State.session? State.endSession
  rw [List.find?_eq_none]
  intro x hx
  simpa using (List.mem_filter.1 hx).2

/-- A segment that is kept for the session of a client. -/
def State.keepSegment (bs : List Byte) : State :=
  s.modCtl fun k => { k with usdo := k.usdo.map fun y => if y.client = c then { y with data := bs } else y }

variable {s c} in
theorem State.session?_keepSegment {x : UsdoSession} (h : s.session? c = some x) (bs : List Byte) :
    (s.keepSegment c bs).session? c = some { x with data := bs } := by
  have own : x.client = c := by simpa using List.find?_some h
  have search : (fun y : UsdoSession => y.client == c) ∘ (fun y => if y.client = c then { y with data := bs } else y) = fun y => y.client == c := by
    funext y
    by_cases e : y.client = c <;> simp [e]
  have found : s.ctl.usdo.find? (fun y => y.client == c) = some x := h
  unfold State.session? State.keepSegment State.modCtl
  rw [List.find?_map, search, found, Option.map_some, if_pos own]

variable {s c}

theorem State.openSession_room (room : s.ctl.usdo.length < 4) (x : UsdoSession) :
    s.openSession x = s.modCtl fun k => { k with usdo := k.usdo ++ [x] } := by
  unfold State.openSession State.modCtl
  dsimp only
  rw [if_pos room]

/-- A session that opens where its client has none. -/
theorem State.session?_openSession {x : UsdoSession} (none : s.session? x.client = none) (room : s.ctl.usdo.length < 4) :
    (s.openSession x).session? x.client = some x := by
  have none : s.ctl.usdo.find? (fun y => y.client == x.client) = .none := none
  rw [State.openSession_room room]
  unfold State.session? State.modCtl
  rw [List.find?_append, none]
  simp

end

section
variable {s : State} {client : Byte}

theorem exec_usdoRequest_silent (h : s.gate .field = .silent) (req : UsdoReq) : exec (.usdoRequest client req) s = .next s := if_pos h

theorem exec_usdoTimeout_silent (h : s.gate .field = .silent) : exec (.usdoTimeout client) s = .next s := by
  change execUsdoTimeout client s = .next s
  unfold execUsdoTimeout
  dsimp only
  split
  · exact if_pos h
  · rfl

theorem exec_usdoTimeout_none (h : s.session? client.toNat = none) : exec (.usdoTimeout client) s = .next s := by
  change execUsdoTimeout client s = .next s
  unfold execUsdoTimeout
  dsimp only
  rw [h]

section
variable (answers : s.gate .field ≠ .silent)
include answers

theorem exec_usdoRequest_abort : exec (.usdoRequest client .abort) s = .next (s.endSession client.toNat) := if_neg answers

theorem exec_usdoRequest_invalid :
    exec (.usdoRequest client .invalid) s = .next ((s.endSession client.toNat).answer (usdoKey client.toNat) 0x05040001 []) := if_neg answers

theorem exec_usdoRequest_strayed (h : s.session? client.toNat = none) (bs : List Byte) (last : Bool) :
    exec (.usdoRequest client (.segment bs last)) s = .next (s.answer (usdoKey client.toNat) 0x05040001 []) := by
  refine (if_neg answers).trans ?_
  dsimp only
  rw [h]

section
variable {x : UsdoSession} (h : s.session? client.toNat = some x)
include h

theorem exec_usdoRequest_segment (bs : List Byte) :
    exec (.usdoRequest client (.segment bs false)) s = .next (s.keepSegment client.toNat (x.data ++ bs)) := by
  refine (if_neg answers).trans ?_
  dsimp only
  rw [h]
  rfl

theorem exec_usdoRequest_lastSegment {bs : List Byte} {code : Nat} {t : State}
    (writes : (s.endSession client.toNat).writeObject .field x.index x.sub (x.data ++ bs) = some (code, t)) :
    exec (.usdoRequest client (.segment bs true)) s = .next (t.answer (usdoKey client.toNat) code []) := by
  refine (if_neg answers).trans ?_
  dsimp only
  rw [h]
  dsimp only
  rw [writes]
  rfl

theorem exec_usdoTimeout_ends : exec (.usdoTimeout client) s = .next ((s.endSession client.toNat).answer (usdoKey client.toNat) 0x05040000 []) := by
  change execUsdoTimeout client s = _
  unfold execUsdoTimeout
  dsimp only
  rw [h]
  exact if_neg answers

end

theorem exec_usdoRequest_read (i : BitVec 16) (n : Byte) : exec (.usdoRequest client (.read i n)) s =
    if s.sessionRoom client.toNat = true then .next (s.usdoOpen client.toNat (.read i n))
    else .next (s.answer (usdoKey client.toNat) 0x05040005 []) := if_neg answers

theorem exec_usdoRequest_write (i : BitVec 16) (n : Byte) (bs : List Byte) : exec (.usdoRequest client (.write i n bs)) s =
    if s.sessionRoom client.toNat = true then .next (s.usdoOpen client.toNat (.write i n bs))
    else .next (s.answer (usdoKey client.toNat) 0x05040005 []) := if_neg answers

theorem exec_usdoRequest_begin (i : BitVec 16) (n : Byte) (bs : List Byte) : exec (.usdoRequest client (.begin i n bs)) s =
    if s.sessionRoom client.toNat = true then .next (s.usdoOpen client.toNat (.begin i n bs))
    else .next (s.answer (usdoKey client.toNat) 0x05040005 []) := if_neg answers

end

end

section
variable {s t : State} {c code : Nat} {i : BitVec 16} {n : Byte} {bs : List Byte}

theorem State.usdoOpen_read {d : List Byte} (reads : (s.endSession c).readObject .field i.toNat n.toNat = some ((code, d), t)) :
    s.usdoOpen c (.read i n) = t.answer (usdoKey c) code d := by
  unfold State.usdoOpen
  dsimp only
  rw [reads]
  rfl

theorem State.usdoOpen_write (writes : (s.endSession c).writeObject .field i.toNat n.toNat bs = some (code, t)) :
    s.usdoOpen c (.write i n bs) = t.answer (usdoKey c) code [] := by
  unfold State.usdoOpen
  dsimp only
  rw [writes]

theorem State.usdoOpen_begin (begins : (s.endSession c).beginWrite .field i.toNat n.toNat = some (code, t)) :
    s.usdoOpen c (.begin i n bs) =
      if code = 0 then t.openSession ⟨c, i.toNat, n.toNat, true, bs⟩ else t.answer (usdoKey c) code [] := by
  unfold State.usdoOpen
  dsimp only
  rw [begins]

end

/-! ### RPDO 1 and the TPDOs (R499, R518, R519) -/

section
variable {s : State} {data : List Byte}

/-- Whether PDOs are taken and sent. -/
abbrev State.pdosOn (s : State) : Prop := s.ctl.nmt = .operational ∧ s.fieldServed = true

theorem exec_rpdo1_off (h : ¬s.pdosOn) : exec (.rpdo1 data) s = .next s :=
  if_pos (by simpa [Classical.or_iff_not_imp_left] using h)

/-- RPDO 1 as FIELD writes: the power limit, then the state request when there is one. -/
def State.rpdoWrites (s : State) (data : List Byte) : (Nat × State) × (Nat × State) :=
  let a := s.writeServed .field 0x2111 0 (slice data 0 2)
  (a, if leNat (slice data 2 1) = 0 then (0, a.2) else a.2.writeServed .field 0x2112 0 (slice data 2 1))

/-- Without a state request the power limit alone is written. -/
theorem State.rpdoWrites_alone (none : leNat (slice data 2 1) = 0) :
    s.rpdoWrites data = (s.writeServed .field 0x2111 0 (slice data 0 2), 0, (s.writeServed .field 0x2111 0 (slice data 0 2)).2) :=
  congrArg (Prod.mk _) (if_pos none)

theorem State.rpdoWrites_both (asks : leNat (slice data 2 1) ≠ 0) :
    s.rpdoWrites data = (s.writeServed .field 0x2111 0 (slice data 0 2),
      (s.writeServed .field 0x2111 0 (slice data 0 2)).2.writeServed .field 0x2112 0 (slice data 2 1)) :=
  congrArg (Prod.mk _) (if_neg asks)

variable (on : s.pdosOn)
include on

theorem State.pdosOn.served : ¬(s.ctl.nmt ≠ .operational ∨ (!s.fieldServed) = true) := by simp [on.1, on.2]

theorem exec_rpdo1_length (h : data.length ≠ 3) : exec (.rpdo1 data) s = .next (s.emcyEvent 0x8210 [data.length % 256]) :=
  (if_neg on.served).trans (if_pos h)

theorem exec_rpdo1 (h : data.length = 3) : exec (.rpdo1 data) s =
    if (s.rpdoWrites data).1.1 = 0 ∧ (s.rpdoWrites data).2.1 = 0 then .next (s.rpdoWrites data).2.2 else .next (s.incObj 0x4005 5) :=
  (if_neg on.served).trans (if_neg (not_not_intro h))

end

section
variable {s : State} {n : TpdoNo}

/-- Whether a TPDO goes out now. -/
abbrev State.tpdoGoes (s : State) (n : Nat) : Prop :=
  s.ctl.nmt = .operational ∧ s.fieldServed = true ∧ s.busOff = false ∧ s.tpdoDue n = true

theorem exec_tpdoSend_waits (h : ¬s.tpdoGoes n.val) : exec (.tpdoSend n) s = .next s := if_neg (by simpa using h)

theorem exec_tpdoSend_goes (h : s.tpdoGoes n.val) : exec (.tpdoSend n) s = .next (s.modCtl fun c => { c with
    canOut := c.canOut ++ [⟨s.tpdoCob n.val, s.tpdoData n.val⟩], tpdo := Tbl.put c.tpdo n.val ⟨s.tpdoData n.val, s.now⟩ }) := by
  refine (if_pos (by simpa using h)).trans ?_
  rw [State.canSend_open h.2.2.1]
  rfl

end

/-! ### Emergency messages (R501, R549) -/

section
variable {s : State}

/-- Whether no emergency message may go now. -/
abbrev State.emcyHeld (s : State) : Prop :=
  s.pw.auxPg = false ∨ s.ctl.nmt = .stopped ∨ s.busOff = true ∨ ∃ x, s.ctl.emcyAt = some x ∧ s.tm.cycles < x + 200000

theorem State.emcyHeld_iff : (!s.pw.auxPg) = true ∨ s.ctl.nmt = .stopped ∨ s.busOff = true ∨
    (!(s.ctl.emcyAt.map fun x => decide (x + 200000 ≤ s.tm.cycles)).getD true) = true ↔ s.emcyHeld := by
  cases h : s.ctl.emcyAt <;> simp [State.emcyHeld, h]

theorem exec_emcySend_none (h : s.ctl.emcy = []) : exec .emcySend s = .next s := by
  change execEmcySend s = .next s
  unfold execEmcySend
  dsimp only
  rw [h]

section
variable {m : Emcy} {ms : List Emcy} (h : s.ctl.emcy = m :: ms)
include h

theorem exec_emcySend_held (held : s.emcyHeld) : exec .emcySend s = .next s := by
  change execEmcySend s = .next s
  unfold execEmcySend
  dsimp only
  rw [h]
  exact if_pos (State.emcyHeld_iff.2 held)

theorem exec_emcySend_goes (free : ¬s.emcyHeld) : exec .emcySend s = .next (s.modCtl fun c => { c with
    canOut := c.canOut ++ [⟨0x80 + s.ctl.nodeId, m.data⟩], emcy := ms, emcyAt := some s.tm.cycles }) := by
  have clear : s.busOff = false := Bool.eq_false_iff.2 fun off => free (.inr (.inr (.inl off)))
  change execEmcySend s = _
  unfold execEmcySend
  dsimp only
  rw [h]
  refine (if_neg (mt State.emcyHeld_iff.1 free)).trans ?_
  rw [State.canSend_open clear]
  rfl

end

end

/-! ### The state of the bus (R489, R490, R529) -/

section
variable {s : State} {enter : Bool} {tec rec : Byte}

/-- The error counters of the bus. -/
def State.busCounts (s : State) (tec rec : Nat) : State := (s.setObj 0x4005 7 tec).setObj 0x4005 8 rec

theorem exec_canErrorPassive_busOff (h : s.busOff = true) : exec (.canErrorPassive enter tec rec) s = .next s := if_pos h

section
variable (h : s.busOff = false)
include h

theorem exec_canErrorPassive_again (passive : s.obj 0x4005 9 = 1) :
    exec (.canErrorPassive true tec rec) s = .next (s.busCounts tec.toNat rec.toNat) :=
  (if_neg (by simp [h])).trans ((if_pos rfl).trans (if_pos passive))

theorem exec_canErrorPassive_enters (active : s.obj 0x4005 9 ≠ 1) : exec (.canErrorPassive true tec rec) s =
    .next (((s.busCounts tec.toNat rec.toNat).setObj 0x4005 9 1).emcyRaise 0x8120 [tec.toNat, rec.toNat]) :=
  (if_neg (by simp [h])).trans ((if_pos rfl).trans (if_neg active))

theorem exec_canErrorPassive_ends : exec (.canErrorPassive false tec rec) s =
    .next (((s.busCounts tec.toNat rec.toNat).setObj 0x4005 9 0).emcyEnd 0x8120 fun _ => true) :=
  (if_neg (by simp [h])).trans (if_neg (by decide))

end

/-- What a port reads of the bus: the error counters and its state. -/
def State.busIs (s : State) (tec rec state : Nat) : Prop := s.obj 0x4005 7 = tec ∧ s.obj 0x4005 8 = rec ∧ s.obj 0x4005 9 = state

theorem State.busCounts_busIs (s : State) (tec rec : Nat) : (s.busCounts tec rec).busIs tec rec (s.obj 0x4005 9) := by
  refine ⟨?_, State.obj_setObj_self .., ?_⟩ <;> rw [State.busCounts, State.obj_setObj_ne _ _ (by decide)]
  · exact State.obj_setObj_self ..
  · exact State.obj_setObj_ne _ _ (by decide)

theorem State.busIs_setObj (s : State) (tec rec state : Nat) : ((s.busCounts tec rec).setObj 0x4005 9 state).busIs tec rec state := by
  obtain ⟨transmit, receive, _⟩ := s.busCounts_busIs tec rec
  exact ⟨(State.obj_setObj_ne _ _ (by decide)).trans transmit, (State.obj_setObj_ne _ _ (by decide)).trans receive, State.obj_setObj_self ..⟩

section
variable {tec rec state : Nat}

/-- Emergency messages leave the state of the bus as it reads. -/
theorem State.busIs.emcyRaise (h : s.busIs tec rec state) (code : Nat) (mfr : List Nat) : (s.emcyRaise code mfr).busIs tec rec state := by
  unfold State.busIs at *
  rwa [State.obj_emcyRaise _ _ (by decide), State.obj_emcyRaise _ _ (by decide), State.obj_emcyRaise _ _ (by decide)]

theorem State.busIs.emcyEnd (h : s.busIs tec rec state) (code : Nat) (p : List Nat → Bool) : (s.emcyEnd code p).busIs tec rec state := by
  unfold State.busIs at *
  rwa [State.obj_emcyEnd _ _ (by decide), State.obj_emcyEnd _ _ (by decide), State.obj_emcyEnd _ _ (by decide)]

end

/-- The bus after a rejoin: error active with its counters at 0, the condition ended, the rejoin counted and told. -/
def State.rejoined (s : State) : State :=
  ((((s.setObj 0x4005 9 0).busCounts 0 0).emcyEnd 0x8120 fun _ => true).incObj 0x4005 2).emcyEvent 0x8140 []

theorem exec_busOffRecovered_none (h : s.busOff = false) : exec .busOffRecovered s = .next s := if_pos (by simp [h])

theorem exec_busOffRecovered_rejoins (h : s.busOff = true) : exec .busOffRecovered s = .next s.rejoined := if_neg (by simp [h])

theorem State.rejoined_ctlOnly (s : State) : CtlOnly s s.rejoined := by
  have counts : CtlOnly s ((s.setObj 0x4005 9 0).busCounts 0 0) := rfl
  exact ((counts.trans (State.emcyEnd_ctlOnly ..)).trans (State.incObj_ctlOnly ..)).trans (State.emcyEvent_ctlOnly ..)

theorem State.rejoined_moves (s : State) : Moves 0x84000000000000 s s.rejoined := by
  have counts : Moves 0x84000000000000 s ((s.setObj 0x4005 9 0).busCounts 0 0) :=
    State.setObj_moves (State.setObj_moves (State.setObj_moves (.rfl' _ s) (by decide) ..) (by decide) ..) (by decide) ..
  exact State.emcyEvent_moves (State.incObj_moves (State.emcyEnd_moves counts (.refl _) ..) (by decide) ..) (.refl _) ..

/-- The objects that a rejoin leaves, but for its own counter and that of dropped messages. -/
theorem State.rejoined_obj (s : State) {b : Nat} (h : objKey 0x4005 b ≠ objKey 0x4005 2) (dropped : objKey 0x4005 b ≠ objKey 0x4005 6) :
    s.rejoined.obj 0x4005 b = ((s.setObj 0x4005 9 0).busCounts 0 0).obj 0x4005 b := by
  rw [State.rejoined, State.emcyEvent, State.obj_queueEmcy _ dropped, State.obj_incObj_ne _ h, State.obj_emcyEnd _ _ dropped]

theorem State.rejoined_busIs (s : State) : s.rejoined.busIs 0 0 0 := by
  obtain ⟨transmit, receive, state⟩ := (s.setObj 0x4005 9 0).busCounts_busIs 0 0
  refine ⟨?_, ?_, ?_⟩ <;> rw [State.rejoined_obj _ (by decide) (by decide)]
  · exact transmit
  · exact receive
  · exact state.trans (State.obj_setObj_self ..)

theorem State.rejoined_counts (s : State) : s.rejoined.obj 0x4005 2 = (s.obj 0x4005 2 + 1) % 2 ^ 32 := by
  rw [State.rejoined, State.emcyEvent, State.obj_queueEmcy _ (by decide), State.obj_incObj_self, State.obj_emcyEnd _ _ (by decide),
    State.busCounts, State.obj_setObj_ne _ _ (by decide), State.obj_setObj_ne _ _ (by decide), State.obj_setObj_ne _ _ (by decide)]

theorem State.incObj_conditions (s : State) (i b : Nat) : (s.incObj i b).ctl.conditions = s.ctl.conditions := rfl

theorem State.emcyEvent_conditions (s : State) (code : Nat) (mfr : List Nat) : (s.emcyEvent code mfr).ctl.conditions = s.ctl.conditions :=
  State.queueEmcy_conditions ..

theorem State.rejoined_conditions (s : State) (m : List Nat) : (0x8120, m) ∉ s.rejoined.ctl.conditions := by
  rw [State.rejoined, State.emcyEvent_conditions, State.incObj_conditions]
  exact State.not_mem_conditions_emcyEnd _ _ _ rfl

/-- An overrun as it is counted and told. -/
def State.overrun (s : State) : State := (s.incObj 0x4005 3).emcyEvent 0x8110 []

theorem State.overrun_ctlOnly (s : State) : CtlOnly s s.overrun := (s.incObj_ctlOnly 0x4005 3).trans (State.emcyEvent_ctlOnly ..)

theorem State.overrun_counts (s : State) : s.overrun.obj 0x4005 3 = (s.obj 0x4005 3 + 1) % 2 ^ 32 := by
  rw [State.overrun, State.emcyEvent, State.obj_queueEmcy _ (by decide), State.obj_incObj_self]

theorem State.overrun_nmt (s : State) : s.overrun.ctl.nmt = s.ctl.nmt :=
  (State.emcyEvent_moves (State.incObj_moves (.rfl' 0x84000000000000 s) (by decide) ..) (.refl _) ..).frame.ctl.nmt (by decide)

theorem State.overrun_conditions (s : State) : s.overrun.ctl.conditions = s.ctl.conditions := by
  rw [State.overrun, State.emcyEvent_conditions, State.incObj_conditions]

/-- Whether the device takes frames on a COB-ID. -/
def State.takesCob (s : State) (cob : BitVec 29) : Prop :=
  cob = 0 ∨ (s.watched ≠ 0 ∧ cob.toNat = 0x700 + s.watched) ∨ cob.toNat = 0x200 + s.ctl.nodeId ∨ cob.toNat = 0x600 + s.ctl.nodeId

theorem State.takesCob_iff {cob : BitVec 29} : s.cobTaken cob.toNat = true ↔ s.takesCob cob := by
  simp [State.cobTaken, State.takesCob, BitVec.toNat_eq, or_assoc]

theorem exec_canFrameIgnored_passes {cob : BitVec 29} (h : s.fieldServed = false ∨ s.takesCob cob) :
    exec (.canFrameIgnored cob) s = .next s := by
  refine if_neg fun ⟨served, ignored⟩ => ?_
  rcases h with quiet | taken
  · exact Bool.false_ne_true (quiet.symm.trans served)
  · exact Bool.false_ne_true (ignored.symm.trans (State.takesCob_iff.2 taken))

theorem exec_canFrameIgnored_counts {cob : BitVec 29} (served : s.fieldServed = true) (h : ¬s.takesCob cob) :
    exec (.canFrameIgnored cob) s = .next (s.incObj 0x4005 1) :=
  if_pos ⟨served, Bool.eq_false_iff.2 (mt State.takesCob_iff.1 h)⟩

end

/-- Settles O51: each request of a session by its kind, each PDO by whether it is on, and the bus by what its objects read. -/
theorem fieldPortSessionsAndPdos : Obligations.FieldPortSessionsAndPdos := by
  refine ⟨fun client req s silent => ⟨exec_usdoRequest_silent silent req, exec_usdoTimeout_silent silent⟩, fun client s answers => ?sessions,
    fun data s => ?rpdo, fun n s => ⟨exec_tpdoSend_waits, exec_tpdoSend_goes⟩, fun s => ?emcy, fun tec rec enter s => ?passive, fun s => ?busOff,
    fun s => ?recovered, fun s => ?overrun, fun cob s => ?ignored⟩
  case sessions =>
    refine ⟨s.session?_endSession _, exec_usdoRequest_abort answers, exec_usdoRequest_invalid answers,
      fun bs last none => exec_usdoRequest_strayed answers none bs last,
      fun bs x h => ⟨_, exec_usdoRequest_segment answers h bs, State.session?_keepSegment h _, rfl, rfl, rfl⟩,
      fun bs x code t h writes => exec_usdoRequest_lastSegment answers h writes, fun full i n bs => ?full, fun room i n bs => ?room,
      exec_usdoTimeout_none, fun h => ?ends⟩
    case full =>
      have full : ¬s.sessionRoom client.toNat = true := by simp [full]
      rw [exec_usdoRequest_read answers, exec_usdoRequest_write answers, exec_usdoRequest_begin answers]
      exact ⟨if_neg full, if_neg full, if_neg full⟩
    case room =>
      rw [exec_usdoRequest_read answers, exec_usdoRequest_write answers, if_pos room, if_pos room]
      have opens := (exec_usdoRequest_begin answers i n bs).trans (if_pos room)
      refine ⟨fun code d t reads => congrArg _ (State.usdoOpen_read reads), fun code t writes => congrArg _ (State.usdoOpen_write writes),
        fun code t bad begins => ?_, fun t begins none free => ⟨t.openSession ⟨client.toNat, i.toNat, n.toNat, true, bs⟩, ?_, ?_⟩⟩
      · rw [opens, State.usdoOpen_begin begins, if_neg bad]
      · rw [opens, State.usdoOpen_begin begins, if_pos rfl]
      · exact ⟨State.session?_openSession none free, by rw [State.openSession_room free]; rfl, rfl⟩
    case ends =>
      obtain ⟨x, hx⟩ := Option.isSome_iff_exists.1 h
      exact exec_usdoTimeout_ends answers hx
  case rpdo =>
    intro on req a b
    refine ⟨exec_rpdo1_off, fun on => exec_rpdo1_length on, fun on length => ?_⟩
    rw [exec_rpdo1 on length]
    refine ⟨fun none taken => ?_, fun asks first second => ?_, fun refused => ⟨s.incObj 0x4005 5, ?_, State.obj_incObj_self .., rfl, ?_, ?_⟩⟩
    · rw [State.rpdoWrites_alone none, if_pos ⟨taken, rfl⟩]
    · rw [State.rpdoWrites_both asks, if_pos ⟨first, second⟩]
    · rw [exec_rpdo1 on length]
      refine if_neg fun ⟨first, second⟩ => ?_
      rcases refused with bad | ⟨asks, bad⟩
      · exact bad first
      · rw [State.rpdoWrites_both asks] at second
        exact bad second
    · exact State.obj_incObj_ne _ (by decide)
    · exact State.obj_incObj_ne _ (by decide)
  case emcy =>
    refine ⟨fun h => ?_, fun m ms h free => exec_emcySend_goes h free⟩
    cases queue : s.ctl.emcy with
    | nil => exact exec_emcySend_none queue
    | cons m ms => exact exec_emcySend_held queue (h.resolve_left (by simp [queue]))
  case passive =>
    refine ⟨exec_canErrorPassive_busOff, fun joined => ?_⟩
    cases enter with
    | false =>
      have bus := (s.busIs_setObj tec.toNat rec.toNat 0).emcyEnd 0x8120 fun _ => true
      exact ⟨_, exec_canErrorPassive_ends joined, bus.1, bus.2.1, bus.2.2, (State.emcyEnd_moves (.rfl' _ _) (.refl _) ..).frame.ctl.nmt (by decide),
        (State.emcyEnd_ctlOnly ..).str, fun _ m => State.not_mem_conditions_emcyEnd _ _ _ rfl, fun e => by cases e⟩
    | true =>
      by_cases passive : s.obj 0x4005 9 = 1
      · have bus := s.busCounts_busIs tec.toNat rec.toNat
        exact ⟨_, exec_canErrorPassive_again joined passive, bus.1, bus.2.1, bus.2.2.trans passive, rfl, rfl, Bool.noConfusion,
          fun _ active => absurd passive active⟩
      · have bus := (s.busIs_setObj tec.toNat rec.toNat 1).emcyRaise 0x8120 [tec.toNat, rec.toNat]
        exact ⟨_, exec_canErrorPassive_enters joined passive, bus.1, bus.2.1, bus.2.2,
          (State.emcyRaise_moves (.rfl' _ _) (.refl _) ..).frame.ctl.nmt (by decide), (State.emcyRaise_ctlOnly ..).str,
          Bool.noConfusion, fun _ _ => State.mem_conditions_emcyRaise ..⟩
  case busOff =>
    refine ⟨s.setObj 0x4005 9 2, rfl, ?_, rfl, rfl, rfl⟩
    rw [State.busOff, State.obj_setObj_self]
    rfl
  case recovered =>
    obtain ⟨transmit, receive, active⟩ := s.rejoined_busIs
    exact ⟨exec_busOffRecovered_none, fun off => ⟨_, exec_busOffRecovered_rejoins off, active, transmit, receive, s.rejoined_counts,
      s.rejoined_conditions, s.rejoined_ctlOnly.str, s.rejoined_moves.frame.ctl.nmt (by decide)⟩⟩
  case overrun => exact ⟨s.overrun, rfl, s.overrun_counts, s.overrun_ctlOnly.str, s.overrun_nmt, s.overrun_conditions⟩
  case ignored =>
    exact ⟨exec_canFrameIgnored_passes, fun served other => ⟨_, exec_canFrameIgnored_counts served other, State.obj_incObj_self .., rfl⟩⟩

end Sys2Proof.Machine
end

section
/-! SUPPORT. The other ports of the dictionary: mailboxes, peers and JTAG (R502, R505 to R507, R542, R543, R610). -/

namespace Sys2Proof.Machine

/-! ### Mailboxes (R543) -/

section
variable (s : State) (p : Nat)

@[simp] theorem State.mbx_modMbx (f : Mailbox → Mailbox) : ((s.modMbx p f).fn p).mbx = f (s.fn p).mbx :=
  congrArg Function.mbx (State.fn_setFn_self ..)

/-- A message sent, or left pending, leaves the mailbox. -/
@[simp] theorem State.mbx_sendMsix (v : Nat) : ((s.sendMsix p v).fn p).mbx = (s.fn p).mbx := by
  unfold State.sendMsix
  dsimp only
  split <;> rw [State.fn_setFn_self]

end

section
variable {s : State} {p : Part} {req : MbxReq}

/-- The mailbox once the host has cleared what it acknowledges. -/
def Mailbox.acked (m : Mailbox) (req : MbxReq) : Mailbox := if req.ack then { m with done := false, goIgnored := false } else m

/-- The mailbox with a request taken. -/
def Mailbox.asked (m : Mailbox) (req : MbxReq) : Mailbox :=
  { m with index := req.index.toNat, sub := req.sub.toNat, write := req.write, first := req.first, last := req.last
           offset := req.offset.toNat, len := req.len.toNat, busy := true, done := false
           data := if req.data = [] then m.data else spliceBytes m.data 0 (req.data.take 2048) }

theorem exec_go_closed (down : s.hostOk p.val = false) : exec (.go p req) s = .next s := if_pos (by simp [down])

section
variable (up : s.hostOk p.val = true)
include up

theorem exec_go_busy (busy : (s.fn p.val).mbx.busy = true) : exec (.go p req) s =
    .next ((s.modMbx p.val (·.acked req)).modMbx p.val fun m => { m with goIgnored := true }) :=
  (if_neg (by simp [up])).trans (if_pos busy)

theorem exec_go_takes (idle : (s.fn p.val).mbx.busy = false) : exec (.go p req) s =
    .next (((s.modMbx p.val (·.acked req)).modMbx p.val (·.asked req)).serveMail p) :=
  (if_neg (by simp [up])).trans (if_neg (by simp [idle]))

end

/-! ### A request that is served (R502, R505, R542) -/

variable {u : State}

theorem State.serveMail_waits (h : (u.fn p.val).mbx.busy = false ∨ u.gate (mailPort p) ≠ .served) : u.serveMail p = u :=
  if_pos (by simpa using h)

section
variable (busy : (u.fn p.val).mbx.busy = true) (served : u.gate (mailPort p) = .served)
include busy served

theorem State.serveMail_waits_not : ¬((!(u.fn p.val).mbx.busy) = true ∨ u.gate (mailPort p) ≠ .served) := by simp [busy, served]

theorem State.serveMail_write (writes : (u.fn p.val).mbx.write = true) : ((u.serveMail p).fn p.val).mbx =
    { ((u.mailSegment p).2.fn p.val).mbx with
      busy := false, done := true, abort := (u.mailSegment p).1, respLen := 0, total := 0, respLast := false } := by
  unfold State.serveMail
  dsimp only
  rw [if_neg (State.serveMail_waits_not busy served), if_pos writes]
  simp [writes]

theorem State.serveMail_read (reads : (u.fn p.val).mbx.write = false) {code : Nat} {bs : List Byte} {v : State}
    (h : u.readObject (mailPort p) (u.fn p.val).mbx.index (u.fn p.val).mbx.sub = some ((code, bs), v)) :
    let m := (u.fn p.val).mbx
    let seg := slice bs m.offset (Nat.min 2048 (bs.length - m.offset))
    let total := if code = 0 then bs.length else 0
    ((u.serveMail p).fn p.val).mbx = { (v.fn p.val).mbx with
      busy := false, done := true, abort := code, respLen := seg.length, total := total
      respLast := decide (code = 0 ∧ total ≤ m.offset + seg.length)
      data := if seg = [] then (v.fn p.val).mbx.data else spliceBytes (v.fn p.val).mbx.data 0 seg } := by
  unfold State.serveMail
  dsimp only
  rw [if_neg (State.serveMail_waits_not busy served), if_neg (by simp [reads]), h]
  simp [reads]

end

end

/-! ### Segments of a write (R543) -/

section
variable {u : State} {p : Part}

/-- A mailbox without a transfer. -/
def State.dropXfer (u : State) (p : Nat) : State := u.modMbx p fun x => { x with xfer := none, xferAbort := 0 }

/-- A mailbox with the bytes of a transfer so far. -/
def State.keepXfer (u : State) (p i n : Nat) (bs : List Byte) : State := u.modMbx p fun x => { x with xfer := some (i, n, bs), xferAbort := 0 }

/-- What a segment that continues the bytes before it does: the last writes all, another is kept. -/
def State.segmentTaken (u : State) (p : Part) (m : Mailbox) (bs : List Byte) : Nat × State :=
  if m.last then (u.dropXfer p.val).writeServed (mailPort p) m.index m.sub bs else (0, u.keepXfer p.val m.index m.sub bs)

theorem State.mailSegment_long (h : 2048 < (u.fn p.val).mbx.len) : u.mailSegment p = (0x05040001, u.dropXfer p.val) := if_pos h

section
variable (short : (u.fn p.val).mbx.len ≤ 2048)
include short

section
variable (first : (u.fn p.val).mbx.first = true)
include first

theorem State.mailSegment_first_offset (h : (u.fn p.val).mbx.offset ≠ 0) : u.mailSegment p = (0x05040001, u.dropXfer p.val) :=
  (if_neg (by omega)).trans ((if_pos first).trans (if_pos h))

theorem State.mailSegment_first (h : (u.fn p.val).mbx.offset = 0) {code : Nat} {v : State}
    (begins : (u.dropXfer p.val).beginWrite (mailPort p) (u.fn p.val).mbx.index (u.fn p.val).mbx.sub = some (code, v)) :
    u.mailSegment p = if code ≠ 0 then (code, v)
      else v.segmentTaken p (u.fn p.val).mbx (slice (u.fn p.val).mbx.data 0 (u.fn p.val).mbx.len) := by
  refine (if_neg (by omega)).trans ((if_pos first).trans ((if_neg (not_not_intro h)).trans ?_))
  dsimp only
  unfold State.dropXfer at begins
  rw [begins]
  rfl

end

variable (later : (u.fn p.val).mbx.first = false)
include later

theorem State.mailSegment_stray (none : (u.fn p.val).mbx.xfer = none) : u.mailSegment p =
    (if (u.fn p.val).mbx.xferAbort = 0 then 0x05040001 else (u.fn p.val).mbx.xferAbort, u.dropXfer p.val) := by
  refine (if_neg (by omega)).trans ((if_neg (by simp [later])).trans ?_)
  rw [none]
  rfl

theorem State.mailSegment_later {i n : Nat} {old : List Byte} (h : (u.fn p.val).mbx.xfer = some (i, n, old)) : u.mailSegment p =
    if i = (u.fn p.val).mbx.index ∧ n = (u.fn p.val).mbx.sub ∧ (u.fn p.val).mbx.offset = old.length then
      u.segmentTaken p (u.fn p.val).mbx (old ++ slice (u.fn p.val).mbx.data 0 (u.fn p.val).mbx.len)
    else (0x05040001, u.dropXfer p.val) := by
  refine (if_neg (by omega)).trans ((if_neg (by simp [later])).trans ?_)
  rw [h]
  rfl

end

theorem State.segmentTaken_last {m : Mailbox} (last : m.last = true) (bs : List Byte) :
    u.segmentTaken p m bs = (u.dropXfer p.val).writeServed (mailPort p) m.index m.sub bs := if_pos last

theorem State.segmentTaken_kept {m : Mailbox} (more : m.last = false) (bs : List Byte) :
    u.segmentTaken p m bs = (0, u.keepXfer p.val m.index m.sub bs) := if_neg (by simp [more])

end

/-! ### Peers (R506) -/

section
variable {s u : State} {port : PortNo} {f : Frame}

theorem exec_peerObjectRequest_down (down : s.ctl.coresDown.contains 0 = true) : exec (.peerObjectRequest port) s = .next s := if_pos down

/-- The answer to an access of a peer. -/
def peerAnswer (b : List Byte) (code len : Nat) (bs : List Byte) : Frame :=
  accessFrame (leBytes 1 0x11 ++ leBytes 1 0 ++ leBytes 2 (leAt b 2 2) ++ leBytes 1 (leAt b 4 1) ++ leBytes 1 len ++ slice b 6 2 ++ leBytes 4 code ++ bs)

/-- The device behind a port. -/
abbrev State.peerOf (u : State) (p : Nat) : DevNo := Fin.ofNat 8 (u.port p).peerDev

section
variable (up : s.ctl.coresDown.contains 0 = false) (h : s.takeFrame port.val (ofSub 0xE 0x10) = some (f, u))
include up h

theorem exec_peerObjectRequest_read (op : leAt f.payload 1 1 = 0) {code : Nat} {bs : List Byte} {v : State}
    (reads : u.readObject (.peer (u.peerOf port.val)) (leAt f.payload 2 2) (leAt f.payload 4 1) = some ((code, bs), v)) :
    exec (.peerObjectRequest port) s = .next (v.send port.val (peerAnswer f.payload code bs.length bs)) := by
  refine (exec_frame (c := .peerObjectRequest port) (if_neg (Bool.eq_false_iff.1 up)) h).trans ?_
  dsimp only
  rw [if_pos op, if_pos op, reads]
  rfl

theorem exec_peerObjectRequest_write (op : leAt f.payload 1 1 = 1) {code : Nat} {v : State}
    (writes : u.writeObject (.peer (u.peerOf port.val)) (leAt f.payload 2 2) (leAt f.payload 4 1) (slice f.payload 8 (leAt f.payload 5 1)) =
      some (code, v)) :
    exec (.peerObjectRequest port) s = .next (v.send port.val (peerAnswer f.payload code (leAt f.payload 5 1) [])) := by
  refine (exec_frame (c := .peerObjectRequest port) (if_neg (Bool.eq_false_iff.1 up)) h).trans ?_
  dsimp only
  have notRead : ¬leAt f.payload 1 1 = 0 := by omega
  rw [if_neg notRead, if_pos op, if_neg notRead, writes]
  rfl

theorem exec_peerObjectRequest_unknown (op : 1 < leAt f.payload 1 1) :
    exec (.peerObjectRequest port) s = .next (u.send port.val (peerAnswer f.payload 0x05040001 (leAt f.payload 5 1) [])) := by
  refine (exec_frame (c := .peerObjectRequest port) (if_neg (Bool.eq_false_iff.1 up)) h).trans ?_
  dsimp only
  have notRead : ¬leAt f.payload 1 1 = 0 := by omega
  rw [if_neg notRead, if_neg (by omega), if_neg notRead]
  rfl

end

section
variable (h : s.takeFrame port.val (ofSub 0xE 0x11) = some (f, u))
include h

theorem exec_peerObjectResponse_unknown (none : leAt f.payload 6 2 ∉ (u.port port.val).open_) :
    exec (.peerObjectResponse port) s = .next u := by
  refine (exec_frame (c := .peerObjectResponse port) rfl h).trans ?_
  exact congrArg _ (if_neg (by simpa using none))

/-- What the response to an own request leaves: the request has ended, and its answer is kept. -/
def State.peerAnswered (u : State) (p : Nat) (f : Frame) : State :=
  (u.setPort p { u.port p with open_ := (u.port p).open_.filter (· != leAt f.payload 6 2) }).answer (512 + p) (leAt f.payload 8 4)
    (slice f.payload 0xC (leAt f.payload 5 1))

theorem exec_peerObjectResponse_ends (named : leAt f.payload 6 2 ∈ (u.port port.val).open_) :
    exec (.peerObjectResponse port) s = .next (u.peerAnswered port.val f) := by
  refine (exec_frame (c := .peerObjectResponse port) rfl h).trans ?_
  exact congrArg _ (if_pos (by simpa using named))

end

end

/-! ### JTAG (R507, R510, R610) -/

section
variable {s : State} {index : BitVec 16} {sub : Byte} {data : List Byte}

/-- JTAG in use: the TAP controller has left its reset. -/
def State.tapUsed (s : State) : State := s.modCtl fun c => { c with tapReset := false }

theorem exec_debugAccess_silent (h : s.gate .debug = .silent) (wr : Bool) : exec (.debugAccess index sub wr data) s = .next s := if_pos h

variable (usable : s.gate .debug ≠ .silent)
include usable

theorem exec_debugAccess_write :
    exec (.debugAccess index sub true data) s = .next (s.tapUsed.portWrite .debug index.toNat sub.toNat data) :=
  (if_neg usable).trans (if_pos rfl)

theorem exec_debugAccess_read {code : Nat} {bs : List Byte} {v : State}
    (reads : s.tapUsed.readObject .debug index.toNat sub.toNat = some ((code, bs), v)) :
    exec (.debugAccess index sub false data) s = .next (v.answer (portKey .debug) code bs) := by
  refine (if_neg usable).trans ((if_neg (by decide)).trans ?_)
  rw [← State.tapUsed, reads]

end

theorem State.answer_get (s : State) (k code : Nat) (bs : List Byte) : Tbl.get? (s.answer k code bs).ctl.answers k = some (code, bs) :=
  Tbl.get?_put_self ..

/-- Settles O52: a mailbox is served through `State.serveMail` and `State.mailSegment`, a peer and JTAG by the port's read or write. -/
theorem otherPortsAreServed : Obligations.OtherPortsAreServed := by
  refine ⟨fun p req s => ?go, fun p u => ?serve, fun p u => ?segment, fun p s => ?timeout, fun port s => exec_peerObjectRequest_down,
    fun port s u f up taken => ?request, fun port s u f taken => ?response, fun index sub wr data s => ?debug, fun low s => ?probe⟩
  case go =>
    refine ⟨exec_go_closed, fun up busy => ⟨_, exec_go_busy up busy, rfl, rfl, ?_⟩,
      fun up idle => ⟨_, exec_go_takes up idle, _, rfl, rfl, rfl, ?_⟩⟩ <;> rw [State.mbx_modMbx, State.mbx_modMbx]
    · cases h : req.ack <;> simp [Mailbox.acked, h]
    · cases h : req.ack <;> simp [Mailbox.acked, Mailbox.asked, h]
  case serve =>
    exact ⟨State.serveMail_waits, fun busy served => ⟨fun code bs v reads h => State.serveMail_read busy served reads h,
      fun writes => State.serveMail_write busy served writes⟩⟩
  case segment =>
    refine ⟨State.mailSegment_long, fun short first => State.mailSegment_first_offset short first, fun short first start code v begins => ?_,
      fun short later none => State.mailSegment_stray short later none, fun short later i n old h => ?_⟩
    · rw [State.mailSegment_first short first start begins]
      refine ⟨fun bad => if_pos bad, fun good more => ?_, fun good last => ?_⟩ <;> rw [if_neg (not_not_intro good)]
      · exact State.segmentTaken_kept more _
      · exact State.segmentTaken_last last _
    · rw [State.mailSegment_later short later h]
      refine ⟨fun other => if_neg other, fun continues more => ?_, fun continues last => ?_⟩ <;> rw [if_pos continues]
      · exact State.segmentTaken_kept more _
      · exact State.segmentTaken_last last _
  case timeout =>
    refine ⟨fun none => if_neg (by simp [none]), fun open_ => ⟨_, if_pos (Option.isSome_iff_ne_none.2 open_), rfl, rfl, ?_⟩⟩
    exact State.mbx_modMbx ..
  case request =>
    exact ⟨fun op code bs v => exec_peerObjectRequest_read up taken op, fun op code v => exec_peerObjectRequest_write up taken op,
      exec_peerObjectRequest_unknown up taken⟩
  case response =>
    refine ⟨exec_peerObjectResponse_unknown taken, fun named => ⟨_, exec_peerObjectResponse_ends taken named, rfl, ?_, fun k hk => ?_,
      State.answer_get ..⟩⟩
    · exact congrArg XPort.open_ (State.port_setPort_self ..)
    · exact State.port_setPort_ne _ _ hk
  case debug =>
    refine ⟨fun silent => exec_debugAccess_silent silent wr, fun usable => ?_, fun usable => ?_⟩ <;> rintro rfl
    · exact exec_debugAccess_write usable
    · exact fun code bs v reads => ⟨_, exec_debugAccess_read usable reads, rfl, State.answer_get ..⟩
  case probe => exact ⟨fun same => if_pos same, fun moves => if_neg moves⟩

end Sys2Proof.Machine
end

section
/-! SUPPORT. Writes of objects: the checks in their order, and what the write of each object does (R394, R485, R502, R503, R510, R512,
R515, R530, R531, R564, R571, R604). -/

namespace Sys2Proof.Machine

/-! ### Values under keys -/

theorem Tbl.get?_filter {α : Type} (q : Nat → Bool) (t : Tbl α) (k : Nat) :
    Tbl.get? (t.filter fun x => q x.1) k = if q k = true then Tbl.get? t k else none := by
  induction t with
  | nil => simp
  | cons x t ih =>
    by_cases own : x.1 = k
    · subst own
      by_cases h : q x.1 = true <;> simp [h, ih, Tbl.get?_cons]
    · by_cases h : q x.1 = true <;> simp [h, ih, Tbl.get?_cons, own]

theorem objKey_parts (i : Nat) {k : Nat} (hk : k < 256) : objKey i k / 256 = i ∧ objKey i k % 256 = k := by
  unfold objKey
  omega

/-- A value once those of some subindices have been cleared: these are at their defaults. -/
theorem State.obj_of_filter {s t : State} {q : Nat → Bool} (h : t.ctl.od = s.ctl.od.filter fun x => q x.1) (i k : Nat) :
    t.obj i k = if q (objKey i k) = true then s.obj i k else objDefault i k := by
  unfold State.obj
  rw [h, Tbl.get?_filter]
  split <;> rfl

/-! ### The answer of a port (R502) -/

section
variable {s : State} {port : PortClass} {i k : Nat} {data : List Byte}

theorem State.portWrite_silent (h : s.gate port = .silent) : s.portWrite port i k data = s := by
  unfold State.portWrite State.writeObject
  rw [h]

theorem State.portWrite_refuse (h : s.gate port = .refuse) : s.portWrite port i k data = s.answer (portKey port) 0x08000022 [] := by
  unfold State.portWrite State.writeObject
  rw [h]

theorem State.portWrite_served (h : s.gate port = .served) : s.portWrite port i k data =
    (s.writeServed port i k data).2.answer (portKey port) (s.writeServed port i k data).1 [] := by
  unfold State.portWrite State.writeObject
  rw [h]

/-! ### The checks (R503) -/

theorem State.writeServed_denied {e : Nat} (h : s.checkAccess port true i k = .error e) : s.writeServed port i k data = (e, s) := by
  unfold State.writeServed
  rw [h]

section
variable {r : ObjRow}

theorem State.writeServed_checked (h : s.checkAccess port true i k = .ok r) : s.writeServed port i k data = s.writeChecked port r i k data := by
  unfold State.writeServed
  rw [h]

/-- The value that data stand for; that of a DOMAIN is read apart. -/
abbrev ObjRow.valueOf (r : ObjRow) (data : List Byte) : Nat := if r.len = 0 then 0 else leNat data

/-- Whether a value is in the range of the table and in that of the object's own rule. -/
abbrev State.inRange (s : State) (port : PortClass) (r : ObjRow) (i k v : Nat) : Prop := (r.rng.holds r.len v && s.ownRange port i k v) = true

theorem State.writeChecked_length (h : r.lengthOk data.length = false) : s.writeChecked port r i k data = (0x06070010, s) := if_pos (by simp [h])

variable (length : r.lengthOk data.length = true)
include length

theorem State.writeChecked_range (h : ¬s.inRange port r i k (r.valueOf data)) : s.writeChecked port r i k data = (0x06090030, s) :=
  (if_neg (by simp [length])).trans (if_pos (by rw [Bool.eq_false_iff.2 h]; rfl))

variable (range : s.inRange port r i k (r.valueOf data))
include range

theorem State.writeChecked_state (h : s.stateOk i k = false) : s.writeChecked port r i k data = (0x08000022, s) :=
  (if_neg (by simp [length])).trans ((if_neg (by rw [range]; decide)).trans (if_pos (by simp [h])))

variable (state : s.stateOk i k = true)
include state

theorem State.writeChecked_condition (h : s.ownCondition i k (r.valueOf data) = false) : s.writeChecked port r i k data = (0x08000020, s) :=
  (if_neg (by simp [length])).trans ((if_neg (by rw [range]; decide)).trans ((if_neg (by simp [state])).trans (if_pos (by simp [h]))))

theorem State.writeChecked_passes (h : s.ownCondition i k (r.valueOf data) = true) :
    s.writeChecked port r i k data = (s.holdValue i k).applyWrite port i k (r.valueOf data) data :=
  (if_neg (by simp [length])).trans ((if_neg (by rw [range]; decide)).trans ((if_neg (by simp [state])).trans (if_neg (by simp [h]))))

end

end

/-! ### What a write does (R394, R485, R510, R512, R515, R530, R564, R571, R604) -/

section
variable {s : State} {port : PortClass} {i k v : Nat} {data : List Byte}

theorem State.applyWrite_select (h : isSelect i k = true) : s.applyWrite port i k v data = (0, s.setSel port i k v) := if_pos h

theorem State.sel_setSel : (s.setSel port i k v).sel port i k = v := Tbl.getD_setD_self ..

section
variable (value : isSelect i k = false)
include value

theorem State.applyWrite_special {x : Nat × State} (h : s.writeSpecial i k v data = some x) : s.applyWrite port i k v data = x := by
  unfold State.applyWrite
  rw [value, h]
  rfl

theorem State.applyWrite_plain (h : s.writeSpecial i k v data = none) :
    s.applyWrite port i k v data = (0, if objPersists i k = true then s.persist i k v else s.setObj i k v) := by
  unfold State.applyWrite
  rw [value, h]
  rfl

end

theorem State.obj_persist : (s.persist i k v).obj i k = v := State.obj_setObj_self ..

theorem State.applyWrite_time : s.applyWrite port 0x2210 1 v data = s.writeTime v := State.applyWrite_special rfl rfl

theorem State.writeTime_follows (h : s.followsTrusted = true) : s.writeTime v = (0x08000022, s) := if_pos h

theorem State.writeTime_offset (h : s.followsTrusted = false) : s.writeTime v =
    (if s.offsetOk (s.tm.ns - ((v : Nat) : Rat)) then 0 else 0x08000022, s.takeOffset (s.tm.ns - ((v : Nat) : Rat)) .operator) := by
  refine (if_neg (by simp [h])).trans ?_
  split <;> rfl

theorem State.applyWrite_counterClear : s.applyWrite port 0x4020 0 v data = (0, s.clearCounters) := State.applyWrite_special rfl rfl

theorem State.obj_clearCounters (i : Nat) (hk : k < 256) :
    s.clearCounters.obj i k = if isErrorCounter i k = true then objDefault i k else s.obj i k := by
  rw [State.obj_of_filter (q := fun x => !isErrorCounter (x / 256) (x % 256)) rfl, (objKey_parts i hk).1, (objKey_parts i hk).2]
  cases isErrorCounter i k <;> rfl

theorem State.applyWrite_clear (p : Part) : s.applyWrite port (0x3000 + p.val) 0x10 v data = (0, s.clearAccount p.val) := by
  have hp := p.isLt
  refine State.applyWrite_special (by simp [isSelect]) ?_
  unfold State.writeSpecial
  iterate 7 rw [if_neg (by omega)]
  rw [if_pos (by omega), Nat.add_sub_cancel_left]

theorem State.obj_clearAccount (p i : Nat) (hk : k < 256) :
    (s.clearAccount p).obj i k = if i = 0x3000 + p ∧ 1 ≤ k ∧ k ≤ 0xF then objDefault i k else s.obj i k := by
  rw [State.obj_of_filter (q := fun x => !(x / 256 == 0x3000 + p && decide (1 ≤ x % 256 ∧ x % 256 ≤ 0xF))) rfl, (objKey_parts i hk).1,
    (objKey_parts i hk).2]
  have kept : (!(i == 0x3000 + p && decide (1 ≤ k ∧ k ≤ 0xF))) = true ↔ ¬(i = 0x3000 + p ∧ 1 ≤ k ∧ k ≤ 0xF) := by
    rw [Bool.not_eq_true', Bool.eq_false_iff, Ne, Bool.and_eq_true, beq_iff_eq, decide_eq_true_iff]
  rw [if_congr kept rfl rfl, ite_not]

theorem State.applyWrite_portEnable (x : PortNo) :
    s.applyWrite port (0x4100 + x.val) 1 v data = (0, (s.persist (0x4100 + x.val) 1 v).writePortEnable x.val (v == 1)) := by
  have hx := x.isLt
  refine State.applyWrite_special (by simp [isSelect]; omega) ?_
  unfold State.writeSpecial
  iterate 9 rw [if_neg (by omega)]
  rw [if_pos (by omega), Nat.add_sub_cancel_left]

theorem State.applyWrite_jtagOff : s.applyWrite port 0x5F01 1 0 data = (0, (s.setObj 0x5F01 1 0).modCtl fun c => { c with tapReset := true }) :=
  State.applyWrite_special rfl rfl

theorem State.applyWrite_jtagOn (h : v ≠ 0) : s.applyWrite port 0x5F01 1 v data = (0, s.setObj 0x5F01 1 v) :=
  State.applyWrite_plain rfl (by simp [State.writeSpecial, h])

theorem State.applyWrite_powerLimit : s.applyWrite port 0x2111 0 v data = (0, s.setObj 0x2111 0 v) := State.applyWrite_plain rfl rfl

end

/-! ### STAGE_IMAGE (R531) -/

section
variable {s t : State} {port : PortClass} {last : Bool} {data : List Byte}

/-- The segments of a port forgotten. -/
def State.dropStage (s : State) (k : Nat) : State := s.modCtl fun c => { c with stage := Tbl.erase c.stage k }

/-- The segments of a port so far. -/
def State.keepStage (s : State) (k : Nat) (bs : List Byte) : State := s.modCtl fun c => { c with stage := Tbl.put c.stage k bs }

theorem exec_stageImage_unanswered (h : s.beginWrite port 0x5000 8 = none) : exec (.stageImage port true last data) s = .next s := by
  change execStageImage port true last data s = _
  unfold execStageImage
  dsimp only
  rw [if_pos rfl, h]

theorem exec_stageImage_first {code : Nat} (h : s.beginWrite port 0x5000 8 = some (code, t)) : exec (.stageImage port true last data) s =
    if code ≠ 0 then .next ((t.dropStage (portKey port)).answer (portKey port) code [])
    else if last = true then .next ((t.dropStage (portKey port)).portWrite port 0x5000 8 data)
    else .next (t.keepStage (portKey port) data) := by
  change execStageImage port true last data s = _
  unfold execStageImage
  dsimp only
  rw [if_pos rfl, h]
  rfl

theorem exec_stageImage_ignored (h : Tbl.get? s.ctl.stage (portKey port) = none ∨ s.gate port = .silent) :
    exec (.stageImage port false last data) s = .next s := by
  change execStageImage port false last data s = _
  unfold execStageImage
  dsimp only
  rw [if_neg (by decide)]
  split
  · rfl
  · next bs found => exact if_pos (h.resolve_left (by simp [found]))

theorem exec_stageImage_later {bs : List Byte} (h : Tbl.get? s.ctl.stage (portKey port) = some bs) (answers : s.gate port ≠ .silent) :
    exec (.stageImage port false last data) s =
      if last = true then .next ((s.dropStage (portKey port)).portWrite port 0x5000 8 (bs ++ data))
      else .next (s.keepStage (portKey port) (bs ++ data)) := by
  change execStageImage port false last data s = _
  unfold execStageImage
  dsimp only
  rw [if_neg (by decide), h]
  exact if_neg answers

end

/-- Settles O53: the checks end a write with their code, and a write that passes them is `State.applyWrite` of its object. -/
theorem objectsAreWrittenByTheirRules : Obligations.ObjectsAreWrittenByTheirRules := by
  refine ⟨fun port s data => ⟨fun _ _ => rfl, rfl, rfl, rfl, fun _ => rfl, rfl, rfl, fun _ => rfl, rfl, rfl⟩, fun port s data i k => ?checks,
    fun port s data v => ?effects, fun port last data s => ?stage⟩
  case checks =>
    refine ⟨State.portWrite_silent, State.portWrite_refuse, State.portWrite_served, fun e => State.writeServed_denied, fun r access => ?_⟩
    rw [State.writeServed_checked access]
    exact ⟨State.writeChecked_length, State.writeChecked_range, State.writeChecked_state, State.writeChecked_condition, State.writeChecked_passes⟩
  case effects =>
    refine ⟨fun i k select => ?_, fun i k value plain => ?_, fun follows => ?_, fun leads => ?_, State.applyWrite_special rfl rfl, ?counters,
      fun p => ?account, State.applyWrite_special rfl rfl, ?jtag, State.applyWrite_portEnable, State.applyWrite_special rfl rfl, ?_⟩
    · rw [State.applyWrite_select select]
      exact ⟨rfl, State.sel_setSel⟩
    · rw [State.applyWrite_plain value plain]
      refine ⟨rfl, ?_⟩
      dsimp only
      split
      · exact State.obj_persist
      · exact State.obj_setObj_self ..
    · rw [State.applyWrite_time, State.writeTime_follows follows]
    · rw [State.applyWrite_time, State.writeTime_offset leads]
    case counters =>
      rw [State.applyWrite_counterClear]
      exact ⟨rfl, rfl, fun i k => State.obj_clearCounters i⟩
    case account =>
      rw [State.applyWrite_clear]
      exact ⟨rfl, fun i k => State.obj_clearAccount p.val i⟩
    case jtag =>
      have off : (s.applyWrite port 0x5F01 1 0 data).2.obj 0x5F01 1 = 0 := by
        rw [State.applyWrite_jtagOff]
        exact State.obj_setObj_self ..
      refine ⟨?_, ?_, by rw [State.applyWrite_jtagOff]; rfl⟩ <;> by_cases zero : v = 0
      · rw [zero, State.applyWrite_jtagOff]
      · rw [State.applyWrite_jtagOn zero]
      · rw [zero, off]
      · rw [State.applyWrite_jtagOn zero]
        exact State.obj_setObj_self ..
    · rw [State.applyWrite_powerLimit]
      exact ⟨rfl, rfl⟩
  case stage =>
    refine ⟨exec_stageImage_unanswered, fun code t begins => ⟨fun bad => ?_, fun good => ?_⟩, exec_stageImage_ignored, fun bs found answers => ?_⟩
    · exact (exec_stageImage_first begins).trans (if_pos bad)
    · refine (exec_stageImage_first begins).trans ((if_neg (not_not_intro good)).trans ?_)
      cases last <;> rfl
    · refine (exec_stageImage_later found answers).trans ?_
      cases last <;> rfl

end Sys2Proof.Machine
end

section
/-! SUPPORT. The debug window, the resets of functions and of the link, and the VFs that come and go (R20, R118, R129, R534, R535, R545 to
R547, R613). -/

namespace Sys2Proof.Machine

/-! ### The debug window (R129, R545) -/

section
variable (s : State) (row o : Nat)

theorem State.windowWrite_none : s.windowWrite row o [] = s := if_pos rfl

theorem State.windowRead_none : s.windowRead row o 0 = ([], s) := if_pos rfl

variable {s row} {bs : List Byte} {n : Nat}

theorem State.windowWrite_on (asked : bs ≠ []) (on : s.quarterOn (rowQuarter row) = true) : s.windowWrite row o bs = s.narrowWrite 8 row o bs [] :=
  (if_neg asked).trans (if_pos on)

theorem State.windowWrite_off (asked : bs ≠ []) (off : s.quarterOn (rowQuarter row) = false) : s.windowWrite row o bs = s.incObj 0x4001 7 :=
  (if_neg asked).trans (if_neg (by simp [off]))

/-- A read through the window returns the row as the port sees it and moves no row: what is found wrong with one is told. -/
theorem State.windowRead_on (asked : n ≠ 0) (on : s.quarterOn (rowQuarter row) = true) :
    (s.windowRead row o n).1 = s.narrowRead 8 row o n ∧ CtlOnly s (s.windowRead row o n).2 := by
  have counted := s.countReads_ctlOnly [row]
  unfold State.windowRead
  rw [if_neg asked, if_pos on]
  generalize s.countReads [row] = u at counted ⊢
  refine ⟨rfl, ?_⟩
  dsimp only
  split
  · exact counted
  · exact counted.trans (State.rowEvent_ctlOnly ..)

theorem State.windowRead_off (asked : n ≠ 0) (off : s.quarterOn (rowQuarter row) = false) : s.windowRead row o n =
    (List.replicate n 0, (s.setObj 0x4001 8 (setBit (s.obj 0x4001 8) 0 true)).incObj 0x4001 9) := (if_neg asked).trans (if_neg (by simp [off]))

end

section
variable {s : State} {off len : Nat} {data : List Byte}

/-- Whether an access of the window finds no scratchpad. -/
abbrev State.windowShut (s : State) (off : Nat) : Prop := s.obj 0x5F01 2 = 0 ∨ s.obj 0x2010 0 * 512 ≤ off

/-- The bytes of an access in its first row, and in the next one as far as the scratchpad reaches. -/
abbrev firstBytes (off len : Nat) : Nat := Nat.min (Nat.min len 64) (512 - off % 512)

abbrev State.moreBytes (s : State) (off len : Nat) : Nat :=
  if off + Nat.min len 64 ≤ s.obj 0x2010 0 * 512 then Nat.min len 64 - firstBytes off len else 0

theorem exec_bar4Access_closed (down : s.hostOk 0 = false) (wr : Bool) : exec (.bar4Access off wr len data) s = .next s := if_pos (by simp [down])

variable (up : s.hostOk 0 = true)
include up

section
variable (shut : s.windowShut off)
include shut

theorem exec_bar4Access_shut_write : exec (.bar4Access off true len data) s = .next s :=
  (if_neg (by simp [up])).trans ((if_pos shut).trans (if_pos rfl))

theorem exec_bar4Access_shut_read : exec (.bar4Access off false len data) s =
    .next { s with host := { s.host with windowData := List.replicate (Nat.min len 64) 0 } } :=
  (if_neg (by simp [up])).trans ((if_pos shut).trans (if_neg (by decide)))

end

variable (there : ¬s.windowShut off)
include there

theorem exec_bar4Access_write : exec (.bar4Access off true len data) s =
    .next ((s.windowWrite (off / 512) (off % 512) ((slice data 0 (Nat.min len 64)).take (firstBytes off len))).windowWrite (off / 512 + 1) 0
      (((slice data 0 (Nat.min len 64)).drop (firstBytes off len)).take (s.moreBytes off len))) :=
  (if_neg (by simp [up])).trans ((if_neg there).trans (if_pos rfl))

theorem exec_bar4Access_read : exec (.bar4Access off false len data) s =
    (let a := s.windowRead (off / 512) (off % 512) (firstBytes off len);
     let b := a.2.windowRead (off / 512 + 1) 0 (s.moreBytes off len);
     let short := List.replicate (Nat.min len 64 - firstBytes off len - s.moreBytes off len) 0;
     .next { b.2 with host := { b.2.host with windowData := a.1 ++ b.1 ++ short } }) :=
  (if_neg (by simp [up])).trans ((if_neg there).trans (if_neg (by decide)))

end

/-! ### The reset of a partition (R546) -/

section
variable (s : State) (p : Nat)

/-- A partition with its streams closed and its queued commands cancelled (steps 1 to 4 of R546). -/
def State.partEnded : State :=
  let s1 := (s.setFn p { s.fn p with resetting := true }).dropWaiting p
  let s2 := (s1.streamsOf p).foldl (fun t sid => t.closeSilently sid) s1
  (s2.rb.cmds.filter fun c => !c.desc.batch && c.desc.part == p && (c.phase == .queued || c.phase == .parked)).foldl (fun t c => t.cancelCmd c) s2

/-- Closing streams and cancelling commands leaves the controls of every function, and the link. -/
theorem State.partEnded_moves : Moves 0xa4cc0beea450ce (s.setFn p { s.fn p with resetting := true }) (s.partEnded p) := by
  unfold State.partEnded
  refine Moves.foldl _ (Moves.foldl _ (State.dropWaiting_moves (.rfl' _ _) (by decide) p) ?_) ?_
  · exact fun t sid ht => State.closeSilently_moves ht (.refl _) sid
  · exact fun t c ht => State.cancelCmd_moves ht (by decide) c

/-- A function whose registers are at their defaults: what outlasts a function-level reset stays. -/
def Function.afterReset (f : Function) : Function :=
  { present := f.present, resetting := true, payload := f.payload, aspmL1 := f.aspmL1, aerTimeout := f.aerTimeout }

theorem Function.afterReset_present (f : Function) : f.afterReset.present = f.present := rfl

theorem Function.afterReset_resetting (f : Function) : f.afterReset.resetting = true := rfl

theorem Function.present_congr {f g : Function} (h : f.controls = g.controls) : f.present = g.present := congrArg (·.present) h

theorem Function.resetting_congr {f g : Function} (h : f.controls = g.controls) : f.resetting = g.resetting := congrArg (·.resetting) h

theorem State.resetPart_fn_self : (s.resetPart p).fn p = (s.fn p).afterReset := State.fn_setFn_self ..

theorem State.resetPart_handles : ∀ e ∈ (s.resetPart p).st.handles, e.1 / 256 ≠ p := by
  have freed : (s.resetPart p).st.handles = (s.partEnded p).st.handles.filter fun h => h.1 / 256 != p := rfl
  rw [freed]
  exact fun e he => by simpa using (List.mem_filter.1 he).2

theorem State.resetPart_nodes : ∀ e ∈ (s.resetPart p).pg.nodes, e.2.part ≠ p := by
  have freed : (s.resetPart p).pg.nodes = (s.partEnded p).pg.nodes.filter fun n => n.2.part != p := rfl
  rw [freed]
  exact fun e he => by simpa using (List.mem_filter.1 he).2

variable {p} in
theorem State.resetPart_controls {k : Nat} (h : k ≠ p) : ((s.resetPart p).fn k).controls = (s.fn k).controls := by
  have others : (s.resetPart p).fn k = (s.partEnded p).fn k := (State.fn_setFn ..).trans (if_neg h)
  have ended : ((s.partEnded p).fn k).controls = _ := (s.partEnded_moves p).frame.host.ffnctl (by decide) k
  rw [others, ended]
  exact congrArg Function.controls ((State.fn_setFn ..).trans (if_neg h))

theorem State.resetPart_present (k : Nat) : ((s.resetPart p).fn k).present = (s.fn k).present := by
  by_cases h : k = p
  · rw [h, State.resetPart_fn_self, Function.afterReset_present]
  · exact Function.present_congr (s.resetPart_controls h)

end

theorem exec_flr_none {s : State} {p : Part} (h : p.val = 0 ∨ s.hostOk p.val = false) : exec (.flr p) s = .next s := if_pos (by simpa using h)

theorem exec_flr_resets {s : State} {p : Part} (vf : p.val ≠ 0) (up : s.hostOk p.val = true) : exec (.flr p) s = .next (s.resetPart p.val) :=
  if_neg (by simp [vf, up])

/-! ### Streams that a reset closes and frees (R20, R546) -/

section
variable (s : State) (sid : Nat)

/-- A stream closed without a record. -/
def Stream.shut (x : Stream) : Stream := { x with state := .closed, slot := none, exports := [], eg := { x.eg with ledger := none } }

theorem State.stream?_closeSilently : (s.closeSilently sid).stream? sid =
    ((((s.finishSilently sid).abandonMig sid).discardChunks sid).stream? sid).map Stream.shut :=
  ((State.endSeqs_moves (.rfl' _ _) (.refl _) sid).stream? (by decide) sid).trans (State.stream?_modStream_self ..)

theorem State.stream?_freeStream (q : Nat) : (s.freeStream sid).stream? q = if q = sid then none else s.stream? q := by
  have ended : (s.endSeqs sid).stream? q = s.stream? q := (State.endSeqs_moves (.rfl' _ s) (.refl _) sid).stream? (by decide) q
  split
  · next h => rw [h]; exact Tbl.get?_erase_self ..
  · next h => exact (Tbl.get?_erase_ne _ h).trans ended

variable {s} {q : Nat} {l : List Nat}

theorem State.stream?_freeStreams_mem (h : q ∈ l) : (l.foldl (fun t sid => t.freeStream sid) s).stream? q = none :=
  foldl_brings (P := fun t : State => t.stream? q = none) h (fun t => by rw [State.stream?_freeStream, if_pos rfl])
    (fun t sid ht => by rw [State.stream?_freeStream, ht, ite_self]) s

theorem State.stream?_freeStreams_not_mem (h : q ∉ l) : (l.foldl (fun t sid => t.freeStream sid) s).stream? q = s.stream? q :=
  List.foldlRecOn (motive := fun t : State => t.stream? q = s.stream? q) l _ rfl fun t ht sid hsid => by
    rw [State.stream?_freeStream, if_neg (ne_of_mem_of_not_mem hsid h).symm, ht]

end

section
variable {s : State} {p : Part}

/-- A partition whose streams are FREE. -/
def State.partFreed (s : State) (p : Nat) : State := (s.streamsOf p).foldl (fun t sid => t.freeStream sid) s

theorem exec_flrDone_none (h : (s.fn p.val).resetting = false) : exec (.flrDone p) s = .next s := if_neg (by simp [h])

theorem exec_flrDone_ends (h : (s.fn p.val).resetting = true) :
    exec (.flrDone p) s = .next ((s.partFreed p.val).setFn p.val { (s.partFreed p.val).fn p.val with resetting := false }) := if_pos h

end

/-! ### VFs that come and go (R535) -/

section
variable (s : State)

/-- A VF that appears with its registers at their defaults, unless it is there. -/
def Function.appear (f : Function) : Function := if f.present = true then f else { present := true, resetting := f.resetting }

/-- VF `i + 1` appears. -/
def State.addVf (s : State) (i : Nat) : State :=
  if (s.fn (i + 1)).present then s else s.setFn (i + 1) { present := true, resetting := (s.fn (i + 1)).resetting }

theorem State.fn_addVf (i k : Nat) : (s.addVf i).fn k = if k = i + 1 then (s.fn k).appear else s.fn k := by
  unfold State.addVf Function.appear
  by_cases own : k = i + 1
  · subst own
    rw [if_pos rfl]
    split
    · rfl
    · exact State.fn_setFn_self ..
  · rw [if_neg own]
    split
    · rfl
    · exact (State.fn_setFn ..).trans (if_neg own)

theorem State.addVf_st (i : Nat) : (s.addVf i).st = s.st := by
  unfold State.addVf
  split <;> rfl

theorem State.fn_addVfs (num k : Nat) :
    ((List.range num).foldl State.addVf s).fn k = if 1 ≤ k ∧ k ≤ num then (s.fn k).appear else s.fn k := by
  induction num with
  | zero => exact (if_neg (by omega)).symm
  | succ num ih =>
    rw [List.range_succ, List.foldl_append, List.foldl_cons, List.foldl_nil, State.fn_addVf, ih]
    split
    · next own => rw [if_neg (by omega), if_pos (by omega)]
    · next other => exact if_congr (by omega) rfl rfl

theorem State.addVfs_st (l : List Nat) : (l.foldl State.addVf s).st = s.st :=
  List.foldlRecOn (motive := fun t : State => t.st = s.st) l _ rfl fun t ht i _ => (t.addVf_st i).trans ht

/-- A VF taken away, with its partition in reset. -/
def State.dropVf (s : State) (p : Nat) : State := (s.resetPart p).setFn p { present := false, resetting := true }

theorem State.dropVf_fn_self (p : Nat) : (s.dropVf p).fn p = { present := false, resetting := true } := State.fn_setFn_self ..

variable {p k : Nat} {l : List Nat}

theorem State.dropVf_controls (h : k ≠ p) : ((s.dropVf p).fn k).controls = (s.fn k).controls :=
  (congrArg Function.controls ((State.fn_setFn ..).trans (if_neg h))).trans (s.resetPart_controls h)

theorem State.dropVfs_controls_not_mem (h : k ∉ l) : ((l.foldl State.dropVf s).fn k).controls = (s.fn k).controls :=
  List.foldlRecOn (motive := fun t : State => (t.fn k).controls = (s.fn k).controls) l _ rfl fun t ht _ hp =>
    (t.dropVf_controls (ne_of_mem_of_not_mem hp h).symm).trans ht

theorem State.dropVfs_controls_mem (h : k ∈ l) :
    ((l.foldl State.dropVf s).fn k).controls = { present := false, resetting := true } := by
  have brings : ∀ t : State, ((t.dropVf k).fn k).controls = { present := false, resetting := true } := fun t => by rw [State.dropVf_fn_self]; rfl
  refine foldl_brings (P := fun t : State => (t.fn k).controls = { present := false, resetting := true }) h brings (fun t p ht => ?_) s
  by_cases own : k = p
  · exact own ▸ brings t
  · exact (t.dropVf_controls own).trans ht

/-- The VFs above a number that are there. -/
def State.vfsAbove (s : State) (num : Nat) : List Nat := (List.range 16).filter fun p => num < p && (s.fn p).present

theorem State.mem_vfsAbove {num : Nat} : k ∈ s.vfsAbove num ↔ k < 16 ∧ num < k ∧ (s.fn k).present = true := by
  simp [State.vfsAbove]

/-- Taking VFs away sets NumVFs and leaves the rest of the link. -/
theorem State.dropVfs_eq (num : Nat) : ∃ t : State, Moves 0xa4cc3feea450de s t ∧ t = (s.vfsAbove num).foldl State.dropVf s ∧
    s.dropVfs num = { t with host := { t.host with numVfs := num } } := by
  refine ⟨_, Moves.foldl _ (.rfl' _ s) fun t p ht => ?_, rfl, rfl⟩
  exact State.setFn_moves (State.resetPart_moves ht (.refl _) p) (k := 0x3c00000000) (by decide) p _

theorem State.dropVfs_above {num : Nat} (above : num < k) (hk : k < 16) :
    ((s.dropVfs num).fn k).present = false ∧ ((s.fn k).present = true → ((s.dropVfs num).fn k).resetting = true) := by
  by_cases there : (s.fn k).present = true
  · have gone := s.dropVfs_controls_mem (s.mem_vfsAbove.2 ⟨hk, above, there⟩)
    exact ⟨Function.present_congr (g := { present := false, resetting := true }) gone,
      fun _ => Function.resetting_congr (g := { present := false, resetting := true }) gone⟩
  · have same := s.dropVfs_controls_not_mem fun h => there ((s.mem_vfsAbove (num := num)).1 h).2.2
    exact ⟨(Function.present_congr same).trans (Bool.eq_false_iff.2 there), fun h => absurd h there⟩

theorem State.dropVfs_below {num : Nat} (h : k ≤ num) : ((s.dropVfs num).fn k).controls = (s.fn k).controls :=
  s.dropVfs_controls_not_mem fun gone => absurd (s.mem_vfsAbove.1 gone).2.1 (by omega)

end

section
variable {s : State} {num : Nat}

theorem exec_vfEnableSet_none (h : s.hostOk 0 = false ∨ 15 < num ∨ num < s.host.numVfs) : exec (.vfEnableSet num) s = .next s :=
  if_pos (by simpa using h)

theorem exec_vfEnableSet_appear (up : s.hostOk 0 = true) (most : num ≤ 15) (least : s.host.numVfs ≤ num) :
    exec (.vfEnableSet num) s = .next (let t := (List.range num).foldl State.addVf s; { t with host := { t.host with numVfs := num } }) :=
  if_neg (by simp [up]; omega)

theorem exec_vfEnableClear_none (h : s.hostOk 0 = false ∨ s.host.numVfs < num) : exec (.vfEnableClear num) s = .next s :=
  if_pos (by simpa using h)

theorem exec_vfEnableClear_drops (up : s.hostOk 0 = true) (h : num ≤ s.host.numVfs) : exec (.vfEnableClear num) s = .next (s.dropVfs num) :=
  if_neg (by simp [up]; omega)

end

/-! ### Resets of the whole interface (R547, R613) -/

section
variable (s : State)

/-- Every partition that is not in reset yet is reset. -/
theorem State.resetAllParts_eq : s.resetAllParts =
    ((List.range 16).filter fun p => !((s.dropVfs 0).fn p).resetting).foldl State.resetPart (s.dropVfs 0) := rfl

theorem State.resetAllParts_resetting {k : Nat} (hk : k < 16) : (s.resetAllParts.fn k).resetting = true := by
  rw [State.resetAllParts_eq]
  have stays : ∀ (t : State) p, (t.fn k).resetting = true → ((t.resetPart p).fn k).resetting = true := fun t p ht => by
    by_cases own : k = p
    · rw [← own, State.resetPart_fn_self, Function.afterReset_resetting]
    · exact (Function.resetting_congr (t.resetPart_controls own)).trans ht
  by_cases begun : ((s.dropVfs 0).fn k).resetting = true
  · exact List.foldlRecOn (motive := fun t : State => (t.fn k).resetting = true) _ _ begun fun t ht p _ => stays t p ht
  · refine foldl_brings (P := fun t : State => (t.fn k).resetting = true) (x := k) ?_ (fun t => ?_) stays _
    · simp [hk, begun]
    · rw [State.resetPart_fn_self, Function.afterReset_resetting]

theorem State.resetAllParts_present {k : Nat} (vf : 1 ≤ k) (hk : k < 16) : (s.resetAllParts.fn k).present = false := by
  rw [State.resetAllParts_eq]
  exact List.foldlRecOn (motive := fun t : State => (t.fn k).present = false) _ _ (s.dropVfs_above vf hk).1 fun t ht p _ =>
    (t.resetPart_present p k).trans ht

/-- Resetting every partition leaves the link, but for NumVFs. -/
theorem State.resetAllParts_link : s.resetAllParts.host.numVfs = 0 ∧ s.resetAllParts.host.linkUp = s.host.linkUp ∧
    s.resetAllParts.host.perstReleased = s.host.perstReleased := by
  obtain ⟨t, moves, -, eq⟩ := s.dropVfs_eq 0
  have resets : Moves 0xa4cc3feea450de (s.dropVfs 0) s.resetAllParts := by
    rw [State.resetAllParts_eq]
    exact Moves.foldl _ (.rfl' _ _) fun t p ht => State.resetPart_moves ht (.refl _) p
  have host := resets.frame.host
  rw [eq] at host
  exact ⟨host.numVfs (by decide), (host.linkUp (by decide)).trans (moves.frame.host.linkUp (by decide)),
    (host.perstReleased (by decide)).trans (moves.frame.host.perstReleased (by decide))⟩

/-- The link down: Max Payload Size and ASPM L1 of the PF at their defaults, PERST_N as it stands after the cause. -/
def State.linkDown (s : State) (cause : Nat) : State :=
  let t := s.setFn 0 { s.fn 0 with payload := 0, aspmL1 := false }
  { t with host := { t.host with linkUp := false, perstReleased := t.host.perstReleased && cause != 2 } }

/-- The domain of the link, when ON, trains again. -/
def State.retrain (s : State) : State := if s.domain 90 = 2 then s.setDomain 90 5 else s

theorem State.retrain_host : s.retrain.host = s.host := by
  unfold State.retrain
  split <;> rfl

theorem State.fn_retrain (k : Nat) : s.retrain.fn k = s.fn k := by
  unfold State.fn
  rw [State.retrain_host]

theorem State.retrain_domain : s.retrain.domain 90 = if s.domain 90 = 2 then 5 else s.domain 90 := by
  unfold State.retrain
  split
  · exact State.domain_setDomain_self ..
  · rfl

theorem State.fn_linkDown (cause k : Nat) : (s.linkDown cause).fn k = if k = 0 then { s.fn 0 with payload := 0, aspmL1 := false } else s.fn k :=
  State.fn_setFn ..

/-- The loss of the link ends no reset and brings no VF back. -/
theorem State.linkDown_keeps (cause k : Nat) : ((s.linkDown cause).fn k).present = (s.fn k).present ∧
    ((s.linkDown cause).fn k).resetting = (s.fn k).resetting := by
  rw [State.fn_linkDown]
  split
  · next h => rw [h]; exact ⟨rfl, rfl⟩
  · exact ⟨rfl, rfl⟩

theorem exec_hotReset_flr : exec (.hotReset 0) s = .next s.resetAllParts := rfl

theorem exec_hotReset_link {cause : Nat} (h : cause ≠ 0) : exec (.hotReset cause) s = .next (s.resetAllParts.linkDown cause).retrain := if_neg h

end

section
variable {s : State} {rate : LinkRate} {width : LinkWidth}

theorem exec_pcieLinkUp_none (h : s.domain 90 = 0 ∨ s.host.perstReleased = false) : exec (.pcieLinkUp rate width) s = .next s :=
  if_neg (by simpa [Classical.or_iff_not_imp_left] using h)

theorem exec_pcieLinkUp_up (on : s.domain 90 ≠ 0) (released : s.host.perstReleased = true) : exec (.pcieLinkUp rate width) s =
    .next (({ s with host := { s.host with linkUp := true, linkRate := rate, linkWidth := width } } : State).setDomain 90 2) :=
  if_pos ⟨on, released⟩

end

/-- Settles O55: a reset of a partition is `State.resetPart`, which leaves the controls of the other functions; VFs and the link are reset
over it. -/
theorem functionsResetAndTheDebugWindow : Obligations.FunctionsResetAndTheDebugWindow := by
  refine ⟨fun off wr len data s => ?window, fun row o n bs s => ?rows, fun p s => ?flr, fun sid s st h => ?close, fun num s => ?vfs,
    fun cause s => ?hot, fun rate width s => ?link⟩
  case window =>
    exact ⟨fun down => exec_bar4Access_closed down wr, fun up shut => ⟨exec_bar4Access_shut_write up shut, exec_bar4Access_shut_read up shut⟩,
      fun up there => exec_bar4Access_write up there, fun up there => ⟨_, exec_bar4Access_read up there, rfl, rfl, rfl⟩⟩
  case rows =>
    refine ⟨s.windowWrite_none row o, s.windowRead_none row o, State.windowWrite_on o, State.windowWrite_off o, fun asked on => ?_,
      fun asked off => ?_⟩
    · obtain ⟨bytes, told⟩ := State.windowRead_on o asked on
      exact ⟨bytes, congrArg Store.sp told.st⟩
    · rw [State.windowRead_off o asked off]
      exact ⟨rfl, (State.obj_incObj_self ..).trans (by rw [State.obj_setObj_ne _ _ (by decide)])⟩
  case flr =>
    refine ⟨exec_flr_none, fun vf up => ⟨_, exec_flr_resets vf up, rfl, s.resetPart_fn_self _, fun q hq => s.resetPart_controls hq,
      s.resetPart_handles _, s.resetPart_nodes _⟩, exec_flrDone_none, fun resets => ⟨_, exec_flrDone_ends resets, ?_, fun sid own => ?_,
      fun sid other => ?_⟩⟩
    · rw [State.fn_setFn_self]
    · exact State.stream?_freeStreams_mem own
    · exact State.stream?_freeStreams_not_mem other
  case close =>
    rw [State.stream?_closeSilently] at h
    obtain ⟨x, -, rfl⟩ := Option.map_eq_some_iff.1 h
    exact ⟨rfl, rfl, rfl⟩
  case vfs =>
    refine ⟨exec_vfEnableSet_none, fun up most least => ⟨_, exec_vfEnableSet_appear up most least, rfl, s.addVfs_st _, fun k vf up => ?_,
      fun k other => ?_⟩, exec_vfEnableClear_none, fun up h => ⟨_, exec_vfEnableClear_drops up h, ?_, fun k above hk => s.dropVfs_above above hk,
      fun k below => s.dropVfs_below below⟩⟩
    · exact (s.fn_addVfs num k).trans (if_pos ⟨vf, up⟩)
    · exact (s.fn_addVfs num k).trans (if_neg (by omega))
    · rfl
  case hot =>
    obtain ⟨vfs, link, perst⟩ := s.resetAllParts_link
    by_cases flr : cause = 0
    · subst flr
      exact ⟨_, exec_hotReset_flr s, vfs, fun k => s.resetAllParts_present, fun k => s.resetAllParts_resetting, fun _ => ⟨link, perst⟩,
        fun h => absurd rfl h⟩
    · refine ⟨_, exec_hotReset_link s flr, ?_, fun k vf hk => ?_, fun k hk => ?_, fun h => absurd h flr, fun _ => ⟨?_, ?_, ?_, ?_⟩⟩
      · rw [State.retrain_host]; exact vfs
      · rw [State.fn_retrain, (State.linkDown_keeps ..).1]; exact s.resetAllParts_present vf hk
      · rw [State.fn_retrain, (State.linkDown_keeps ..).2]; exact s.resetAllParts_resetting hk
      · rw [State.retrain_host]; rfl
      · rw [State.fn_retrain, State.fn_linkDown, if_pos rfl]
      · rw [State.retrain_host, ← perst]; rfl
      · exact State.retrain_domain _
  case link =>
    refine ⟨rfl, exec_pcieLinkUp_none, fun on released => ⟨_, exec_pcieLinkUp_up on released, rfl, State.domain_setDomain_self .., fun d hd => ?_⟩⟩
    rw [State.domain_setDomain, if_neg hd]
    rfl

end Sys2Proof.Machine
end
